-- ==== Sys2Proof/Word.lean ====
section
/-! DEFINITION. The word types of the block and their plainest arithmetic. -/
namespace Sys2Proof

/-- A byte of memory, of a flit or of a descriptor. -/
abbrev Byte := BitVec 8
/-- A general register or a 64-bit field. -/
abbrev Word := BitVec 64

/-- `2^32`, the modulus of the free-running counts (R328, R364). -/
def two32 : Nat := 4294967296

/-- The largest value of a saturating 32-bit count. -/
def max32 : Nat := 4294967295

/-- One more, saturating at `max32` (R86, R93 and the other saturating 32-bit counts). -/
def satInc (n : Nat) : Nat := min (n + 1) max32
/-- A 64-bit count that saturates. -/
def sat64 (n : Nat) : Nat := min n (2 ^ 64 - 1)

/-- `n` plus `k`, saturating at `max32`. -/
def satAdd (n k : Nat) : Nat := min (n + k) max32

/-- Ceiling division of naturals; 0 where the divisor is 0. -/
def ceilDiv (a b : Nat) : Nat := if b = 0 then 0 else (a + b - 1) / b

/-- Round `a` up to a multiple of `b`. -/
def roundUp (a b : Nat) : Nat := ceilDiv a b * b

end Sys2Proof
end

