-- ==== Sys2Proof/Syntax.lean ====
section
/-! DEFINITION. The commands of the block: one constructor for each row of spec/opcode_table.json, with its operands.
The table gives the rows no operands, so they are read from the rule each row names: who is concerned (bay, thread, port,
function ...), the fields an encoding carries, and what the block samples from outside at that step (a descriptor read
from host memory, temperatures, a received flit). -/
namespace Sys2Proof

/-- Where a thread instruction issues, and its guard (R128): PG, bits [25:23], and PN, bit [22]. -/
structure Issue where
  bay : Fin 80
  thread : Fin 128
  pg : BitVec 3
  pn : BitVec 1
deriving DecidableEq, Repr

/-- The straps of Table 19.3, as sampled (R470). -/
structure Straps where
  cxlBif : BitVec 2
  smbAddr : BitVec 2
  tapEn : Bool
deriving DecidableEq, Repr

/-- Raw on-die estimator readings that a recalibration finds not yet taken, in 0.1 µJ: of each bay since its task started or the recalibration
before, and of each rail since the budget window started or the recalibration before, in all and for the part that no work unit caused
(R101 to R104). -/
structure Readings where
  bays : List Nat
  rails : List Nat
  base : List Nat
  /-- the module power that telemetry reports at the recalibration, in W -/
  moduleW : Nat
deriving DecidableEq, Repr

/-- A step of a request: a step number, or the context (R15, Table 13.5). -/
inductive StepIx where
  | context
  | step (n : Nat)
deriving DecidableEq, Repr

/-- A work unit: one stage of one request for one wave and one step (Table 1.1, R16). -/
structure WuKey where
  asn : Nat
  stage : Nat
  wave : Nat
  step : StepIx
deriving DecidableEq, Repr

/-- How a hub mover's host transfer or memory access ended (R369, R248). -/
inductive JobResult where
  | ok
  /-- completion timeout, Unsupported Request or Completer Abort -/
  | readFault
  /-- a poisoned completion -/
  | readPoison
  /-- Bus Master Enable found clear when an output write is due -/
  | busMasterClear
  /-- poison or an uncorrectable error in device memory -/
  | memPoison
  /-- an absent T2 device -/
  | absentT2
deriving DecidableEq, Repr

/-- The two windows of R362. -/
inductive Window where
  | doorbell
  | csr
deriving DecidableEq, Repr

/-- One reading of a Type 3 device at enumeration (R385). -/
structure CxlFound where
  port : Fin 4
  switchPort : Option (BitVec 8)
  /-- behind a second switch level -/
  deep : Bool
  memCapable : Bool
  cacheCapable : Bool
  singleLogical : Bool
  memActive : Bool
  capacityBytes : Nat
deriving DecidableEq, Repr

/-- How a CXL port trained (R384). -/
structure CxlTrain where
  trained : Bool
  rate32 : Bool
  width : Nat
deriving DecidableEq, Repr

/-- The transport header of Table 13.2 (R334); MTYPE is the command's own. -/
structure Header where
  src : BitVec 8
  dst : BitVec 8
  otag : BitVec 4
  attempt : BitVec 2
  tseq : BitVec 32
  cack : BitVec 32
  oseq : BitVec 16
  status : BitVec 8
  epoch : BitVec 32
  len : BitVec 32
  arg : BitVec 64
deriving DecidableEq, Repr

/-- HELLO (Table 13.4, subtype 0x01). -/
structure Hello where
  port : BitVec 4
  node : BitVec 8
  isolated : Bool
  timeDegraded : Bool
  timeMasterOk : Bool
  proto : BitVec 8
  epoch : BitVec 32
  chipNonce : BitVec 64
  fabricId : BitVec 64
  lsaSeq : BitVec 32
  claimEpoch : BitVec 32
  time : BitVec 64
deriving DecidableEq, Repr

/-- One adjacency of an LSA (Table 13.4). -/
structure LsaAdj where
  localPort : BitVec 4
  peerPort : BitVec 4
  peer : BitVec 8
  cost : BitVec 16
deriving DecidableEq, Repr

/-- LSA (Table 13.4, subtype 0x02). Whether the claim is static travels with no field of the table; the receiver reads it
from `isStatic` (R322 compares static with automatic claimants; see the assumption log). -/
structure Lsa where
  origin : BitVec 8
  seq : BitVec 32
  chipNonce : BitVec 64
  claimEpoch : BitVec 32
  isStatic : Bool
  adjs : List LsaAdj
deriving DecidableEq, Repr

/-- EPOCH (Table 13.4, subtype 0x03); `members` is the list of the bitmap's set bits. -/
structure EpochRec where
  origin : BitVec 8
  epoch : BitVec 32
  members : List (BitVec 8)
  time : BitVec 64
deriving DecidableEq, Repr

/-- One program of a CAPS record. -/
structure CapsEntry where
  program : BitVec 8
  verified : Bool
  digest : BitVec 128
deriving DecidableEq, Repr

/-- CAPS (Table 13.4, subtype 0x04). -/
structure Caps where
  origin : BitVec 8
  seq : BitVec 32
  entries : List CapsEntry
deriving DecidableEq, Repr

/-- LEAVE (Table 13.4, subtype 0x05). -/
structure LeaveRec where
  origin : BitVec 8
  reason : BitVec 8
  epoch : BitVec 32
deriving DecidableEq, Repr

/-- The formation record of R348. -/
structure Formation where
  epoch : BitVec 32
  program : BitVec 8
  nodes : List (BitVec 8)
deriving DecidableEq, Repr

/-- A demand item of Table 10.8, for one node, before the rounding of R252. -/
inductive ItemKind where
  | scratch (stage : Nat) (tier : Nat)
  | kvSpace (stage : Nat)
  | inputStaging
  | outputStaging
deriving DecidableEq, Repr

structure DemandItem where
  kind : ItemKind
  bytes : Nat
deriving DecidableEq, Repr

/-- The body of TOKEN_REQ (Table 13.4, subtype 0x10). -/
structure TokenReq where
  home : BitVec 8
  asn : BitVec 64
  tenant : Fin 16
  epoch : BitVec 32
  formation : Formation
  /-- the request's descriptor, which the stage node needs to run its work units (the model's own, log entry 12) -/
  desc : List Byte
  items : List DemandItem
  /-- gallery slots: the class and the count G, where the node holds the cell stage (Table 10.8) -/
  gallery : Option (Nat × Nat)
deriving DecidableEq, Repr

/-- The push header of Table 13.5. -/
structure PushHeader where
  asn : BitVec 64
  home : BitVec 8
  coded : Bool
  last : Bool
  stage : BitVec 16
  step : BitVec 32
  wave : BitVec 16
  offset : BitVec 32
  total : BitVec 32
deriving DecidableEq, Repr

/-- The body of LEASE (Table 13.3): operation, kind, key and LEASE_EPOCH (R343). -/
inductive LeaseKey where
  | stream (tenant : Fin 16) (id : BitVec 24)
  | token (asn : BitVec 64)
  | barrierSlot (asn : BitVec 64) (slot : Fin 16)
deriving DecidableEq, Repr

inductive LeaseOp where
  | acquire
  | release
  | use
deriving DecidableEq, Repr

/-- What a configuration or MSI-X control write sets (R361, R371, R372). -/
inductive ConfigWrite where
  | busMaster (f : Fin 16) (on : Bool)
  | numVfs (n : Fin 16)
  | msixMask (f : Fin 16) (vector : Nat) (masked : Bool)
deriving DecidableEq, Repr

/-- The TAP instructions of R470. -/
inductive TapInstr where
  | idcode
  | bypass
  | status
  | samplePreload
  | extest
deriving DecidableEq, Repr

/-- What a patrol-scrub read of a line found (R465). -/
inductive ScrubResult where
  | clean
  | corrected
  | uncorrectable
deriving DecidableEq, Repr

/-- The measurement of one channel by the self-check (R429): magnitude of the mean and power after the mean is removed,
in 0.01 dBFS. -/
structure ChanMeasure where
  meanCdb : Int
  powerCdb : Int
deriving DecidableEq, Repr

/-- What starts a plumb run by itself (R460); PLUMB_NOW is a command of its own. -/
inductive PlumbTrigger where
  | ready
  | interval
  | advance (bay : Fin 80)
deriving DecidableEq, Repr

/-- A General Media event record read from a T2 device (R386). -/
structure CxlEvent where
  dev : Fin 4
  generalMedia : Bool
deriving DecidableEq, Repr

/-- A request that the subset of Table 0.3 does not list (R4): an SPDM request code, a host TLP (an ATS, PRI or PASID request, a read
that is neither 4 nor 8 bytes or not aligned) to a function, a request of a device behind a CXL port. -/
inductive ForeignReq where
  | spdm (code : BitVec 8)
  | pcie (f : Fin 16)
  | cxl (port : Fin 4)
deriving DecidableEq, Repr

/-- A codeword of a Truss direction as it arrives: the PAM4 levels of its logical lanes (R289). -/
abbrev LaneLevels := List (List (BitVec 2))

/-- A training set, and the receive lane it arrives on (R287, R301). -/
structure LaneSet where
  lane : Fin 17
  bytes : List Byte
deriving DecidableEq, Repr

/-- One slot of a port's sender, and whether the flit it reads for a replay has an uncorrectable error (R296, R317). -/
structure SendSlot where
  port : Fin 12
  replayUe : Bool
deriving DecidableEq, Repr

/-- The commands. -/
inductive Instr where
  -- requests, hub and scribe (01, 04, 10, 14, 15)
  | reqTail (f : Fin 16) (value : BitVec 32)
  | descriptorFetch (desc : List Byte)
  | deadlinePassed (asn : BitVec 64) (at_ : Nat)
  | dispatchOpportunity
  | bayTaskEnd (bay : Fin 80) (at_ : Nat) (energy : Nat)
  | hubMoverJob
  | hubMoverJobDone (job : Nat) (result : JobResult) (data : List Byte)
  | streamCommitPhase2 (asn : BitVec 64)
  | auditRecordCommit
  | anchorRetry (at_ : Nat)
  | auditRecordDelivery
  | holdQueueDrain
  | streamLeaseGrant (asn : BitVec 64)
  | streamSwapInDone (asn : BitVec 64) (poisoned : Bool)
  -- KV pages (09)
  | kvAppend (bay : Fin 80) (mover : Fin 2)
  | kvGather (bay : Fin 80) (mover : Fin 2)
  | kvRecordCommit (wu : WuKey)
  -- array, movers and cells (06, 07, 08, 10)
  | mmul (bay : Fin 80)
  | conv (bay : Fin 80)
  | tileTagComplete (bay : Fin 80)
  | arrayRampDown (bay : Fin 80)
  | rampTokenReturn (tile : Fin 4)
  | linear (bay : Fin 80) (mover : Fin 2)
  | tile (bay : Fin 80) (mover : Fin 2)
  | pack (bay : Fin 80) (mover : Fin 2)
  | unpack (bay : Fin 80) (mover : Fin 2)
  | cellStep (bay : Fin 80) (mover : Fin 2)
  | moverTagComplete (bay : Fin 80) (mover : Fin 2)
  -- thread instructions (05)
  | exit_ (w : Issue) (rd ra : BitVec 5) (ord : BitVec 4)
  | yield_ (w : Issue) (rd ra : BitVec 5) (ord : BitVec 4)
  | trap (w : Issue) (rd ra : BitVec 5) (ord : BitVec 4)
  | aluAdd (w : Issue) (rd ra rb : BitVec 5)
  | aluSub (w : Issue) (rd ra rb : BitVec 5)
  | aluAnd (w : Issue) (rd ra rb : BitVec 5)
  | aluOr (w : Issue) (rd ra rb : BitVec 5)
  | aluXor (w : Issue) (rd ra rb : BitVec 5)
  | aluSll (w : Issue) (rd ra rb : BitVec 5)
  | aluSrl (w : Issue) (rd ra rb : BitVec 5)
  | aluSra (w : Issue) (rd ra rb : BitVec 5)
  | aluMul (w : Issue) (rd ra rb : BitVec 5)
  | aluMulhu (w : Issue) (rd ra rb : BitVec 5)
  | aluDivu (w : Issue) (rd ra rb : BitVec 5)
  | aluRemu (w : Issue) (rd ra rb : BitVec 5)
  | aluMinu (w : Issue) (rd ra rb : BitVec 5)
  | aluMaxu (w : Issue) (rd ra rb : BitVec 5)
  | aluMin (w : Issue) (rd ra rb : BitVec 5)
  | aluMax (w : Issue) (rd ra rb : BitVec 5)
  | pcmpEq (w : Issue) (rd ra rb : BitVec 5)
  | pcmpNe (w : Issue) (rd ra rb : BitVec 5)
  | pcmpLt (w : Issue) (rd ra rb : BitVec 5)
  | pcmpGe (w : Issue) (rd ra rb : BitVec 5)
  | pcmpLtu (w : Issue) (rd ra rb : BitVec 5)
  | pcmpGeu (w : Issue) (rd ra rb : BitVec 5)
  | addi (w : Issue) (rd ra : BitVec 5) (imm : BitVec 12)
  | andi (w : Issue) (rd ra : BitVec 5) (imm : BitVec 12)
  | ori (w : Issue) (rd ra : BitVec 5) (imm : BitVec 12)
  | lih (w : Issue) (rd ra : BitVec 5) (imm : BitVec 12)
  | vopAdd (w : Issue) (ty : BitVec 3) (rd ra rb : BitVec 5)
  | vopSub (w : Issue) (ty : BitVec 3) (rd ra rb : BitVec 5)
  | vopMul (w : Issue) (ty : BitVec 3) (rd ra rb : BitVec 5)
  | vopMin (w : Issue) (ty : BitVec 3) (rd ra rb : BitVec 5)
  | vopMax (w : Issue) (ty : BitVec 3) (rd ra rb : BitVec 5)
  | vopFma (w : Issue) (ty : BitVec 3) (rd ra rb : BitVec 5)
  | vopAnd (w : Issue) (ty : BitVec 3) (rd ra rb : BitVec 5)
  | vopOr (w : Issue) (ty : BitVec 3) (rd ra rb : BitVec 5)
  | vopXor (w : Issue) (ty : BitVec 3) (rd ra rb : BitVec 5)
  | vopShl (w : Issue) (ty : BitVec 3) (rd ra rb : BitVec 5)
  | vopShr (w : Issue) (ty : BitVec 3) (rd ra rb : BitVec 5)
  | vopExp (w : Issue) (ty : BitVec 3) (rd ra rb : BitVec 5)
  | vcvt (w : Issue) (fn : BitVec 7) (rd ra rb : BitVec 5)
  | vredSum (w : Issue) (ty : BitVec 3) (rd ra rb : BitVec 5)
  | vredMax (w : Issue) (ty : BitVec 3) (rd ra rb : BitVec 5)
  | vredMin (w : Issue) (ty : BitVec 3) (rd ra rb : BitVec 5)
  | vget (w : Issue) (rd ra rb : BitVec 5)
  | vput (w : Issue) (rd ra rb : BitVec 5)
  | vbcast (w : Issue) (rd ra rb : BitVec 5)
  | ld (w : Issue) (rt ra : BitVec 5) (sz : BitVec 3) (off : BitVec 9)
  | lds (w : Issue) (rt ra : BitVec 5) (sz : BitVec 3) (off : BitVec 9)
  | st (w : Issue) (rt ra : BitVec 5) (sz : BitVec 3) (off : BitVec 9)
  | vld (w : Issue) (rt ra : BitVec 5) (sz : BitVec 3) (off : BitVec 9)
  | vst (w : Issue) (rt ra : BitVec 5) (sz : BitVec 3) (off : BitVec 9)
  | storeLineDrain (bay : Fin 80) (thread : Fin 128) (line : Fin 8)
  | br (w : Issue) (off : BitVec 22)
  | call (w : Issue) (off : BitVec 22)
  | jr (w : Issue) (rd ra rb : BitVec 5) (fn : BitVec 7)
  | atomLd (w : Issue) (rd ra : BitVec 5) (ord : BitVec 4) (width : BitVec 2)
  | atomSt (w : Issue) (rd ra : BitVec 5) (ord : BitVec 4) (width : BitVec 2)
  | atomSwap (w : Issue) (rd ra : BitVec 5) (ord : BitVec 4) (width : BitVec 2)
  | atomCas (w : Issue) (rd ra : BitVec 5) (ord : BitVec 4) (width : BitVec 2)
  | atomAdd (w : Issue) (rd ra : BitVec 5) (ord : BitVec 4) (width : BitVec 2)
  | atomAnd (w : Issue) (rd ra : BitVec 5) (ord : BitVec 4) (width : BitVec 2)
  | atomOr (w : Issue) (rd ra : BitVec 5) (ord : BitVec 4) (width : BitVec 2)
  | atomXor (w : Issue) (rd ra : BitVec 5) (ord : BitVec 4) (width : BitVec 2)
  | atomMin (w : Issue) (rd ra : BitVec 5) (ord : BitVec 4) (width : BitVec 2)
  | atomMax (w : Issue) (rd ra : BitVec 5) (ord : BitVec 4) (width : BitVec 2)
  | atomMinu (w : Issue) (rd ra : BitVec 5) (ord : BitVec 4) (width : BitVec 2)
  | atomMaxu (w : Issue) (rd ra : BitVec 5) (ord : BitVec 4) (width : BitVec 2)
  | fenceB (w : Issue) (rd ra : BitVec 5) (ord : BitVec 4)
  | fenceN (w : Issue) (rd ra : BitVec 5) (ord : BitVec 4)
  | fenceG (w : Issue) (rd ra : BitVec 5) (ord : BitVec 4)
  | barBay (w : Issue) (rd ra : BitVec 5) (ord : BitVec 4)
  | barNode (w : Issue) (rd ra : BitVec 5) (ord : BitVec 4)
  | barFabric (w : Issue) (rd ra : BitVec 5) (ord : BitVec 4)
  | tissue (w : Issue) (rd ra : BitVec 5) (ord : BitVec 4)
  | twait (w : Issue) (rd ra : BitVec 5) (ord : BitVec 4)
  | mq (w : Issue) (rd ra : BitVec 5) (ord : BitVec 4)
  | mwait (w : Issue) (rd ra : BitVec 5) (ord : BitVec 4)
  | send (w : Issue) (rd ra : BitVec 5) (ord : BitVec 4)
  | recv (w : Issue) (rd ra : BitVec 5) (ord : BitVec 4)
  | philox (w : Issue) (rd ra : BitVec 5) (ord : BitVec 4) (xf : BitVec 8)
  | ctx (w : Issue) (rd ra : BitVec 5) (ord : BitVec 4) (xf : BitVec 8)
  -- power, clock, boot and reset (02, 03, 18, 19)
  | pwrOkRise (straps : Straps) (btnLow : Bool) (cxlPorts : List CxlTrain) (cxlDevs : List CxlFound)
  | pwrOkFall
  | coldResetPerform (straps : Straps) (btnLow : Bool) (cxlPorts : List CxlTrain) (cxlDevs : List CxlFound)
  | refQualified (at_ : Nat)
  | pllLock (at_ : Nat)
  | powerOnBist (failBays : List (Fin 80)) (hubFail rcDead : Bool)
  | slotVerify (timeoutA timeoutB : Option Nat)
  | hbmTrainingDone
  | weightFetchDone (entry : Nat) (peer : Bool) (delivered : Bool) (data : List Byte)
  | weightCodingDone (entry : Nat)
  | bootReady
  | sysRstNLow
  | resetBtnPress
  | resetBtnRelease
  | resetBtnHold
  | buttonRearm
  | watchdogExpiry (core : Fin 4)
  | warmResetPerform
  | warmResetComplete
  | safeCommitReset (at_ : Nat)
  | thermtrip (sensor : Fin 96)
  | fatalFault (code : BitVec 16)
  | refGlitch (at_ : Nat)
  | refDrift (fast : Bool)
  | refDriftClear
  | refLost
  | avsTargetReached (tile : Fin 4)
  | avsTimeout (tile : Fin 4)
  | p2Entry (at_ : Nat)
  | p3Entry (at_ : Nat)
  | aonTimerExpiry (at_ : Nat)
  | pcieWake
  | trussListenWake (port : Fin 12)
  | p3ExitComplete (at_ : Nat)
  | swRailMinLowEnd (at_ : Nat)
  -- Steward (04, 18)
  | budgetWindowStart (at_ : Nat) (sensors : List (Option Int)) (rails base : List Nat)
  | schedulerEpochBoundary (at_ : Nat)
  | estimatorRecalibration (at_ : Nat) (vrm : List (Option Nat)) (est : List Nat) (part : Readings)
  | vrmTelemetryStale (at_ : Nat)
  | hbmTempPoll (at_ : Nat) (temps : List (Option Nat))
  | hbmTempTimeout (stack : Fin 8) (at_ : Nat)
  | wuTimeout (bay : Fin 80) (at_ : Nat)
  | bayFence (bay : Fin 80)
  -- mailbox (14)
  | stageImage (f : Fin 16) (seq : BitVec 16) (dma : Option (List Byte))
  | commitImage (f : Fin 16) (seq : BitVec 16)
  | flashOperationDone (ok : Bool) (at_ : Nat)
  | getInfo (f : Fin 16) (seq : BitVec 16)
  | setTunable (f : Fin 16) (seq : BitVec 16)
  | quiesce (f : Fin 16) (seq : BitVec 16)
  | quiesceComplete
  | resume (f : Fin 16) (seq : BitVec 16)
  | warmReset (f : Fin 16) (seq : BitVec 16)
  | snapshot (f : Fin 16) (seq : BitVec 16)
  | plumbNow (f : Fin 16) (seq : BitVec 16)
  | sentinelRead (f : Fin 16) (seq : BitVec 16)
  | exportPubkey (f : Fin 16) (seq : BitVec 16)
  | setTimeOffset (f : Fin 16) (seq : BitVec 16)
  | leaveFabric (f : Fin 16) (seq : BitVec 16)
  -- register and function writes (14, 17, 20)
  | arm (f : Fin 16) (value : BitVec 32)
  | disarm (f : Fin 16)
  | tailErrClear (f : Fin 16)
  | cplHead (f : Fin 16) (value : BitVec 32)
  | audHead (value : BitVec 32)
  | irqCauseClear (f : Fin 16) (value : BitVec 32)
  | take
  | load (index : BitVec 10)
  | registerWrite (f : Fin 16) (win : Window) (offset : Nat) (width : Nat) (value : BitVec 64) (dma : Option (List Byte))
  | flr (f : Fin 16)
  | perstNAssert
  | perstNDeassert
  -- DOE and SPDM (14)
  | doeDiscovery (index : BitVec 8)
  | getVersion
  | getCapabilities
  | negotiateAlgorithms (ecdsaP384 sha384 : Bool)
  | getDigests
  | getCertificate (slot : BitVec 8) (offset length : BitVec 16)
  | challenge (slot : BitVec 8) (nonce : BitVec 256)
  | getMeasurements (index : BitVec 8) (sign : Bool) (nonce : BitVec 256)
  -- SMBus (14)
  | smbusStatus
  | smbusTmax
  | smbusModulePower
  | smbusHbmTemp
  | smbusNodeEpoch
  | smbusDegradedCount
  | smbusStepping
  -- CXL (14, 10)
  | cxlEventPoll (at_ : Nat) (events : List CxlEvent)
  | cxlDeviceLost (dev : Fin 4)
  -- Truss ports (12)
  | detectBurst (port : Fin 12)
  | peerSignalDetect (port : Fin 12) (at_ : Nat)
  | trainingSet (port : Fin 12) (set : LaneSet)
  | eqTimeout (port : Fin 12)
  | trainingTimeout (port : Fin 12)
  /-- the flit commands carry the codewords that have arrived up to the one that completes the flit -/
  | dataFlit (port : Fin 12) (words : List LaneLevels)
  | idle (port : Fin 12) (words : List LaneLevels)
  | nak (port : Fin 12) (words : List LaneLevels)
  | silent (port : Fin 12) (words : List LaneLevels)
  | health (port : Fin 12) (words : List LaneLevels)
  | spare (port : Fin 12) (words : List LaneLevels)
  | unspare (port : Fin 12) (words : List LaneLevels)
  | reconfig (port : Fin 12) (words : List LaneLevels)
  | resync (port : Fin 12) (words : List LaneLevels)
  | nakRepeat (port : Fin 12)
  | replayTimeout (port : Fin 12) (at_ : Nat)
  | recoveryTimeout (port : Fin 12)
  | evaluationWindowEnd (port : Fin 12) (at_ : Nat)
  | laneFailure (port : Fin 12) (lane : Fin 17)
  | marginUpdate (port : Fin 12) (margins : List Int)
  | spareSwitchEffective (port : Fin 12)
  | portRestore (port : Fin 12) (at_ : Nat)
  | drainEnd (port : Fin 12)
  | codewordLockLoss (port : Fin 12)
  -- Truss fabric (13)
  | helloSend (port : Fin 12)
  | hello (port : Fin 12) (h : Hello) (at_ : Nat)
  | helloTimeout (port : Fin 12)
  | lsa (port : Fin 12) (r : Lsa) (at_ : Nat)
  | lsaRefresh (at_ : Nat)
  | lsaAgeOut (origin : BitVec 8)
  | routeCompute
  | epoch (port : Fin 12) (r : EpochRec) (at_ : Nat)
  | epochSettle (at_ : Nat)
  | caps (port : Fin 12) (r : Caps)
  | leave (port : Fin 12) (r : LeaveRec)
  | tokenReq (h : Header) (body : TokenReq)
  | token (h : Header) (asn : BitVec 64) (number : BitVec 64) (bases : List (Nat × Nat))
  | tokenRefuse (h : Header) (asn : BitVec 64) (reason : BitVec 8)
  | tokenRelease (h : Header) (asn : BitVec 64)
  | stepAck (h : Header) (wu : WuKey)
  | abort (h : Header) (asn : BitVec 64) (status : BitVec 8)
  | weightQuery (h : Header) (object : BitVec 32) (hash : BitVec 384)
  | weightHave (h : Header) (object : BitVec 32) (holds : Bool)
  | read (h : Header)
  | write (h : Header) (data : List Byte)
  | atomic (h : Header) (ord : BitVec 4) (xf : BitVec 8) (operand compare : BitVec 64)
  | actPush (h : Header) (p : PushHeader) (data : List Byte)
  | lease (h : Header) (op : LeaseOp) (key : LeaseKey) (leaseEpoch : BitVec 32)
  | barrier (h : Header) (asn : BitVec 64) (slot : Fin 16) (generation : BitVec 32) (arrived count : BitVec 32) (isRelease : Bool)
  | barrierBatchSend (at_ : Nat)
  | time (h : Header) (isResponse : Bool) (t1 t2 t3 t4 : Int)
  | timeSyncSend (at_ : Nat)
  | transportResponse (h : Header) (vc : BitVec 2) (data : List Byte)
  | requestTimeout (dst : BitVec 8) (vc : BitVec 2) (tseq : BitVec 32) (at_ : Nat)
  | transitDrop (port : Fin 12) (vc : BitVec 2)
  -- sentinel (16)
  | sentinelFrameEnd (at_ : Nat) (pdm : List Byte)
  | wakePulseEnd (at_ : Nat)
  | prerollFreeze (at_ : Nat)
  | wakeWindowClose (at_ : Nat)
  | mute
  | muteEraseDone
  | unmute (at_ : Nat)
  | pdmClkStart (at_ : Nat)
  | micSelfCheck (at_ : Nat) (chans : List ChanMeasure)
  -- counters (17)
  | snapshotPulse
  | periodicSnapshot (at_ : Nat)
  | bandwidthWindowEnd (at_ : Nat)
  -- plumb test and scrub (18)
  | plumbRunStart (trigger : PlumbTrigger) (at_ : Nat)
  | plumbRoundStart (tile : Fin 4)
  | plumbSegmentEnd (tile : Fin 4) (starved : Bool)
  | plumbStepDone (tile : Fin 4) (passed : Bool) (group : BitVec 16) (hubFail : BitVec 32)
  | patrolScrub (addr : Nat) (result : ScrubResult)
  -- remaining events (02, 12, 14, 19, 05, 06)
  | sysRstNRelease (straps : Straps) (btnLow : Bool) (cxlPorts : List CxlTrain) (cxlDevs : List CxlFound)
  | flitSlot (slot : SendSlot)
  | configSpaceWrite (w : ConfigWrite)
  | pcieLinkUp
  | unsupportedRequest (r : ForeignReq)
  | smbusBusTimeout
  | tapInstruction (ins : TapInstr)
  | illegalInstr (w : Issue) (word : BitVec 32)
  | arrayOff (bay : Fin 80)
deriving DecidableEq, Repr

end Sys2Proof
end

