-- ==== Sys2Proof/Decode.lean ====
section
/-! DEFINITION. What words spell commands. No row of spec/opcode_table.json gives bits, so `decodeTableWord` answers none.
The thread instructions have a 32-bit encoding of their own (05, R128 to R130, Tables 5.1 to 5.4): `decodeThreadWord` and
`encodeThread` give it, and `Instr.threadLegal` says which field combinations R130 calls illegal. -/
namespace Sys2Proof

/-- The command a word spells by the table's bits: no row gives bits. -/
def decodeTableWord (_nbits _w : Nat) : Option Instr := none

/-- A thread instruction word: OP, PG, PN and the 22 bits of its format (R128, R129). -/
def threadWord (op : BitVec 6) (w : Issue) (low : BitVec 22) : BitVec 32 :=
  op ++ w.pg ++ w.pn ++ low

/-- Format R of Table 5.1. -/
def formR (op : BitVec 6) (w : Issue) (rd ra rb : BitVec 5) (fn : BitVec 7) : BitVec 32 :=
  threadWord op w (rd ++ ra ++ rb ++ fn)

/-- Format I of Table 5.1. -/
def formI (op : BitVec 6) (w : Issue) (rd ra : BitVec 5) (imm : BitVec 12) : BitVec 32 :=
  threadWord op w (rd ++ ra ++ imm)

/-- Format M of Table 5.1. -/
def formM (op : BitVec 6) (w : Issue) (rt ra : BitVec 5) (sz : BitVec 3) (off : BitVec 9) : BitVec 32 :=
  threadWord op w (rt ++ ra ++ sz ++ off)

/-- Format X of Table 5.1. -/
def formX (op : BitVec 6) (w : Issue) (rd ra : BitVec 5) (ord : BitVec 4) (xf : BitVec 8) : BitVec 32 :=
  threadWord op w (rd ++ ra ++ ord ++ xf)

/-- XF of an ATOM: WIDTH and OP (Table 5.4). -/
def atomXf (width : BitVec 2) (op : BitVec 6) : BitVec 8 := width ++ op

/-- FN of a VOP or VRED: lane type and function (Table 5.3). -/
def vopFn (ty : BitVec 3) (f : BitVec 4) : BitVec 7 := ty ++ f

/-- The word of a thread instruction; none for a command that is no thread instruction (Table 5.2). ILLEGAL_INSTR stands for
the words that spell none. -/
def encodeThread : Instr → Option (BitVec 32)
  | .exit_ w rd ra ord => some (formX 0x00#6 w rd ra ord 0x00#8)
  | .yield_ w rd ra ord => some (formX 0x00#6 w rd ra ord 0x01#8)
  | .trap w rd ra ord => some (formX 0x00#6 w rd ra ord 0x02#8)
  | .aluAdd w rd ra rb => some (formR 0x01#6 w rd ra rb 0x00#7)
  | .aluSub w rd ra rb => some (formR 0x01#6 w rd ra rb 0x01#7)
  | .aluAnd w rd ra rb => some (formR 0x01#6 w rd ra rb 0x02#7)
  | .aluOr w rd ra rb => some (formR 0x01#6 w rd ra rb 0x03#7)
  | .aluXor w rd ra rb => some (formR 0x01#6 w rd ra rb 0x04#7)
  | .aluSll w rd ra rb => some (formR 0x01#6 w rd ra rb 0x05#7)
  | .aluSrl w rd ra rb => some (formR 0x01#6 w rd ra rb 0x06#7)
  | .aluSra w rd ra rb => some (formR 0x01#6 w rd ra rb 0x07#7)
  | .aluMul w rd ra rb => some (formR 0x01#6 w rd ra rb 0x08#7)
  | .aluMulhu w rd ra rb => some (formR 0x01#6 w rd ra rb 0x09#7)
  | .aluDivu w rd ra rb => some (formR 0x01#6 w rd ra rb 0x0A#7)
  | .aluRemu w rd ra rb => some (formR 0x01#6 w rd ra rb 0x0B#7)
  | .aluMinu w rd ra rb => some (formR 0x01#6 w rd ra rb 0x0C#7)
  | .aluMaxu w rd ra rb => some (formR 0x01#6 w rd ra rb 0x0D#7)
  | .aluMin w rd ra rb => some (formR 0x01#6 w rd ra rb 0x0E#7)
  | .aluMax w rd ra rb => some (formR 0x01#6 w rd ra rb 0x0F#7)
  | .pcmpEq w rd ra rb => some (formR 0x02#6 w rd ra rb 0x00#7)
  | .pcmpNe w rd ra rb => some (formR 0x02#6 w rd ra rb 0x01#7)
  | .pcmpLt w rd ra rb => some (formR 0x02#6 w rd ra rb 0x02#7)
  | .pcmpGe w rd ra rb => some (formR 0x02#6 w rd ra rb 0x03#7)
  | .pcmpLtu w rd ra rb => some (formR 0x02#6 w rd ra rb 0x04#7)
  | .pcmpGeu w rd ra rb => some (formR 0x02#6 w rd ra rb 0x05#7)
  | .addi w rd ra imm => some (formI 0x04#6 w rd ra imm)
  | .andi w rd ra imm => some (formI 0x05#6 w rd ra imm)
  | .ori w rd ra imm => some (formI 0x06#6 w rd ra imm)
  | .lih w rd ra imm => some (formI 0x07#6 w rd ra imm)
  | .vopAdd w ty rd ra rb => some (formR 0x09#6 w rd ra rb (vopFn ty 0x0#4))
  | .vopSub w ty rd ra rb => some (formR 0x09#6 w rd ra rb (vopFn ty 0x1#4))
  | .vopMul w ty rd ra rb => some (formR 0x09#6 w rd ra rb (vopFn ty 0x2#4))
  | .vopMin w ty rd ra rb => some (formR 0x09#6 w rd ra rb (vopFn ty 0x3#4))
  | .vopMax w ty rd ra rb => some (formR 0x09#6 w rd ra rb (vopFn ty 0x4#4))
  | .vopFma w ty rd ra rb => some (formR 0x09#6 w rd ra rb (vopFn ty 0x5#4))
  | .vopAnd w ty rd ra rb => some (formR 0x09#6 w rd ra rb (vopFn ty 0x6#4))
  | .vopOr w ty rd ra rb => some (formR 0x09#6 w rd ra rb (vopFn ty 0x7#4))
  | .vopXor w ty rd ra rb => some (formR 0x09#6 w rd ra rb (vopFn ty 0x8#4))
  | .vopShl w ty rd ra rb => some (formR 0x09#6 w rd ra rb (vopFn ty 0x9#4))
  | .vopShr w ty rd ra rb => some (formR 0x09#6 w rd ra rb (vopFn ty 0xA#4))
  | .vopExp w ty rd ra rb => some (formR 0x09#6 w rd ra rb (vopFn ty 0xB#4))
  | .vcvt w fn rd ra rb => some (formR 0x0A#6 w rd ra rb fn)
  | .vredSum w ty rd ra rb => some (formR 0x0B#6 w rd ra rb (vopFn ty 0x0#4))
  | .vredMax w ty rd ra rb => some (formR 0x0B#6 w rd ra rb (vopFn ty 0x1#4))
  | .vredMin w ty rd ra rb => some (formR 0x0B#6 w rd ra rb (vopFn ty 0x2#4))
  | .vget w rd ra rb => some (formR 0x0C#6 w rd ra rb 0x00#7)
  | .vput w rd ra rb => some (formR 0x0C#6 w rd ra rb 0x01#7)
  | .vbcast w rd ra rb => some (formR 0x0C#6 w rd ra rb 0x02#7)
  | .ld w rt ra sz off => some (formM 0x10#6 w rt ra sz off)
  | .lds w rt ra sz off => some (formM 0x11#6 w rt ra sz off)
  | .st w rt ra sz off => some (formM 0x12#6 w rt ra sz off)
  | .vld w rt ra sz off => some (formM 0x13#6 w rt ra sz off)
  | .vst w rt ra sz off => some (formM 0x14#6 w rt ra sz off)
  | .br w off => some (threadWord 0x18#6 w off)
  | .call w off => some (threadWord 0x19#6 w off)
  | .jr w rd ra rb fn => some (formR 0x1A#6 w rd ra rb fn)
  | .atomLd w rd ra ord wd => some (formX 0x20#6 w rd ra ord (atomXf wd 0x00#6))
  | .atomSt w rd ra ord wd => some (formX 0x20#6 w rd ra ord (atomXf wd 0x01#6))
  | .atomSwap w rd ra ord wd => some (formX 0x20#6 w rd ra ord (atomXf wd 0x02#6))
  | .atomCas w rd ra ord wd => some (formX 0x20#6 w rd ra ord (atomXf wd 0x03#6))
  | .atomAdd w rd ra ord wd => some (formX 0x20#6 w rd ra ord (atomXf wd 0x04#6))
  | .atomAnd w rd ra ord wd => some (formX 0x20#6 w rd ra ord (atomXf wd 0x05#6))
  | .atomOr w rd ra ord wd => some (formX 0x20#6 w rd ra ord (atomXf wd 0x06#6))
  | .atomXor w rd ra ord wd => some (formX 0x20#6 w rd ra ord (atomXf wd 0x07#6))
  | .atomMin w rd ra ord wd => some (formX 0x20#6 w rd ra ord (atomXf wd 0x08#6))
  | .atomMax w rd ra ord wd => some (formX 0x20#6 w rd ra ord (atomXf wd 0x09#6))
  | .atomMinu w rd ra ord wd => some (formX 0x20#6 w rd ra ord (atomXf wd 0x0A#6))
  | .atomMaxu w rd ra ord wd => some (formX 0x20#6 w rd ra ord (atomXf wd 0x0B#6))
  | .fenceB w rd ra ord => some (formX 0x21#6 w rd ra ord 0x00#8)
  | .fenceN w rd ra ord => some (formX 0x21#6 w rd ra ord 0x01#8)
  | .fenceG w rd ra ord => some (formX 0x21#6 w rd ra ord 0x02#8)
  | .barBay w rd ra ord => some (formX 0x22#6 w rd ra ord 0x00#8)
  | .barNode w rd ra ord => some (formX 0x22#6 w rd ra ord 0x01#8)
  | .barFabric w rd ra ord => some (formX 0x22#6 w rd ra ord 0x02#8)
  | .tissue w rd ra ord => some (formX 0x23#6 w rd ra ord 0x00#8)
  | .twait w rd ra ord => some (formX 0x23#6 w rd ra ord 0x01#8)
  | .mq w rd ra ord => some (formX 0x24#6 w rd ra ord 0x00#8)
  | .mwait w rd ra ord => some (formX 0x24#6 w rd ra ord 0x01#8)
  | .send w rd ra ord => some (formX 0x25#6 w rd ra ord 0x00#8)
  | .recv w rd ra ord => some (formX 0x25#6 w rd ra ord 0x01#8)
  | .philox w rd ra ord xf => some (formX 0x26#6 w rd ra ord xf)
  | .ctx w rd ra ord xf => some (formX 0x27#6 w rd ra ord xf)
  | _ => none

/-- Where a thread instruction issues, and its guard; none for a command that is no thread instruction. -/
def Instr.issue : Instr → Option Issue
  | .exit_ w _ _ _ => some w
  | .yield_ w _ _ _ => some w
  | .trap w _ _ _ => some w
  | .aluAdd w _ _ _ => some w
  | .aluSub w _ _ _ => some w
  | .aluAnd w _ _ _ => some w
  | .aluOr w _ _ _ => some w
  | .aluXor w _ _ _ => some w
  | .aluSll w _ _ _ => some w
  | .aluSrl w _ _ _ => some w
  | .aluSra w _ _ _ => some w
  | .aluMul w _ _ _ => some w
  | .aluMulhu w _ _ _ => some w
  | .aluDivu w _ _ _ => some w
  | .aluRemu w _ _ _ => some w
  | .aluMinu w _ _ _ => some w
  | .aluMaxu w _ _ _ => some w
  | .aluMin w _ _ _ => some w
  | .aluMax w _ _ _ => some w
  | .pcmpEq w _ _ _ => some w
  | .pcmpNe w _ _ _ => some w
  | .pcmpLt w _ _ _ => some w
  | .pcmpGe w _ _ _ => some w
  | .pcmpLtu w _ _ _ => some w
  | .pcmpGeu w _ _ _ => some w
  | .addi w _ _ _ => some w
  | .andi w _ _ _ => some w
  | .ori w _ _ _ => some w
  | .lih w _ _ _ => some w
  | .vopAdd w _ _ _ _ => some w
  | .vopSub w _ _ _ _ => some w
  | .vopMul w _ _ _ _ => some w
  | .vopMin w _ _ _ _ => some w
  | .vopMax w _ _ _ _ => some w
  | .vopFma w _ _ _ _ => some w
  | .vopAnd w _ _ _ _ => some w
  | .vopOr w _ _ _ _ => some w
  | .vopXor w _ _ _ _ => some w
  | .vopShl w _ _ _ _ => some w
  | .vopShr w _ _ _ _ => some w
  | .vopExp w _ _ _ _ => some w
  | .vcvt w _ _ _ _ => some w
  | .vredSum w _ _ _ _ => some w
  | .vredMax w _ _ _ _ => some w
  | .vredMin w _ _ _ _ => some w
  | .vget w _ _ _ => some w
  | .vput w _ _ _ => some w
  | .vbcast w _ _ _ => some w
  | .ld w _ _ _ _ => some w
  | .lds w _ _ _ _ => some w
  | .st w _ _ _ _ => some w
  | .vld w _ _ _ _ => some w
  | .vst w _ _ _ _ => some w
  | .br w _ => some w
  | .call w _ => some w
  | .jr w _ _ _ _ => some w
  | .atomLd w _ _ _ _ => some w
  | .atomSt w _ _ _ _ => some w
  | .atomSwap w _ _ _ _ => some w
  | .atomCas w _ _ _ _ => some w
  | .atomAdd w _ _ _ _ => some w
  | .atomAnd w _ _ _ _ => some w
  | .atomOr w _ _ _ _ => some w
  | .atomXor w _ _ _ _ => some w
  | .atomMin w _ _ _ _ => some w
  | .atomMax w _ _ _ _ => some w
  | .atomMinu w _ _ _ _ => some w
  | .atomMaxu w _ _ _ _ => some w
  | .fenceB w _ _ _ => some w
  | .fenceN w _ _ _ => some w
  | .fenceG w _ _ _ => some w
  | .barBay w _ _ _ => some w
  | .barNode w _ _ _ => some w
  | .barFabric w _ _ _ => some w
  | .tissue w _ _ _ => some w
  | .twait w _ _ _ => some w
  | .mq w _ _ _ => some w
  | .mwait w _ _ _ => some w
  | .send w _ _ _ => some w
  | .recv w _ _ _ => some w
  | .philox w _ _ _ _ => some w
  | .ctx w _ _ _ _ => some w
  | .illegalInstr w _ => some w
  | _ => none

/-- VOP ADD, SUB, MUL, MIN, MAX: every lane type but 7 (Table 5.3). -/
def vopAnyTy (ty : BitVec 3) : Bool := ty != 7#3
/-- VOP FMA: floating types only. -/
def vopFloatTy (ty : BitVec 3) : Bool := ty == 4#3 || ty == 5#3 || ty == 6#3
/-- VOP AND, OR, XOR, SHL, SHR: integer types only. -/
def vopIntTy (ty : BitVec 3) : Bool := decide (ty.toNat < 4)

/-- ATOM: SCOPE 3 and WIDTH 2, 3 are illegal (Table 5.4). -/
def atomLegal (ord : BitVec 4) (wd : BitVec 2) : Bool :=
  ord.extractLsb' 2 2 != 3#2 && decide (wd.toNat < 2)

/-- Whether a thread instruction's fields are legal (R130, Tables 5.2 to 5.5, R142). The lane base of PHILOX is data and is
checked where the instruction runs. -/
def Instr.threadLegal : Instr → Bool
  | .exit_ _ rd ra _ => rd == 0#5 && ra == 0#5
  | .yield_ _ rd ra _ => rd == 0#5 && ra == 0#5
  | .trap _ rd ra _ => rd == 0#5 && ra == 0#5
  | .pcmpEq _ rd _ _ => rd.extractLsb' 3 2 != 3#2
  | .pcmpNe _ rd _ _ => rd.extractLsb' 3 2 != 3#2
  | .pcmpLt _ rd _ _ => rd.extractLsb' 3 2 != 3#2
  | .pcmpGe _ rd _ _ => rd.extractLsb' 3 2 != 3#2
  | .pcmpLtu _ rd _ _ => rd.extractLsb' 3 2 != 3#2
  | .pcmpGeu _ rd _ _ => rd.extractLsb' 3 2 != 3#2
  | .lih _ _ ra _ => ra == 0#5
  | .vopAdd _ ty _ _ _ => vopAnyTy ty
  | .vopSub _ ty _ _ _ => vopAnyTy ty
  | .vopMul _ ty _ _ _ => vopAnyTy ty
  | .vopMin _ ty _ _ _ => vopAnyTy ty
  | .vopMax _ ty _ _ _ => vopAnyTy ty
  | .vopFma _ ty _ _ _ => vopFloatTy ty
  | .vopAnd _ ty _ _ _ => vopIntTy ty
  | .vopOr _ ty _ _ _ => vopIntTy ty
  | .vopXor _ ty _ _ _ => vopIntTy ty
  | .vopShl _ ty _ _ _ => vopIntTy ty
  | .vopShr _ ty _ _ _ => vopIntTy ty
  | .vopExp _ ty _ _ rb => ty == 6#3 && rb == 0#5
  | .vcvt _ fn _ _ rb =>
    fn.extractLsb' 4 3 == 0#3 && rb.extractLsb' 4 1 == 0#1
      && decide ((fn.extractLsb' 0 4).toNat ≤ 8) && decide ((rb.extractLsb' 0 4).toNat ≤ 8)
  | .vredSum _ ty _ _ rb => vopAnyTy ty && rb == 0#5
  | .vredMax _ ty _ _ rb => vopAnyTy ty && rb == 0#5
  | .vredMin _ ty _ _ rb => vopAnyTy ty && rb == 0#5
  | .ld _ _ _ sz _ => decide (sz.toNat < 4)
  | .lds _ _ _ sz _ => decide (sz.toNat < 4)
  | .st _ _ _ sz _ => decide (sz.toNat < 4)
  | .vld _ _ _ sz _ => sz == 4#3
  | .vst _ _ _ sz _ => sz == 4#3
  | .jr _ _ _ rb fn => rb == 0#5 && fn == 0#7
  | .atomLd _ _ _ ord wd => atomLegal ord wd && ord.extractLsb' 1 1 == 0#1
  | .atomSt _ _ _ ord wd => atomLegal ord wd && ord.extractLsb' 0 1 == 0#1
  | .atomSwap _ _ _ ord wd => atomLegal ord wd
  | .atomCas _ rd _ ord wd => atomLegal ord wd && rd.extractLsb' 0 1 == 0#1
  | .atomAdd _ _ _ ord wd => atomLegal ord wd
  | .atomAnd _ _ _ ord wd => atomLegal ord wd
  | .atomOr _ _ _ ord wd => atomLegal ord wd
  | .atomXor _ _ _ ord wd => atomLegal ord wd
  | .atomMin _ _ _ ord wd => atomLegal ord wd
  | .atomMax _ _ _ ord wd => atomLegal ord wd
  | .atomMinu _ _ _ ord wd => atomLegal ord wd
  | .atomMaxu _ _ _ ord wd => atomLegal ord wd
  | .fenceB _ rd ra ord => rd == 0#5 && ra == 0#5 && ord == 0#4
  | .fenceN _ rd ra ord => rd == 0#5 && ra == 0#5 && ord == 0#4
  | .fenceG _ rd ra ord => rd == 0#5 && ra == 0#5 && ord == 0#4
  | .barBay _ _ _ ord => ord == 0#4
  | .barNode _ _ _ ord => ord == 0#4
  | .barFabric _ _ _ ord => ord == 0#4
  | .ctx _ _ ra ord xf => ra == 0#5 && ord == 0#4 && decide (xf.toNat ≤ 0x0B)
  | _ => true

/-- What the fields of a word spell, before the legality of R130. -/
def readThreadWord (bay : Fin 80) (thread : Fin 128) (w : BitVec 32) : Option Instr :=
  let i : Issue := { bay := bay, thread := thread, pg := w.extractLsb' 23 3, pn := w.extractLsb' 22 1 }
  let rd := w.extractLsb' 17 5
  let ra := w.extractLsb' 12 5
  let rb := w.extractLsb' 7 5
  let fn := w.extractLsb' 0 7
  let imm := w.extractLsb' 0 12
  let sz := w.extractLsb' 9 3
  let off9 := w.extractLsb' 0 9
  let off22 := w.extractLsb' 0 22
  let ord := w.extractLsb' 8 4
  let xf := w.extractLsb' 0 8
  let ty := w.extractLsb' 4 3
  let f := w.extractLsb' 0 4
  let wd := w.extractLsb' 6 2
  let aop := w.extractLsb' 0 6
  match (w.extractLsb' 26 6).toNat with
  | 0x00 =>
    match xf.toNat with
    | 0x00 => some (.exit_ i rd ra ord)
    | 0x01 => some (.yield_ i rd ra ord)
    | 0x02 => some (.trap i rd ra ord)
    | _ => none
  | 0x01 =>
    match fn.toNat with
    | 0x00 => some (.aluAdd i rd ra rb)
    | 0x01 => some (.aluSub i rd ra rb)
    | 0x02 => some (.aluAnd i rd ra rb)
    | 0x03 => some (.aluOr i rd ra rb)
    | 0x04 => some (.aluXor i rd ra rb)
    | 0x05 => some (.aluSll i rd ra rb)
    | 0x06 => some (.aluSrl i rd ra rb)
    | 0x07 => some (.aluSra i rd ra rb)
    | 0x08 => some (.aluMul i rd ra rb)
    | 0x09 => some (.aluMulhu i rd ra rb)
    | 0x0A => some (.aluDivu i rd ra rb)
    | 0x0B => some (.aluRemu i rd ra rb)
    | 0x0C => some (.aluMinu i rd ra rb)
    | 0x0D => some (.aluMaxu i rd ra rb)
    | 0x0E => some (.aluMin i rd ra rb)
    | 0x0F => some (.aluMax i rd ra rb)
    | _ => none
  | 0x02 =>
    match fn.toNat with
    | 0x00 => some (.pcmpEq i rd ra rb)
    | 0x01 => some (.pcmpNe i rd ra rb)
    | 0x02 => some (.pcmpLt i rd ra rb)
    | 0x03 => some (.pcmpGe i rd ra rb)
    | 0x04 => some (.pcmpLtu i rd ra rb)
    | 0x05 => some (.pcmpGeu i rd ra rb)
    | _ => none
  | 0x04 => some (.addi i rd ra imm)
  | 0x05 => some (.andi i rd ra imm)
  | 0x06 => some (.ori i rd ra imm)
  | 0x07 => some (.lih i rd ra imm)
  | 0x09 =>
    match f.toNat with
    | 0x0 => some (.vopAdd i ty rd ra rb)
    | 0x1 => some (.vopSub i ty rd ra rb)
    | 0x2 => some (.vopMul i ty rd ra rb)
    | 0x3 => some (.vopMin i ty rd ra rb)
    | 0x4 => some (.vopMax i ty rd ra rb)
    | 0x5 => some (.vopFma i ty rd ra rb)
    | 0x6 => some (.vopAnd i ty rd ra rb)
    | 0x7 => some (.vopOr i ty rd ra rb)
    | 0x8 => some (.vopXor i ty rd ra rb)
    | 0x9 => some (.vopShl i ty rd ra rb)
    | 0xA => some (.vopShr i ty rd ra rb)
    | 0xB => some (.vopExp i ty rd ra rb)
    | _ => none
  | 0x0A => some (.vcvt i fn rd ra rb)
  | 0x0B =>
    match f.toNat with
    | 0x0 => some (.vredSum i ty rd ra rb)
    | 0x1 => some (.vredMax i ty rd ra rb)
    | 0x2 => some (.vredMin i ty rd ra rb)
    | _ => none
  | 0x0C =>
    match fn.toNat with
    | 0x00 => some (.vget i rd ra rb)
    | 0x01 => some (.vput i rd ra rb)
    | 0x02 => some (.vbcast i rd ra rb)
    | _ => none
  | 0x10 => some (.ld i rd ra sz off9)
  | 0x11 => some (.lds i rd ra sz off9)
  | 0x12 => some (.st i rd ra sz off9)
  | 0x13 => some (.vld i rd ra sz off9)
  | 0x14 => some (.vst i rd ra sz off9)
  | 0x18 => some (.br i off22)
  | 0x19 => some (.call i off22)
  | 0x1A => some (.jr i rd ra rb fn)
  | 0x20 =>
    match aop.toNat with
    | 0x00 => some (.atomLd i rd ra ord wd)
    | 0x01 => some (.atomSt i rd ra ord wd)
    | 0x02 => some (.atomSwap i rd ra ord wd)
    | 0x03 => some (.atomCas i rd ra ord wd)
    | 0x04 => some (.atomAdd i rd ra ord wd)
    | 0x05 => some (.atomAnd i rd ra ord wd)
    | 0x06 => some (.atomOr i rd ra ord wd)
    | 0x07 => some (.atomXor i rd ra ord wd)
    | 0x08 => some (.atomMin i rd ra ord wd)
    | 0x09 => some (.atomMax i rd ra ord wd)
    | 0x0A => some (.atomMinu i rd ra ord wd)
    | 0x0B => some (.atomMaxu i rd ra ord wd)
    | _ => none
  | 0x21 =>
    match xf.toNat with
    | 0x00 => some (.fenceB i rd ra ord)
    | 0x01 => some (.fenceN i rd ra ord)
    | 0x02 => some (.fenceG i rd ra ord)
    | _ => none
  | 0x22 =>
    match xf.toNat with
    | 0x00 => some (.barBay i rd ra ord)
    | 0x01 => some (.barNode i rd ra ord)
    | 0x02 => some (.barFabric i rd ra ord)
    | _ => none
  | 0x23 =>
    match xf.toNat with
    | 0x00 => some (.tissue i rd ra ord)
    | 0x01 => some (.twait i rd ra ord)
    | _ => none
  | 0x24 =>
    match xf.toNat with
    | 0x00 => some (.mq i rd ra ord)
    | 0x01 => some (.mwait i rd ra ord)
    | _ => none
  | 0x25 =>
    match xf.toNat with
    | 0x00 => some (.send i rd ra ord)
    | 0x01 => some (.recv i rd ra ord)
    | _ => none
  | 0x26 => some (.philox i rd ra ord xf)
  | 0x27 => some (.ctx i rd ra ord xf)
  | _ => none

/-- The thread instruction a word spells; none where R130 raises ILLEGAL_INSTR. -/
def decodeThreadWord (bay : Fin 80) (thread : Fin 128) (w : BitVec 32) : Option Instr :=
  match readThreadWord bay thread w with
  | some i => if i.threadLegal then some i else none
  | none => none

end Sys2Proof
end

