-- ==== Sys2Proof/Config.lean ====
section
/-! DEFINITION. What an implementation or a part fixes and the spec does not give, and the free values: opaque constants
with no body, so that nothing can be proved about their values. -/
namespace Sys2Proof

/-- A fresh value for the n-th thing the spec leaves open at run time; `State.freeCtr` counts them. -/
opaque Config.freeValue : Nat → BitVec 64
/-- The n-th number of the entropy source (session nonces, R301). -/
opaque Config.entropy : Nat → BitVec 64
/-- The vendor root public key in the boot ROM (R70), as x then y. -/
opaque Config.vendorKeyX : BitVec 384
opaque Config.vendorKeyY : BitVec 384
/-- The customer key hash held in fuses (R70, Table 20.3). -/
opaque Config.customerKeyHash : BitVec 384
/-- The identity seed held in fuses (R403). -/
opaque Config.identitySeed : BitVec 256
/-- The device serial (Table 20.3). -/
opaque Config.serial : BitVec 64
/-- The boot ROM version (Table 20.3). -/
opaque Config.romVersion : BitVec 32
/-- The SPDM certificate chain of slot 0 (R404), whose text the spec does not give. -/
opaque Config.certChain : List Byte
/-- The TAP STATUS register's content (R470) by instant. -/
opaque Config.tapStatus : Nat → BitVec 32
/-- Coefficient i of the sentinel's FIR filters (R410, SENT_FIR): the ROM's values are not in the spec's text. -/
opaque Config.firCoef : Nat → BitVec 32
/-- Energy of a band of the glass-break detector over the last frame of a beam's samples, in 0.1 dBFS (R415, R416): 0 the flex band
of a detector beam, 1 the shatter band of a wideband beam. The ROM's Butterworth coefficients are not in the spec's text. -/
opaque Config.bandEnergy : Nat → List Int → Int
/-- Goertzel energy of one frame at a frequency in Hz, in 0.1 dBFS (R415, R417); the spec does not give the filter's number format. -/
opaque Config.toneEnergy : Nat → List Int → Int

/-- SHA-384 of the vendor root certificate, whose text the spec does not give. -/
opaque Config.rootHash : BitVec 384

end Sys2Proof
end

