-- ==== Sys2Proof/Machine/Fec.lean ====
section
/-! DEFINITION. The line coding of a Truss direction: GF(2^10), the RS(544,514) code and its decoder, the lanes' scrambler, Gray-coded PAM4, and
streams of bits cut without regard to bytes (12, R289, R290). What R289 takes from IEEE 802.3 clause 119 is PRESUMED from that standard (log
entry 76). -/
namespace Sys2Proof.Machine
open Sys2Proof

/-! ## GF(2^10), with x^10 + x^3 + 1 -/

abbrev Sym := BitVec 10

def gfDouble (a : Sym) : Sym := if a.getLsbD 9 then (a <<< 1) ^^^ 0x009#10 else a <<< 1

def gfMul (a b : Sym) : Sym :=
  (List.range 10).foldl (fun acc i => gfDouble acc ^^^ (if b.getLsbD (9 - i) then a else 0)) 0

/-- α^n, with α = x. -/
def gfExp : Nat → Sym
  | 0 => 1
  | n + 1 => gfDouble (gfExp n)

/-- The inverse a^1022: the product of a^2, a^4 … a^512. -/
def gfInv (a : Sym) : Sym :=
  ((List.range 9).foldl (fun (x : Sym × Sym) _ => let q := gfMul x.1 x.1; (q, gfMul x.2 q)) (a, 1)).2

/-- The value of a polynomial, highest power first. -/
def gfEval (cs : List Sym) (x : Sym) : Sym := cs.foldl (fun acc c => gfMul acc x ^^^ c) 0

/-- The coefficient of x^i in a polynomial with its lowest power first. -/
def coef (cs : List Sym) (i : Nat) : Sym := cs.getD i 0

/-! ## The code (R289): parity of 30 symbols, roots α^0 to α^29 -/

/-- The generator polynomial without its leading 1, highest power first. -/
def rsGenerator : List Sym :=
  ((List.range 30).foldl (fun (g : List Sym) j =>
    let r := gfExp j
    (List.range (g.length + 1)).map fun i => coef g i ^^^ (if i = 0 then 0 else gfMul r (coef g (i - 1)))) [1]).drop 1

/-- The 30 parity symbols of a message. -/
def rsParity (m : List Sym) : List Sym :=
  m.foldl (fun (st : List Sym) c =>
    let fb := c ^^^ coef st 0
    (List.range 30).map fun i => coef st (i + 1) ^^^ gfMul fb (coef rsGenerator i)) (List.replicate 30 0)

def rsEncode (m : List Sym) : List Sym := m ++ rsParity m

def syndromes (r : List Sym) : List Sym := (List.range 30).map fun j => gfEval r (gfExp j)

/-- State of the Berlekamp–Massey recursion: the locator, its last form before a length change, its length, the shift and the discrepancy
then. -/
structure Massey where
  c : List Sym
  b : List Sym
  len : Nat
  shift : Nat
  disc : Sym
deriving DecidableEq, Repr

def Massey.step (syn : List Sym) (q : Massey) (n : Nat) : Massey :=
  let d := (List.range (q.len + 1)).foldl (fun acc i => acc ^^^ gfMul (coef q.c i) (if i ≤ n then coef syn (n - i) else 0)) 0
  if d = 0 then { q with shift := q.shift + 1 } else
  let k := gfMul d (gfInv q.disc)
  let c := (List.range (max q.c.length (q.b.length + q.shift))).map fun i =>
    coef q.c i ^^^ (if i < q.shift then 0 else gfMul k (coef q.b (i - q.shift)))
  if 2 * q.len ≤ n then { c := c, b := q.c, len := n + 1 - q.len, shift := 1, disc := d }
  else { q with c := c, shift := q.shift + 1 }

/-- The error locator, lowest power first. -/
def locator (syn : List Sym) : Massey :=
  (List.range 30).foldl (Massey.step syn) { c := [1], b := [1], len := 0, shift := 1, disc := 1 }

def evalLow (cs : List Sym) (x : Sym) : Sym := gfEval cs.reverse x

/-- The value of the error at the locator X (Forney), from the locator polynomial and the syndromes. -/
def errorValue (syn : List Sym) (q : Massey) (x xi : Sym) : Sym :=
  let omega := (List.range 30).map fun n =>
    (List.range (n + 1)).foldl (fun acc i => acc ^^^ gfMul (coef q.c i) (coef syn (n - i))) 0
  let deriv := (List.range q.c.length).map fun i => if i % 2 = 0 then coef q.c (i + 1) else 0
  gfMul x (gfMul (evalLow omega xi) (gfInv (evalLow deriv xi)))

/-- A received word of 544 symbols, corrected, with the indices of its wrong symbols; none where more than 15 are wrong (R290). -/
def rsDecode (r : List Sym) : Option (List Sym × List Nat) :=
  let syn := syndromes r
  if syn.all (· == 0) then some (r, []) else
  let q := locator syn
  if 15 < q.len then none else
  let errs := (List.range 544).filterMap fun i =>
    let x := gfExp (543 - i)
    let xi := gfInv x
    if evalLow q.c xi = 0 then some (i, errorValue syn q x xi) else none
  let fixed := errs.foldl (fun (l : List Sym) e => l.modify e.1 fun c => c ^^^ e.2) r
  if errs.length = q.len && (syndromes fixed).all (· == 0) then some (fixed, errs.map (·.1)) else none

/-! ## Streams of bits -/

/-- Bits in a row, the first the most significant; whether the codeword that brought them was correctable. -/
structure BitRun where
  len : Nat
  val : Nat
  good : Bool
deriving DecidableEq, Repr

def BitRun.empty : BitRun := { len := 0, val := 0, good := true }

/-- Append `n` bits. -/
def BitRun.push (r : BitRun) (n v : Nat) : BitRun := { r with len := r.len + n, val := r.val * 2 ^ n + v % 2 ^ n }

/-- The first `n` bits, and the rest. -/
def BitRun.take (r : BitRun) (n : Nat) : Nat × BitRun :=
  (r.val / 2 ^ (r.len - n), { r with len := r.len - n, val := r.val % 2 ^ (r.len - n) })

/-- Bits held in runs. -/
def runBits (rs : List BitRun) : Nat := (rs.map (·.len)).sum

/-- Take the first `n` bits of several runs: their value, whether all of them are good, and the runs left. -/
def takeRuns : Nat → List BitRun → Nat × Bool × List BitRun
  | _, [] => (0, true, [])
  | n, r :: rs =>
    if n = 0 then (0, true, r :: rs)
    else if r.len ≤ n then
      let x := takeRuns (n - r.len) rs
      (r.val * 2 ^ (n - r.len) + x.1, r.good && x.2.1, x.2.2)
    else
      let t := r.take n
      (t.1, r.good, t.2 :: rs)

/-- The symbols of `n` times ten bits, first symbol first, and back. -/
def symsOf (n v : Nat) : List Sym := (List.range n).map fun i => BitVec.ofNat 10 (v / 2 ^ (10 * (n - 1 - i)))
def symsVal (l : List Sym) : Nat := l.foldl (fun acc c => acc * 1024 + c.toNat) 0

/-! ## Lanes: scrambler and levels -/

/-- One step of x^31 + x^28 + 1. -/
def prbsStep (p : BitVec 31) : Bool × BitVec 31 :=
  let b := p.getLsbD 30 ^^ p.getLsbD 27
  (b, (p <<< 1) ||| BitVec.ofNat 31 b.toNat)

/-- The next `n` bits of a scrambler, the first the most significant. -/
def prbsBits : Nat → BitVec 31 → Nat × BitVec 31
  | 0, p => (0, p)
  | n + 1, p =>
    let x := prbsBits n p
    let y := prbsStep x.2
    (2 * x.1 + y.1.toNat, y.2)

/-- The seeds at the start of ALIGN: lane index + 1. -/
def prbsSeeds : List (BitVec 31) := (List.range 17).map fun l => BitVec.ofNat 31 (l + 1)

/-- Gray code: 00, 01, 11, 10 give levels 0 to 3. -/
def grayLevel (b : BitVec 2) : BitVec 2 := if b = 2 then 3 else if b = 3 then 2 else b

/-- The two bits of unit interval k of a number of `n` unit intervals. -/
def uiBits (n v k : Nat) : BitVec 2 := BitVec.ofNat 2 (v / 4 ^ (n - 1 - k))

/-- The symbols of logical lane i of W: i, i + W, i + 2W, … -/
def laneSyms (w i : Nat) (cw : List Sym) : List Sym := (List.range (544 / w)).map fun k => coef cw (i + w * k)

/-- What a lane sends for its symbols: levels, and its scrambler afterwards. -/
def laneLevels (p : BitVec 31) (l : List Sym) : List (BitVec 2) × BitVec 31 :=
  let n := 5 * l.length
  let x := prbsBits (2 * n) p
  let v := symsVal l ^^^ x.1
  ((List.range n).map fun k => grayLevel (uiBits n v k), x.2)

/-- The symbols that a lane's levels stand for, with an inverted lane's levels turned over first, and its scrambler afterwards. -/
def laneRead (p : BitVec 31) (inverted : Bool) (ls : List (BitVec 2)) : List Sym × BitVec 31 :=
  let n := ls.length
  let x := prbsBits (2 * n) p
  let v := ls.foldl (fun acc u => acc * 4 + (grayLevel (if inverted then ~~~u else u)).toNat) 0
  (symsOf (n / 5) (v ^^^ x.1), x.2)

end Sys2Proof.Machine
end

