-- ==== Sys2Proof/Machine/Records.lean ====
section
/-! DEFINITION. The records the machine's state is made of, one group for each chapter of the spec. Every field is plain
data. Device times are natural numbers of nanoseconds; a 64-bit register that reports one shows it modulo 2^64. -/
namespace Sys2Proof.Machine
open Sys2Proof

/-! ## Clocks, resets and power (02, 19, 20) -/

/-- The power states of Table 2.8. -/
inductive PState where
  | p0 | p1 | p2 | p3 | p4
deriving DecidableEq, Repr

/-- A divider step in progress (R40): the divider code it goes to and the voltage it has sent. A step to a lower frequency has
switched the divider already; a divider asked for meanwhile is taken when the step ends (R64). -/
structure DivStep where
  target : Nat
  mv : Nat
deriving DecidableEq, Repr

/-- One tile's divider (code 0 for ÷4, 1 ÷5, 2 ÷6, 3 ÷8, 4 ÷16), voltage and gating (R38-R42, R57, R113). -/
structure TileClk where
  div : Nat
  gated : Bool
  powered : Bool
  avsTarget : Nat
  confirmed : Nat
  /-- a rise waiting for its voltage -/
  step : Option DivStep
  /-- the limit R42 left, a divider code; 0 is none -/
  limit : Nat
  /-- the hard hold of R113, or of R122 when every sensor is excluded -/
  hold : Bool
  sensorsLost : Bool
deriving DecidableEq, Repr

/-- The reset in progress or asked for, broadest last (R49). -/
inductive ResetReq where
  | none
  | warm (cause : Nat)
  | cold (cause : Nat)
deriving DecidableEq, Repr

/-- A host write held back in P3 (R60). -/
structure HeldTlp where
  f : Fin 16
  win : Window
  offset : Nat
  width : Nat
  value : BitVec 64
  dma : Option (List Byte)
deriving DecidableEq, Repr

/-- A request to the PF's DOE mailbox (R382): DOE Discovery, the seven SPDM requests of Table 0.3, or any other SPDM code. -/
inductive DoeReq where
  | discovery (index : BitVec 8)
  | version
  | capabilities
  | algorithms (ecdsaP384 sha384 : Bool)
  | digests
  | certificate (slot : BitVec 8) (offset length : BitVec 16)
  | challenge (slot : BitVec 8) (nonce : BitVec 256)
  | measurements (index : BitVec 8) (sign : Bool) (nonce : BitVec 256)
  | other (code : BitVec 8)
deriving DecidableEq, Repr

/-- A host TLP that the PCIe wake logic holds in P3 (R60). -/
inductive Held where
  | tlp (h : HeldTlp)
  | doe (r : DoeReq)
  | config (w : ConfigWrite)
  /-- a request that Table 0.3 does not list (R4) -/
  | foreign (f : Fin 16)
  | flr (f : Fin 16)
deriving DecidableEq, Repr

/-- Clock tree, resets, button and power state (02; Tables 20.5 to 20.9). -/
structure Clk where
  pwrOk : Bool
  devTime : Nat
  /-- fraction accumulator, in 1/96,000,000 ns (R39) -/
  frac : Nat
  refQualified : Bool
  refLost : Bool
  refDrift : Bool
  refFast : Bool
  pllEnabled : Bool
  pllLocked : Bool
  aonOnRc : Bool
  timeDegraded : Bool
  glitches : Nat
  glitchTimes : List Nat
  resetCause : Nat
  resetWarm : Bool
  btnStuck : Bool
  warmCount : Nat
  /-- SYS_RST_N holds the device in cold reset -/
  heldInReset : Bool
  /-- the reset that is due and not yet performed (R49) -/
  pendingReset : ResetReq
  warmInProgress : Bool
  /-- WARM_RESET: the time 100 µs after posting (Table 14.4) -/
  warmAt : Option Nat
  btnDown : Bool
  btnIgnored : Bool
  /-- P3 entry has begun: tails are parked, the ports drain, the anchor is being written; clocks and rails still run (R58, R91, R315) -/
  p3Entering : Bool
  /-- a button release in P3 that becomes a warm reset after the exit (R56) -/
  warmAfterP3 : Bool
  /-- the REF_LOST whose end performs a warm reset with CLOCK_LOSS (R48) -/
  clockLoss : Bool
  thermtrip : Bool
  pstate : PState
  p2Since : Option Nat
  idleSince : Option Nat
  wakeCause : BitVec 5
  wakePorts : BitVec 12
  wakeLatched : Bool
  p3Count : Nat
  /-- host TLPs held back in P3, oldest first -/
  held : List Held
  railLowUntil : Option Nat
  aonTimerAt : Option Nat
  tiles : List TileClk
deriving DecidableEq, Repr

/-- Input levels sampled and output levels driven (Table 19.2); the SMBus target and the TAP (R383, R470). -/
structure Pins where
  thermtripN : Bool
  fatalN : Bool
  wakeOutN : Bool
  swRailEn : Bool
  micPwrEn : Bool
  muteLed : Bool
  pdmClk : Bool
  cxlPerstN : List Bool
  muteSwN : Bool
  perstN : Bool
  straps : Straps
  tapIr : TapInstr
  tapOut : BitVec 32
  smbOut : List Byte
  smbSdaHeld : Bool
deriving DecidableEq, Repr

/-! ## Configuration (03, 04, 08 to 10, 12, 13, 16, 18): the retention-SRAM copy -/

/-- A section-table entry (Table 3.3). -/
structure SectionEntry where
  type : Nat
  inst : Nat
  offset4k : Nat
  length : Nat
  hash : BitVec 384
deriving DecidableEq, Repr

/-- The fields of the image header that the device keeps (Table 3.2). -/
structure ImageHeader where
  sequence : Nat
  imageBytes : Nat
  svn : Nat
  numericGen : Nat
  buildStamp : Nat
  fwVersion : Nat
  imageHash : BitVec 384
  sections : List SectionEntry
deriving DecidableEq, Repr

/-- One class entry of Table 4.4. -/
structure ClassPolicy where
  maxShare : Nat
  maxBays : Nat
deriving DecidableEq, Repr

/-- The POLICY section (R119). -/
structure Policy where
  capW : Nat
  softC : Nat
  hardC : Nat
  hbmC : Nat
  ewmaShift : Nat
  tileMaxDiv : List Nat
  idleDwellUs : Nat
  p3Enable : Bool
  p3DwellMs : Nat
  aonTimerS : Nat
  classes : List ClassPolicy
deriving DecidableEq, Repr

/-- One tenant entry (Table 10.7). -/
structure TenantCfg where
  present : Bool
  enabled : Bool
  weight : Nat
  failPolicy : Bool
  res : List Nat
  lim : List Nat
deriving DecidableEq, Repr

/-- One stream-class entry (Table 8.4). -/
structure StreamClass where
  present : Bool
  slotSize : Nat
  form : Nat
  fmtS : Nat
  h : Nat
  slotsPerBay : Nat
  idleMs : Nat
deriving DecidableEq, Repr

/-- One tenant's stream placement (R198) and KV fields (Table 9.5). -/
structure TenantPlace where
  streamTier : Nat
  poolBytes : Nat
  kvStreams : Nat
  kvPoolBytes : Nat
deriving DecidableEq, Repr

/-- The PERSONALITY section (R499). -/
structure Personality where
  weightBytes : Nat
  t2ExpectGib : Nat
  classes : List StreamClass
  places : List TenantPlace
  landingKib : Nat
  kvIdleMs : Nat
  plumbIntervalS : Nat
  scrubHours : Nat
  marginScan : Bool
deriving DecidableEq, Repr

/-- One port entry (Table 12.7). -/
structure PortCfg where
  mode : Nat
  listen : Bool
  farLoopAllow : Bool
  spareEnable : Bool
  minWidth : Nat
  minRate : Nat
  weakMargin : Nat
  critMargin : Nat
  hyst : Nat
  restoreS : Nat
deriving DecidableEq, Repr

/-- One placement entry (Table 13.7). -/
structure PlaceEntry where
  program : Nat
  any : Bool
  stage : Nat
  cand : List Nat
deriving DecidableEq, Repr

/-- The FABRIC section (R320). -/
structure FabricCfg where
  automatic : Bool
  nodeId : Nat
  fabricId : Nat
  settleUs : Nat
  timeMasterOk : Bool
  ports : List PortCfg
  places : List PlaceEntry
deriving DecidableEq, Repr

/-- A shape-class entry (Table 3.15). -/
structure ShapeClass where
  maxContext : Nat
  maxF0 : Nat
  maxLeaves : Nat
  maxSteps : Nat
  maxBranch : Nat
  kindFrames : Bool
  kindStream : Bool
  rIn : Nat
  rOut : Nat
deriving DecidableEq, Repr

/-- A stage entry (Table 3.16, Table 9.1). -/
structure StageCfg where
  layersKv : Nat
  kvFmt : Nat
  d : Nat
  appendMax : Nat
  ctxPerEvent : Nat
  persist : Bool
  slotsPerTask : Nat
  cell : Bool
deriving DecidableEq, Repr

/-- A stage demand entry (R252). -/
structure Demand where
  t1Fix : Nat
  t1PerFuture : Nat
  t1PerRecord : Nat
  t2Fix : Nat
  t2PerFuture : Nat
  t2PerRecord : Nat
deriving DecidableEq, Repr

/-- A work-unit template (Table 4.2). -/
structure Template where
  stage : Nat
  shapeClass : Nat
  memBound : Bool
  context : Bool
  bayTasks : Nat
  eFixed : Nat
  ePerFuture : Nat
  dFixed : Nat
  dPerFuture : Nat
  entry : Nat
deriving DecidableEq, Repr

/-- A program of the image (R500, R501), with the code base of R502 and the digest of R346. -/
structure Program where
  number : Nat
  chained : Bool
  codec : Nat
  audioInput : Bool
  streamClass : Option Nat
  classes : List ShapeClass
  stages : List StageCfg
  demands : List Demand
  templates : List Template
  objects : List Nat
  codeBase : Nat
  codeLen : Nat
  digest : BitVec 128
deriving DecidableEq, Repr

/-- An entry of the coded-weight list (R274). -/
structure CodedWeight where
  objectId : Nat
  wide : Bool
  firstUnit : Nat
  units : Nat
deriving DecidableEq, Repr

/-- A manifest entry (Table 3.7). -/
structure ManifestEntry where
  objectId : Nat
  fromPeer : Bool
  fromHost : Bool
  bytes : Nat
  hostAddr : Nat
  t1Offset : Nat
  hash : BitVec 384
deriving DecidableEq, Repr

/-- A tone definition (Table 16.4). -/
structure Tone where
  freqHz : Nat
  beams : BitVec 4
  iso8201 : Bool
  thr : Nat
  tolPct : Nat
  repeats : Nat
  segMs : List Nat
deriving DecidableEq, Repr

/-- One channel's calibration (Table 16.2). -/
structure ChanCfg where
  gainCdb : Int
  phase : Nat
  fitted : Bool
deriving DecidableEq, Repr

/-- The SENTINEL section (R414). -/
structure SentCfg where
  glass : Bool
  tones : Bool
  wakeReq : Bool
  unlockS : Nat
  postMs : Nat
  wakePulseMs : Nat
  deadCdb : Int
  selfCheckS : Nat
  chans : List ChanCfg
  delays : List (List Nat)
  weights : List (List Int)
  glassBeams : BitVec 4
  flexThr : Nat
  flexMinMs : Nat
  shatterThr : Nat
  shatterMinMs : Nat
  winMinMs : Nat
  winMaxMs : Nat
  toneDefs : List Tone
  wakeDesc : List Byte
deriving DecidableEq, Repr

/-- The configuration that R85 locks. -/
structure Cfg where
  header : ImageHeader
  voltage : List (List Nat)
  policy : Policy
  tenants : List TenantCfg
  pers : Personality
  fabric : FabricCfg
  programs : List Program
  codedWeights : List CodedWeight
  manifest : List ManifestEntry
  sentinel : Option SentCfg
  /-- the end of the programs region of T1 (R502) -/
  programsEnd : Nat
deriving DecidableEq, Repr

/-! ## Boot and flash (03) -/

/-- Where the cold power-up stands (Table 2.10). -/
inductive BootPhase where
  /-- PWR_OK low -/
  | off
  /-- SYS_RST_N held low -/
  | held
  | refWait
  | pllWait
  | bist
  | verify
  | hbm
  | weights
  | ready
  | safe
  /-- STRAP_TAP_EN set: boundary-scan mode (Table 19.3) -/
  | scan
deriving DecidableEq, Repr

/-- The audit anchor of Table 3.9. -/
structure Anchor where
  reason : Nat
  recno : Nat
  recHash : BitVec 384
  imageSeq : Nat
deriving DecidableEq, Repr

/-- One flash operation (R79, R80, R81, R91). -/
inductive FlashOp where
  | erase (addr : Nat)
  | program (addr : Nat) (bytes : List Byte)
  | readBack (addr : Nat) (last : Bool)
  | anchorErase (addr : Nat)
  | anchorWrite (addr : Nat) (a : Anchor)
  | control (addr : Nat) (bytes : List Byte)
  /-- the reads that COMMIT_IMAGE's checks of a staged slot make (R80) -/
  | verify (slot : Nat)
  /-- the COMMITTED record of COMMIT_IMAGE -/
  | commit (addr : Nat) (bytes : List Byte) (sequence : Nat)
deriving DecidableEq, Repr

/-- How far a manifest object has come (R83, R84, R274). -/
inductive WeightState where
  | pending
  /-- the fabric peer did not serve it; the host store is next -/
  | hostNext
  | coding
  | verified
  | failed
deriving DecidableEq, Repr

/-- A mailbox command waiting or running (R375). -/
structure MbxJob where
  f : Fin 16
  id : Nat
  seq : BitVec 16
  args : List Byte
  dma : Option (List Byte)
deriving DecidableEq, Repr

/-- Boot state, BOOT registers and the boot flash (03). -/
structure Boot where
  phase : BootPhase
  /-- the boot flash, sparse: address and byte, rising; an unlisted byte is erased, 0xFF -/
  flash : List Host.Cell
  activeSlot : Nat
  fallback : Bool
  locked : Bool
  weightsDone : Bool
  failA : Nat
  failB : Nat
  fuseFloor : Nat
  lockViol : Nat
  weights : List WeightState
  /-- objects a warm reset is fetching again (R84) -/
  retrying : Bool
  anchorRecno : Nat
  flashBusy : Option FlashOp
  flashQueue : List FlashOp
  /-- the reset that follows a SAFE-mode COMMIT_IMAGE (R77) -/
  commitResetAt : Option Nat
  /-- the identity key is derived (R403, R458) -/
  keyReady : Bool
  /-- the configuration of the slot that passed, until it is applied (R85) -/
  verified : Option Cfg
deriving DecidableEq, Repr

/-! ## Live tunables and the Steward (03, 04) -/

structure ShadowVal where
  id : Nat
  value : Nat
  posted : Nat
deriving DecidableEq, Repr

structure Tun where
  powerCap : Nat
  weight : List Nat
  limit : List (List Nat)
  enable : List Bool
  counterWindow : Nat
  snapInterval : Nat
  shadow : List ShadowVal
  gen : Nat
deriving DecidableEq, Repr

/-- The carry of a memory-bound work unit (R109). -/
structure Carry where
  home : Nat
  wu : WuKey
  owed : Nat
  perWindow : Nat
deriving DecidableEq, Repr

structure Stew where
  windowSeq : Nat
  bEff : Nat
  remain : Int
  overdraft : Nat
  carries : List Carry
  used : List Nat
  pressured : Bool
  pressCount : Nat
  relaxCount : Nat
  pressureDiv : Nat
  kE : List Nat
  kD : List Nat
  /-- Q4.12 gain of each rail's estimator: VDD_TILE[0] to [3], then the nine other rails of Table 19.4 in its order -/
  gain : List Nat
  /-- energy of the window in progress that a recalibration has already taken: in all, and of no work unit -/
  winEnergy : Nat
  winBase : Nat
  lastRecal : Nat
  vrmStale : Bool
  cur : List Int
  thermT : Nat
  tmax : Int
  tmaxIdx : Nat
  sensors : List (Option Int)
  hbmStep : List Nat
  hbmTemp : List Nat
  hbm2x : List Bool
  hbmSelfRef : List Bool
  t0 : Nat
  tokens : List Nat
  /-- tiles' arrays waiting for a ramp token, longest first -/
  tokenWait : List (List (Fin 80))
  tokensOut : List Nat
  moduleW : Nat
deriving DecidableEq, Repr

/-! ## Requests and work units (01) -/

inductive Phase where
  | waiting13
  | tokens
  | context
  | rolling
  | draining
  | commit
  | complete
deriving DecidableEq, Repr

/-- Which resource R11 and R367 hold for the request's audit record. -/
inductive SlotKind where
  | ring
  | hold
deriving DecidableEq, Repr

/-- Who may get the reservation the request waits for next: the node list still to be asked (R255). -/
structure PlacedItem where
  node : Nat
  kind : ItemKind
  base : Nat
  size : Nat
deriving DecidableEq, Repr

/-- A request (Table 1.1): everything the device keeps of a descriptor it fetched. -/
structure Req where
  asn : Nat
  f : Fin 16
  desc : List Byte
  phase : Phase
  status : Nat
  detail : Nat
  genStart : Nat
  tunChanged : Bool
  replayed : Bool
  streamCommitted : Bool
  timeStart : Nat
  timeEnd : Nat
  /-- settled epoch and wall-clock offset at completion (R395) -/
  epochEnd : Nat
  wallEnd : BitVec 64
  slot : SlotKind
  /-- set when check 12 passed (R396) -/
  formation : Option Formation
  /-- nodes still to be asked for a token, in ascending order (R255) -/
  askNodes : List Nat
  heldTokens : List Nat
  bases : List PlacedItem
  inputFetched : Bool
  failed : Bool
  deadlinePassed : Bool
  outWritten : Nat
  stepsCopied : Nat
  outBytes : List Byte
  energy : Nat
  clockDegraded : Bool
  leaseHeld : Bool
  /-- a lease was granted to it at some time (R396) -/
  tookLease : Bool
  verIn : Nat
  swapWait : Bool
  /-- the slot that holds the pending state, as (bay, slot) (R202) -/
  pendingSlot : Option (Nat × Nat)
  /-- the residency slot of the stream, as (bay, slot) -/
  residency : Option (Nat × Nat)
  /-- with the cell stage on another node: the addresses there of the residency slot and the two pending slots (log entry 72) -/
  cellSlots : List Nat
  /-- the backing pair reserved at check 13 for a stream that has none (R204) -/
  backing : Option Nat
  kvLost : Nat
  wake : Bool
  /-- refused for its epoch: it waits for this node's next settle (R348) -/
  awaitSettle : Bool
  /-- stages whose replay waits for a token (R351) -/
  lost : List Nat
  /-- an output or input job of this request waits or runs in the hub -/
  jobOut : Bool
deriving DecidableEq, Repr

/-- A bay task of a work unit, or the work unit that a node runs for a home node. -/
structure RunWu where
  key : WuKey
  home : Nat
  f : Fin 16
  program : Nat
  shapeClass : Nat
  cls : Nat
  /-- (bay task index, bay) of the tasks not yet ended, and of all -/
  bays : List (Nat × Fin 80)
  ended : List Nat
  charge : Nat
  div : Nat
  /-- s[d] of the tile that priced it (R100, R101) -/
  scale : Nat
  cdur : Nat
  raw : Nat
  rawD : Nat
  started : Nat
  measured : Nat
  kvDone : Bool
deriving DecidableEq, Repr

structure Reqs where
  nextAsn : Nat
  table : List Req
  running : List RunWu
  /-- (home, work unit) run to completion on this node, or reported to it (R12) -/
  doneWu : List (Nat × WuKey)
  doneQ : List Nat
  quiesced : Bool
  quiesceWait : Option (Fin 16 × BitVec 16)
  wakePending : Bool
deriving DecidableEq, Repr

/-! ## Bays (05, 06, 07, 10) -/

/-- A thread exception or unit fault: code of Table 5.9, status and DETAIL. -/
structure FaultInfo where
  exc : Nat
  status : Nat
  detail : Nat
deriving DecidableEq, Repr

/-- One line of a store buffer: the line's global address, the bytes stored, and the thread and pc of the store that began it. -/
structure BufLine where
  addr : Nat
  bytes : List (Option Byte)
  thread : Fin 128
  pc : Word
deriving DecidableEq, Repr

/-- The scopes of R138: a release synchronises with the observers of its scope. -/
inductive Scope where
  | bay | node | fabric
deriving DecidableEq, Repr

/-- What an instruction waits for before it issues again (R126). -/
inductive WaitOn where
  /-- a loaded value: (vector, number) -/
  | value (k : Bool × Nat)
  /-- room in the store buffer for a line -/
  | room (line : Nat)
  /-- a release: earlier accesses not yet effective in its scope -/
  | accesses (scope : Scope)
  | tile (tag : Nat)
  | move (tag : Nat)
  /-- an empty mailbox of its own -/
  | message
  /-- a full mailbox -/
  | mailbox (bay : Fin 80) (thread : Fin 128)
deriving DecidableEq, Repr

/-- Why a thread is not ready (R126). A thread in `retry` issues the same instruction again once what it waits for has come; the
others are released by the event they wait for. -/
inductive Wait where
  | ready
  | retry (on : WaitOn)
  | barrier
  | remote
  | stopped
deriving DecidableEq, Repr

structure Thread where
  pc : Word
  g : List Word
  v : List (BitVec 512)
  p : BitVec 8
  buf : List BufLine
  mbox : List (BitVec 512)
  exited : Bool
  wait : Wait
  /-- registers that remote loads will fill: (vector, number) -/
  pend : List (Bool × Nat)
  tileFault : Option FaultInfo
  moveFault : Option FaultInfo
deriving DecidableEq, Repr

/-- The bay task a bay runs (R124, Table 5.5). -/
structure Task where
  wu : WuKey
  home : Nat
  f : Fin 16
  program : Nat
  idx : Nat
  tasks : Nat
  waveFirst : Nat
  waveN : Nat
  args : Nat
  started : Nat
  limit : Nat
  /-- energy that a recalibration during the task has already taken -/
  energy : Nat
deriving DecidableEq, Repr

inductive LastTenant where
  | none
  | unknown
  | tenant (t : Fin 16)
deriving DecidableEq, Repr

/-- A barrier slot with a generation in progress (R145). -/
structure Barrier where
  count : Nat
  arrived : Nat
  waiting : List (Fin 80 × Fin 128)
deriving DecidableEq, Repr

structure QEntry where
  tag : Nat
  thread : Fin 128
  desc : List Byte
deriving DecidableEq, Repr

/-- The output of a producer that awaits its consumer (R172, R173): extents, format and FMT_OUT bits by row. -/
structure Drain where
  m : Nat
  n : Nat
  mValid : Nat
  nValid : Nat
  fmt : Nat
  rows : List (List Nat)
  /-- where NONE fusion has written it (R173) -/
  addr : Nat
  stride : Nat
  failed : Option FaultInfo
deriving DecidableEq, Repr

/-- The instruction in the array: what it will have written when its tag completes. -/
structure RunTile where
  entry : QEntry
  /-- address and bytes of each output row -/
  outs : List (Nat × List Byte)
  failed : Option FaultInfo
  producer : Option Drain
deriving DecidableEq, Repr

inductive Ramp where
  | off | up | active | down
deriving DecidableEq, Repr

/-- What a READ of a mover has brought: global address, STATUS, DETAIL, the tag of its unit and whether the tag could be read, and the bytes up
to a line that could not be read. -/
structure RemotePiece where
  addr : Nat
  status : Nat
  detail : Nat
  tag : BitVec 16
  tagBad : Bool
  data : List Byte
deriving DecidableEq, Repr

structure Mover where
  queue : List QEntry
  /-- the entry at the head has run: its failure, if any -/
  ran : Option (Option FaultInfo)
  /-- a failure after which later entries are not started (R248) -/
  halted : Option FaultInfo
  /-- the READs of the entry at the head were sent, and what has arrived -/
  asked : Bool
  remote : List RemotePiece
deriving DecidableEq, Repr

/-- A landing slot (R219, R228). -/
inductive Landing where
  | free
  | bound (record : Nat) (row layer fill : Nat)
  | resident (tenant : Fin 16) (stream program stage layer fill : Nat)
deriving DecidableEq, Repr

structure Bay where
  threads : List Thread
  /-- lines that a release at bay scope has made visible to the bay, and to no other observer yet (R138) -/
  shared : List BufLine
  /-- thread (0 to 7 of the core) each core issued last -/
  rr : List Nat
  task : Option Task
  lastTenant : LastTenant
  barriers : List (Option Barrier)
  tileQueue : List QEntry
  tileIssued : Nat
  tileFailed : List (Nat × FaultInfo)
  running : Option RunTile
  drain : Option Drain
  ramp : Ramp
  /-- device time at which the ramp began -/
  rampAt : Nat
  rowGroups : Nat
  maxLag : Nat
  movers : List Mover
  moveIssued : Nat
  moveFailed : List (Nat × FaultInfo)
  fenced : Bool
  plumbHeld : Bool
  landing : List Landing
  windowRows : Nat
deriving DecidableEq, Repr

/-- The hub barrier unit (R145, R345). -/
structure NodeBar where
  home : Nat
  wu : WuKey
  slot : Nat
  bar : Barrier
deriving DecidableEq, Repr

structure FabricBar where
  home : Nat
  asn : Nat
  slot : Nat
  generation : Nat
  bar : Barrier
  /-- at the home node: arrivals reported by each node -/
  byNode : List (Nat × Nat)
  /-- local arrivals not yet sent to the home, and when the last batch went (R345) -/
  unsent : Nat
  sentAt : Option Nat
deriving DecidableEq, Repr

structure Bars where
  node : List NodeBar
  fabric : List FabricBar
deriving DecidableEq, Repr

/-! ## Memory, quotas and codec (10, 11) -/

/-- An interval of granules, both ends included. -/
structure GranRange where
  lo : Nat
  hi : Nat
deriving DecidableEq, Repr

structure Mem where
  /-- T0, T1 and T2 of this node, sparse, addresses rising; an unlisted byte reads 0 -/
  cells : List Host.Cell
  /-- poisoned 64-byte lines (line addresses), and bay SRAM lines holding an uncorrectable error -/
  poison : List Nat
  /-- lines with a corrected error to be met by the next read -/
  ceLines : List Nat
  fresh : List GranRange
  tags : List (Nat × BitVec 16)
  granCe : List (Nat × Nat)
  bayCe : List (Nat × Nat)
  retired : List Nat
  remap : List (Nat × Nat)
  spareUsed : Nat
  /-- spare granules handed out so far: a granule of the allowance takes the place of one address only (R262) -/
  spareNext : Nat
  /-- byte ranges withdrawn from the tenant region by R453 -/
  withdrawn : List GranRange
  fencedPc : List Nat
  stackCe : List Nat
  stackRetired : List Nat
  unitsCoded : Nat
  unitsRaw : Nat
  linesSaved : Nat
  widthFaults : Nat
  hubCodecFenced : BitVec 32
deriving DecidableEq, Repr

/-- A byte-sized grant on this node (R253, R254). -/
structure Grant where
  asn : Nat
  home : Nat
  tenant : Fin 16
  tier : Nat
  kind : ItemKind
  base : Nat
  size : Nat
deriving DecidableEq, Repr

/-- A fixed allocation (R507). -/
inductive FixedKind where
  | streamDir
  | streamPool
  | kvDir (program stage : Nat)
  | kvPool (program stage : Nat)
deriving DecidableEq, Repr

structure Fixed where
  tenant : Fin 16
  tier : Nat
  kind : FixedKind
  base : Nat
  size : Nat
deriving DecidableEq, Repr

/-- A reservation token this node granted (R255). -/
structure TokenHeld where
  asn : Nat
  home : Nat
  number : Nat
  leaseEpoch : Nat
  tenant : Fin 16
  formation : Formation
  /-- the request's descriptor, which the stage node needs to run its work units (the model's own, log entry 12) -/
  desc : List Byte
  /-- the home has released it, and work units of the request still run here (R29) -/
  released : Bool
  /-- version of the request's stream at the home node, as the home has told it (log entry 21) -/
  version : Nat
deriving DecidableEq, Repr

structure Quota where
  used : List (List Nat)
  grants : List Grant
  fixed : List Fixed
  tokens : List TokenHeld
  nextToken : Nat
deriving DecidableEq, Repr

/-! ## Streams and KV (08, 09) -/

/-- Who owns a gallery slot that is not free (R197, R203). -/
inductive SlotOwner where
  | resident (tenant : Fin 16) (stream : Nat)
  | reserved (asn home : Nat)
deriving DecidableEq, Repr

structure GalSlot where
  cls : Nat
  bay : Fin 80
  slot : Nat
  owner : SlotOwner
deriving DecidableEq, Repr

/-- A swap-in in progress (R201). -/
structure Swap where
  tenant : Fin 16
  stream : Nat
  asn : Nat
  cls : Nat
  bay : Fin 80
  slot : Nat
  /-- the node of the cell stage, and whether the state has been sent there (log entry 72) -/
  node : Nat
  sent : Bool
deriving DecidableEq, Repr

structure Streams where
  slots : List GalSlot
  swaps : List Swap
  /-- scheduler epochs since cold reset, the count of TOUCH (Table 8.5) -/
  epochCount : Nat
  /-- next unused byte of each (tenant) backing pool -/
  poolNext : List (Fin 16 × Nat)
  /-- backing pairs returned uncommitted: tenant, address, slot size -/
  poolFree : List (Fin 16 × Nat × Nat)
  /-- the retention-SRAM list of entries with RES set (R210) -/
  resident : List (Fin 16 × Nat)
  /-- entries with RES set for a slot of another node, held by the request whose cell stage runs there (log entry 72) -/
  away : List (Fin 16 × Nat)
  /-- requests whose phase 1 was acknowledged (R205) -/
  phase1 : List Nat
deriving DecidableEq, Repr

/-- A sequence record (R215). `id` is its own number. Pages and tails are addresses in T1 or, for a tail held resident, in the
landing slot that holds it. -/
structure KvRec where
  id : Nat
  asn : Nat
  home : Nat
  stage : Nat
  /-- branch points passed and logical index; none for the context record -/
  future : Option (Nat × Nat)
  parent : Option Nat
  inherit : Nat
  length : Nat
  pages : List (List Nat)
  /-- the two tail blocks of each layer -/
  blocks : List (Nat × Nat)
  /-- the committed tail of each layer: the block that holds it and its fill -/
  tail : List (Option (Nat × Nat))
  everBound : List Bool
  live : Bool
  /-- PERSIST context record: tenant, stream, program, and positions already committed in the pool -/
  stream : Option (Fin 16 × Nat × Nat × Nat)
  /-- bay and first slot of a tail held resident (R228) -/
  held : Option (Fin 80 × Nat)
  /-- first pool block of tails parked under R230 -/
  poolBlock : Option Nat
deriving DecidableEq, Repr

/-- What a work unit has appended to one (ROW, LAYER) and not yet committed (R217, R221). -/
structure KvWork where
  wu : WuKey
  home : Nat
  record : Nat
  row : Nat
  layer : Nat
  bay : Fin 80
  slot : Nat
  /-- a descriptor of the bay task has named it; false for a slot that only the run of R230 took -/
  named : Bool
  /-- whether the record had been bound for the layer before this work unit (R219, R222) -/
  before : Bool
  appended : Nat
  newPages : List Nat
  /-- address and fill of the tail parked at the end of the bay task -/
  parked : Option (Nat × Nat)
deriving DecidableEq, Repr

/-- The node whose T1 holds a stream's sequence of a PERSIST stage (R233): kept by the stream's home; 0xFE is this node. -/
structure KvAt where
  tenant : Fin 16
  stream : Nat
  program : Nat
  stage : Nat
  node : Nat
deriving DecidableEq, Repr

/-- A resident tail (R228, R232): the retention-SRAM list, with the stream's home where that is another node, the version of the directory
half that names the tail, and the epoch count when it became resident. -/
structure ResTail where
  home : Option Nat
  version : Nat
  since : Nat
  tenant : Fin 16
  stream : Nat
  program : Nat
  stage : Nat
  bay : Fin 80
  first : Nat
deriving DecidableEq, Repr

structure Kv where
  records : List KvRec
  work : List KvWork
  residents : List ResTail
  places : List KvAt
  nextRec : Nat
  pagesUsed : Nat
  rollbacks : Nat
  /-- bytes handed out of each KV grant, by the grant's base, and pages that came back to it -/
  grantNext : List (Nat × Nat)
  grantFree : List (Nat × Nat)
  /-- blocks handed out of each KV pool, by the pool's base, and blocks that came back to it -/
  poolNext : List (Nat × Nat)
  poolFree : List (Nat × Nat)
deriving DecidableEq, Repr

/-! ## Truss ports (12) -/

/-- The port states of Table 12.4, in code order. -/
inductive PortState where
  | disabled | detect | eq | align | negotiate | credit | active | recovery | drain | parked | listen | loopback
deriving DecidableEq, Repr

/-- Why a port is in RECOVERY, so that its end is known. -/
inductive RecoveryKind where
  | replay
  | narrow
  | rate
deriving DecidableEq, Repr

/-- What R311 undoes, newest first. -/
inductive Degrade where
  | spare (lane : Nat)
  | narrow (fromWidth fromGroup fromSpare : Nat)
  | rateDown (fromRate fromWidth fromGroup fromSpare : Nat)
deriving DecidableEq, Repr

/-- A message on a virtual channel: its bytes, in 240-byte flits (R297). -/
structure VcMsg where
  bytes : List Byte
  sent : Nat
deriving DecidableEq, Repr

/-- A message all of whose flits were sent; `lastSeq` is the SEQ of its last flit (R316). -/
structure FlightMsg where
  vc : Nat
  bytes : List Byte
  lastSeq : Nat
deriving DecidableEq, Repr

/-- A flit the port has sent (R291), as bytes. -/
structure SentFlit where
  seq : Nat
  bytes : List Byte
deriving DecidableEq, Repr

structure Port where
  state : PortState
  rate : Nat
  width : Nat
  group : Nat
  spareUse : Nat
  leader : Bool
  pairSelf : Bool
  loopPlug : Bool
  loop : Nat
  peerChip : BitVec 64
  peerPort : Nat
  peerCaps : BitVec 8
  peerLaneOk : BitVec 17
  fecCorr : Nat
  fecUncorr : Nat
  crcFail : Nat
  replays : Nat
  recoveries : Nat
  margins : List Int
  marginSum : List Int
  marginCount : Nat
  /-- lowest margin of each lane in this evaluation window, and in the last whole one -/
  marginMin : List Int
  winMin : List Int
  weak : BitVec 17
  failedLanes : BitVec 17
  peerWeak : BitVec 17
  peerFailed : BitVec 17
  /-- lanes below CRIT_MARGIN at the latest update (R307) -/
  critLow : BitVec 17
  /-- receive lanes whose polarity is inverted (R287), and the transmit preset of each lane (R304) -/
  polarity : BitVec 17
  presets : List Nat
  nonce : BitVec 64
  /-- received training sets' state of the peer's lanes reached in this attempt -/
  trainedLanes : BitVec 17
  trainStart : Option Nat
  continuous : Bool
  txSeq : Nat
  rxSeq : Nat
  ackSeen : Nat
  replayBuf : List SentFlit
  resend : List SentFlit
  lastProgress : Nat
  replaysNoAck : Nat
  recoveryTimes : List Nat
  recovery : Option RecoveryKind
  nakDue : Bool
  discarding : Bool
  silentLeft : Nat
  silentReason : Nat
  lctl : List (List Byte)
  vcq : List (List VcMsg)
  vcSent : List Nat
  vcFreed : List Nat
  vcRxFreed : List Nat
  vcWait : List Nat
  crVc : Nat
  /-- flits held in the receive buffer of each VC (Table 12.3), and the bytes of the message that arrives on it -/
  rxHeld : List Nat
  rxMsg : List (List Byte)
  /-- messages whose last flit was sent and is not yet acknowledged -/
  inFlight : List FlightMsg
  resyncSent : Bool
  resyncSeen : Bool
  spareNext : Option (Nat × Nat × Bool)
  degraded : List Degrade
  degradedAt : Nat
  healthyWindow : Bool
  noSpare : Bool
  /-- no new message is accepted (R316, R318) -/
  closed : Bool
  /-- flits sent, oldest first; the codewords that carried them, each as the levels of its logical lanes; training frames, with their lane
  (R289, R301) -/
  out : List (List Byte)
  wire : List LaneLevels
  frames : List (Nat × List Byte)
  bursts : Nat
  /-- bits of flits not yet in a codeword, codewords since ALIGN, and the scrambler of each lane, in both directions (R289); corrected
  symbols of each lane (R290) -/
  txBits : BitRun
  txWords : Nat
  txPrbs : List (BitVec 31)
  rxBits : List BitRun
  rxWords : Nat
  rxPrbs : List (BitVec 31)
  laneCorr : List Nat
deriving DecidableEq, Repr

/-! ## Truss fabric (13) -/

structure Adj where
  port : Nat
  peerPort : Nat
  peer : Nat
  peerNonce : BitVec 64
  lastHello : Nat
  /-- the epoch of the peer's last HELLO (R323) -/
  epoch : Nat
deriving DecidableEq, Repr

structure LsdbEntry where
  lsa : Lsa
  heard : Nat
deriving DecidableEq, Repr

/-- What an outstanding transaction serves (R337). -/
inductive Purpose where
  /-- the last operand of a load and of a store is the pc of the instruction: its exception is raised for it (R149) -/
  | load (bay : Fin 80) (thread : Fin 128) (reg : Nat) (size : Nat) (signed vector : Bool) (pc : Word)
  | store (bay : Fin 80) (thread : Fin 128) (pc : Word)
  | atomic (bay : Fin 80) (thread : Fin 128) (reg : Nat) (returns : Bool) (width64 : Bool)
  | mover (bay : Fin 80) (mover : Fin 2)
  | steward (asn : Nat)
  | push (home : Nat) (wu : WuKey)
  | weight (entry : Nat)
  /-- the KV half of a stream on another node: the version is told, phase 1, phase 2 (log entry 21) -/
  | kv (asn op : Nat)
  | other
deriving DecidableEq, Repr

structure Txn where
  dst : Nat
  vc : Nat
  tseq : Nat
  attempt : Nat
  sentAt : Nat
  purpose : Purpose
  bytes : List Byte
deriving DecidableEq, Repr

/-- A request that waits because 4,096 are outstanding to its (DST, VC) (R335). -/
structure SendReq where
  dst : Nat
  vc : Nat
  mtype : Nat
  otag : Nat
  arg : Nat
  body : List Byte
  purpose : Purpose
deriving DecidableEq, Repr

/-- A request as a receiver takes it, with the operands of its command (Tables 13.3 and 13.4). -/
inductive Message where
  | read
  | write (data : List Byte)
  | atomic (xf : BitVec 8) (operand compare : BitVec 64)
  | actPush (p : PushHeader) (data : List Byte)
  | tokenReq (body : TokenReq)
  | tokenRelease (asn : BitVec 64)
  | stepAck (wu : WuKey)
  | abort (asn : BitVec 64) (status : BitVec 8)
  | weightQuery (object : BitVec 32) (hash : BitVec 384)
  | weightHave (object : BitVec 32) (holds : Bool)
  | lease (op : LeaseOp) (key : LeaseKey) (leaseEpoch : BitVec 32)
  | barrier (asn : BitVec 64) (slot : Fin 16) (generation arrived count : BitVec 32) (isRelease : Bool)
  | time (t2 t3 : Int)
deriving DecidableEq, Repr

/-- Receiver state per (SRC, VC), keyed by the peer's nonce (R335, R336). -/
structure RxState where
  src : Nat
  vc : Nat
  nonce : BitVec 64
  next : Nat
  window : List Nat
  cached : List (Nat × List Byte)
  oseq : List (Nat × Nat)
  /-- out-of-order messages held until the one before each has been delivered, at most 64 (R336) -/
  held : List (Header × Message)
deriving DecidableEq, Repr

/-- Sender state per (DST, VC) (R334, R336). -/
structure TxState where
  dst : Nat
  vc : Nat
  nonce : BitVec 64
  next : Nat
  cack : Nat
  oseq : List (Nat × Nat)
deriving DecidableEq, Repr

inductive LeaseSide where
  | granted
  | held
deriving DecidableEq, Repr

structure LeaseRec where
  key : LeaseKey
  peer : Nat
  side : LeaseSide
  epoch : Nat
deriving DecidableEq, Repr

/-- A push being received or complete (R342). -/
structure PushRx where
  key : WuKey
  home : Nat
  received : Nat
  complete : Bool
  acked : Bool
  src : Nat
deriving DecidableEq, Repr

/-- A push sent, with its message retained until STEP_ACK (R350). -/
structure PushTx where
  home : Nat
  key : WuKey
  dst : Nat
  arg : Nat
  /-- the bodies of its messages, in ascending OFFSET -/
  bodies : List (List Byte)
  responded : Bool
  stepAcked : Bool
deriving DecidableEq, Repr

structure Route where
  /-- ECMP ports in set order, at most four -/
  ports : List Nat
  /-- neighbours of the loop-free alternates, as (port, cost + distance, neighbour) -/
  alts : List (Nat × Nat × Nat)
  dist : Nat
deriving DecidableEq, Repr

structure Net where
  nodeId : Nat
  isolated : Bool
  leftFabric : Bool
  chipNonce : BitVec 64
  claimEpoch : Nat
  lsaSeq : Nat
  capsSeq : Nat
  adjs : List Adj
  lsdb : List LsdbEntry
  left : List Nat
  epochCur : Nat
  epochOrigin : Nat
  epochMembers : List Nat
  epochTimes : List (Nat × Nat)
  adoptedAt : Nat
  settled : Nat
  members : List Nat
  caps : List Caps
  peerFlags : List (Nat × Bool × Bool)
  routes : List Route
  routesDirty : Bool
  timeMaster : Option Nat
  timeParent : Option Nat
  timeOffset : Int
  rateAdj : Int
  retx : Nat
  txFail : Nat
  transitDrop : Nat
  discarded : Nat
  replays : Nat
  txns : List Txn
  unsent : List SendReq
  txState : List TxState
  rxState : List RxState
  leases : List LeaseRec
  pushRx : List PushRx
  pushTx : List PushTx
  freshFlood : List (Nat × Nat × Nat)
  /-- the ports of the neighbours whose database exchange an automatic node waits for, once it is READY (R321) -/
  awaited : Option (List Nat)
  /-- ports whose unassigned neighbour, by its CHIP_NONCE, has been sent the database (log entry 34) -/
  joiners : List (Nat × BitVec 64)
deriving DecidableEq, Repr

/-! ## Host port (14) -/

/-- The function page of Table 14.1 with the function's PCIe state. -/
structure FnPage where
  reqBase : Word
  cplBase : Word
  audBase : Word
  audWb : Word
  armBit : Bool
  armed : Bool
  armErr : Bool
  tailErr : Bool
  reqLog2 : BitVec 5
  cplLog2 : BitVec 5
  audLog2 : BitVec 5
  reqTail : BitVec 32
  reqHead : BitVec 32
  cplHead : BitVec 32
  cplTail : BitVec 32
  audHead : BitVec 32
  audTail : BitVec 32
  irqCause : BitVec 32
  irqMask : BitVec 32
  mbxArgs : List Byte
  mbxResult : List Byte
  mbxCmd : BitVec 32
  mbxBusy : Bool
  mbxOverrun : Bool
  mbxCode : BitVec 8
  mbxSeq : BitVec 16
  /-- an FLR or PERST_N came while a command ran: its result is discarded (R373) -/
  mbxDrop : Bool
  busMaster : Bool
  vfEnabled : Bool
  msixMasked : List Nat
  msixPending : List Nat
  quiet : List Nat
deriving DecidableEq, Repr

/-- What the device wrote to host memory or sent to the host, in order (R368). -/
inductive HostMsg where
  | output (f : Fin 16) (addr : Nat) (bytes : List Byte)
  | audit (index : Nat) (bytes : List Byte)
  | audWb (addr : Nat) (value : Nat)
  | completion (f : Fin 16) (index : Nat) (bytes : List Byte)
  | dma (f : Fin 16) (addr : Nat) (bytes : List Byte)
  | msix (f : Fin 16) (vector : Nat)
  | doe (bytes : List Byte)
  | aer (f : Fin 16)
  /-- Unsupported Request on PCIe (R4) -/
  | ur (f : Fin 16)
  /-- Unsupported Request on CXL.io, to the devices of a downstream port (R4) -/
  | cxlUr (port : Nat)
deriving DecidableEq, Repr

/-- The fields of a completion entry (Table 1.4) before its PHASE is known. -/
structure Cpl where
  asn : Nat
  f : Fin 16
  reqTag : Word
  status : Nat
  cflags : Nat
  detail : Nat
  gen : Nat
  recno : Nat
  timeEnd : Nat
  energy : Nat
  outWritten : Nat
  outHashPfx : BitVec 64
  epoch : Nat
  stepsDone : Nat
deriving DecidableEq, Repr

/-- A hold-queue entry (R372). -/
structure Hold where
  cpl : Cpl
  slot : SlotKind
  cplDone : Bool
  audDone : Bool
deriving DecidableEq, Repr

/-- The SPDM responder's progress (R382). -/
structure Doe where
  version : Bool
  capabilities : Bool
  negotiated : Bool
deriving DecidableEq, Repr

structure HostSt where
  pages : List FnPage
  linkUp : Bool
  /-- the link is in ASPM L1 (R58) -/
  linkL1 : Bool
  /-- what the link trained to: a rate code, 0 for 2.5 GT/s to 5 for 64 GT/s, and its lanes (Table 0.3) -/
  linkRate : Nat
  linkWidth : Nat
  holdQ : List Hold
  mbxRunning : Option MbxJob
  mbxWaiting : List MbxJob
  wallOffset : BitVec 64
  doe : Doe
  out : List HostMsg
  vec6Due : Bool
deriving DecidableEq, Repr

/-! ## Audit (15) -/

structure Audit where
  /-- none before the first record of this boot: AUDIT_HEAD_RECNO reads all ones -/
  head : Option Nat
  headHash : BitVec 384
  last : List Byte
  gapFrom : Option Nat
  anchorFail : Nat
  nextRecno : Nat
  prevHash : BitVec 384
  nextFlags : Nat
  /-- the latest anchor written or found (R401, R402) -/
  lastAnchor : Option Anchor
  /-- RECNO of the record withheld until its anchor is written (R401) -/
  withheld : Option Nat
  /-- anchors whose write failed, oldest first, each with the device time of its next try, 10 ms later (R401) -/
  anchorRetry : List (Nat × Anchor)
  mirror : List (Nat × List Byte)
  /-- next record number to deliver to the audit ring -/
  deliverNext : Nat
deriving DecidableEq, Repr

/-! ## Sentinel (16) -/

/-- Where one tone definition stands on one beam: the run of equal frames so far, the segment it is held against, the cycles
matched, and the margin of the latest frame that was on. -/
structure ToneRun where
  on : Bool
  frames : Nat
  seg : Nat
  cycles : Nat
  margin : Nat
deriving DecidableEq, Repr

structure SentEvent where
  time : Nat
  kind : Nat
  tone : Nat
  beams : BitVec 4
  flags : BitVec 8
  margin : Nat
  seq : Nat
deriving DecidableEq, Repr

/-- The registers of one (beam, channel) path: integrators and combs of the CIC, the samples the FIR of stage 3 holds, newest
first, and the last gained sample of stage 4. -/
structure PathReg where
  integ : List Int
  comb : List Int
  fir3 : List Int
  prevU : Int
deriving DecidableEq, Repr

structure Sent where
  enabled : Bool
  muted : Bool
  erasing : Bool
  warmupLeft : Nat
  frozen : Bool
  windowEnd : Option Nat
  chanDead : BitVec 8
  chanStuck : BitVec 8
  lockedReads : Nat
  eventSeq : Nat
  events : List SentEvent
  levels : List Int
  /-- sample sets of the pre-roll ring, oldest first; sets not listed are zero and precede them -/
  ring : List (List Int)
  /-- frames completed since PDM_CLK started -/
  frameNo : Nat
  /-- (beam, signal) floors: 0 flex, 1 shatter, 2 + i tone i -/
  floors : List (List (Option Int))
  flexRun : List Nat
  shatterRun : List Nat
  /-- first frame of each beam's latest flex event, until a detection has used it -/
  flexOnset : List (Option Nat)
  /-- tone, beam -/
  toneRuns : List (List ToneRun)
  /-- device time at the end of the frame that woke -/
  wakeTime : Nat
  wakePulseUntil : Option Nat
  freezeAtFrame : Option Nat
  unmuteAt : Option Nat
  /-- the last 4,096 bits of each channel, oldest first -/
  delayLine : List (List Bool)
  /-- path (b, c) at place 8b + c -/
  paths : List PathReg
  /-- wideband samples that stage 6 holds for each beam, newest first -/
  fir6 : List (List Int)
  /-- every wideband and detector sample of each beam since PDM_CLK started: what the band filters' memories depend on (log entry
  41) -/
  wideHist : List (List Int)
  detHist : List (List Int)
deriving DecidableEq, Repr

/-! ## Counters (17) -/

structure BwWindow where
  /-- slot and rate, at most 64, newest first -/
  hist : List (Nat × Nat)
  /-- the source count at the last window end -/
  base : Nat
  last : Nat
deriving DecidableEq, Repr

structure SnapRec where
  index : Nat
  seq : Nat
  time : Nat
  trigger : Nat
  saved : Bool
  epoch : Nat
  gen : Nat
  values : List (Nat × Nat)
deriving DecidableEq, Repr

structure Cnt where
  /-- counters that are not 0, by index -/
  values : List (Nat × Nat)
  shadow : List (Nat × Nat)
  snapSeq : Nat
  snapTime : Nat
  snapLast : Nat
  loadIndex : BitVec 10
  /-- triggers waiting for the next pulse: 0 TAKE, 1 SNAPSHOT, 2 periodic -/
  due : List Nat
  mbxDue : List (Fin 16 × BitVec 16)
  ring : List SnapRec
  winLen : Nat
  winSeq : Nat
  winBase : Nat
  windows : List BwWindow
deriving DecidableEq, Repr

/-! ## Error log and plumb test (18) -/

structure ErrRec where
  seq : Nat
  time : Nat
  cls : Nat
  source : Nat
  inst : Nat
  code : Nat
  eflags : Nat
  asn : Option Nat
  addr : Nat
  info : List Byte
  epoch : Nat
deriving DecidableEq, Repr

/-- The count of one (SOURCE, INSTANCE, CODE) triple in this scheduler epoch (R446). -/
structure Coalesce where
  source : Nat
  inst : Nat
  code : Nat
  written : Nat
  withheld : Nat
deriving DecidableEq, Repr

structure ErrLog where
  nextSeq : Nat
  ring : List ErrRec
  mirror : List ErrRec
  classCount : List Nat
  suppressed : Nat
  coalesce : List Coalesce
  fatal : List Nat
deriving DecidableEq, Repr

structure PlumbTile where
  round : Nat
  bay : Option (Fin 80)
  step : Nat
  segment : Nat
  retry : Bool
  yielded : Bool
  waitingBay : Bool
  finished : Bool
  /-- bays advanced into the next slots (R443) -/
  advance : List (Fin 80)
deriving DecidableEq, Repr

structure Plumb where
  running : Bool
  queued : Bool
  run : Nat
  runEnd : Nat
  lastStart : Nat
  tiles : List PlumbTile
  bayPass : List Nat
  scrubPasses : Nat
  scrubNext : Nat
deriving DecidableEq, Repr

/-! ## CXL and hub movers (10, 14, 20) -/

structure CxlPort where
  used : Bool
  trained : Bool
  rate : Nat
  width : Nat
deriving DecidableEq, Repr

structure CxlDev where
  base : Nat
  gib : Nat
  port : Nat
  switchPort : Nat
  lost : Bool
deriving DecidableEq, Repr

structure Cxl where
  ports : List CxlPort
  devs : List CxlDev
deriving DecidableEq, Repr

/-- The work of a hub mover job (Table 10.6). -/
inductive JobKind where
  | output (asn : Nat) (step : Nat)
  | input (asn : Nat)
  | swapIn (asn : Nat)
  | commit (asn : Nat)
  | park (tail : ResTail)
  | weight (entry : Nat)
  | copy (src dst bytes : Nat)
deriving DecidableEq, Repr

structure HubJob where
  id : Nat
  kind : JobKind
  running : Bool
  /-- the descriptors it executes, in the format of Table 10.4, from the moment a mover takes it -/
  descs : List (List Byte)
deriving DecidableEq, Repr

structure Hub where
  jobs : List HubJob
  nextJob : Nat
deriving DecidableEq, Repr

end Sys2Proof.Machine
end

