-- ==== Sys2Proof/Machine/Resets.lean ====
section
/-! DEFINITION. The value of each part of the state at the start of a cold power-up, as the spec gives it (Table 2.6, Tables
2.10, 3.10, 3.11, 4.5, 6.8, 9.7, 10.9, 11.5, 12.10, 12.11, 13.8, 14.1, 15.6, 16.6, 17.5, 18.9, 20.4 to 20.10). A value the spec
does not give is named in the assumption log. -/
namespace Sys2Proof.Machine
open Sys2Proof

def Straps.zero : Straps := { cxlBif := 0, smbAddr := 0, tapEn := false }

/-- Tiles start at ÷16 (Table 2.10) and 750 mV (R471). -/
def TileClk.reset : TileClk :=
  { div := 4, gated := false, powered := true, avsTarget := 750, confirmed := 750, step := none,
    limit := 0, hold := false, sensorsLost := false }

def Clk.reset : Clk :=
  { pwrOk := true, devTime := 0, frac := 0, refQualified := false, refLost := false, refDrift := false, refFast := false,
    pllEnabled := false, pllLocked := false, aonOnRc := false, timeDegraded := false, glitches := 0, glitchTimes := [],
    resetCause := 0, resetWarm := false, btnStuck := false, warmCount := 0, heldInReset := false, pendingReset := .none,
    warmInProgress := false, warmAt := none, btnDown := false, btnIgnored := false, p3Entering := false, warmAfterP3 := false,
    clockLoss := false, thermtrip := false, pstate := .p0, p2Since := none, idleSince := none, wakeCause := 0, wakePorts := 0,
    wakeLatched := false, p3Count := 0, held := [], railLowUntil := none, aonTimerAt := none,
    tiles := List.replicate 4 TileClk.reset }

/-- Open-drain outputs released but MUTE_LED, which follows MUTE_SW_N, low by its pull-down; SW_RAIL_EN high (R473, Table 19.2,
Table 16.5). -/
def Pins.reset : Pins :=
  { thermtripN := true, fatalN := true, wakeOutN := true, swRailEn := true, micPwrEn := false, muteLed := true,
    pdmClk := false, cxlPerstN := List.replicate 4 false, muteSwN := false, perstN := false, straps := Straps.zero,
    tapIr := .idcode, tapOut := 0, smbOut := [], smbSdaHeld := false }

def ImageHeader.zero : ImageHeader :=
  { sequence := 0, imageBytes := 0, svn := 0, numericGen := 0, buildStamp := 0, fwVersion := 0, imageHash := 0, sections := [] }

def Policy.zero : Policy :=
  { capW := 0, softC := 0, hardC := 0, hbmC := 0, ewmaShift := 0, tileMaxDiv := List.replicate 4 0, idleDwellUs := 0,
    p3Enable := false, p3DwellMs := 0, aonTimerS := 0, classes := List.replicate 4 { maxShare := 0, maxBays := 0 } }

def TenantCfg.zero : TenantCfg :=
  { present := false, enabled := false, weight := 0, failPolicy := false, res := [0, 0, 0], lim := [0, 0, 0] }

def StreamClass.zero : StreamClass :=
  { present := false, slotSize := 0, form := 0, fmtS := 0, h := 0, slotsPerBay := 0, idleMs := 0 }

def TenantPlace.zero : TenantPlace := { streamTier := 0, poolBytes := 0, kvStreams := 0, kvPoolBytes := 0 }

def Personality.zero : Personality :=
  { weightBytes := 0, t2ExpectGib := 0, classes := List.replicate 8 StreamClass.zero,
    places := List.replicate 16 TenantPlace.zero, landingKib := 0, kvIdleMs := 0, plumbIntervalS := 0, scrubHours := 0,
    marginScan := false }

def PortCfg.zero : PortCfg :=
  { mode := 0, listen := false, farLoopAllow := false, spareEnable := false, minWidth := 0, minRate := 0, weakMargin := 0,
    critMargin := 0, hyst := 0, restoreS := 0 }

def FabricCfg.zero : FabricCfg :=
  { automatic := false, nodeId := 0, fabricId := 0, settleUs := 0, timeMasterOk := false,
    ports := List.replicate 12 PortCfg.zero, places := [] }

def Cfg.zero : Cfg :=
  { header := ImageHeader.zero, voltage := List.replicate 4 (List.replicate 5 0), policy := Policy.zero,
    tenants := List.replicate 16 TenantCfg.zero, pers := Personality.zero, fabric := FabricCfg.zero, programs := [],
    codedWeights := [], manifest := [], sentinel := none, programsEnd := 0 }

/-- The identity key is derived at once, by the ROM, from the fuse seed (R403). -/
def Boot.reset : Boot :=
  { phase := .refWait, flash := [], activeSlot := 0, fallback := false, locked := false, weightsDone := false, failA := 0,
    failB := 0, fuseFloor := 0, lockViol := 0, weights := [], retrying := false, anchorRecno := 0, flashBusy := none,
    flashQueue := [], commitResetAt := none, keyReady := true, verified := none }

def Tun.reset : Tun :=
  { powerCap := 0, weight := List.replicate 16 0, limit := List.replicate 16 [0, 0, 0], enable := List.replicate 16 false,
    counterWindow := 1000, snapInterval := 0, shadow := [], gen := 0 }

/-- Rails with an on-die estimator: the thirteen package rails of Table 19.4, the tiles' four first (R102 says "each rail" and gives no count:
DESIGN CHOICE, log entry 49). -/
def railCount : Nat := 13

/-- Corrections and gains of one in Q4.12 (R99, R102). The first turn of R110 starts at tile 0: the spec gives t0 no first value (DESIGN
CHOICE, log entry 1). -/
def Stew.reset : Stew :=
  { windowSeq := 0, bEff := 0, remain := 0, overdraft := 0, carries := [], used := [0, 0, 0, 0], pressured := false,
    pressCount := 0, relaxCount := 0, pressureDiv := 0, kE := List.replicate 256 0x1000, kD := List.replicate 256 0x1000,
    gain := List.replicate railCount 0x1000, winEnergy := 0, winBase := 0, lastRecal := 0, vrmStale := false, cur := List.replicate 16 0, thermT := 0, tmax := 0,
    tmaxIdx := 0, sensors := List.replicate 96 (some 0), hbmStep := List.replicate 8 0, hbmTemp := List.replicate 8 0,
    hbm2x := List.replicate 8 false, hbmSelfRef := List.replicate 8 false, t0 := 0, tokens := List.replicate 4 10,
    tokenWait := List.replicate 4 [], tokensOut := List.replicate 4 0, moduleW := 0 }

def Reqs.reset : Reqs :=
  { nextAsn := 0, table := [], running := [], doneWu := [], doneQ := [], quiesced := false, quiesceWait := none, wakePending := false }

/-- A thread before any bay task: registers zero (R124 sets them so at each start). -/
def Thread.reset : Thread :=
  { pc := 0, g := List.replicate 32 0, v := List.replicate 32 0, p := 1, buf := [], mbox := [], exited := true,
    wait := .ready, pend := [], tileFault := none, moveFault := none }

def Mover.reset : Mover := { queue := [], ran := none, halted := none, asked := false, remote := [] }

/-- Table 6.8; arrays off, last tenant none (R238). -/
def Bay.reset : Bay :=
  { threads := List.replicate 128 Thread.reset, shared := [], rr := List.replicate 16 7, task := none, lastTenant := .none,
    barriers := List.replicate 16 none, tileQueue := [], tileIssued := 0, tileFailed := [], running := none, drain := none,
    ramp := .off, rampAt := 0, rowGroups := 0, maxLag := 0, movers := List.replicate 2 Mover.reset, moveIssued := 0, moveFailed := [],
    fenced := false, plumbHeld := false, landing := [], windowRows := 0 }

def Bars.reset : Bars := { node := [], fabric := [] }

def Mem.reset : Mem :=
  { cells := [], poison := [], ceLines := [], fresh := [], tags := [], granCe := [], bayCe := [], retired := [], remap := [],
    spareUsed := 0, spareNext := 0, withdrawn := [], fencedPc := [], stackCe := List.replicate 8 0, stackRetired := List.replicate 8 0,
    unitsCoded := 0, unitsRaw := 0, linesSaved := 0, widthFaults := 0, hubCodecFenced := 0 }

def Quota.reset : Quota :=
  { used := List.replicate 16 [0, 0, 0], grants := [], fixed := [], tokens := [], nextToken := 0 }

def Streams.reset : Streams := { slots := [], swaps := [], epochCount := 0, poolNext := [], poolFree := [], resident := [], away := [],
                                        phase1 := [] }

def Kv.reset : Kv :=
  { records := [], work := [], residents := [], places := [], nextRec := 0, pagesUsed := 0, rollbacks := 0, grantNext := [], grantFree := [],
    poolNext := [], poolFree := [] }

/-- Tables 12.10, 12.11: DISABLED, SPARE_USE 0x1F. -/
def Port.reset : Port :=
  { state := .disabled, rate := 0, width := 0, group := 0, spareUse := 0x1F, leader := false, pairSelf := false,
    loopPlug := false, loop := 0, peerChip := 0, peerPort := 0, peerCaps := 0, peerLaneOk := 0, fecCorr := 0, fecUncorr := 0,
    crcFail := 0, replays := 0, recoveries := 0, margins := List.replicate 17 0, marginSum := List.replicate 17 0,
    marginCount := 0, marginMin := List.replicate 17 0, winMin := List.replicate 17 0, weak := 0, failedLanes := 0, peerWeak := 0, peerFailed := 0,
    critLow := 0, polarity := 0, presets := List.replicate 17 0, nonce := 0, trainedLanes := 0,
    trainStart := none, continuous := false, txSeq := 0, rxSeq := 0, ackSeen := 0, replayBuf := [], resend := [],
    lastProgress := 0, replaysNoAck := 0, recoveryTimes := [], recovery := none, nakDue := false, discarding := false,
    silentLeft := 0, silentReason := 0, lctl := [], vcq := List.replicate 4 [], vcSent := List.replicate 4 0,
    vcFreed := List.replicate 4 0, vcRxFreed := List.replicate 4 0, vcWait := List.replicate 4 0, crVc := 0,
    rxHeld := List.replicate 4 0, rxMsg := List.replicate 4 [], inFlight := [], resyncSent := false, resyncSeen := false, spareNext := none, degraded := [],
    degradedAt := 0, healthyWindow := false, noSpare := false, closed := false, out := [], wire := [], frames := [], bursts := 0,
    txBits := BitRun.empty, txWords := 0, txPrbs := prbsSeeds, rxBits := [], rxWords := 0, rxPrbs := prbsSeeds,
    laneCorr := List.replicate 17 0 }

/-- Table 13.8. -/
def Net.reset : Net :=
  { nodeId := 0xFF, isolated := false, leftFabric := false, chipNonce := 0, claimEpoch := 0, lsaSeq := 0, capsSeq := 0,
    adjs := [], lsdb := [], left := [], epochCur := 0, epochOrigin := 0, epochMembers := [], epochTimes := [], adoptedAt := 0,
    settled := 0, members := [], caps := [], peerFlags := [], routes := [], routesDirty := false, timeMaster := none,
    timeParent := none, timeOffset := 0, rateAdj := 0, retx := 0, txFail := 0, transitDrop := 0, discarded := 0, replays := 0,
    txns := [], unsent := [], txState := [], rxState := [], leases := [], pushRx := [], pushTx := [], freshFlood := [],
    awaited := none, joiners := [] }

/-- Table 14.1. -/
def FnPage.reset : FnPage :=
  { reqBase := 0, cplBase := 0, audBase := 0, audWb := 0, armBit := false, armed := false, armErr := false, tailErr := false,
    reqLog2 := 0, cplLog2 := 0, audLog2 := 0, reqTail := 0, reqHead := 0, cplHead := 0, cplTail := 0, audHead := 0,
    audTail := 0, irqCause := 0, irqMask := 0, mbxArgs := List.replicate 64 0, mbxResult := List.replicate 64 0, mbxCmd := 0,
    mbxBusy := false, mbxOverrun := false, mbxCode := 0, mbxSeq := 0, mbxDrop := false, busMaster := false,
    vfEnabled := false, msixMasked := [], msixPending := [], quiet := [] }

def Doe.reset : Doe := { version := false, capabilities := false, negotiated := false }

def HostSt.reset : HostSt :=
  { pages := List.replicate 16 FnPage.reset, linkUp := false, linkL1 := false, linkRate := 0, linkWidth := 0, holdQ := [], mbxRunning := none, mbxWaiting := [],
    wallOffset := 0, doe := Doe.reset, out := [], vec6Due := false }

/-- Table 15.6. -/
def Audit.reset : Audit :=
  { head := none, headHash := 0, last := List.replicate 512 0, gapFrom := none, anchorFail := 0, nextRecno := 0, prevHash := 0,
    nextFlags := 0, lastAnchor := none, withheld := none, anchorRetry := [], mirror := [], deliverNext := 0 }

def PathReg.reset : PathReg :=
  { integ := List.replicate 5 0, comb := List.replicate 5 0, fir3 := List.replicate 63 0, prevU := 0 }

def ToneRun.reset : ToneRun := { on := false, frames := 0, seg := 0, cycles := 0, margin := 0 }

/-- Table 16.6. -/
def Sent.reset : Sent :=
  { enabled := false, muted := false, erasing := false, warmupLeft := 0, frozen := false, windowEnd := none,
    chanDead := 0, chanStuck := 0, lockedReads := 0, eventSeq := 0, events := [], levels := List.replicate 8 0, ring := [],
    frameNo := 0, floors := List.replicate 4 (List.replicate 10 none), flexRun := List.replicate 4 0,
    shatterRun := List.replicate 4 0, flexOnset := List.replicate 4 none,
    toneRuns := List.replicate 8 (List.replicate 4 ToneRun.reset), wakeTime := 0, wakePulseUntil := none, freezeAtFrame := none,
    unmuteAt := none, delayLine := List.replicate 8 [], paths := List.replicate 32 PathReg.reset,
    fir6 := List.replicate 4 (List.replicate 95 0), wideHist := List.replicate 4 [], detHist := List.replicate 4 [] }

def BwWindow.reset : BwWindow := { hist := [], base := 0, last := 0 }

def Cnt.reset : Cnt :=
  { values := [], shadow := [], snapSeq := 0, snapTime := 0, snapLast := 0, loadIndex := 0, due := [], mbxDue := [],
    ring := [], winLen := 0, winSeq := 0, winBase := 0, windows := List.replicate 44 BwWindow.reset }

def ErrLog.reset : ErrLog :=
  { nextSeq := 0, ring := [], mirror := [], classCount := [0, 0, 0, 0], suppressed := 0, coalesce := [], fatal := [] }

def PlumbTile.idle : PlumbTile :=
  { round := 0, bay := none, step := 0, segment := 0, retry := false, yielded := false, waitingBay := false, finished := true,
    advance := [] }

def Plumb.reset : Plumb :=
  { running := false, queued := false, run := 0, runEnd := 0, lastStart := 0, tiles := List.replicate 4 PlumbTile.idle,
    bayPass := List.replicate 80 0, scrubPasses := 0, scrubNext := 0 }

def CxlPort.unused : CxlPort := { used := false, trained := false, rate := 0, width := 0 }

/-- Strap value 0: one ×16 port, here with nothing attached (Table 19.3; log entry 3). -/
def Cxl.reset : Cxl :=
  { ports := { CxlPort.unused with used := true } :: List.replicate 3 CxlPort.unused, devs := [] }

def Hub.reset : Hub := { jobs := [], nextJob := 0 }

end Sys2Proof.Machine
end

