-- ==== Sys2Proof/Machine/State.lean ====
section
/-! DEFINITION. The state of the block, its stops, and the state at the start of the first cold power-up. -/
namespace Sys2Proof.Machine
open Sys2Proof

/-- Everything the spec gives the block, and the queue of commands that wait (the model's own), first in, first out. -/
structure State where
  clk : Clk
  pins : Pins
  boot : Boot
  /-- the locked configuration in retention SRAM (R85); all zero until it is applied -/
  cfg : Cfg
  tun : Tun
  stew : Stew
  req : Reqs
  bays : List Bay
  bars : Bars
  mem : Mem
  quota : Quota
  str : Streams
  kv : Kv
  truss : List Port
  net : Net
  host : HostSt
  aud : Audit
  sent : Sent
  cnt : Cnt
  err : ErrLog
  plumb : Plumb
  cxl : Cxl
  hub : Hub
  /-- the commands that wait, oldest first: the model's own -/
  pending : List Instr
  /-- counts the free values drawn: the model's own -/
  freeCtr : Nat
deriving DecidableEq, Repr

/-- Reasons a step stops with a fault: there are none. Every fault the spec describes is an effect on the state. -/
inductive Fault where
deriving DecidableEq, Repr

/-- Reasons a step is refused. -/
inductive Refusal where
  /-- Raised by the dispatch for a command that has no meaning yet; safe, since nothing is claimed of it. -/
  | notModelled (mnemonic : String)
deriving DecidableEq, Repr

/-- The start of a cold power-up: PWR_OK has risen and the reset sequencer starts (Table 2.10, first row). -/
def State.reset : State :=
  { clk := Clk.reset, pins := Pins.reset, boot := Boot.reset, cfg := Cfg.zero, tun := Tun.reset, stew := Stew.reset,
    req := Reqs.reset, bays := List.replicate 80 Bay.reset, bars := Bars.reset, mem := Mem.reset, quota := Quota.reset,
    str := Streams.reset, kv := Kv.reset, truss := List.replicate 12 Port.reset, net := Net.reset, host := HostSt.reset,
    aud := Audit.reset, sent := Sent.reset, cnt := Cnt.reset, err := ErrLog.reset, plumb := Plumb.reset, cxl := Cxl.reset,
    hub := Hub.reset, pending := [], freeCtr := 0 }

end Sys2Proof.Machine
end

