-- ==== Sys2Proof/Machine/Bytes.lean ====
section
/-! DEFINITION. Byte strings, little-endian fields, lists keyed by numbers, and CRC-32. -/
namespace Sys2Proof.Machine
open Sys2Proof

/-- The low `n` bytes of a number, least significant first. -/
def bytesLE : Nat → Nat → List Byte
  | 0, _ => []
  | n + 1, v => BitVec.ofNat 8 v :: bytesLE n (v / 256)

/-- The number a little-endian byte string spells. -/
def natLE : List Byte → Nat
  | [] => 0
  | b :: bs => b.toNat + 256 * natLE bs

/-- The number a big-endian byte string spells. -/
def natBE (bs : List Byte) : Nat := bs.foldl (fun acc b => acc * 256 + b.toNat) 0

/-- The low `n` bytes of a number, most significant first. -/
def bytesBE (n v : Nat) : List Byte := (bytesLE n v).reverse

/-- `n` bytes from byte `off` on. -/
def slice (bs : List Byte) (off n : Nat) : List Byte := (bs.drop off).take n

/-- Whether every address from `a` up to `hi` lies in one of some ranges (low, past the end); each range is passed at most once. -/
def covers (rs : List (Nat × Nat)) (hi : Nat) : Nat → Nat → Bool
  | 0, a => decide (hi ≤ a)
  | fuel + 1, a =>
    if hi ≤ a then true else
    match rs.find? fun r => decide (r.1 ≤ a) && decide (a < r.2) with
    | some r => covers rs hi fuel r.2
    | none => false

/-- Whether every byte of a range lies in one of some ranges. -/
def inRanges (rs : List (Nat × Nat)) (a n : Nat) : Bool := covers rs (a + n) rs.length a

/-- The little-endian field of `n` bytes at `off`. -/
def fieldLE (bs : List Byte) (off n : Nat) : Nat := natLE (slice bs off n)

/-- A byte string brought to `n` bytes: cut, or filled with zeros. -/
def fit (n : Nat) (bs : List Byte) : List Byte := bs.take n ++ List.replicate (n - bs.length) 0

/-- `new` put over the bytes from `off` on. -/
def overlay (bs : List Byte) (off : Nat) (new : List Byte) : List Byte :=
  bs.take off ++ new ++ bs.drop (off + new.length)

/-- All bytes zero. -/
def allZero (bs : List Byte) : Bool := bs.all (· == 0)

/-- A signed value in two's complement of `bits` bits. -/
def toSigned (bits n : Nat) : Int := if 2 * (n % 2 ^ bits) < 2 ^ bits then (n % 2 ^ bits : Nat) else (n % 2 ^ bits : Nat) - (2 ^ bits : Nat)

/-- The two's complement of `bits` bits of an integer. -/
def ofSigned (bits : Nat) (i : Int) : Nat := (i % (2 ^ bits : Nat)).toNat

/-- Bits [lo + len - 1 : lo] of a number. -/
def bits (n lo len : Nat) : Nat := n / 2 ^ lo % 2 ^ len

/-- One bit of a number. -/
def bitOf (n i : Nat) : Bool := n / 2 ^ i % 2 == 1

/-- 0 or 1. -/
def b2n (b : Bool) : Nat := if b then 1 else 0

/-- A number clamped to its largest representable value. -/
def clampTo (m n : Nat) : Nat := min n m

/-- The value a key has in a list keyed by numbers; 0 where it is not listed. -/
def keyGet (l : List (Nat × Nat)) (k : Nat) : Nat :=
  match l with
  | [] => 0
  | (i, v) :: t => if i = k then v else keyGet t k

/-- Set a key's value; keys rise, and a value 0 is not listed. -/
def keySet (l : List (Nat × Nat)) (k v : Nat) : List (Nat × Nat) :=
  match l with
  | [] => if v = 0 then [] else [(k, v)]
  | (i, w) :: t =>
    if i < k then (i, w) :: keySet t k v
    else if i = k then (if v = 0 then t else (k, v) :: t)
    else if v = 0 then (i, w) :: t else (k, v) :: (i, w) :: t

/-- Insert a number into a rising list without repeats. -/
def insertNat (l : List Nat) (k : Nat) : List Nat :=
  match l with
  | [] => [k]
  | i :: t => if i < k then i :: insertNat t k else if i = k then i :: t else k :: i :: t

/-- Keep at most the newest `n` of a list whose newest element is last. -/
def keepLast {α : Type} (n : Nat) (l : List α) : List α := l.drop (l.length - n)

/-- Insert by a key, before the first element whose key is larger: a stable sorted insertion. -/
def insertBy {α : Type} (key : α → Nat) (x : α) : List α → List α
  | [] => [x]
  | y :: t => if key x < key y then x :: y :: t else y :: insertBy key x t

/-- Stable sort by a key, smallest first. -/
def sortBy {α : Type} (key : α → Nat) (l : List α) : List α := l.foldl (fun acc x => insertBy key x acc) []

/-- One bit of the CRC-32 of IEEE 802.3, reflected. -/
def crc32Bit (c : BitVec 32) : BitVec 32 := if c.getLsbD 0 then (c >>> 1) ^^^ 0xEDB88320#32 else c >>> 1

def crc32Byte (c : BitVec 32) (b : Byte) : BitVec 32 :=
  crc32Bit (crc32Bit (crc32Bit (crc32Bit (crc32Bit (crc32Bit (crc32Bit (crc32Bit (c ^^^ b.setWidth 32))))))))

/-- CRC-32 of IEEE 802.3 over a byte string (R444, R289). -/
def crc32 (bs : List Byte) : BitVec 32 := ~~~ (bs.foldl crc32Byte 0xFFFFFFFF#32)

end Sys2Proof.Machine
end

