-- ==== Sys2Proof/Machine/Crypto.lean ====
section
/-! DEFINITION. SHA-384, HMAC, the counter-mode KDF and ECDSA over P-384, as the standards the spec names define them (R70, R397,
R403; FIPS 180-4, FIPS 186-5, NIST SP 800-108): PRESUMED from those standards, log entry 7. -/
namespace Sys2Proof.Machine
open Sys2Proof

/-! ## SHA-384 -/

def shaK0 : List (BitVec 64) :=
  [0x428A2F98D728AE22, 0x7137449123EF65CD, 0xB5C0FBCFEC4D3B2F, 0xE9B5DBA58189DBBC,
   0x3956C25BF348B538, 0x59F111F1B605D019, 0x923F82A4AF194F9B, 0xAB1C5ED5DA6D8118,
   0xD807AA98A3030242, 0x12835B0145706FBE, 0x243185BE4EE4B28C, 0x550C7DC3D5FFB4E2,
   0x72BE5D74F27B896F, 0x80DEB1FE3B1696B1, 0x9BDC06A725C71235, 0xC19BF174CF692694,
   0xE49B69C19EF14AD2, 0xEFBE4786384F25E3, 0x0FC19DC68B8CD5B5, 0x240CA1CC77AC9C65]

def shaK1 : List (BitVec 64) :=
  [0x2DE92C6F592B0275, 0x4A7484AA6EA6E483, 0x5CB0A9DCBD41FBD4, 0x76F988DA831153B5,
   0x983E5152EE66DFAB, 0xA831C66D2DB43210, 0xB00327C898FB213F, 0xBF597FC7BEEF0EE4,
   0xC6E00BF33DA88FC2, 0xD5A79147930AA725, 0x06CA6351E003826F, 0x142929670A0E6E70,
   0x27B70A8546D22FFC, 0x2E1B21385C26C926, 0x4D2C6DFC5AC42AED, 0x53380D139D95B3DF,
   0x650A73548BAF63DE, 0x766A0ABB3C77B2A8, 0x81C2C92E47EDAEE6, 0x92722C851482353B]

def shaK2 : List (BitVec 64) :=
  [0xA2BFE8A14CF10364, 0xA81A664BBC423001, 0xC24B8B70D0F89791, 0xC76C51A30654BE30,
   0xD192E819D6EF5218, 0xD69906245565A910, 0xF40E35855771202A, 0x106AA07032BBD1B8,
   0x19A4C116B8D2D0C8, 0x1E376C085141AB53, 0x2748774CDF8EEB99, 0x34B0BCB5E19B48A8,
   0x391C0CB3C5C95A63, 0x4ED8AA4AE3418ACB, 0x5B9CCA4F7763E373, 0x682E6FF3D6B2B8A3,
   0x748F82EE5DEFB2FC, 0x78A5636F43172F60, 0x84C87814A1F0AB72, 0x8CC702081A6439EC]

def shaK3 : List (BitVec 64) :=
  [0x90BEFFFA23631E28, 0xA4506CEBDE82BDE9, 0xBEF9A3F7B2C67915, 0xC67178F2E372532B,
   0xCA273ECEEA26619C, 0xD186B8C721C0C207, 0xEADA7DD6CDE0EB1E, 0xF57D4F7FEE6ED178,
   0x06F067AA72176FBA, 0x0A637DC5A2C898A6, 0x113F9804BEF90DAE, 0x1B710B35131C471B,
   0x28DB77F523047D84, 0x32CAAB7B40C72493, 0x3C9EBE0A15C9BEBC, 0x431D67C49C100D4C,
   0x4CC5D4BECB3E42B6, 0x597F299CFC657E2A, 0x5FCB6FAB3AD6FAEC, 0x6C44198C4A475817]

def shaK : List (BitVec 64) := shaK0 ++ shaK1 ++ shaK2 ++ shaK3

def sha384Init : List (BitVec 64) :=
  [0xCBBB9D5DC1059ED8, 0x629A292A367CD507, 0x9159015A3070DD17, 0x152FECD8F70E5939,
   0x67332667FFC00B31, 0x8EB44A8768581511, 0xDB0C2E0D64F98FA7, 0x47B5481DBEFA4FA4]

def bigSigma0 (x : BitVec 64) : BitVec 64 := x.rotateRight 28 ^^^ x.rotateRight 34 ^^^ x.rotateRight 39
def bigSigma1 (x : BitVec 64) : BitVec 64 := x.rotateRight 14 ^^^ x.rotateRight 18 ^^^ x.rotateRight 41
def smallSigma0 (x : BitVec 64) : BitVec 64 := x.rotateRight 1 ^^^ x.rotateRight 8 ^^^ (x >>> 7)
def smallSigma1 (x : BitVec 64) : BitVec 64 := x.rotateRight 19 ^^^ x.rotateRight 61 ^^^ (x >>> 6)

/-- The eight working variables. -/
structure ShaVars where
  a : BitVec 64
  b : BitVec 64
  c : BitVec 64
  d : BitVec 64
  e : BitVec 64
  f : BitVec 64
  g : BitVec 64
  h : BitVec 64

def ShaVars.round (v : ShaVars) (k w : BitVec 64) : ShaVars :=
  let t1 := v.h + bigSigma1 v.e + ((v.e &&& v.f) ^^^ (~~~ v.e &&& v.g)) + k + w
  let t2 := bigSigma0 v.a + ((v.a &&& v.b) ^^^ (v.a &&& v.c) ^^^ (v.b &&& v.c))
  { a := t1 + t2, b := v.a, c := v.b, d := v.c, e := v.d + t1, f := v.e, g := v.f, h := v.g }

/-- The rounds over the message schedule; `win` holds the next sixteen words. -/
def shaRounds : List (BitVec 64) → List (BitVec 64) → ShaVars → ShaVars
  | [], _, v => v
  | k :: ks, win, v =>
    let w := win.headD 0
    let nxt := smallSigma1 (win.getD 14 0) + win.getD 9 0 + smallSigma0 (win.getD 1 0) + w
    shaRounds ks (win.drop 1 ++ [nxt]) (v.round k w)

/-- Big-endian 64-bit words. -/
def words64 : Nat → List Byte → List (BitVec 64)
  | 0, _ => []
  | n + 1, bs => BitVec.ofNat 64 (natBE (bs.take 8)) :: words64 n (bs.drop 8)

def shaBlock (v : ShaVars) (block : List Byte) : ShaVars :=
  let r := shaRounds shaK (words64 16 block) v
  { a := v.a + r.a, b := v.b + r.b, c := v.c + r.c, d := v.d + r.d, e := v.e + r.e, f := v.f + r.f, g := v.g + r.g,
    h := v.h + r.h }

def shaBlocks : Nat → List Byte → ShaVars → ShaVars
  | 0, _, v => v
  | n + 1, bs, v => shaBlocks n (bs.drop 128) (shaBlock v (bs.take 128))

/-- The padded message: 1 bit, zeros, 128-bit length. -/
def shaPad (bs : List Byte) : List Byte :=
  let z := (239 - bs.length % 128) % 128
  bs ++ [0x80] ++ List.replicate z 0 ++ bytesBE 16 (8 * bs.length)

/-- SHA-384 of a byte string, as 48 bytes. -/
def sha384 (bs : List Byte) : List Byte :=
  let p := shaPad bs
  let i := sha384Init
  let v : ShaVars := { a := i.getD 0 0, b := i.getD 1 0, c := i.getD 2 0, d := i.getD 3 0, e := i.getD 4 0, f := i.getD 5 0,
                       g := i.getD 6 0, h := i.getD 7 0 }
  let r := shaBlocks (p.length / 128) p v
  bytesBE 8 r.a.toNat ++ bytesBE 8 r.b.toNat ++ bytesBE 8 r.c.toNat ++ bytesBE 8 r.d.toNat ++ bytesBE 8 r.e.toNat
    ++ bytesBE 8 r.f.toNat

/-- The digest as a 384-bit value, first byte lowest, as a register shows it (R488). -/
def sha384Val (bs : List Byte) : BitVec 384 := BitVec.ofNat 384 (natLE (sha384 bs))

/-- HMAC with SHA-384. -/
def hmac384 (key msg : List Byte) : List Byte :=
  let k := fit 128 (if 128 < key.length then sha384 key else key)
  sha384 (k.map (· ^^^ 0x5C) ++ sha384 (k.map (· ^^^ 0x36) ++ msg))

/-! ## P-384 -/

def p384P : Nat := 2 ^ 384 - 2 ^ 128 - 2 ^ 96 + 2 ^ 32 - 1
def p384N : Nat := 0xFFFFFFFFFFFFFFFFFFFFFFFFFFFFFFFFFFFFFFFFFFFFFFFFC7634D81F4372DDF581A0DB248B0A77AECEC196ACCC52973
def p384B : Nat := 0xB3312FA7E23EE7E4988E056BE3F82D19181D9C6EFE8141120314088F5013875AC656398D8A2ED19D2A85C8EDD3EC2AEF
def p384Gx : Nat := 0xAA87CA22BE8B05378EB1C71EF320AD746E1D3B628BA79B9859F741E082542A385502F25DBF55296C3A545E3872760AB7
def p384Gy : Nat := 0x3617DE4A96262C6F5D9E98BF9292DC29F8F41DBD289A147CE9DA3113B5F0B8C00A60B1CE1D7E819D7A431D7C90EA0E5F

/-- b^e mod m over the `k` low bits of e. -/
def powMod (m : Nat) : Nat → Nat → Nat → Nat
  | 0, _, _ => 1
  | k + 1, b, e =>
    let r := powMod m k (b * b % m) (e / 2)
    if e % 2 = 1 then r * b % m else r

def invMod (m a : Nat) : Nat := powMod m 384 (a % m) (m - 2)

/-- A point in Jacobian coordinates; z = 0 is the point at infinity. -/
structure JPoint where
  x : Nat
  y : Nat
  z : Nat

def subMod (m a b : Nat) : Nat := (a + m - b % m) % m

def JPoint.dbl (q : JPoint) : JPoint :=
  let p := p384P
  if q.z = 0 || q.y = 0 then { x := 1, y := 1, z := 0 } else
  let yy := q.y * q.y % p
  let s := 4 * q.x * yy % p
  let zz := q.z * q.z % p
  let m := 3 * (subMod p q.x zz) * (q.x + zz) % p
  let x := subMod p (m * m) (2 * s)
  { x := x, y := subMod p (m * subMod p s x) (8 * yy * yy), z := 2 * q.y * q.z % p }

def JPoint.add (q r : JPoint) : JPoint :=
  let p := p384P
  if q.z = 0 then r else if r.z = 0 then q else
  let z1 := q.z * q.z % p
  let z2 := r.z * r.z % p
  let u1 := q.x * z2 % p
  let u2 := r.x * z1 % p
  let s1 := q.y * r.z * z2 % p
  let s2 := r.y * q.z * z1 % p
  if u1 = u2 then (if s1 = s2 then q.dbl else { x := 1, y := 1, z := 0 }) else
  let h := subMod p u2 u1
  let d := subMod p s2 s1
  let hh := h * h % p
  let hhh := h * hh % p
  let v := u1 * hh % p
  let x := subMod p (subMod p (d * d) hhh) (2 * v)
  { x := x, y := subMod p (d * subMod p v x) (s1 * hhh), z := q.z * r.z * h % p }

/-- k times a point, over the low `n` bits of k, most significant first. -/
def JPoint.mul (q : JPoint) : Nat → Nat → JPoint
  | 0, _ => { x := 1, y := 1, z := 0 }
  | n + 1, k =>
    let r := (JPoint.mul q n (k / 2)).dbl
    if k % 2 = 1 then r.add q else r

def JPoint.affine (q : JPoint) : Nat × Nat :=
  let zi := invMod p384P q.z
  let z2 := zi * zi % p384P
  (q.x * z2 % p384P, q.y * z2 * zi % p384P)

def p384G : JPoint := { x := p384Gx, y := p384Gy, z := 1 }

/-- The identity key's private scalar (R403). -/
def kdfIdentity (seed : List Byte) : Nat :=
  let label : List Byte := [0x50, 0x4C, 0x50, 0x4E, 0x2D, 0x49, 0x44]
  let blk := fun (i : Nat) => hmac384 seed (bytesBE 4 i ++ label ++ [0] ++ bytesBE 4 448)
  let c := natBE ((blk 1 ++ blk 2).take 56)
  c % (p384N - 1) + 1

/-- The fuse identity seed as bytes. -/
def identitySeedBytes : List Byte := bytesBE 32 Config.identitySeed.toNat

def identityKey : Nat := kdfIdentity identitySeedBytes

/-- A public key in the layout of R67: x then y, big-endian. -/
def publicKeyBytes (d : Nat) : List Byte :=
  let a := (p384G.mul 384 d).affine
  bytesBE 48 a.1 ++ bytesBE 48 a.2

def identityPublic : List Byte := publicKeyBytes identityKey

/-- KEY_ID: the first 16 bytes of the SHA-384 of the identity public key (Table 15.3). -/
def keyId : List Byte := (sha384 identityPublic).take 16

/-- Candidate nonces of deterministic ECDSA. -/
def detNonce : Nat → List Byte → List Byte → Nat
  | 0, _, _ => 1
  | fuel + 1, k, v =>
    let v1 := hmac384 k v
    let t := natBE v1
    if 0 < t && decide (t < p384N) then t else
    let k2 := hmac384 k (v1 ++ [0])
    detNonce fuel k2 (hmac384 k2 v1)

/-- Deterministic ECDSA over P-384 with SHA-384 (R397), as r then s, 48 bytes each, big-endian. -/
def ecdsaSign (d : Nat) (msg : List Byte) : List Byte :=
  let h := sha384 msg
  let x := bytesBE 48 d
  let e := bytesBE 48 (natBE h % p384N)
  let v0 := List.replicate 48 (0x01 : Byte)
  let k0 := List.replicate 48 (0x00 : Byte)
  let k1 := hmac384 k0 (v0 ++ [0] ++ x ++ e)
  let v1 := hmac384 k1 v0
  let k2 := hmac384 k1 (v1 ++ [1] ++ x ++ e)
  let v2 := hmac384 k2 v1
  let k := detNonce 16 k2 v2
  let r := (p384G.mul 384 k).affine.1 % p384N
  let s := invMod p384N k * (natBE h + r * d) % p384N
  bytesBE 48 r ++ bytesBE 48 s

/-- Whether a public key lies on the curve. -/
def onCurve (x y : Nat) : Bool :=
  decide (x < p384P) && decide (y < p384P)
    && y * y % p384P == (x * x * x + (p384P - 3) * x + p384B) % p384P

/-- ECDSA verification over a 48-byte digest (R70). `key` is x then y, `sig` r then s. -/
def ecdsaVerify (key digest sig : List Byte) : Bool :=
  let qx := natBE (slice key 0 48)
  let qy := natBE (slice key 48 48)
  let r := natBE (slice sig 0 48)
  let s := natBE (slice sig 48 48)
  if !(onCurve qx qy) || r = 0 || s = 0 || p384N ≤ r || p384N ≤ s then false else
  let w := invMod p384N s
  let u1 := natBE digest * w % p384N
  let u2 := r * w % p384N
  let q : JPoint := { x := qx, y := qy, z := 1 }
  let t := (p384G.mul 384 u1).add (q.mul 384 u2)
  if t.z = 0 then false else t.affine.1 % p384N == r

end Sys2Proof.Machine
end

