-- ==== Sys2Proof/Machine/GateCoef.lean ====
section
/-! DEFINITION. The 512 gate coefficients that R195 defines: entry 4j + i is coefficient i of segment j of sigma, entry
256 + 4j + i that of tanh, each the binary32 value nearest the exact one. -/
namespace Sys2Proof.Machine
open Sys2Proof

def gateCoef0 : List Nat :=
  [0x3F000000, 0x3D800000, 0xB686D297, 0xB9A78007, 0x3F0FEACD, 0x3D7C0A93, 0xBA7E2499, 0xB9936F9F,
   0x3F1F597F, 0x3D70A4D0, 0xBAEE3933, 0xB9607526, 0x3F2DDEA8, 0x3D5F1FDE, 0xBB214613, 0xB90B7D35,
   0x3F3B26A8, 0x3D4954A3, 0xBB3B5295, 0xB85FE9BE, 0x3F46FD20, 0x3D314262, 0xBB459A04, 0x3763D47D,
   0x3F514C90, 0x3D18B9D9, 0xBB42ADA5, 0x388295C0, 0x3F5A1994, 0x3D012805, 0xBB3633B2, 0x38C140FE]
def gateCoef1 : List Nat :=
  [0x3F617BEB, 0x3CD706E0, 0xBB23E644, 0x38DE3B41, 0x3F67972D, 0x3CB0A801, 0xBB0EEFE4, 0x38E22B1B,
   0x3F6C948F, 0x3C8F928A, 0xBAF35018, 0x38D5C393, 0x3F709E29, 0x3C6753A2, 0xBACB27E7, 0x38C04016,
   0x3F73DBE6, 0x3C390B29, 0xBAA71630, 0x38A6EA14, 0x3F7671BF, 0x3C132F1A, 0xBA87CD21, 0x388D3927,
   0x3F787EFE, 0x3BE91651, 0xBA5AB3B8, 0x386A6815, 0x3F7A1E28, 0x3BB7E7D3, 0xBA2ED307, 0x383FB7F0]
def gateCoef2 : List Nat :=
  [0x3F7B6541, 0x3B90B161, 0xBA0AF40A, 0x381B1164, 0x3F7C6653, 0x3B632D8E, 0xB9DBE642, 0x37F8B6AB,
   0x3F7D2FF6, 0x3B320845, 0xB9AD64A8, 0x37C625CA, 0x3F7DCDDE, 0x3B0B53FE, 0xB9885992, 0x379D0FD4,
   0x3F7E4961, 0x3AD9D7F1, 0xB955FC10, 0x37780338, 0x3F7EA9E5, 0x3AAA2900, 0xB927A1F7, 0x37433815,
   0x3F7EF542, 0x3A84D3D3, 0xB90326B0, 0x37194CDF, 0x3F7F3013, 0x3A4F43E8, 0xB8CD02BE, 0x36F052AE]
def gateCoef3 : List Nat :=
  [0x3F7F5DF4, 0x3A21A529, 0xB8A01B47, 0x36BC1A88, 0x3F7F81BB, 0x39FC0DEC, 0xB879EC20, 0x36931148,
   0x3F7F9D9E, 0x39C477B4, 0xB842F7D3, 0x3665C4CE, 0x3F7FB35B, 0x39991C5C, 0xB8180A6E, 0x36335E09,
   0x3F7FC44B, 0x396E9BE9, 0xB7ED0FAA, 0x360BF2D5, 0x3F7FD17E, 0x3939E760, 0xB7B8C542, 0x35DA4BE7,
   0x3F7FDBC6, 0x3910D3D7, 0xB78FFD1E, 0x35AA32FB, 0x3F7FE3C8, 0x38E1A383, 0xB76062AE, 0x3584AA97]
def gateCoef4 : List Nat :=
  [0x3F7FEA06, 0x38AFC2D7, 0xB72ED13E, 0x354EC7F6, 0x3F7FEEE2, 0x3888E737, 0xB7083013, 0x35212048,
   0x3F7FF2AB, 0x385543E8, 0xB6D42CBC, 0x34FB12BC, 0x3F7FF59E, 0x38261B29, 0xB6A54570, 0x34C39933,
   0x3F7FF7EA, 0x38015F64, 0xB680BB2F, 0x34985EBF, 0x3F7FF9B4, 0x37C985A2, 0xB6488895, 0x346D60BC,
   0x3F7FFB18, 0x379CF3C1, 0xB61C3054, 0x3438E5E0, 0x3F7FFC2E, 0x37747A1F, 0xB5F34BB9, 0x341003FD]
def gateCoef5 : List Nat :=
  [0x3F7FFD06, 0x373E6761, 0xB5BD7D15, 0x33E056E4, 0x3F7FFDAF, 0x37144A25, 0xB5939469, 0x33AEBA69,
   0x3F7FFE32, 0x36E6FAD1, 0xB565E0A5, 0x33881603, 0x3F7FFE98, 0x36B3E3B0, 0xB5330879, 0x3353FA15,
   0x3F7FFEE8, 0x368C196E, 0xB50B6F09, 0x332517E4, 0x3F7FFF26, 0x365A3877, 0xB4D92F74, 0x33009404,
   0x3F7FFF56, 0x3629F38A, 0xB4A92564, 0x32C84715, 0x3F7FFF7C, 0x36045BDC, 0xB483BB75, 0x329BFA98]
def gateCoef6 : List Nat :=
  [0x3F7FFF99, 0x35CE29BC, 0xB44D3012, 0x3272F4B9, 0x3F7FFFB0, 0x35A08F74, 0xB41FCD1F, 0x323D3753,
   0x3F7FFFC1, 0x357A16F0, 0xB3F8E861, 0x32135CDE, 0x3F7FFFCF, 0x3542C532, 0xB3C1D9A4, 0x31E588A8,
   0x3F7FFFDA, 0x3517AFFD, 0xB396F896, 0x31B2C30D, 0x3F7FFFE2, 0x34EC44D3, 0xB36B2738, 0x318B386D,
   0x3F7FFFE9, 0x34B801AB, 0xB3372345, 0x3158D9BD, 0x3F7FFFEE, 0x348F4DF4, 0xB30EA0C5, 0x3128E23D]
def gateCoef7 : List Nat :=
  [0x3F7FFFF2, 0x345F3620, 0xB2DE2867, 0x310386EA, 0x3F7FFFF5, 0x342DD659, 0xB2AD044E, 0x30CCDDF0,
   0x3F7FFFF8, 0x34076279, 0xB286BEE7, 0x309F8CFA, 0x3F7FFFF9, 0x33D2E01A, 0xB251E156, 0x30788440,
   0x3F7FFFFB, 0x33A43ADE, 0xB2237476, 0x30418B88, 0x3F7FFFFC, 0x337FCE0C, 0xB1FE9904, 0x3016BBAD,
   0x3F7FFFFD, 0x33473897, 0xB1C647EC, 0x2FEAC83F, 0x3F7FFFFE, 0x331B274E, 0xB19A6BE0, 0x2FB6D93F]
def gateCoef8 : List Nat :=
  [0x00000000, 0x3E000000, 0xB706D297, 0xBA278007, 0x3DFEACC9, 0x3DFC0A93, 0xBAFE2499, 0xBA136F9F,
   0x3E7ACBF5, 0x3DF0A4D0, 0xBB6E3933, 0xB9E07526, 0x3EB77A9F, 0x3DDF1FDE, 0xBBA14613, 0xB98B7D35,
   0x3EEC9A9F, 0x3DC954A3, 0xBBBB5295, 0xB8DFE9BE, 0x3F0DFA3F, 0x3DB14262, 0xBBC59A04, 0x37E3D47D,
   0x3F22991F, 0x3D98B9D9, 0xBBC2ADA5, 0x390295C0, 0x3F343328, 0x3D812805, 0xBBB633B2, 0x394140FE]
def gateCoef9 : List Nat :=
  [0x3F42F7D6, 0x3D5706E0, 0xBBA3E644, 0x395E3B41, 0x3F4F2E5B, 0x3D30A801, 0xBB8EEFE4, 0x39622B1B,
   0x3F59291E, 0x3D0F928A, 0xBB735018, 0x3955C393, 0x3F613C53, 0x3CE753A2, 0xBB4B27E7, 0x39404016,
   0x3F67B7CC, 0x3CB90B29, 0xBB271630, 0x3926EA14, 0x3F6CE37D, 0x3C932F1A, 0xBB07CD21, 0x390D3927,
   0x3F70FDFD, 0x3C691651, 0xBADAB3B8, 0x38EA6815, 0x3F743C4F, 0x3C37E7D3, 0xBAAED307, 0x38BFB7F0]
def gateCoef10 : List Nat :=
  [0x3F76CA83, 0x3C10B161, 0xBA8AF40A, 0x389B1164, 0x3F78CCA7, 0x3BE32D8E, 0xBA5BE642, 0x3878B6AB,
   0x3F7A5FEB, 0x3BB20845, 0xBA2D64A8, 0x384625CA, 0x3F7B9BBB, 0x3B8B53FE, 0xBA085992, 0x381D0FD4,
   0x3F7C92C1, 0x3B59D7F1, 0xB9D5FC10, 0x37F80338, 0x3F7D53CA, 0x3B2A2900, 0xB9A7A1F7, 0x37C33815,
   0x3F7DEA85, 0x3B04D3D3, 0xB98326B0, 0x37994CDF, 0x3F7E6026, 0x3ACF43E8, 0xB94D02BE, 0x377052AE]
def gateCoef11 : List Nat :=
  [0x3F7EBBE9, 0x3AA1A529, 0xB9201B47, 0x373C1A88, 0x3F7F0376, 0x3A7C0DEC, 0xB8F9EC20, 0x37131148,
   0x3F7F3B3D, 0x3A4477B4, 0xB8C2F7D3, 0x36E5C4CE, 0x3F7F66B6, 0x3A191C5C, 0xB8980A6E, 0x36B35E09,
   0x3F7F8896, 0x39EE9BE9, 0xB86D0FAA, 0x368BF2D5, 0x3F7FA2FB, 0x39B9E760, 0xB838C542, 0x365A4BE7,
   0x3F7FB78C, 0x3990D3D7, 0xB80FFD1E, 0x362A32FB, 0x3F7FC791, 0x3961A383, 0xB7E062AE, 0x3604AA97]
def gateCoef12 : List Nat :=
  [0x3F7FD40C, 0x392FC2D7, 0xB7AED13E, 0x35CEC7F6, 0x3F7FDDC4, 0x3908E737, 0xB7883013, 0x35A12048,
   0x3F7FE556, 0x38D543E8, 0xB7542CBC, 0x357B12BC, 0x3F7FEB3C, 0x38A61B29, 0xB7254570, 0x35439933,
   0x3F7FEFD4, 0x38815F64, 0xB700BB2F, 0x35185EBF, 0x3F7FF367, 0x384985A2, 0xB6C88895, 0x34ED60BC,
   0x3F7FF631, 0x381CF3C1, 0xB69C3054, 0x34B8E5E0, 0x3F7FF85C, 0x37F47A1F, 0xB6734BB9, 0x349003FD]
def gateCoef13 : List Nat :=
  [0x3F7FFA0D, 0x37BE6761, 0xB63D7D15, 0x346056E4, 0x3F7FFB5E, 0x37944A25, 0xB6139469, 0x342EBA69,
   0x3F7FFC64, 0x3766FAD1, 0xB5E5E0A5, 0x34081603, 0x3F7FFD30, 0x3733E3B0, 0xB5B30879, 0x33D3FA15,
   0x3F7FFDD0, 0x370C196E, 0xB58B6F09, 0x33A517E4, 0x3F7FFE4C, 0x36DA3877, 0xB5592F74, 0x33809404,
   0x3F7FFEAC, 0x36A9F38A, 0xB5292564, 0x33484715, 0x3F7FFEF7, 0x36845BDC, 0xB503BB75, 0x331BFA98]
def gateCoef14 : List Nat :=
  [0x3F7FFF32, 0x364E29BC, 0xB4CD3012, 0x32F2F4B9, 0x3F7FFF5F, 0x36208F74, 0xB49FCD1F, 0x32BD3753,
   0x3F7FFF83, 0x35FA16F0, 0xB478E861, 0x32935CDE, 0x3F7FFF9F, 0x35C2C532, 0xB441D9A4, 0x326588A8,
   0x3F7FFFB4, 0x3597AFFD, 0xB416F896, 0x3232C30D, 0x3F7FFFC5, 0x356C44D3, 0xB3EB2738, 0x320B386D,
   0x3F7FFFD2, 0x353801AB, 0xB3B72345, 0x31D8D9BD, 0x3F7FFFDC, 0x350F4DF4, 0xB38EA0C5, 0x31A8E23D]
def gateCoef15 : List Nat :=
  [0x3F7FFFE4, 0x34DF3620, 0xB35E2867, 0x318386EA, 0x3F7FFFEA, 0x34ADD659, 0xB32D044E, 0x314CDDF0,
   0x3F7FFFEF, 0x34876279, 0xB306BEE7, 0x311F8CFA, 0x3F7FFFF3, 0x3452E01A, 0xB2D1E156, 0x30F88440,
   0x3F7FFFF6, 0x34243ADE, 0xB2A37476, 0x30C18B88, 0x3F7FFFF8, 0x33FFCE0C, 0xB27E9904, 0x3096BBAD,
   0x3F7FFFFA, 0x33C73897, 0xB24647EC, 0x306AC83F, 0x3F7FFFFB, 0x339B274E, 0xB21A6BE0, 0x3036D93F]

/-- STREAM_GATE_COEF in index order (R195). -/
def gateCoefs : List Nat :=
  gateCoef0 ++ gateCoef1 ++ gateCoef2 ++ gateCoef3 ++ gateCoef4 ++ gateCoef5 ++ gateCoef6 ++ gateCoef7
    ++ gateCoef8 ++ gateCoef9 ++ gateCoef10 ++ gateCoef11 ++ gateCoef12 ++ gateCoef13 ++ gateCoef14 ++ gateCoef15

def gateCoef (i : Nat) : Nat := gateCoefs.getD i 0

end Sys2Proof.Machine
end

