-- ==== Sys2Proof/Machine/Memory.lean ====
section
/-! DEFINITION. Sparse byte memories: lists of (address, byte), addresses rising, no byte equal to the one an unlisted address
reads as. T0, T1 and T2 read 0 where nothing is listed, the boot flash 0xFF. -/
namespace Sys2Proof.Machine
open Sys2Proof

/-- A sparse memory. -/
abbrev Memory := List Host.Cell

/-- The canonical form: addresses strictly rising, no entry equal to what an unlisted address reads as. -/
def Memory.wf (dflt : Byte) : Memory → Bool
  | [] => true
  | [c] => c.2 != dflt
  | c :: d :: t => c.2 != dflt && decide (c.1 < d.1) && Memory.wf dflt (d :: t)

/-- The byte at an address. -/
def Memory.byte (dflt : Byte) (m : Memory) (a : Nat) : Byte :=
  match m with
  | [] => dflt
  | (k, v) :: t => if k = a then v else Memory.byte dflt t a

/-- `n` bytes from `a` on, walking the rising list once. -/
def Memory.read (dflt : Byte) (m : Memory) (a : Nat) : Nat → List Byte
  | 0 => []
  | n + 1 =>
    match m.dropWhile (fun c => decide (c.1 < a)) with
    | [] => dflt :: Memory.read dflt [] (a + 1) n
    | (k, v) :: t =>
      if k = a then v :: Memory.read dflt t (a + 1) n else dflt :: Memory.read dflt ((k, v) :: t) (a + 1) n

/-- The entries a byte string makes at an address. -/
def Memory.listed (dflt : Byte) (a : Nat) : List Byte → Memory
  | [] => []
  | b :: bs => if b = dflt then Memory.listed dflt (a + 1) bs else (a, b) :: Memory.listed dflt (a + 1) bs

/-- Write a byte string at an address; everything outside it stays. -/
def Memory.write (dflt : Byte) (m : Memory) (a : Nat) (bs : List Byte) : Memory :=
  m.filter (fun c => decide (c.1 < a)) ++ Memory.listed dflt a bs ++ m.filter (fun c => decide (a + bs.length ≤ c.1))

/-- Set a range back to what an unlisted address reads as. -/
def Memory.clear (m : Memory) (a n : Nat) : Memory :=
  m.filter (fun c => decide (c.1 < a) || decide (a + n ≤ c.1))

end Sys2Proof.Machine
end

