-- ==== Sys2Proof/Machine/Time.lean ====
section
/-! DEFINITION. Device time (02, R39). -/
namespace Sys2Proof.Machine
open Sys2Proof

/-- What one cycle of the clock that drives device time adds, in 1/96 ns: 125/32 ns in the TIME domain, 125/3 ns per AON
cycle from the reference, 125/4 ns per RC cycle (R39). At power-up, before the reference is first qualified, it is not lost, and R39 names
the RC oscillator for a lost reference only: the counter takes AON cycles, and AON_ON_RC and TIME_DEGRADED stay clear (DESIGN CHOICE, log
entry 2). -/
def Clk.cycleUnits (c : Clk) : Nat :=
  if c.pllLocked then 375 else if c.aonOnRc then 3000 else 4000

/-- One cycle, at a rate adjusted by `ppm` parts per million: the fraction accumulator, in units of 1/96,000,000 ns, keeps the sum exact
(R39). -/
def Clk.tick (c : Clk) (ppm : Int) : Clk :=
  if c.pwrOk then
    let sum := c.frac + c.cycleUnits * (1000000 + ppm).toNat
    { c with devTime := c.devTime + sum / 96000000, frac := sum % 96000000 }
  else c

/-- The rate of fabric time sync (R356) acts on the counter of the TIME domain. -/
def State.tick (s : State) : State := { s with clk := s.clk.tick (if s.clk.pllLocked then s.net.rateAdj else 0) }

/-- Device time never steps backwards (R39): an event at device time `t` advances it to `t` if that lies ahead. -/
def State.advance (s : State) (t : Nat) : State :=
  if s.clk.pwrOk && decide (s.clk.devTime < t) then { s with clk := { s.clk with devTime := t, frac := 0 } } else s

/-- A time that was set has come. -/
def State.due (s : State) (t : Option Nat) : Bool := t.any fun x => decide (x ≤ s.clk.devTime)

end Sys2Proof.Machine
end

