-- ==== Sys2Proof/Machine/Ops.lean ====
section
/-! DEFINITION. The named operations over the parts of the state that every family uses: reading and changing one bay, thread,
port, page or tile, counting an event, raising an interrupt, writing an error record, and reading and writing T0, T1 and T2. -/
namespace Sys2Proof.Machine
open Sys2Proof

/-! ## One part of the state -/

def State.bay (s : State) (b : Fin 80) : Bay := s.bays.getD b.val Bay.reset
def State.modBay (s : State) (b : Fin 80) (f : Bay → Bay) : State := { s with bays := s.bays.modify b.val f }
def Bay.thr (y : Bay) (t : Fin 128) : Thread := y.threads.getD t.val Thread.reset
def Bay.modThr (y : Bay) (t : Fin 128) (f : Thread → Thread) : Bay := { y with threads := y.threads.modify t.val f }
def State.thr (s : State) (b : Fin 80) (t : Fin 128) : Thread := (s.bay b).thr t
def State.modThr (s : State) (b : Fin 80) (t : Fin 128) (f : Thread → Thread) : State := s.modBay b fun y => y.modThr t f
def State.port (s : State) (n : Fin 12) : Port := s.truss.getD n.val Port.reset
def State.modPort (s : State) (n : Fin 12) (f : Port → Port) : State := { s with truss := s.truss.modify n.val f }
def State.page (s : State) (f : Fin 16) : FnPage := s.host.pages.getD f.val FnPage.reset
def State.modHost (s : State) (g : HostSt → HostSt) : State := { s with host := g s.host }
def State.modPage (s : State) (f : Fin 16) (g : FnPage → FnPage) : State :=
  s.modHost fun h => { h with pages := h.pages.modify f.val g }
def State.tile (s : State) (t : Nat) : TileClk := s.clk.tiles.getD t TileClk.reset
def State.modClk (s : State) (f : Clk → Clk) : State := { s with clk := f s.clk }
def State.modTile (s : State) (t : Nat) (f : TileClk → TileClk) : State :=
  s.modClk fun c => { c with tiles := c.tiles.modify t f }
def State.modPins (s : State) (f : Pins → Pins) : State := { s with pins := f s.pins }
def State.modBoot (s : State) (f : Boot → Boot) : State := { s with boot := f s.boot }
def State.modTun (s : State) (f : Tun → Tun) : State := { s with tun := f s.tun }
def State.modStew (s : State) (f : Stew → Stew) : State := { s with stew := f s.stew }
def State.modReqs (s : State) (f : Reqs → Reqs) : State := { s with req := f s.req }
def State.modMem (s : State) (f : Mem → Mem) : State := { s with mem := f s.mem }
def State.modQuota (s : State) (f : Quota → Quota) : State := { s with quota := f s.quota }
def State.modStr (s : State) (f : Streams → Streams) : State := { s with str := f s.str }
def State.modKv (s : State) (f : Kv → Kv) : State := { s with kv := f s.kv }
def State.modNet (s : State) (f : Net → Net) : State := { s with net := f s.net }
def State.modAud (s : State) (f : Audit → Audit) : State := { s with aud := f s.aud }
def State.modSent (s : State) (f : Sent → Sent) : State := { s with sent := f s.sent }
def State.modCnt (s : State) (f : Cnt → Cnt) : State := { s with cnt := f s.cnt }
def State.modErr (s : State) (f : ErrLog → ErrLog) : State := { s with err := f s.err }
def State.modPlumb (s : State) (f : Plumb → Plumb) : State := { s with plumb := f s.plumb }
def State.modCxl (s : State) (f : Cxl → Cxl) : State := { s with cxl := f s.cxl }
def State.modHub (s : State) (f : Hub → Hub) : State := { s with hub := f s.hub }

/-! ## Hub mover jobs (R249, Table 10.6) -/

def JobKind.rank : JobKind → Nat
  | .output _ _ => 1
  | .input _ => 2
  | .swapIn _ => 3
  | .commit _ => 3
  | .park _ => 4
  | .weight _ => 5
  | .copy _ _ _ => 6

def JobKind.asn : JobKind → Option Nat
  | .output a _ => some a
  | .input a => some a
  | .swapIn a => some a
  | .commit a => some a
  | .park _ => none
  | .weight _ => none
  | .copy _ _ _ => none

/-- The tail that a job parks. -/
def JobKind.tail : JobKind → Option ResTail
  | .park x => some x
  | .output _ _ => none
  | .input _ => none
  | .swapIn _ => none
  | .commit _ => none
  | .weight _ => none
  | .copy _ _ _ => none

def State.addJob (s : State) (k : JobKind) : State :=
  s.modHub fun h => { h with jobs := h.jobs ++ [{ id := h.nextJob, kind := k, running := false, descs := [] }], nextJob := h.nextJob + 1 }
def State.modBars (s : State) (f : Bars → Bars) : State := { s with bars := f s.bars }

/-- A value the spec leaves open: a fresh number of `Config.freeValue`, and the state that has drawn it. -/
def State.draw (s : State) : BitVec 64 × State := (Config.freeValue s.freeCtr, { s with freeCtr := s.freeCtr + 1 })

/-- Apply a state change for each element of a list. -/
def State.each {α : Type} (s : State) (l : List α) (f : State → α → State) : State := l.foldl f s

/-- Bay numbers and the bays of a tile (Table 0.2). -/
def allBays : List (Fin 80) := List.finRange 80
def tileOf (b : Fin 80) : Fin 4 := ⟨b.val / 20, by omega⟩
def baysOf (t : Fin 4) : List (Fin 80) := allBays.filter fun b => tileOf b == t
def allPorts : List (Fin 12) := List.finRange 12
def allFns : List (Fin 16) := List.finRange 16
def allTiles : List (Fin 4) := List.finRange 4
def allThreads : List (Fin 128) := List.finRange 128

/-- A bay, tenant or function number from a natural number, cut to its range. -/
def bayIx (n : Nat) : Fin 80 := ⟨n % 80, Nat.mod_lt _ (by decide)⟩
def fnIx (n : Nat) : Fin 16 := ⟨n % 16, Nat.mod_lt _ (by decide)⟩
def portIx (n : Nat) : Fin 12 := ⟨n % 12, Nat.mod_lt _ (by decide)⟩

/-! ## Event counters (17) -/

/-- Count `k` occurrences of event i, modulo 2^48 (R431, R432). -/
def State.count (s : State) (i k : Nat) : State :=
  s.modCnt fun c => { c with values := keySet c.values i ((keyGet c.values i + k) % 2 ^ 48) }

/-- Event e of bay b (Table 17.1). -/
def State.countBay (s : State) (b : Fin 80) (e k : Nat) : State := s.count (32 * b.val + e) k
def State.countTile (s : State) (t e k : Nat) : State := s.count (2560 + 16 * t + e) k
def State.countPort (s : State) (n : Fin 12) (e k : Nat) : State := s.count (2624 + 32 * n.val + e) k
def State.countHbm (s : State) (st e k : Nat) : State := s.count (3008 + 16 * st + e) k
def State.countT2 (s : State) (d e k : Nat) : State := s.count (3392 + 16 * d + e) k
def State.countFn (s : State) (f : Fin 16) (e k : Nat) : State := s.count (3456 + 16 * f.val + e) k
def State.countProg (s : State) (p e k : Nat) : State := s.count (3712 + 8 * p + e) k
def State.countDev (s : State) (e k : Nat) : State := s.count (6120 + e) k

/-! ## Interrupts (14) -/

/-- The PCIe link goes down. -/
def HostSt.linkDown (h : HostSt) : HostSt := { h with linkUp := false, linkL1 := false, linkRate := 0, linkWidth := 0 }

/-- Whether the function can send to the host: link up, bus mastering allowed (R372). -/
def State.canSend (s : State) (f : Fin 16) : Bool := s.host.linkUp && (s.page f).busMaster

def State.emit (s : State) (m : HostMsg) : State := s.modHost fun h => { h with out := h.out ++ [m] }

/-- Send the message of a vector; a masked message is held as pending (R371). -/
def State.sendMsix (s : State) (f : Fin 16) (v : Nat) : State :=
  if !(s.host.linkUp) then s
  else if (s.page f).msixMasked.contains v || !(s.page f).busMaster then
    s.modPage f fun p => { p with msixPending := insertNat p.msixPending v }
  else (s.emit (.msix f v)).countFn f 7 1

/-- A moderated vector: after a message none follows until the host writes the head (R371). -/
def State.sendQuiet (s : State) (f : Fin 16) (v : Nat) : State :=
  if (s.page f).quiet.contains v then s
  else (s.sendMsix f v).modPage f fun p => { p with quiet := insertNat p.quiet v }

/-- Raise event vector v of function f: the cause latches, the mask suppresses the message (Table 14.1, R370). -/
def State.raise (s : State) (f : Fin 16) (v : Nat) : State :=
  let s := s.modPage f fun p => { p with irqCause := p.irqCause ||| (1#32 <<< v) }
  if (s.page f).irqMask.getLsbD v then s
  else if f.val = 0 && v == 1 then s.sendQuiet f v else s.sendMsix f v

/-- In P3, or on the way into it: host TLPs are held and wake sources latched. -/
def State.asleep (s : State) : Bool := s.clk.pstate == .p3 || s.clk.p3Entering

/-- A wake source fires in P3: its bit stays in POWER_WAKE_CAUSE, and the exit starts at SW_RAIL_EN rising, which waits for the minimum
low time and for the reference (R48, R59, R473, R494). -/
def State.latchWake (s : State) (bit : Nat) : State :=
  if s.asleep then
    let s := s.modClk fun c => { c with wakeCause := c.wakeCause ||| (1#5 <<< bit), wakeLatched := true }
    if s.clk.pstate == .p3 && s.clk.railLowUntil.isNone && !s.clk.refLost then s.modPins fun p => { p with swRailEn := true } else s
  else s

/-! ## Error records (18) -/

/-- What a fault puts into its record (Table 18.2); the common fields come from the state. -/
structure ErrSpec where
  cls : Nat
  source : Nat
  inst : Nat := 0xFFFF
  code : Nat
  fence : Bool := false
  asn : Option Nat := none
  addr : Nat := 0
  info : List Byte := []

/-- The record of a fault, with the next sequence number (R444). EFLAGS CLOCK_DEGRADED follows TIME_DEGRADED. -/
def State.errRecord (s : State) (e : ErrSpec) (suppressed : Bool) : ErrRec :=
  { seq := s.err.nextSeq, time := s.clk.devTime, cls := e.cls, source := e.source, inst := e.inst, code := e.code,
    eflags := b2n s.clk.timeDegraded + 2 * b2n suppressed + 4 * b2n e.fence, asn := e.asn, addr := e.addr,
    info := fit 16 e.info, epoch := s.net.settled }

/-- Put a record into the CSR ring and the T1 mirror (R447). -/
def ErrLog.push (l : ErrLog) (r : ErrRec) : ErrLog :=
  { l with nextSeq := l.nextSeq + 1, ring := keepLast 4096 (l.ring ++ [r]), mirror := keepLast 262144 (l.mirror ++ [r]),
           classCount := l.classCount.modify r.cls satInc }

/-- The count a triple has in this epoch (R446). -/
def ErrLog.triple (l : ErrLog) (e : ErrSpec) : Coalesce :=
  (l.coalesce.find? fun c => c.source == e.source && c.inst == e.inst && c.code == e.code).getD
    { source := e.source, inst := e.inst, code := e.code, written := 0, withheld := 0 }

def ErrLog.setTriple (l : ErrLog) (c : Coalesce) : ErrLog :=
  { l with coalesce := l.coalesce.filter (fun d => !(d.source == c.source && d.inst == c.inst && d.code == c.code)) ++ [c] }

/-- Write an error record (R442 to R447): a corrected-class record beyond the 16th of its triple in this epoch is counted and
withheld; a contained, degraded or fatal one raises PF vector 2. Counter 6,130 counts every occurrence. -/
def State.error (s : State) (e : ErrSpec) : State :=
  let s := s.countDev 10 1
  if e.cls = 0 then
    let t := s.err.triple e
    if 16 ≤ t.written then
      s.modErr fun l => { (l.setTriple { t with withheld := t.withheld + 1 }) with suppressed := satInc l.suppressed }
    else s.modErr fun l => (l.setTriple { t with written := t.written + 1 }).push (s.errRecord e false)
  else (s.modErr fun l => l.push (s.errRecord e false)).raise 0 2

/-- The 64 bytes of a record (Table 18.2). -/
def ErrRec.bytes (r : ErrRec) : List Byte :=
  let body := bytesLE 8 r.seq ++ bytesLE 8 r.time ++ bytesLE 1 r.cls ++ bytesLE 1 r.source ++ bytesLE 2 r.inst
    ++ bytesLE 2 r.code ++ bytesLE 2 r.eflags ++ bytesLE 8 (r.asn.getD (2 ^ 64 - 1)) ++ bytesLE 8 r.addr ++ fit 16 r.info
    ++ bytesLE 4 r.epoch
  body ++ bytesLE 4 (crc32 body).toNat

/-- Record under R86: a write to a locked field or region, or a refused thread store to CSR space. -/
def State.lockViolation (s : State) (source inst addr : Nat) (asn : Option Nat) : State :=
  ((s.error { cls := 0, source := source, inst := inst, code := 0x0301, asn := asn, addr := addr }).countDev 11 1).modBoot
    fun b => { b with lockViol := satInc b.lockViol }

/-! ## Address regions (05 R134; 10) -/

inductive Region where
  | t0 | t1 | csr | t2 | host | none
deriving DecidableEq, Repr

def t1Base : Nat := 0x001000000000
def t1Top : Nat := 0x005800000000
def t2Base : Nat := 0x010000000000
def csrBase : Nat := 0x00F000000000
def spareBase : Nat := 0x0057E0000000
def sysBase : Nat := 0x0057F0000000
def gib : Nat := 1073741824
def mib : Nat := 1048576

/-- Bytes of T2 that are mapped, lost devices included in the address map (R236). -/
def State.t2Top (s : State) : Nat := (s.cxl.devs.filter fun d => !d.lost).foldl (fun m d => max m (d.base + d.gib * gib)) t2Base

/-- Mapped T2 in GiB: a lost device no longer counts (R265). -/
def State.mappedGib (s : State) : Nat := ((s.cxl.devs.filter fun d => !d.lost).map (·.gib)).sum

/-- Base of the T2 system region: the top max(64 MiB, M / 4,096) of mapped T2 of size M, rounded up to 64 KiB (R239). -/
def State.t2SystemBase (s : State) : Nat :=
  let m := s.mappedGib * gib
  if m = 0 then t2Base else s.t2Top - (max (64 * mib) (m / 4096) + 65535) / 65536 * 65536

/-- The region a local address lies in (R134). -/
def State.region (s : State) (a : Nat) : Region :=
  if a < 0x28000000 then .t0
  else if t1Base ≤ a && decide (a < t1Top) then .t1
  else if csrBase ≤ a && decide (a < csrBase + 0x1000000) then .csr
  else if t2Base ≤ a && s.cxl.devs.any (fun d => decide (d.base ≤ a) && decide (a < d.base + d.gib * gib)) then .t2
  else if 0x100000000000 ≤ a && decide (a < 0x200000000000) then .host
  else .none

/-- HBM stack and pseudo-channel of a T1 address (R260). -/
def stackOf (a : Nat) : Nat := (a - t1Base) / 4096 % 8
def pcOf (a : Nat) : Nat := (a - t1Base) / 4096 / 8 % 32

/-- The T2 device that holds an address, by its place in mapping order. -/
def State.t2Dev (s : State) (a : Nat) : Option Nat :=
  s.cxl.devs.findIdx? fun d => decide (d.base ≤ a) && decide (a < d.base + d.gib * gib)

def State.t2Lost (s : State) (a : Nat) : Bool :=
  match s.t2Dev a with
  | some i => ((s.cxl.devs[i]?).map (·.lost)).getD false
  | none => false

/-- Whether a range reaches a lost device. -/
def State.lostIn (s : State) (a n : Nat) : Bool :=
  decide (t2Base < a + n) && s.cxl.devs.any fun d => d.lost && decide (a < d.base + d.gib * gib) && decide (d.base < a + n)

/-! ## Reading and writing memory (05, 10, 11) -/

/-- Lines of 64 bytes that a range touches. -/
def linesOf (a n : Nat) : List Nat :=
  if n = 0 then [] else (List.range ((a + n - 1) / 64 - a / 64 + 1)).map fun i => (a / 64 + i) * 64

/-- Whether a granule (address / 4,096) is fresh (R241). -/
def Mem.isFresh (m : Mem) (g : Nat) : Bool := m.fresh.any fun r => decide (r.lo ≤ g) && decide (g ≤ r.hi)

/-- The byte an address of T0, T1 or T2 holds: a fresh granule reads zero. -/
def Mem.byte (m : Mem) (a : Nat) : Byte := if m.isFresh (a / 4096) then 0 else Memory.byte 0 m.cells a

/-- `n` bytes of T0, T1 or T2. -/
def Mem.read (m : Mem) (a n : Nat) : List Byte :=
  let raw := Memory.read 0 m.cells a n
  if m.fresh.isEmpty then raw else raw.mapIdx fun i b => if m.isFresh ((a + i) / 4096) then 0 else b

/-- Take granules out of the fresh map. -/
def GranRange.minus (r : GranRange) (lo hi : Nat) : List GranRange :=
  if hi < r.lo || r.hi < lo then [r] else
  (if r.lo < lo then [{ lo := r.lo, hi := lo - 1 }] else []) ++ (if hi < r.hi then [{ lo := hi + 1, hi := r.hi }] else [])

/-- The granules of a range that are fresh. -/
def Mem.freshIn (m : Mem) (a n : Nat) : List Nat :=
  if n = 0 || m.fresh.isEmpty then [] else
  ((List.range ((a + n - 1) / 4096 - a / 4096 + 1)).map fun i => a / 4096 + i).filter m.isFresh

/-- The first write into a fresh granule fills it with zeros and clears the mark (R241). -/
def Mem.unfresh (m : Mem) (a n : Nat) : Mem :=
  let gs := m.freshIn a n
  if gs.isEmpty then m else
  { m with cells := gs.foldl (fun c g => Memory.clear c (g * 4096) 4096) m.cells,
           poison := m.poison.filter fun l => !(gs.contains (l / 4096)),
           fresh := m.fresh.flatMap fun r => r.minus (a / 4096) ((a + n - 1) / 4096) }

/-- Write bytes: zero-fill of fresh granules first; a full 64-byte line written clears its poison (R241, R261). -/
def Mem.write (m : Mem) (a : Nat) (bs : List Byte) : Mem :=
  let m := m.unfresh a bs.length
  { m with cells := Memory.write 0 m.cells a bs,
           poison := m.poison.filter fun l => !(decide (a ≤ l) && decide (l + 64 ≤ a + bs.length)) }

/-- Whether a range reaches a poisoned line; one in a fresh granule is not read (R241). -/
def Mem.poisoned (m : Mem) (a n : Nat) : Bool :=
  m.poison.any fun l => decide (l < a + n) && decide (a < l + 64) && !(m.isFresh (l / 4096))

/-- How a read of device memory ends. -/
inductive ReadEnd where
  | ok | poison | absent
deriving DecidableEq, Repr

def State.readEnd (s : State) (a n : Nat) : ReadEnd :=
  if s.lostIn a n then .absent else if s.mem.poisoned a n then .poison else .ok

/-- Bytes of a range before its first 64-byte line that cannot be read. -/
def State.goodBytes (s : State) (a n : Nat) : Nat :=
  match (linesOf a n).find? fun l => s.readEnd l 64 != .ok with
  | some l => l - a
  | none => n

/-- Count the traffic of a T1 or T2 access: bytes, and 64-byte accesses of the pseudo-channel (Table 17.1). -/
def State.countAccess (s : State) (write : Bool) (a n : Nat) : State :=
  match s.region a with
  | .t1 => ((linesOf a n).foldl (fun s l => s.count (3136 + 32 * stackOf l + pcOf l) 1) s).countHbm (stackOf a) (b2n write) n
  | .t2 =>
    match s.t2Dev a with
    | some d => (s.countT2 d (b2n write) n).countT2 d (2 + b2n write) (linesOf a n).length
    | none => s
  | _ => s

/-- The state after a read: traffic, and a poisoned response counted. -/
def State.noteRead (s : State) (a n : Nat) : State :=
  let s := s.countAccess false a n
  match s.readEnd a n, s.region a with
  | .poison, .t1 => s.countHbm (stackOf a) 6 1
  | .poison, .t2 => (s.t2Dev a).elim s fun d => s.countT2 d 5 1
  | .absent, .t2 => (s.t2Dev a).elim s fun d => s.countT2 d 5 1
  | _, _ => s

/-- A write to devices that are there. -/
def State.storeBytes (s : State) (a : Nat) (bs : List Byte) : State :=
  let fills := s.mem.freshIn a bs.length
  let s := fills.foldl (fun s g =>
    match s.region (g * 4096) with
    | .t1 => s.countHbm (stackOf (g * 4096)) 15 1
    | .t2 => (s.t2Dev (g * 4096)).elim s fun d => s.countT2 d 11 1
    | _ => s) s
  (s.countAccess true a bs.length).modMem fun m => m.write a bs

/-- Pieces of a byte string that lie in one GiB each: a T2 device holds whole ones (R236). -/
def gibPieces (a : Nat) (bs : List Byte) : List (Nat × List Byte) :=
  let cut := (a / gib + 1) * gib - a
  if bs.length ≤ cut then [(a, bs)] else [(a, bs.take cut), (a + cut, bs.drop cut)]

/-- A write: the bytes that lie on a lost T2 device are dropped (R265). -/
def State.memWrite (s : State) (a : Nat) (bs : List Byte) : State :=
  if s.lostIn a bs.length then
    s.each ((gibPieces a bs).filter fun p => !(s.lostIn p.1 p.2.length)) fun s p => s.storeBytes p.1 p.2
  else s.storeBytes a bs

/-- A little-endian number in device memory. -/
def State.memLE (s : State) (a n : Nat) : Nat := natLE (s.mem.read a n)

/-! ## Layout of T0 (R237) -/

def bayBase (b : Fin 80) : Nat := b.val * 0x800000

/-- Bytes of the gallery carving of each bay (R197, R237). -/
def State.carving (s : State) : Nat :=
  (s.cfg.pers.classes.map fun c => if c.present then c.slotsPerBay * c.slotSize else 0).sum

def State.landingBytes (s : State) : Nat := s.cfg.pers.landingKib * 1024
/-- W0 (R237). -/
def State.w0 (s : State) : Nat := 0x800000 - s.carving - s.landingBytes

def State.bayFenced (s : State) (b : Fin 80) : Bool := (s.bay b).fenced
def State.unfencedBays (s : State) : Nat := (allBays.filter fun b => !(s.bayFenced b)).length

/-- FATAL_N asserted (R456). -/
def State.isFatal (s : State) : Bool := !s.err.fatal.isEmpty
def State.isReady (s : State) : Bool := s.boot.phase == .ready
def State.isSafe (s : State) : Bool := s.boot.phase == .safe

/-- Whether the device runs: powered, booted, the PLL locked, the reference present, not in P3 and in no reset. -/
def State.running (s : State) : Bool :=
  s.clk.pwrOk && s.isReady && s.clk.pllLocked && !s.clk.refLost && s.clk.pstate != .p3 && !s.clk.warmInProgress && !s.clk.thermtrip

def State.program (s : State) (p : Nat) : Option Program := s.cfg.programs.find? fun q => q.number == p

/-- Cycle divisor of a divider code. -/
def divOf (code : Nat) : Nat := [4, 5, 6, 8, 16].getD code 16

end Sys2Proof.Machine
end

