-- ==== Sys2Proof/Machine/Csr.lean ====
section
/-! DEFINITION. What every register of CSR space reads (20, Tables 20.1 to 20.12, and the table of each block's own chapter),
as 32-bit words at 4-byte offsets, and reads of 1 to 64 bytes built from them. -/
namespace Sys2Proof.Machine
open Sys2Proof

/-- The 32-bit word i of a wide value, least significant first (R488). -/
def wordOf (n i : Nat) : Nat := n / 2 ^ (32 * i) % two32

/-- A bit vector of flags as a number. -/
def flagsNat (l : List Bool) : Nat := l.foldr (fun b acc => b2n b + 2 * acc) 0

/-! ## TOP, CLKRST, POWER, CXL (20) -/

/-- PSTATE as the code of Table 20.4. -/
def PState.code : PState → Nat
  | .p0 => 0 | .p1 => 1 | .p2 => 2 | .p3 => 3 | .p4 => 0

/-- TOP_STATUS (Table 20.4). -/
def State.topStatus (s : State) : Nat :=
  b2n s.isReady + 2 * b2n s.isSafe + 4 * b2n s.isFatal + 8 * b2n s.req.quiesced + 16 * s.clk.pstate.code
    + 128 * b2n s.clk.timeDegraded + 256 * (s.net.nodeId % 256)

def State.topReg (s : State) (o : Nat) : Nat :=
  if o = 0x00 then 0x1410056F
  else if o = 0x08 then 0x01B0
  else if o = 0x10 then s.topStatus
  else if o = 0x18 then wordOf Config.serial.toNat 0
  else if o = 0x1C then wordOf Config.serial.toNat 1
  else if o = 0x20 then wordOf s.clk.devTime 0
  else if o = 0x24 then wordOf s.clk.devTime 1
  else if o = 0x28 then wordOf s.host.wallOffset.toNat 0
  else if o = 0x2C then wordOf s.host.wallOffset.toNat 1
  else if o = 0x30 then (if s.isSafe then 0 else s.cfg.header.fwVersion % two32)
  else if o = 0x34 then Config.romVersion.toNat
  else if 0x40 ≤ o && decide (o < 0x70) then wordOf Config.customerKeyHash.toNat ((o - 0x40) / 4)
  else 0

/-- CLKRST_MON_STATUS (Table 20.6). -/
def Clk.monStatus (c : Clk) : Nat :=
  flagsNat [c.refLost, c.refDrift, c.refFast, c.timeDegraded, c.pllLocked, c.aonOnRc]

/-- The fastest divider a tile may use: TILE_MAX_DIV, or a slower limit that R42 left. -/
def State.tileLimit (s : State) (t : Nat) : Nat := max (s.cfg.policy.tileMaxDiv.getD t 0) (s.tile t).limit

def State.clkReg (s : State) (o : Nat) : Nat :=
  if o = 0x00 then s.clk.monStatus
  else if o = 0x08 then s.clk.glitches
  else if o = 0x10 then s.clk.resetCause % 16 + 16 * b2n s.clk.resetWarm + 32 * b2n s.clk.btnStuck
  else if o = 0x18 then s.clk.warmCount
  else if o = 0x20 then ((List.range 4).map fun t => 16 ^ t * (s.tileLimit t % 16)).sum
  else 0

def State.powerReg (s : State) (o : Nat) : Nat :=
  if o = 0x00 then
    s.clk.pstate.code + 8 * b2n (decide (s.tun.powerCap < s.cfg.policy.capW)) + 16 * b2n (decide (0 < s.stew.thermT))
      + 256 * (s.stew.thermT % 16)
  else if o = 0x08 then s.tun.powerCap % 65536 + 65536 * (s.cfg.policy.capW % 65536)
  else if o = 0x10 then s.clk.wakeCause.toNat + 65536 * s.clk.wakePorts.toNat
  else if o = 0x18 then s.clk.p3Count
  else if o = 0x1C then ofSigned 16 s.stew.tmax + 65536 * (s.stew.tmaxIdx % 128)
  else if o = 0x20 then s.stew.moduleW % 65536
  else if 0x40 ≤ o && decide (o < 0x50) then
    let t := s.tile ((o - 0x40) / 4)
    t.avsTarget % 4096 + 65536 * (t.confirmed % 4096)
  else if 0x100 ≤ o && decide (o < 0x280) then
    match s.stew.sensors.getD ((o - 0x100) / 4) none with
    | some v => ofSigned 16 v
    | none => 0x8000
  else 0

/-- CXL_DEV_MAP of a device (Table 20.10). -/
def CxlDev.map (d : CxlDev) : Nat :=
  d.base % 2 ^ 64 + 2 ^ 64 * (d.gib % two32) + 2 ^ 96 * (d.port % 256) + 2 ^ 104 * (d.switchPort % 256) + 2 ^ 112 * b2n d.lost

def State.cxlReg (s : State) (o : Nat) : Nat :=
  if o < 0x20 then
    if o % 8 = 0 then
      let p := s.cxl.ports.getD (o / 8) CxlPort.unused
      if p.used then 1 + 2 * b2n p.trained + 4 * (p.rate % 4) + 16 * (p.width % 32) else 0
    else 0
  else if 0x40 ≤ o && decide (o < 0x80) then
    match s.cxl.devs[(o - 0x40) / 16]? with
    | some d => wordOf d.map ((o - 0x40) % 16 / 4)
    | none => 0
  else 0

/-! ## BOOT, STEWARD, HBM -/

/-- BOOT_STATUS (Table 3.11). -/
def State.bootStatus (s : State) : Nat :=
  (if s.isSafe then 0 else s.boot.activeSlot % 2) + 2 * b2n s.isSafe + 4 * b2n s.boot.fallback + 8 * b2n s.boot.locked
    + 16 * b2n s.boot.weightsDone + 256 * (s.boot.failA % 256) + 65536 * (s.boot.failB % 256)

def State.bootReg (s : State) (o : Nat) : Nat :=
  if o = 0x00 then s.bootStatus
  else if o = 0x08 then wordOf s.cfg.header.sequence 0
  else if o = 0x0C then wordOf s.cfg.header.sequence 1
  else if o = 0x10 then s.cfg.header.svn % 256 + 256 * (s.boot.fuseFloor % 256)
  else if o = 0x18 then s.boot.lockViol
  else if o = 0x20 then s.tun.gen % two32
  else if o = 0x28 then s.boot.weights.countP (· == .failed)
  else if o = 0x30 then wordOf s.boot.anchorRecno 0
  else if o = 0x34 then wordOf s.boot.anchorRecno 1
  else 0

/-- STEW_DIVIDER (Table 4.5). -/
def State.stewDivider (s : State) : Nat :=
  s.stew.pressureDiv % 16 + ((List.range 4).map fun t => 16 ^ (t + 1) * ((s.tile t).div % 16)).sum
    + ((List.range 4).map fun t => 2 ^ (20 + t) * b2n (s.tile t).hold).sum

def State.stewReg (s : State) (o : Nat) : Nat :=
  if o = 0x00 then wordOf s.stew.windowSeq 0
  else if o = 0x04 then wordOf s.stew.windowSeq 1
  else if o = 0x08 then s.stew.bEff % two32
  else if o = 0x0C then ofSigned 32 s.stew.remain
  else if o = 0x10 then s.stew.overdraft % two32
  else if o = 0x14 then (s.stew.carries.map (·.owed)).sum % two32
  else if o = 0x18 then s.stew.pressCount % 256 + 256 * (s.stew.relaxCount % 256) + 65536 * b2n s.stew.pressured
  else if o = 0x1C then s.stewDivider
  else if o = 0x20 then ((List.range 8).map fun k => 4 ^ k * (s.stew.hbmStep.getD k 0 % 4)).sum
  else if 0x100 ≤ o && decide (o < 0x500) then
    s.stew.kE.getD ((o - 0x100) / 4) 0 % 65536 + 65536 * (s.stew.kD.getD ((o - 0x100) / 4) 0 % 65536)
  else 0

/-- HBM_STACK_STATUS (Table 10.9). -/
def State.hbmStatus (s : State) (k : Nat) : Nat :=
  s.stew.hbmStep.getD k 0 % 4 + 4 * (s.stew.hbmTemp.getD k 0 % 256) + 1024 * b2n (s.stew.hbmSelfRef.getD k false)
    + 2048 * b2n (s.stew.hbm2x.getD k false) + 4096 * min 0xFFF (s.mem.stackRetired.getD k 0)

def State.hbmReg (s : State) (o : Nat) : Nat :=
  if o < 0x20000 then
    let k := o / 0x4000
    if o % 0x4000 = 0 then s.hbmStatus k
    else if o % 0x4000 = 8 then s.mem.stackCe.getD k 0
    else 0
  else
    let n := (o - 0x20000) / 8
    if n < 48 then wordOf ((s.quota.used.getD (n / 3) []).getD (n % 3) 0) (o % 8 / 4) else 0

/-! ## PCIE: the function pages (Tables 14.1, 14.2) -/

def FnPage.ringCtrl (p : FnPage) : Nat :=
  flagsNat [p.armBit, p.armed, p.armErr, p.tailErr] + 16 * p.reqLog2.toNat + 512 * p.cplLog2.toNat + 16384 * p.audLog2.toNat

def FnPage.mbxStatus (p : FnPage) : Nat :=
  b2n p.mbxBusy + 2 * b2n p.mbxOverrun + 256 * p.mbxCode.toNat + 65536 * p.mbxSeq.toNat

/-- Requests of a function fetched and not yet delivered: those in the table, and held completions (Table 14.1). -/
def State.outstandingOf (s : State) (f : Fin 16) : Nat :=
  s.req.table.countP (fun r => r.f == f) + s.host.holdQ.countP fun h => h.cpl.f == f && !h.cplDone

/-- The page of a function as it reads: that of a VF not enabled reads its reset value. -/
def State.pageRead (s : State) (f : Fin 16) : FnPage :=
  if f.val = 0 || (s.page f).vfEnabled then s.page f else FnPage.reset

/-- A 32-bit word of a function page; `mailbox` tells whether MBX_ARGS and MBX_RESULT are seen (R489). -/
def State.pageReg (s : State) (f : Fin 16) (mailbox : Bool) (o : Nat) : Nat :=
  let p := s.pageRead f
  let pf := f.val == 0
  if o = 0x00 then wordOf p.reqBase.toNat 0
  else if o = 0x04 then wordOf p.reqBase.toNat 1
  else if o = 0x08 then wordOf p.cplBase.toNat 0
  else if o = 0x0C then wordOf p.cplBase.toNat 1
  else if o = 0x10 then (if pf then wordOf p.audBase.toNat 0 else 0)
  else if o = 0x14 then (if pf then wordOf p.audBase.toNat 1 else 0)
  else if o = 0x18 then (if pf then wordOf p.audWb.toNat 0 else 0)
  else if o = 0x1C then (if pf then wordOf p.audWb.toNat 1 else 0)
  else if o = 0x20 then p.ringCtrl
  else if o = 0x40 then p.reqTail.toNat
  else if o = 0x44 then p.reqHead.toNat
  else if o = 0x48 then p.cplHead.toNat
  else if o = 0x4C then p.cplTail.toNat
  else if o = 0x50 then (if pf then p.audHead.toNat else 0)
  else if o = 0x54 then (if pf then p.audTail.toNat else 0)
  else if o = 0x58 then s.outstandingOf f % two32
  else if o = 0x60 then p.irqCause.toNat
  else if o = 0x64 then p.irqMask.toNat
  else if 0x100 ≤ o && decide (o < 0x140) then (if mailbox then fieldLE p.mbxArgs (o - 0x100) 4 else 0)
  else if 0x140 ≤ o && decide (o < 0x180) then (if mailbox then fieldLE p.mbxResult (o - 0x140) 4 else 0)
  else if o = 0x180 then p.mbxCmd.toNat
  else if o = 0x184 then p.mbxStatus
  else 0

/-! ## Truss ports and network (Tables 12.10, 12.11, 13.8) -/

def PortState.code : PortState → Nat
  | .disabled => 0 | .detect => 1 | .eq => 2 | .align => 3 | .negotiate => 4 | .credit => 5 | .active => 6 | .recovery => 7
  | .drain => 8 | .parked => 9 | .listen => 10 | .loopback => 11

def Port.status (p : Port) : Nat :=
  p.state.code + 16 * (p.rate % 4) + 64 * (p.width % 4) + 256 * (p.spareUse % 32) + 8192 * b2n p.leader
    + 16384 * b2n p.pairSelf + 32768 * b2n p.loopPlug + 65536 * (p.loop % 4)

def Port.reg (p : Port) (o : Nat) : Nat :=
  if o = 0x00 then p.status
  else if o = 0x08 then wordOf p.peerChip.toNat 0
  else if o = 0x0C then wordOf p.peerChip.toNat 1
  else if o = 0x10 then p.peerPort % 16
  else if o = 0x18 then wordOf p.fecCorr 0
  else if o = 0x1C then wordOf p.fecCorr 1
  else if o = 0x20 then wordOf p.fecUncorr 0
  else if o = 0x24 then wordOf p.fecUncorr 1
  else if o = 0x28 then wordOf p.crcFail 0
  else if o = 0x2C then wordOf p.crcFail 1
  else if o = 0x30 then wordOf p.replays 0
  else if o = 0x34 then wordOf p.replays 1
  else if o = 0x38 then p.recoveries % two32
  else if 0x100 ≤ o && decide (o < 0x144) then ofSigned 16 (p.margins.getD ((o - 0x100) / 4) 0)
  else 0

/-- NET_ROUTE of a destination (Table 13.8). -/
def Route.reg (r : Route) : Nat :=
  ((List.range 4).map fun i => 16 ^ i * (r.ports.getD i 0xF % 16)).sum + 65536 * (r.dist % 65536)

/-- The member bitmap of the settled epoch. -/
def Net.memberBits (n : Net) : Nat := (n.members.map fun m => 2 ^ m).sum

def State.netReg (s : State) (o : Nat) : Nat :=
  let n := s.net
  if o = 0x00 then
    n.nodeId % 256 + 256 * b2n n.isolated + 512 * b2n (n.timeMaster == some n.nodeId) + 1024 * (n.timeParent.getD 0xF % 16)
  else if o = 0x08 then n.settled % two32
  else if 0x10 ≤ o && decide (o < 0x30) then wordOf n.memberBits ((o - 0x10) / 4)
  else if o = 0x30 then ofSigned 32 n.timeOffset
  else if o = 0x38 then wordOf n.retx 0
  else if o = 0x3C then wordOf n.retx 1
  else if o = 0x40 then wordOf n.txFail 0
  else if o = 0x44 then wordOf n.txFail 1
  else if o = 0x48 then wordOf n.transitDrop 0
  else if o = 0x4C then wordOf n.transitDrop 1
  else if o = 0x50 then wordOf n.replays 0
  else if o = 0x54 then wordOf n.replays 1
  else if 0x100 ≤ o && decide (o < 0x4F8) then
    (n.routes.getD ((o - 0x100) / 4) { ports := [], alts := [], dist := 0xFFFF }).reg
  else 0

/-! ## BAY, CODEC, STREAM, KVPM, AUDIT -/

def Ramp.code : Ramp → Nat
  | .off => 0 | .up => 1 | .active => 2 | .down => 3

/-- TILE cycles since a bay's ramp began, at its tile's divider of 6.144 GHz (Table 2.1). -/
def State.rampCycles (s : State) (b : Fin 80) : Nat :=
  (s.clk.devTime - (s.bay b).rampAt) * 6144 / (1000 * divOf (s.tile (tileOf b).val).div)

/-- A ramp that has begun stands where Table 6.7 puts it by now: 16 more rows every 4 cycles, active at cycle 32; the ramp-down is its
mirror (R168, R169). -/
def State.rampView (s : State) (b : Fin 80) : Ramp × Nat :=
  let y := s.bay b
  let c := s.rampCycles b
  match y.ramp with
  | .off => (.off, y.rowGroups)
  | .up => if 32 ≤ c then (.active, 8) else (.up, min 8 (y.rowGroups + c / 4))
  | .active => (.active, y.rowGroups)
  | .down => (.down, y.rowGroups - c / 4)

/-- BAY_ARRAY_STATUS (Table 6.8). -/
def State.arrayStatus (s : State) (b : Fin 80) : Nat :=
  let y := s.bay b
  let r := s.rampView b
  r.1.code + 4 * (r.2 % 16) + 64 * ((y.tileQueue.length + b2n y.running.isSome) % 1024) + 65536 * b2n y.drain.isSome
    + 131072 * (y.maxLag % 32)

def State.bayReg (s : State) (o : Nat) : Nat :=
  if o / 0x4000 < 80 && o % 0x4000 == 0x200 then s.arrayStatus (bayIx (o / 0x4000)) else 0

def State.codecReg (s : State) (o : Nat) : Nat :=
  if o = 0x00 then 32 + 256 * 4
  else if o = 0x08 then wordOf s.mem.unitsCoded 0
  else if o = 0x0C then wordOf s.mem.unitsCoded 1
  else if o = 0x10 then wordOf s.mem.unitsRaw 0
  else if o = 0x14 then wordOf s.mem.unitsRaw 1
  else if o = 0x18 then wordOf s.mem.linesSaved 0
  else if o = 0x1C then wordOf s.mem.linesSaved 1
  else if o = 0x20 then s.mem.widthFaults
  else 0

def streamReg (o : Nat) : Nat := if 0x1000 ≤ o && decide (o < 0x1800) then gateCoef ((o - 0x1000) / 4) else 0

def State.kvReg (s : State) (o : Nat) : Nat :=
  if o = 0x00 then s.cfg.pers.landingKib % 2048
  else if o = 0x08 then wordOf s.kv.pagesUsed 0
  else if o = 0x0C then wordOf s.kv.pagesUsed 1
  else if o = 0x10 then s.kv.residents.length % two32
  else if o = 0x14 then s.kv.rollbacks
  else 0

def State.audReg (s : State) (o : Nat) : Nat :=
  let ones := 2 ^ 64 - 1
  if o = 0x00 then wordOf (s.aud.head.getD ones) 0
  else if o = 0x04 then wordOf (s.aud.head.getD ones) 1
  else if 0x10 ≤ o && decide (o < 0x40) then wordOf s.aud.headHash.toNat ((o - 0x10) / 4)
  else if 0x40 ≤ o && decide (o < 0x50) then (if s.boot.keyReady then fieldLE keyId (o - 0x40) 4 else 0)
  else if o = 0x50 then wordOf (s.aud.gapFrom.getD ones) 0
  else if o = 0x54 then wordOf (s.aud.gapFrom.getD ones) 1
  else if o = 0x58 then s.aud.anchorFail
  else if 0x100 ≤ o && decide (o < 0x300) then fieldLE s.aud.last (o - 0x100) 4
  else 0

/-! ## SENTINEL (Tables 16.6, 16.7; R420) -/

def SentEvent.bytes (e : SentEvent) : List Byte :=
  bytesLE 8 e.time ++ bytesLE 1 e.kind ++ bytesLE 1 e.tone ++ bytesLE 1 e.beams.toNat ++ bytesLE 1 e.flags.toNat
    ++ bytesLE 2 e.margin ++ [0, 0] ++ bytesLE 4 e.seq ++ List.replicate 12 0

/-- SENT_STATUS. -/
def State.sentStatus (s : State) : Nat :=
  flagsNat [s.sent.enabled, s.sent.muted, decide (0 < s.sent.warmupLeft), s.sent.frozen, s.sent.windowEnd.isSome,
    s.clk.aonOnRc && s.sent.enabled, s.sent.erasing]

/-- The FITTED bits of the eight channels. -/
def State.fitted (s : State) : Nat :=
  match s.cfg.sentinel with
  | some c => flagsNat (c.chans.map (·.fitted)) % 256
  | none => 0

def State.sentReg (s : State) (o : Nat) : Nat :=
  if o = 0x00 then s.sentStatus
  else if o = 0x08 then wordOf (s.sent.windowEnd.getD 0) 0
  else if o = 0x0C then wordOf (s.sent.windowEnd.getD 0) 1
  else if o = 0x10 then s.sent.chanDead.toNat + 256 * s.sent.chanStuck.toNat + 65536 * s.fitted
  else if o = 0x18 then s.sent.lockedReads
  else if o = 0x1C then s.sent.eventSeq % two32
  else if 0x20 ≤ o && decide (o < 0x40) then ofSigned 16 (s.sent.levels.getD ((o - 0x20) / 4) 0)
  else if 0x100 ≤ o && decide (o < 0x900) then
    match s.sent.events.reverse.find? fun e => e.seq % 64 == (o - 0x100) / 32 with
    | some e => fieldLE e.bytes ((o - 0x100) % 32) 4
    | none => 0
  else if 0x1000 ≤ o && decide (o < 0x1278) then (Config.firCoef ((o - 0x1000) / 4)).toNat
  else 0

/-! ## COUNTERS, PLUMB, ERRLOG -/

/-- Last rate, mean, maximum and slots held of a window (R439). -/
def BwWindow.summary (w : BwWindow) : Nat :=
  let rs := w.hist.map (·.2)
  let n := rs.length
  if n = 0 then 0 else
  w.last % two32 + two32 * ((rs.sum / n) % two32) + 2 ^ 64 * (rs.foldl max 0 % two32) + 2 ^ 96 * (n % 128)

def State.bw (s : State) (w : Nat) : BwWindow := s.cnt.windows.getD w BwWindow.reset

def State.cntReg (s : State) (o : Nat) : Nat :=
  if o < 0xC000 then wordOf (keyGet s.cnt.values (o / 8)) (o % 8 / 4)
  else if o = 0xC000 then s.cnt.winLen % two32
  else if o = 0xC008 then wordOf s.cnt.winSeq 0
  else if o = 0xC00C then wordOf s.cnt.winSeq 1
  else if 0xC100 ≤ o && decide (o < 0xC3C0) then wordOf (s.bw ((o - 0xC100) / 16)).summary ((o - 0xC100) % 16 / 4)
  else if 0xD000 ≤ o && decide (o < 0xFC00) then keyGet (s.bw ((o - 0xD000) / 256)).hist ((o - 0xD000) % 256 / 4) % two32
  else 0

def State.snapReg (s : State) (o : Nat) : Nat :=
  if o < 0xC000 then wordOf (keyGet s.cnt.shadow (o / 8)) (o % 8 / 4)
  else if o = 0xC000 then 4 * b2n (!s.cnt.due.isEmpty) + 65536 * s.cnt.loadIndex.toNat
  else if o = 0xC008 then wordOf s.cnt.snapSeq 0
  else if o = 0xC00C then wordOf s.cnt.snapSeq 1
  else if o = 0xC010 then wordOf s.cnt.snapTime 0
  else if o = 0xC014 then wordOf s.cnt.snapTime 1
  else if o = 0xC018 then wordOf s.cnt.snapLast 0
  else if o = 0xC01C then wordOf s.cnt.snapLast 1
  else 0

/-- Fenced bays as a bitmap. -/
def State.fencedBits (s : State) : Nat := (allBays.map fun b => if s.bayFenced b then 2 ^ b.val else 0).sum

/-- PLUMB_STATUS: the lowest current round of any tile while a run goes on. -/
def State.plumbStatus (s : State) : Nat :=
  let live := s.plumb.tiles.filter fun t => !t.finished
  let round := match live with
    | [] => 0
    | t :: ts => ts.foldl (fun m u => min m u.round) t.round
  b2n s.plumb.running + 2 * b2n s.plumb.queued + 4 * (if s.plumb.running then round % 32 else 0)

def State.plumbReg (s : State) (o : Nat) : Nat :=
  if o = 0x00 then s.plumbStatus
  else if o = 0x08 then wordOf s.plumb.run 0
  else if o = 0x0C then wordOf s.plumb.run 1
  else if o = 0x10 then wordOf s.plumb.runEnd 0
  else if o = 0x14 then wordOf s.plumb.runEnd 1
  else if 0x18 ≤ o && decide (o < 0x28) then wordOf s.fencedBits ((o - 0x18) / 4)
  else if o = 0x28 then s.mem.hubCodecFenced.toNat
  else if o = 0x30 then wordOf s.plumb.scrubPasses 0
  else if o = 0x34 then wordOf s.plumb.scrubPasses 1
  else if 0x100 ≤ o && decide (o < 0x380) then wordOf (s.plumb.bayPass.getD ((o - 0x100) / 8) 0) (o % 8 / 4)
  else 0

/-- SEQ of the oldest record in the T1 mirror: 0 before the first. -/
def ErrLog.oldest (l : ErrLog) : Nat := (l.mirror.head?.map (·.seq)).getD 0

def State.errReg (s : State) (o : Nat) : Nat :=
  let last := if s.err.nextSeq = 0 then 2 ^ 64 - 1 else s.err.nextSeq - 1
  if o = 0x00 then wordOf last 0
  else if o = 0x04 then wordOf last 1
  else if 0x08 ≤ o && decide (o < 0x18) then s.err.classCount.getD ((o - 0x08) / 4) 0
  else if o = 0x18 then s.err.suppressed
  else if o = 0x20 then b2n s.isFatal + 65536 * (s.err.fatal.headD 0 % 65536)
  else if o = 0x28 then wordOf s.err.oldest 0
  else if o = 0x2C then wordOf s.err.oldest 1
  else if 0x10000 ≤ o && decide (o < 0x50000) then
    match s.err.ring.reverse.find? fun r => r.seq % 4096 == (o - 0x10000) / 64 with
    | some r => fieldLE r.bytes ((o - 0x10000) % 64) 4
    | none => 0
  else 0

/-! ## The whole map (Table 20.1) -/

/-- The 32-bit word at a 4-byte offset of CSR space; unassigned offsets read 0 (R487). `mailbox` as in `pageReg`. -/
def State.csr32 (s : State) (mailbox : Bool) (o : Nat) : Nat :=
  if o < 0x10000 then s.topReg o
  else if o < 0x20000 then s.clkReg (o - 0x10000)
  else if o < 0x30000 then s.bootReg (o - 0x20000)
  else if o < 0x40000 then s.stewReg (o - 0x30000)
  else if o < 0x80000 then s.powerReg (o - 0x40000)
  else if o < 0xC0000 then s.hbmReg (o - 0x80000)
  else if o < 0xD0000 then s.cxlReg (o - 0xC0000)
  else if o < 0xE0000 then
    let f := fnIx ((o - 0xD0000) / 0x1000)
    s.pageReg f (mailbox || f.val == 0) (o % 0x1000)
  else if o < 0x100000 then 0
  else if o < 0x1C0000 then (s.port (portIx ((o - 0x100000) / 0x10000))).reg (o % 0x10000)
  else if o < 0x200000 then s.netReg (o - 0x1C0000)
  else if o < 0x340000 then s.bayReg (o - 0x200000)
  else if o < 0x400000 then 0
  else if o < 0x440000 then s.codecReg (o - 0x400000)
  else if o < 0x480000 then streamReg (o - 0x440000)
  else if o < 0x500000 then s.kvReg (o - 0x480000)
  else if o < 0x580000 then s.audReg (o - 0x500000)
  else if o < 0x600000 then s.sentReg (o - 0x580000)
  else if o < 0x610000 then s.cntReg (o - 0x600000)
  else if o < 0x620000 then s.snapReg (o - 0x610000)
  else if o < 0x700000 then 0
  else if o < 0x780000 then s.plumbReg (o - 0x700000)
  else if o < 0x800000 then s.errReg (o - 0x780000)
  else 0

/-- `n` bytes of CSR space from an offset, as a thread reads them (R137, R488). -/
def State.csrBytes (s : State) (o n : Nat) : List Byte :=
  slice (((List.range ((o % 4 + n + 3) / 4)).map fun i => bytesLE 4 (s.csr32 true (o / 4 * 4 + 4 * i))).flatten) (o % 4) n

/-- A host read through the CSR window: in SAFE mode only TOP, BOOT and ERRLOG answer (R489). -/
def State.csrHostRead (s : State) (o n : Nat) : List Byte :=
  let open_ := decide (o < 0x10000) || (decide (0x20000 ≤ o) && decide (o < 0x30000))
    || (decide (0x780000 ≤ o) && decide (o < 0x800000))
  if s.isSafe && !open_ then List.replicate n 0
  else slice (((List.range ((o % 4 + n + 3) / 4)).map fun i => bytesLE 4 (s.csr32 false (o / 4 * 4 + 4 * i))).flatten) (o % 4) n

end Sys2Proof.Machine
end

