-- ==== Sys2Proof/Machine/Float.lean ====
section
/-! DEFINITION. Floating-point arithmetic: exact values and one rounding to nearest, ties to even (05, R132, R504, R505; 06, R160;
15, R393). -/
namespace Sys2Proof.Machine
open Sys2Proof

/-- A floating format: exponent bits, fraction bits, bias, the largest finite magnitude, the canonical NaN, the code of
infinity if it has one, and whether a conversion to it saturates. -/
structure Fmt where
  width : Nat
  ew : Nat
  mw : Nat
  bias : Nat
  maxFin : Nat
  nan : Nat
  infCode : Option Nat
  sat : Bool
deriving DecidableEq, Repr

def Fmt.bf16 : Fmt := { width := 16, ew := 8, mw := 7, bias := 127, maxFin := 0x7F7F, nan := 0x7FC0, infCode := some 0x7F80, sat := false }
def Fmt.f16 : Fmt := { width := 16, ew := 5, mw := 10, bias := 15, maxFin := 0x7BFF, nan := 0x7E00, infCode := some 0x7C00, sat := false }
def Fmt.f32 : Fmt :=
  { width := 32, ew := 8, mw := 23, bias := 127, maxFin := 0x7F7FFFFF, nan := 0x7FC00000, infCode := some 0x7F800000, sat := false }
def Fmt.e4m3 : Fmt := { width := 8, ew := 4, mw := 3, bias := 7, maxFin := 0x7E, nan := 0x7F, infCode := none, sat := true }
def Fmt.e5m2 : Fmt := { width := 8, ew := 5, mw := 2, bias := 15, maxFin := 0x7B, nan := 0x7E, infCode := some 0x7C, sat := true }

/-- A value: NaN, an infinity, or (−1)^neg × m × 2^e. -/
inductive FVal where
  | nan
  | inf (neg : Bool)
  | fin (neg : Bool) (m : Nat) (e : Int)
deriving DecidableEq, Repr

/-- What an encoding stands for. -/
def Fmt.decode (f : Fmt) (b : Nat) : FVal :=
  let neg := bitOf b (f.ew + f.mw)
  let mag := b % 2 ^ (f.ew + f.mw)
  let ex := mag / 2 ^ f.mw
  let fr := mag % 2 ^ f.mw
  if f.infCode = some mag then .inf neg
  else if f.maxFin < mag then .nan
  else if ex = 0 then .fin neg fr (1 - (f.bias : Int) - f.mw)
  else .fin neg (2 ^ f.mw + fr) ((ex : Int) - f.bias - f.mw)

/-- m × 2^d, d negative: rounded to nearest, ties to even. -/
def shiftRound (m : Nat) (d : Int) : Nat :=
  if 0 ≤ d then m * 2 ^ d.toNat else
  let k := (-d).toNat
  let q := m / 2 ^ k
  let r := m % 2 ^ k
  let half := 2 ^ (k - 1)
  if half < r || (r == half && q % 2 == 1) then q + 1 else q

/-- The magnitude code nearest m × 2^e, before overflow. -/
def Fmt.magnitude (f : Fmt) (m : Nat) (e : Int) : Nat :=
  if m = 0 then 0 else
  let emin : Int := 1 - f.bias
  let top : Int := max (e + (Nat.log2 m : Int)) emin
  let mant := shiftRound m (e - (top - f.mw))
  (top - emin).toNat * 2 ^ f.mw + mant

/-- Sign bit of a format. -/
def Fmt.signBit (f : Fmt) (neg : Bool) : Nat := if neg then 2 ^ (f.ew + f.mw) else 0

/-- Round a value to a format (R132, R504): overflow gives an infinity, or the largest finite value where the format
saturates. -/
def Fmt.round (f : Fmt) : FVal → Nat
  | .nan => f.nan
  | .inf neg => (if f.sat then f.maxFin else f.infCode.getD f.maxFin) + f.signBit neg
  | .fin neg m e =>
    let c := f.magnitude m e
    (if f.maxFin < c then (if f.sat then f.maxFin else f.infCode.getD f.maxFin) else c) + f.signBit neg

/-- The exact integer of a finite value scaled by 2^(-e0), for e0 at most its exponent. -/
def scaled (neg : Bool) (m : Nat) (e e0 : Int) : Int :=
  let v : Int := (m * 2 ^ (e - e0).toNat : Nat)
  if neg then -v else v

/-- Exact sum. An exact zero of operands of unlike sign is +0, as in round to nearest. -/
def FVal.add : FVal → FVal → FVal
  | .nan, _ => .nan
  | _, .nan => .nan
  | .inf a, .inf b => if a == b then .inf a else .nan
  | .inf a, .fin _ _ _ => .inf a
  | .fin _ _ _, .inf b => .inf b
  | .fin na ma ea, .fin nb mb eb =>
    let e0 := min ea eb
    let s := scaled na ma ea e0 + scaled nb mb eb e0
    if s = 0 then .fin (na && nb) 0 e0 else .fin (decide (s < 0)) s.natAbs e0

/-- Exact product. -/
def FVal.mul : FVal → FVal → FVal
  | .nan, _ => .nan
  | _, .nan => .nan
  | .inf a, .inf b => .inf (a != b)
  | .inf a, .fin nb mb _ => if mb = 0 then .nan else .inf (a != nb)
  | .fin na ma _, .inf b => if ma = 0 then .nan else .inf (na != b)
  | .fin na ma ea, .fin nb mb eb => .fin (na != nb) (ma * mb) (ea + eb)

def FVal.neg : FVal → FVal
  | .nan => .nan
  | .inf a => .inf (!a)
  | .fin n m e => .fin (!n) m e

def FVal.isNan : FVal → Bool
  | .nan => true
  | _ => false

def FVal.isNegative : FVal → Bool
  | .nan => false
  | .inf n => n
  | .fin n _ _ => n

/-- a < b on values that are not NaN; −0 is below +0, so that R505's min and max need no special case. -/
def FVal.below : FVal → FVal → Bool
  | .nan, _ => false
  | _, .nan => false
  | .inf a, .inf b => a && !b
  | .inf a, .fin _ _ _ => a
  | .fin _ _ _, .inf b => !b
  | .fin na ma ea, .fin nb mb eb =>
    let e0 := min ea eb
    let x := scaled na ma ea e0
    let y := scaled nb mb eb e0
    if x = 0 && y = 0 then na && !nb else decide (x < y)

def Fmt.add (f : Fmt) (a b : Nat) : Nat := f.round ((f.decode a).add (f.decode b))
def Fmt.sub (f : Fmt) (a b : Nat) : Nat := f.round ((f.decode a).add (f.decode b).neg)
def Fmt.mul (f : Fmt) (a b : Nat) : Nat := f.round ((f.decode a).mul (f.decode b))
/-- c + a × b, rounded once. -/
def Fmt.fma (f : Fmt) (c a b : Nat) : Nat := f.round ((f.decode c).add ((f.decode a).mul (f.decode b)))

/-- R505: NaN when either operand is a NaN. -/
def Fmt.min (f : Fmt) (a b : Nat) : Nat :=
  let x := f.decode a
  let y := f.decode b
  if x.isNan || y.isNan then f.nan else if y.below x then b else a

def Fmt.max (f : Fmt) (a b : Nat) : Nat :=
  let x := f.decode a
  let y := f.decode b
  if x.isNan || y.isNan then f.nan else if x.below y then b else a

/-- The integer nearest a value, ties to even. -/
def nearestInt (neg : Bool) (m : Nat) (e : Int) : Int :=
  let q : Int := (shiftRound m e : Nat)
  if neg then -q else q

/-- Floating to integer (R504): rounded, saturated to `w` bits; NaN gives 0. -/
def toIntSat (w : Nat) : FVal → Nat
  | .nan => 0
  | .inf neg => if neg then 2 ^ (w - 1) else 2 ^ (w - 1) - 1
  | .fin neg m e =>
    -- a magnitude far beyond the range saturates without being expanded
    if m ≠ 0 && decide (80 < e + (Nat.log2 m : Int)) then (if neg then 2 ^ (w - 1) else 2 ^ (w - 1) - 1) else
    let v := nearestInt neg m e
    let lo : Int := -((2 ^ (w - 1) : Nat) : Int)
    let hi : Int := (2 ^ (w - 1) : Nat) - 1
    ofSigned w (if v < lo then lo else if hi < v then hi else v)

/-- The exact value of a signed integer; 0 is +0. -/
def ofInt (i : Int) : FVal := .fin (decide (i < 0)) i.natAbs 0

/-! ## exp32 (R393, Table 15.2) -/

/-- x × L rounded, then the nearest integer, ties to even. -/
def exp32N (x : Nat) : Int :=
  match Fmt.f32.decode (Fmt.f32.mul x 0x3FB8AA3B) with
  | .fin neg m e => nearestInt neg m e
  | _ => 0

/-- The polynomial of R393. -/
def exp32Poly (r : Nat) : Nat :=
  let s := fun p c => Fmt.f32.add (Fmt.f32.mul p r) c
  s (s (s (s (s (s 0x3AB60B61 0x3C088889) 0x3D2AAAAB) 0x3E2AAAAB) 0x3F000000) 0x3F800000) 0x3F800000

/-- The bit-exact exponential of R393. -/
def exp32 (x : Nat) : Nat :=
  let f := Fmt.f32
  let v := f.decode x
  if v.isNan then f.nan
  else if !(v.below (.fin false 89 0)) then 0x7F800000
  else if v.below (.fin true 104 0) || v == f.decode 0xC2D00000 then 0
  else
    let n := exp32N x
    let nf := f.round (ofInt n)
    let r1 := f.sub x (f.mul nf 0x3F317200)
    let r := f.sub r1 (f.mul nf 0x35BFBE8E)
    match f.decode (exp32Poly r) with
    | .fin neg m e => f.round (.fin neg m (e + n))
    | w => f.round w

end Sys2Proof.Machine
end

