-- ==== Sys2Proof/Machine/Operands.lean ====
section
/-! DEFINITION. The operands of thread instructions: general, vector and predicate registers, integer arithmetic, the lanes of
a vector register and their operations, effective addresses, atomic operations and Philox blocks (05, R124 to R133, R142, R148,
R504, R505; 15, R392, R393). -/
namespace Sys2Proof.Machine
open Sys2Proof

/-! ## Registers: g0 reads 0, p0 reads 1, writes to them are discarded -/

def Thread.gr (t : Thread) (n : BitVec 5) : Word := if n = 0 then 0 else t.g.getD n.toNat 0
def Thread.setG (t : Thread) (n : BitVec 5) (v : Word) : Thread := if n = 0 then t else { t with g := t.g.set n.toNat v }
def Thread.vr (t : Thread) (n : BitVec 5) : BitVec 512 := t.v.getD n.toNat 0
def Thread.setV (t : Thread) (n : BitVec 5) (v : BitVec 512) : Thread := { t with v := t.v.set n.toNat v }
def Thread.next (t : Thread) : Thread := { t with pc := t.pc + 4 }

/-! ## Integer operations (R131) -/

def mulhu (a b : Word) : Word := BitVec.ofNat 64 (a.toNat * b.toNat / 2 ^ 64)
def divu (a b : Word) : Word := if b = 0 then BitVec.allOnes 64 else a / b
def remu (a b : Word) : Word := if b = 0 then a else a % b
/-- The shift count: the low 6 bits. -/
def shiftCount (b : Word) : Nat := b.toNat % 64
def sll (a b : Word) : Word := a <<< shiftCount b
def srl (a b : Word) : Word := a >>> shiftCount b
def sra (a b : Word) : Word := a.sshiftRight (shiftCount b)
def minu (a b : Word) : Word := if a.ult b then a else b
def maxu (a b : Word) : Word := if a.ult b then b else a
def mins (a b : Word) : Word := if a.slt b then a else b
def maxs (a b : Word) : Word := if a.slt b then b else a

/-! ## Lanes -/

/-- Width of the lane types of Table 5.3, with 7 and 8 for the OFP8 types of VCVT. -/
def laneWidth (ty : Nat) : Nat := [8, 16, 32, 64, 16, 16, 32, 8, 8].getD ty 8

/-- The floating format of a type code; none for an integer type. -/
def floatTy (ty : Nat) : Option Fmt :=
  match ty with
  | 4 => some Fmt.bf16
  | 5 => some Fmt.f16
  | 6 => some Fmt.f32
  | 7 => some Fmt.e4m3
  | 8 => some Fmt.e5m2
  | _ => none

/-- The lanes of `w` bits, lane 0 first. -/
def lanesOf (w : Nat) (v : BitVec 512) : List Nat := (List.range (512 / w)).map fun i => bits v.toNat (w * i) w

/-- A vector register from its lanes. -/
def ofLanes (w : Nat) (l : List Nat) : BitVec 512 :=
  BitVec.ofNat 512 (l.foldr (fun x acc => x % 2 ^ w + 2 ^ w * acc) 0)

/-- The bytes of a vector register, byte 0 least significant. -/
def vecBytes (v : BitVec 512) : List Byte := bytesLE 64 v.toNat
def vecOf (bs : List Byte) : BitVec 512 := BitVec.ofNat 512 (natLE (fit 64 bs))

/-- Integer lane operations wrap; MIN and MAX compare signed; shifts use the low log2(w) bits of the count (R505). -/
def intLane (w f a b : Nat) : Nat :=
  let m := 2 ^ w
  let sa := toSigned w a
  let sb := toSigned w b
  let k := b % w
  match f with
  | 0x0 => (a + b) % m
  | 0x1 => (a + m - b) % m
  | 0x2 => a * b % m
  | 0x3 => if sa < sb then a else b
  | 0x4 => if sa < sb then b else a
  | 0x6 => a &&& b
  | 0x7 => a ||| b
  | 0x8 => a ^^^ b
  | 0x9 => a * 2 ^ k % m
  | 0xA => ofSigned w (sa / (2 ^ k : Nat))
  | _ => 0

/-- Floating lane operations (R132, R505); `c` is the lane of v[RD] that FMA adds to. -/
def floatLane (x : Fmt) (f c a b : Nat) : Nat :=
  match f with
  | 0x0 => x.add a b
  | 0x1 => x.sub a b
  | 0x2 => x.mul a b
  | 0x3 => x.min a b
  | 0x4 => x.max a b
  | 0x5 => x.fma c a b
  | 0xB => exp32 a
  | _ => 0

/-- One lane of VOP function `f` on type `ty` (Table 5.3). -/
def vopLane (ty f c a b : Nat) : Nat :=
  match floatTy ty with
  | some x => floatLane x f c a b
  | none => intLane (laneWidth ty) f a b

/-- Lane-by-lane VOP. -/
def vop (ty f : Nat) (d a b : BitVec 512) : BitVec 512 :=
  let w := laneWidth ty
  ofLanes w ((List.range (512 / w)).map fun i =>
    vopLane ty f (bits d.toNat (w * i) w) (bits a.toNat (w * i) w) (bits b.toNat (w * i) w))

/-- The value of a lane. -/
def laneValue (ty x : Nat) : FVal :=
  match floatTy ty with
  | some f => f.decode x
  | none => ofInt (toSigned (laneWidth ty) x)

/-- Clamp a signed value to a width (R504, integer to integer). -/
def satInt (w : Nat) (i : Int) : Nat :=
  let hi : Int := (2 ^ (w - 1) : Nat) - 1
  let lo : Int := -((2 ^ (w - 1) : Nat) : Int)
  ofSigned w (if i < lo then lo else if hi < i then hi else i)

/-- One lane of VCVT (R504). -/
def cvtLane (src dst x : Nat) : Nat :=
  if src = dst then x else
  match floatTy src, floatTy dst with
  | none, none => satInt (laneWidth dst) (toSigned (laneWidth src) x)
  | some _, none => toIntSat (laneWidth dst) (laneValue src x)
  | _, some f => f.round (laneValue src x)

/-- VCVT: the low min(n_s, n_d) lanes, the rest written 0 (R504). -/
def vcvtLanes (src dst : Nat) (v : BitVec 512) : BitVec 512 :=
  let n := min (512 / laneWidth src) (512 / laneWidth dst)
  ofLanes (laneWidth dst) (((lanesOf (laneWidth src) v).take n).map (cvtLane src dst))

/-- One combination of VRED: 0 sum, 1 max, 2 min. -/
def redLane (ty f a b : Nat) : Nat :=
  vopLane ty (match f with | 0 => 0x0 | 1 => 0x4 | _ => 0x3) 0 a b

/-- One level of the pairwise tree; an unpaired last value passes up (R133, R391). -/
def pairLevel {α : Type} (op : α → α → α) : List α → List α
  | a :: b :: t => op a b :: pairLevel op t
  | l => l

def pairTree {α : Type} (op : α → α → α) : Nat → List α → List α
  | 0, l => l
  | n + 1, l => pairTree op n (pairLevel op l)

/-- VRED (R133, R505). -/
def vred (ty f : Nat) (v : BitVec 512) : Word :=
  let w := laneWidth ty
  let r := (pairTree (redLane ty f) 6 (lanesOf w v)).headD 0
  match floatTy ty with
  | some _ => BitVec.ofNat 64 r
  | none => BitVec.ofNat 64 (ofSigned 64 (toSigned w r))

/-- VGET, VPUT, VBCAST: 64-bit lanes. -/
def vgetLane (v : BitVec 512) (i : Word) : Word := v.extractLsb' (64 * (i.toNat % 8)) 64
def vputLane (v : BitVec 512) (i : Word) (x : Word) : BitVec 512 :=
  ofLanes 64 ((lanesOf 64 v).set (i.toNat % 8) x.toNat)
def vbcastLanes (x : Word) : BitVec 512 := ofLanes 64 (List.replicate 8 x.toNat)

/-! ## Effective addresses and access sizes (Table 5.1) -/

/-- Bytes of an access. -/
def sizeOf_ (sz : BitVec 3) : Nat := if sz.toNat < 4 then 2 ^ sz.toNat else 64

/-- g[RA] + OFF9 × size. -/
def effAddr (base : Word) (sz : BitVec 3) (off : BitVec 9) : Word :=
  base + (off.signExtend 64) * BitVec.ofNat 64 (sizeOf_ sz)

/-- pc + 4 × OFF22. -/
def branchTarget (pc : Word) (off : BitVec 22) : Word := pc + 4 * off.signExtend 64

/-- A loaded value in a general register: zero- or sign-extended. -/
def loadValue (signed : Bool) (size : Nat) (bs : List Byte) : Word :=
  let n := natLE (bs.take size)
  BitVec.ofNat 64 (if signed then ofSigned 64 (toSigned (8 * size) n) else n)

/-! ## Atomics (R142) -/

inductive AtomOp where
  | ld | st | swap | cas | add | and | or | xor | min | max | minu | maxu
deriving DecidableEq, Repr

def AtomOp.code : AtomOp → Nat
  | .ld => 0 | .st => 1 | .swap => 2 | .cas => 3 | .add => 4 | .and => 5 | .or => 6 | .xor => 7 | .min => 8 | .max => 9
  | .minu => 10 | .maxu => 11

def AtomOp.ofCode (n : Nat) : Option AtomOp :=
  [AtomOp.ld, .st, .swap, .cas, .add, .and, .or, .xor, .min, .max, .minu, .maxu][n]?

def atomBytes (width : BitVec 2) : Nat := if width = 0 then 4 else 8

/-- What the home stores; none where the operation stores nothing. `cmp` is g[RD] and `new` g[RD + 1] for CAS, else `cmp` is the
operand. -/
def AtomOp.store (op : AtomOp) (n : Nat) (old cmp new : Nat) : Option Nat :=
  let m := 2 ^ (8 * n)
  let a := old % m
  let b := cmp % m
  let sa := toSigned (8 * n) a
  let sb := toSigned (8 * n) b
  match op with
  | .ld => none
  | .st => some b
  | .swap => some b
  | .cas => if a = b then some (new % m) else none
  | .add => some ((a + b) % m)
  | .and => some (a &&& b)
  | .or => some (a ||| b)
  | .xor => some (a ^^^ b)
  | .min => some (if sa < sb then a else b)
  | .max => some (if sa < sb then b else a)
  | .minu => some (if a < b then a else b)
  | .maxu => some (if a < b then b else a)

/-! ## Philox4x32-10 (R392) -/

def philoxRound (k : Nat × Nat) (c : Nat × Nat × Nat × Nat) : Nat × Nat × Nat × Nat :=
  let (c0, c1, c2, c3) := c
  let p0 := 0xD2511F53 * c0
  let p1 := 0xCD9E8D57 * c2
  ((p1 / two32) ^^^ c1 ^^^ k.1, p1 % two32, (p0 / two32) ^^^ c3 ^^^ k.2, p0 % two32)

def philoxRounds : Nat → Nat × Nat → Nat × Nat × Nat × Nat → Nat × Nat × Nat × Nat
  | 0, _, c => c
  | n + 1, k, c => philoxRounds n ((k.1 + 0x9E3779B9) % two32, (k.2 + 0xBB67AE85) % two32) (philoxRound k c)

/-- One block. -/
def philox4x32 (seed : Nat) (c : Nat × Nat × Nat × Nat) : List Nat :=
  let (a, b, d, e) := philoxRounds 10 (seed % two32, seed / two32 % two32) c
  [a, b, d, e]

/-- The four blocks of PHILOX: inputs of R148, counters of Table 15.1. -/
def philoxVec (seed step stage : Nat) (g : Word) : BitVec 512 :=
  let tileIx := bits g.toNat 0 32
  let fut := bits g.toNat 32 12
  let lane := bits g.toNat 48 16
  ofLanes 32 ((List.range 4).flatMap fun j =>
    philox4x32 seed (tileIx, (lane + j) % 65536 + 65536 * fut, step % two32, stage % 65536))

/-- Whether the inputs of PHILOX are legal (R148). -/
def philoxLegal (g : Word) : Bool := bits g.toNat 48 16 % 4 == 0 && bits g.toNat 44 4 == 0

end Sys2Proof.Machine
end

