-- ==== Sys2Proof/Machine/Flags.lean ====
section
/-! DEFINITION. The predicates: the guard of an instruction and the comparisons that write a predicate (05, R128, Table 5.2). The
block has no other flags: no arithmetic instruction sets any (R131, R132). -/
namespace Sys2Proof.Machine
open Sys2Proof

/-- p0 reads 1. -/
def Thread.pred (t : Thread) (n : BitVec 3) : Bool := n == 0 || t.p.getLsbD n.toNat

/-- Writes to p0 are discarded. -/
def Thread.setP (t : Thread) (n : BitVec 3) (b : Bool) : Thread :=
  if n = 0 then t else
  { t with p := if b then t.p ||| (1#8 <<< n.toNat) else t.p &&& ~~~ (1#8 <<< n.toNat) }

/-- An instruction takes effect when p[PG] XOR PN is 1 (R128). -/
def Thread.guard (t : Thread) (w : Issue) : Bool := t.pred w.pg != (w.pn == 1)

/-- The comparisons of PCMP by FN. -/
def cmpEq (a b : Word) : Bool := a == b
def cmpNe (a b : Word) : Bool := a != b
def cmpLt (a b : Word) : Bool := a.slt b
def cmpGe (a b : Word) : Bool := !(a.slt b)
def cmpLtu (a b : Word) : Bool := a.ult b
def cmpGeu (a b : Word) : Bool := !(a.ult b)

/-- RD[2:0] names pd, RD[4:3] the combination: set, AND, OR. -/
def Thread.combine (t : Thread) (rd : BitVec 5) (r : Bool) : Thread :=
  let d := rd.extractLsb' 0 3
  let c := rd.extractLsb' 3 2
  let v := if c = 0 then r else if c = 1 then t.pred d && r else t.pred d || r
  t.setP d v

end Sys2Proof.Machine
end

