-- ==== Sys2Proof/Machine/Codec.lean ====
section
/-! DEFINITION. The tensor codec (11): building the code of a unit, coding it, and expanding any bit pattern (R276 to R280). -/
namespace Sys2Proof.Machine
open Sys2Proof

/-- A node of the code construction: count, second key, and the symbols below it with their depths (R278). -/
structure CodeNode where
  count : Nat
  key2 : Nat
  leaves : List (Nat × Nat)

/-- Insert a node by its key, smallest first. -/
def insertNode (x : CodeNode) : List CodeNode → List CodeNode
  | [] => [x]
  | y :: t =>
    if x.count < y.count || (x.count == y.count && decide (x.key2 < y.key2)) then x :: y :: t else y :: insertNode x t

/-- Count a symbol in a 256-entry histogram. -/
def histogram (syms : List Byte) : List Nat :=
  (List.range 256).map fun v => syms.countP (fun b => b.toNat == v)

/-- Steps 1 and 2 of R278: merge the two smallest nodes until one remains. -/
def mergeNodes : Nat → Nat → List CodeNode → List (Nat × Nat)
  | 0, _, _ => []
  | _ + 1, _, [] => []
  | _ + 1, _, [a] => a.leaves
  | fuel + 1, n, a :: b :: t =>
    let m : CodeNode :=
      { count := a.count + b.count, key2 := 256 + n, leaves := (a.leaves ++ b.leaves).map fun p => (p.1, p.2 + 1) }
    mergeNodes fuel (n + 1) (insertNode m t)

/-- Code lengths by symbol before the limit; with one present symbol, length 1. -/
def rawLengths (hist : List Nat) : List Nat :=
  let leaves := ((List.range 256).filter fun v => decide (hist.getD v 0 > 0)).foldl
    (fun acc v => insertNode { count := hist.getD v 0, key2 := v, leaves := [(v, 0)] } acc) []
  let ls := match leaves with
    | [one] => one.leaves.map fun p => (p.1, 1)
    | _ => mergeNodes 257 0 leaves
  (List.range 256).map fun v => keyGet ls v

/-- The present symbol of greatest length below 12, lowest count, then lowest symbol (R278 step 3). -/
def limitPick (hist lens : List Nat) : Option Nat :=
  (List.range 256).foldl (fun best v =>
    let l := lens.getD v 0
    if l = 0 || 12 ≤ l then best else
    match best with
    | none => some v
    | some w =>
      let lw := lens.getD w 0
      if lw < l || (lw == l && decide (hist.getD v 0 < hist.getD w 0)) then some v else best) none

/-- Step 3 of R278. -/
def limitLoop (hist : List Nat) : Nat → Nat → List Nat → List Nat
  | 0, _, lens => lens
  | fuel + 1, k, lens =>
    if k ≤ 4096 then lens else
    match limitPick hist lens with
    | none => lens
    | some v =>
      let l := lens.getD v 0
      limitLoop hist fuel (k - 2 ^ (11 - l)) (lens.set v (l + 1))

def codeLengths (hist : List Nat) : List Nat :=
  let ls := (rawLengths hist).map fun l => min l 12
  let k := (ls.map fun l => if l = 0 then 0 else 2 ^ (12 - l)).sum
  limitLoop hist 4096 k ls

/-- Step 4 of R278: codewords, as bit lists, by symbol. -/
def codewords (lens : List Nat) : List (List Bool) :=
  let assign := (List.range 12).foldl (fun (acc : Nat × List (Nat × Nat)) i =>
    let l := i + 1
    let r := ((List.range 256).filter fun v => lens.getD v 0 == l).foldl
      (fun (a : Nat × List (Nat × Nat)) v => (a.1 + 1, a.2 ++ [(v, a.1)])) acc
    (r.1 * 2, r.2)) ((0 : Nat), ([] : List (Nat × Nat)))
  (List.range 256).map fun v =>
    let l := lens.getD v 0
    let c := keyGet assign.2 v
    (List.range l).map fun i => bitOf c (l - 1 - i)

/-- Eight bits to a byte, first bit most significant (R277); missing bits are 0. -/
def bitsToByte (bs : List Bool) : Byte :=
  BitVec.ofNat 8 ((List.range 8).foldl (fun acc i => acc * 2 + b2n (bs.getD i false)) 0)

/-- Bits to bytes (R277). -/
def packBits : Nat → List Bool → List Byte
  | 0, _ => []
  | n + 1, bs => bitsToByte (bs.take 8) :: packBits n (bs.drop 8)

/-- The bits of a byte, most significant first. -/
def byteBits (b : Byte) : List Bool := (List.range 8).map fun i => b.getLsbD (7 - i)

/-- Lines of 128 elements. -/
def chunks {α : Type} : Nat → Nat → List α → List (List α)
  | 0, _, _ => []
  | n + 1, k, l => l.take k :: chunks n k (l.drop k)

/-- The high and low bytes of 2-byte elements. -/
def splitWide : List Byte → List Byte × List Byte
  | lo :: hi :: t => let r := splitWide t; (hi :: r.1, lo :: r.2)
  | _ => ([], [])

def joinWide : List Byte → List Byte → List Byte
  | hi :: hs, lo :: ls => lo :: hi :: joinWide hs ls
  | _, _ => []

/-- The elements of sub-stream j: lanes 32j to 32j + 31 of every line (R276). -/
def subSyms (lines : List (List Byte)) (j : Nat) : List Byte :=
  (lines.map fun l => (l.drop (32 * j)).take 32).flatten

/-- The inverse: four sub-streams of symbols to lines of 128. -/
def unsubSyms (nlines : Nat) (subs : List (List Byte)) : List Byte :=
  ((List.range nlines).map fun i => (subs.map fun sub => (sub.drop (32 * i)).take 32).flatten).flatten

/-- LENGTHS: 128 bytes of nibbles (Table 11.3). -/
def lengthBytes (lens : List Nat) : List Byte :=
  (List.range 128).map fun i => BitVec.ofNat 8 (lens.getD (2 * i) 0 + 16 * lens.getD (2 * i + 1) 0)

/-- The coded lines of a 16 KiB unit, or none under the raw rule (R276 to R280). -/
def codeUnit (wide : Bool) (bytes : List Byte) : Option (List Byte) :=
  let p := if wide then splitWide bytes else (bytes, [])
  let nl := if wide then 64 else 128
  let lines := chunks nl 128 p.1
  let lens := codeLengths (histogram p.1)
  let words := codewords lens
  let subs := (List.range 4).map fun j =>
    let bs := ((subSyms lines j).map fun b => words.getD b.toNat []).flatten
    let n := max 1 (ceilDiv bs.length 512)
    (n, packBits (64 * n) bs)
  let subLines := (subs.map (·.1)).sum
  let total := 3 + subLines + (if wide then 128 else 0)
  if total > 240 then none else
  let low := if wide then ((List.range 4).map fun j => subSyms (chunks nl 128 p.2) j).flatten else []
  some (lengthBytes lens ++ subs.map (fun x => BitVec.ofNat 8 x.1) ++ List.replicate 60 0 ++ low ++ (subs.map (·.2)).flatten)

/-- The table of the expander: for each length its first code, its count, and its symbols in ascending order (R279). -/
def expandTable (lens : List Nat) : List (Nat × Nat × List Byte) :=
  ((List.range 12).foldl (fun (acc : Nat × List (Nat × Nat × List Byte)) i =>
    let syms := ((List.range 256).filter fun v => lens.getD v 0 == i + 1).map fun v => BitVec.ofNat 8 v
    ((acc.1 + syms.length) * 2, acc.2 ++ [(acc.1, syms.length, syms)])) ((0 : Nat), [])).2

/-- One symbol, with the bits left. -/
def expandSym : List (Nat × Nat × List Byte) → Nat → List Bool → Byte × List Bool
  | [], _, bs => (0, bs)
  | (first, cnt, syms) :: t, code, bs =>
    let c := code * 2 + b2n (bs.headD false)
    if first ≤ c && decide (c < first + cnt) then (syms.getD (c - first) 0, bs.drop 1) else expandSym t c (bs.drop 1)

def expandSyms (tab : List (Nat × Nat × List Byte)) : Nat → List Bool → List Byte
  | 0, _ => []
  | n + 1, bs => let r := expandSym tab 0 bs; r.1 :: expandSyms tab n r.2

/-- The 16 KiB a coded unit expands to, whatever its bits (R279). `bytes` are the unit's LINES lines: a sub-stream that runs past its own lines
reads on, and a bit beyond the last line reads 0. -/
def expandUnit (wide : Bool) (bytes : List Byte) : List Byte :=
  let nib := (bytes.take 128).flatMap fun b => [b.toNat % 16, b.toNat / 16]
  let lens := nib.map fun n => if 12 < n then 0 else n
  let tab := expandTable lens
  let sl := (List.range 4).map fun j => (bytes.getD (128 + j) 0).toNat
  let base := if wide then 0x20C0 else 0xC0
  let nsym := if wide then 2048 else 4096
  let nl := if wide then 64 else 128
  let subs := (List.range 4).map fun j =>
    let off := base + 64 * (sl.take j).sum
    expandSyms tab nsym ((bytes.drop off).flatMap byteBits)
  let syms := unsubSyms nl subs
  if wide then
    joinWide syms (unsubSyms nl ((List.range 4).map fun j => fit 2048 (slice bytes (0xC0 + 2048 * j) 2048)))
  else syms

/-- The tag of a coded unit (Table 11.1). -/
def codedTag (wide : Bool) (bytes : List Byte) : BitVec 16 :=
  BitVec.ofNat 16 (bytes.length / 64 + (if wide then 0x4000 else 0) + 0x8000)

end Sys2Proof.Machine
end

