-- ==== Sys2Proof/Machine/NetOps.lean ====
section
/-! DEFINITION. Operations of the fabric: comparison of epochs, the member set, routes, transport headers, sending, answering
and judging messages (13, R327 to R340). -/
namespace Sys2Proof.Machine
open Sys2Proof

/-- a is newer than b modulo 2^32 (R328). -/
def newer32 (a b : Nat) : Bool :=
  let d := (a + two32 - b % two32) % two32
  decide (1 ≤ d) && decide (d ≤ 2147483647)

/-! ## Link state -/

/-- The cost of an adjacency over a port: 16 × 448 / raw GB/s (R331). -/
def Port.cost (p : Port) : Nat := 16 * 2 ^ p.rate * 2 ^ p.width

/-- Adjacencies are used only over ports that are up to the network layer and carry fabric traffic (R309, R313). -/
def Port.linkUp (p : Port) : Bool :=
  (p.state == .active || p.state == .recovery) && !p.pairSelf && !p.loopPlug && p.loop == 0

/-- The record of a node in the database. -/
def Net.lsaOf (n : Net) (node : Nat) : Option Lsa :=
  (n.lsdb.find? fun e => e.lsa.origin.toNat == node).map (·.lsa)

/-- CHIP_NONCE of a node, as its record gives it. -/
def Net.nonceOf (n : Net) (node : Nat) : BitVec 64 := ((n.lsaOf node).map (·.chipNonce)).getD 0

/-- Links (node, port, neighbour, neighbour port, cost) that both ends list (R331). -/
def Net.links (n : Net) : List (Nat × Nat × Nat × Nat × Nat) :=
  n.lsdb.flatMap fun e =>
    let o := e.lsa.origin.toNat
    (e.lsa.adjs.filter fun a =>
      match n.lsaOf a.peer.toNat with
      | some l => l.adjs.any fun b => b.peer.toNat == o && b.localPort == a.peerPort && b.peerPort == a.localPort
      | none => false).map fun a => (o, a.localPort.toNat, a.peer.toNat, a.peerPort.toNat, a.cost.toNat)

/-- Nodes reached from a set in one more hop. -/
def spread (links : List (Nat × Nat × Nat × Nat × Nat)) (l : List Nat) : List Nat :=
  links.foldl (fun acc e => if acc.contains e.1 then insertNat acc e.2.2.1 else acc) l

def spreadN (links : List (Nat × Nat × Nat × Nat × Nat)) : Nat → List Nat → List Nat
  | 0, l => l
  | k + 1, l => let m := spread links l; if m = l then l else spreadN links k m

/-- The member set: nodes reachable over two-way adjacencies, without those that have sent LEAVE (R327). -/
def State.memberSet (s : State) : List Nat :=
  if s.net.nodeId = 0xFF then [] else
  let ls := s.net.links.filter fun e => !(s.net.left.contains e.2.2.1) && !(s.net.left.contains e.1)
  spreadN ls 254 [s.net.nodeId]

/-- Distances to one destination by repeated relaxation; 0xFFFF is unreachable (R332). -/
def relax (links : List (Nat × Nat × Nat × Nat × Nat)) (d : List Nat) : List Nat :=
  links.foldl (fun acc e =>
    let via := e.2.2.2.2 + acc.getD e.2.2.1 0xFFFF
    if via < acc.getD e.1 0xFFFF then acc.set e.1 via else acc) d

def relaxN (links : List (Nat × Nat × Nat × Nat × Nat)) : Nat → List Nat → List Nat
  | 0, d => d
  | k + 1, d => let e := relax links d; if e = d then d else relaxN links k e

def distancesTo (links : List (Nat × Nat × Nat × Nat × Nat)) (dst : Nat) : List Nat :=
  relaxN links 254 ((List.replicate 254 0xFFFF).set dst 0)

/-- No route. -/
def Route.none : Route := { ports := [], alts := [], dist := 0xFFFF }

/-- The route of a node to one destination (R332, R333). -/
def routeFrom (links : List (Nat × Nat × Nat × Nat × Nat)) (node dst : Nat) : Route :=
  let d := distancesTo links dst
  let own := d.getD node 0xFFFF
  if node = dst then { ports := [], alts := [], dist := 0 } else
  if own = 0xFFFF then Route.none else
  let mine := links.filter fun e => e.1 == node
  let best := mine.filter fun e => e.2.2.2.2 + d.getD e.2.2.1 0xFFFF == own
  let set := sortBy (fun e => e.2.2.1 * 16 + e.2.1) best
  let free := mine.filter fun e => decide (d.getD e.2.2.1 0xFFFF < own)
  let alts := sortBy (fun e => (e.2.2.2.2 + d.getD e.2.2.1 0xFFFF) * 65536 + e.2.2.1 * 16 + e.2.1) free
  { ports := (set.take 4).map (·.2.1),
    alts := alts.map fun e => (e.2.1, e.2.2.2.2 + d.getD e.2.2.1 0xFFFF, e.2.2.1), dist := own }

def Net.route (n : Net) (dst : Nat) : Route := n.routes.getD dst Route.none

/-- The port a message takes: ECMP entry (SRC + DST + OTAG) mod n, the alternate path for a later attempt (R333). -/
def Net.pickPort (n : Net) (src dst otag attempt : Nat) : Option Nat :=
  let r := n.route dst
  let k := r.ports.length
  if k = 0 then none else
  let j := (src + dst + otag) % k
  if attempt = 0 then r.ports[j]?
  else if 1 < k then r.ports[(j + attempt) % k]?
  else if r.alts.isEmpty then r.ports[j]?
  else (r.alts[attempt % r.alts.length]?).map (·.1)

/-! ## Messages -/

/-- The 32-byte transport header (Table 13.2) and the body. -/
def msgBytes (mtype src dst otag attempt tseq cack oseq status epoch arg : Nat) (body : List Byte) : List Byte :=
  bytesLE 1 mtype ++ bytesLE 1 src ++ bytesLE 1 dst ++ bytesLE 1 (otag % 16 + 16 * (attempt % 4)) ++ bytesLE 4 tseq
    ++ bytesLE 4 cack ++ bytesLE 2 oseq ++ bytesLE 1 status ++ [0] ++ bytesLE 4 epoch ++ bytesLE 4 body.length
    ++ bytesLE 8 arg ++ body

/-- Put a message onto a virtual channel of a port that takes messages (R316, R318). -/
def State.putMsg (s : State) (port : Fin 12) (vc : Nat) (bytes : List Byte) : State :=
  let p := s.port port
  if (p.state == .active || p.state == .recovery) && !p.closed then
    s.modPort port fun p => { p with vcq := p.vcq.modify vc fun q => q ++ [{ bytes := bytes, sent := 0 }] }
  else s

/-- Send a message towards a node; with no route the source's timeout recovers (R338). -/
def State.route (s : State) (dst vc otag attempt : Nat) (bytes : List Byte) : State :=
  match s.net.pickPort s.net.nodeId dst otag attempt with
  | some p => s.putMsg (portIx p) vc bytes
  | none => s

/-- Sender state towards (DST, VC), restarted when the peer's CHIP_NONCE has changed (R335). -/
def Net.tx (n : Net) (dst vc : Nat) : TxState :=
  let fresh : TxState := { dst := dst, vc := vc, nonce := n.nonceOf dst, next := 0, cack := 0, oseq := [] }
  match n.txState.find? fun t => t.dst == dst && t.vc == vc with
  | some t => if t.nonce == n.nonceOf dst then t else fresh
  | none => fresh

def Net.setTx (n : Net) (t : TxState) : Net :=
  { n with txState := n.txState.filter (fun u => !(u.dst == t.dst && u.vc == t.vc)) ++ [t] }

/-- CACK: every response below it has been received (Table 13.2). -/
def Net.cackOf (n : Net) (t : TxState) : Nat :=
  match n.txns.find? fun x => x.dst == t.dst && x.vc == t.vc with
  | some x => x.tseq
  | none => t.next

/-- Transmit a request: take its TSEQ and OSEQ, send it, and keep it until its response (R334 to R337). -/
def State.transmit (s : State) (r : SendReq) : State :=
  let t := s.net.tx r.dst r.vc
  let oseq := keyGet t.oseq r.otag
  let bytes := msgBytes r.mtype s.net.nodeId r.dst r.otag 0 t.next (s.net.cackOf t) oseq 0 s.net.settled r.arg r.body
  let s := s.modNet fun n =>
    { n.setTx { t with next := (t.next + 1) % two32, oseq := keySet t.oseq r.otag ((oseq + 1) % 65536) } with
      txns := n.txns ++ [{ dst := r.dst, vc := r.vc, tseq := t.next, attempt := 0, sentAt := s.clk.devTime,
                           purpose := r.purpose, bytes := bytes }] }
  s.route r.dst r.vc r.otag 0 bytes

/-- Requests outstanding to (DST, VC). -/
def Net.outstanding (n : Net) (dst vc : Nat) : Nat := n.txns.countP fun x => x.dst == dst && x.vc == vc

/-- Send a request, or keep it back while 4,096 are outstanding (R335). -/
def State.sendReq (s : State) (r : SendReq) : State :=
  if 4096 ≤ s.net.outstanding r.dst r.vc then s.modNet fun n => { n with unsent := n.unsent ++ [r] } else s.transmit r

/-- Send the next request kept back for (DST, VC), if there is one. -/
def State.sendNext (s : State) (dst vc : Nat) : State :=
  match s.net.unsent.find? fun r => r.dst == dst && r.vc == vc with
  | some r => (s.modNet fun n => { n with unsent := n.unsent.erase r }).transmit r
  | none => s

/-- OTAG of READ, WRITE and ATOMIC (R336). -/
def addrOtag (a : Nat) : Nat := bits a 12 4

/-- The 32 bytes of a LEASE message (Table 13.3): OP, kind, key, LEASE_EPOCH; their places are the model's (log entry 26). -/
def leaseBody (op kind key1 key2 epoch : Nat) : List Byte :=
  bytesLE 1 op ++ bytesLE 1 kind ++ List.replicate 6 0 ++ bytesLE 8 key1 ++ bytesLE 8 key2 ++ bytesLE 4 epoch ++ List.replicate 4 0

/-- A Steward message (MTYPE 0x05), end to end. -/
def State.sendMsgTo (s : State) (dst subtype : Nat) (body : List Byte) (purpose : Purpose) : State :=
  s.sendReq { dst := dst, vc := 3, mtype := 0x05, otag := 0, arg := 0, body := bytesLE 1 subtype ++ body, purpose := purpose }

/-- A port-local or flooded message: DST 0xFF and no TSEQ (R341). -/
def State.localMsg (s : State) (subtype : Nat) (body : List Byte) : List Byte :=
  msgBytes 0x05 s.net.nodeId 0xFF 0 0 0 0 0 0 s.net.settled 0 (bytesLE 1 subtype ++ body)

/-- Flood a record on every adjacency but one (R330, R341). -/
def State.flood (s : State) (skip : Option Nat) (bytes : List Byte) : State :=
  (s.net.adjs.filter fun a => some a.port != skip).foldl (fun s a => s.putMsg (portIx a.port) 3 bytes) s

/-! ## Receiving (R335, R336, R339) -/

/-- What becomes of a request that arrives. -/
inductive RxVerdict where
  | notMember
  | again (resp : List Byte)
  | hold
  | drop
  | run
deriving DecidableEq, Repr

def Net.rx (n : Net) (src vc : Nat) : RxState :=
  let fresh : RxState :=
    { src := src, vc := vc, nonce := n.nonceOf src, next := 0, window := [], cached := [], oseq := [], held := [] }
  match n.rxState.find? fun t => t.src == src && t.vc == vc with
  | some t => if t.nonce == n.nonceOf src then t else fresh
  | none => fresh

def Net.setRx (n : Net) (t : RxState) : Net :=
  { n with rxState := n.rxState.filter (fun u => !(u.src == t.src && u.vc == t.vc)) ++ [t] }

/-- Distance of a TSEQ beyond the next expected one. -/
def tseqAhead (a b : Nat) : Nat := (a + two32 - b % two32) % two32

/-- A message of this OTAG and OSEQ is held already. -/
def RxState.holds (r : RxState) (h : Header) : Bool := r.held.any fun x => x.1.otag == h.otag && x.1.oseq == h.oseq

def State.rxVerdict (s : State) (h : Header) (vc : Nat) : RxVerdict :=
  if !(s.memberSet.contains h.src.toNat) then .notMember else
  let r := s.net.rx h.src.toNat vc
  let d := tseqAhead h.tseq.toNat r.next
  if 2147483648 ≤ d || r.window.contains h.tseq.toNat then
    match r.cached.find? fun c => c.1 == h.tseq.toNat with
    | some c => .again c.2
    | none => .drop
  else if 4096 ≤ d then .drop
  else
    let want := keyGet r.oseq h.otag.toNat
    if h.oseq.toNat = want then .run
    else if (h.oseq.toNat + 65536 - want) % 65536 < 32768 then
      (if r.held.length < 64 || r.holds h then .hold else .drop)
    else .drop

/-- Slide the contiguous mark over executed numbers. -/
def slideRx : Nat → Nat → List Nat → Nat × List Nat
  | 0, n, w => (n, w)
  | k + 1, n, w => if w.contains n then slideRx k ((n + 1) % two32) (w.erase n) else (n, w)

/-- Mark a request executed; responses that CACK covers leave the cache. -/
def RxState.done (r : RxState) (h : Header) : RxState :=
  let w := insertNat r.window h.tseq.toNat
  let sl := slideRx w.length r.next w
  { r with next := sl.1, window := sl.2, oseq := keySet r.oseq h.otag.toNat ((h.oseq.toNat + 1) % 65536),
           held := r.held.filter fun x => !(x.1.otag == h.otag && x.1.oseq == h.oseq),
           cached := r.cached.filter fun c => !(newer32 h.cack.toNat c.1) }

/-- The response to a request, on VC 1 (R340). -/
def State.response (s : State) (h : Header) (mtype status : Nat) (data : List Byte) : List Byte :=
  msgBytes (mtype + 0x80) s.net.nodeId h.src.toNat 0 0 h.tseq.toNat 0 0 status s.net.settled 0 data

/-- Send an answer and cache it until CACK covers it (R335). -/
def State.answer (s : State) (h : Header) (vc : Nat) (b : List Byte) : State :=
  let r := s.net.rx h.src.toNat vc
  (s.modNet fun n => n.setRx { r with cached := r.cached.filter (fun c => c.1 != h.tseq.toNat) ++ [(h.tseq.toNat, b)] }).route
    h.src.toNat 1 0 0 b

/-- Answer a request. -/
def State.respond (s : State) (h : Header) (vc mtype status : Nat) (data : List Byte) : State :=
  s.answer h vc (s.response h mtype status data)

/-- Answer a READ; its ARG holds what a tag-aware reader needs (log entry 57). -/
def State.respondRead (s : State) (h : Header) (status arg : Nat) (data : List Byte) : State :=
  s.answer h 0 (msgBytes 0x81 s.net.nodeId h.src.toNat 0 0 h.tseq.toNat 0 0 status s.net.settled arg data)

/-- VC of a message, and its MTYPE (Table 13.3). -/
def Message.vc : Message → Nat
  | .read => 0
  | .write _ => 0
  | .atomic _ _ _ => 0
  | .actPush _ _ => 2
  | .tokenReq _ => 3
  | .tokenRelease _ => 3
  | .stepAck _ => 3
  | .abort _ _ => 3
  | .weightQuery _ _ => 3
  | .weightHave _ _ => 3
  | .lease _ _ _ => 0
  | .barrier _ _ _ _ _ _ => 3
  | .time _ _ => 3

def Message.mtype : Message → Nat
  | .read => 1
  | .write _ => 2
  | .atomic _ _ _ => 3
  | .actPush _ _ => 4
  | .tokenReq _ => 5
  | .tokenRelease _ => 5
  | .stepAck _ => 5
  | .abort _ _ => 5
  | .weightQuery _ _ => 5
  | .weightHave _ _ => 5
  | .lease _ _ _ => 6
  | .barrier _ _ _ _ _ _ => 7
  | .time _ _ => 8

/-- Hold an out-of-order message until the one before it has been delivered (R336). -/
def RxState.hold (r : RxState) (h : Header) (m : Message) : RxState :=
  { r with held := if r.holds h then r.held else r.held ++ [(h, m)] }

/-- A held message whose turn has come. -/
def RxState.nextHeld (r : RxState) : Option (Header × Message) :=
  r.held.find? fun x => keyGet r.oseq x.1.otag.toNat == x.1.oseq.toNat

end Sys2Proof.Machine
end

