-- ==== Sys2Proof/Machine/Request.lean ====
section
/-! DEFINITION. What a request is made of: the descriptor's fields, its fork tree and waves, its output offsets, its demand on
each node, and the pages its KV needs (01, R14 to R24; 09, R225; 10, R252). -/
namespace Sys2Proof.Machine
open Sys2Proof

/-! ## Descriptor fields (Table 1.3) -/

abbrev Desc := List Byte

def Desc.tag (d : Desc) : Nat := fieldLE d 0x00 8
def Desc.format (d : Desc) : Nat := fieldLE d 0x08 1
def Desc.program (d : Desc) : Nat := fieldLE d 0x09 1
def Desc.shapeClass (d : Desc) : Nat := fieldLE d 0x0A 1 % 16
def Desc.cls (d : Desc) : Nat := fieldLE d 0x0B 1 % 4
def Desc.enforce (d : Desc) : Bool := bitOf (fieldLE d 0x0C 2) 0
def Desc.commit (d : Desc) : Bool := bitOf (fieldLE d 0x0C 2) 1
def Desc.kind (d : Desc) : Nat := fieldLE d 0x0E 1
def Desc.branchCount (d : Desc) : Nat := fieldLE d 0x0F 1
def Desc.streamId (d : Desc) : Nat := fieldLE d 0x10 3
def Desc.contextCount (d : Desc) : Nat := fieldLE d 0x14 2
def Desc.futures (d : Desc) : Nat := fieldLE d 0x16 2
def Desc.steps (d : Desc) : Nat := fieldLE d 0x18 2
def Desc.seed (d : Desc) : Nat := fieldLE d 0x30 8
def Desc.deadline (d : Desc) : Nat := fieldLE d 0x38 8
def Desc.inputAddr (d : Desc) : Nat := fieldLE d 0x40 8
def Desc.inputBytes (d : Desc) : Nat := fieldLE d 0x48 4
def Desc.outputAddr (d : Desc) : Nat := fieldLE d 0x50 8
def Desc.outputBytes (d : Desc) : Nat := fieldLE d 0x58 4
def Desc.isStream (d : Desc) : Bool := d.kind == 1

/-- The descriptor of a request, to read its fields from. -/
def Req.d (r : Req) : Desc := r.desc

/-- The used branch entries, at most four: (step, factor). -/
def Desc.branches (d : Desc) : List (Nat × Nat) :=
  (List.range (min d.branchCount 4)).map fun i => (fieldLE d (0x1C + 4 * i) 2, fieldLE d (0x1E + 4 * i) 1)

/-! ## Forks and waves (R15, R16, R18) -/

/-- N(s): live futures at step s. -/
def Desc.liveN (d : Desc) (s : Nat) : Nat :=
  d.futures * ((d.branches.filter fun b => decide (b.1 ≤ s)).map (·.2)).prod

/-- L: the leaf count. -/
def Desc.leaves (d : Desc) : Nat := d.futures * (d.branches.map (·.2)).prod

def Desc.waves (d : Desc) (s : Nat) : Nat := ceilDiv (d.liveN s) 32

/-- Futures in wave w of step s. -/
def Desc.waveN (d : Desc) (s w : Nat) : Nat := min 32 (d.liveN s - 32 * w)

/-- ΣN(s) for s below `k`. -/
def Desc.sumN (d : Desc) (k : Nat) : Nat := ((List.range k).map d.liveN).sum

/-- The factor at step s; 1 where no branch point falls there. -/
def Desc.factorAt (d : Desc) (s : Nat) : Nat := ((d.branches.find? fun b => b.1 == s).map (·.2)).getD 1

/-- Waves of step s − 1 that hold a parent of a future in wave w of step s (R12, R15). -/
def Desc.parentWaves (d : Desc) (s w : Nat) : List Nat :=
  let b := max 1 (d.factorAt s)
  let lo := 32 * w / b / 32
  let hi := (32 * w + d.waveN s w - 1) / b / 32
  (List.range (hi - lo + 1)).map fun i => lo + i

/-- The byte at which the record of future f at step s starts (R18). -/
def Desc.recordOffset (d : Desc) (rOut s f : Nat) : Nat := rOut * (d.sumN s + f)

/-! ## The program's tables -/

def Program.shape (p : Program) (c : Nat) : Option ShapeClass := p.classes[c]?
def Program.demandOf (p : Program) (k c : Nat) : Option Demand := p.demands[k * p.classes.length + c]?
def Program.template (p : Program) (context : Bool) (k c : Nat) : Option Template :=
  p.templates.find? fun t => t.context == context && t.stage == k && t.shapeClass == c

/-- The largest BAY_TASKS among the program's templates (R451). -/
def Program.maxBays (p : Program) : Nat := p.templates.foldl (fun m t => max m t.bayTasks) 0

def Program.cellStage (p : Program) : Option Nat := p.stages.findIdx? (·.cell)

/-! ## Demand (R225, R252, R204) -/

/-- The page procedure of R225, per layer; the context's own pages are left out for a PERSIST stage. -/
def kvPages (d : Desc) (g : StageCfg) : Nat :=
  let len0 := d.contextCount * g.ctxPerEvent
  let bounds := d.branches ++ [(d.steps, 1)]
  let r := bounds.foldl (fun (acc : Nat × Nat × Nat × Nat) b =>
    let (len, n, a, total) := acc
    let e := len + (b.1 - a) * g.appendMax
    (e, n * b.2, b.1, total + n * (e / 16 - len / 16))) (len0, d.futures, 0, if g.persist then 0 else len0 / 16)
  r.2.2.2

/-- Records of a request: the context, the roots, and the futures created at each branch point. -/
def kvRecordCount (d : Desc) : Nat :=
  1 + d.futures + (d.branches.foldl (fun (acc : Nat × Nat) b => (acc.1 * b.2, acc.2 + acc.1 * b.2)) (d.futures, 0)).2

/-- The KV space of a stage (R225). -/
def kvSpace (d : Desc) (g : StageCfg) : Nat :=
  let pages := kvPages d g * g.layersKv
  let recs := kvRecordCount d
  pages * (32 * g.d) + 2 * recs * g.layersKv * (32 * g.d) + 4 * pages + 64 * recs

def scratchT1 (d : Desc) (m : Demand) : Nat :=
  m.t1Fix + m.t1PerFuture * d.leaves + m.t1PerRecord * (d.contextCount + d.sumN d.steps)
def scratchT2 (d : Desc) (m : Demand) : Nat :=
  m.t2Fix + m.t2PerFuture * d.leaves + m.t2PerRecord * (d.contextCount + d.sumN d.steps)

/-- The items of a request on one node of a formation, in placement order, empty ones left out (Table 10.8, R254). -/
def demandItems (p : Program) (d : Desc) (nodes : List Nat) (node : Nat) : List DemandItem :=
  let mine := (List.range nodes.length).filter fun k => nodes.getD k 0 == node
  let scratch := mine.flatMap fun k =>
    match p.demandOf k d.shapeClass with
    | some m => [{ kind := .scratch k 1, bytes := scratchT1 d m }, { kind := .scratch k 2, bytes := scratchT2 d m }]
    | none => []
  let kv := mine.filterMap fun k =>
    match p.stages[k]? with
    | some g => if g.layersKv = 0 then none else some { kind := .kvSpace k, bytes := kvSpace d g }
    | none => none
  let inp : List DemandItem := if nodes.head? = some node then [{ kind := .inputStaging, bytes := d.inputBytes }] else []
  let rOut := ((p.shape d.shapeClass).map (·.rOut)).getD 0
  let out : List DemandItem :=
    if nodes.getLast? = some node then [{ kind := .outputStaging, bytes := 2 * rOut * d.leaves }] else []
  (scratch ++ kv ++ inp ++ out).filter fun i => decide (0 < i.bytes)

/-- G gallery slots and their class, on the cell stage's node (R204). -/
def galleryDemand (p : Program) (d : Desc) (nodes : List Nat) (node : Nat) : Option (Nat × Nat) :=
  match p.cellStage, p.streamClass with
  | some k, some c =>
    if nodes.getD k 0xFF = node then
      let nb := match d.branches.getLast? with
        | some b => d.liveN (b.1 - 1)
        | none => 0
      some (c, 2 * d.leaves + nb + 3 * b2n d.isStream)
    else none
  | _, _ => none

def itemTier : ItemKind → Nat
  | .scratch _ t => t
  | _ => 1

/-- 64 KiB blocks (R252). -/
def block64 : Nat := 65536
def itemSize (i : DemandItem) : Nat := roundUp i.bytes block64

/-- D[x] of a node (R252). -/
def demandTier (items : List DemandItem) (x : Nat) : Nat := ((items.filter fun i => itemTier i.kind == x).map itemSize).sum

end Sys2Proof.Machine
end

