-- ==== Sys2Proof/Machine/Quota.lean ====
section
/-! DEFINITION. Tenant quotas and placement: capacities, the grant test, contiguous placement, gallery slots, and the evaluation
and release of reservation tokens (10, R237 to R259; 08, R204; 18, R453). -/
namespace Sys2Proof.Machine
open Sys2Proof

/-! ## Capacities and the grant test (R239, R253) -/

/-- Start of the tenant region of T1. -/
def State.tenantBase (s : State) : Nat := s.cfg.programsEnd + s.cfg.pers.weightBytes

/-- Capacity Cx of a tier (R239, R448, R453). -/
def State.capacity (s : State) (x : Nat) : Int :=
  match x with
  | 0 => (s.unfencedBays * s.w0 : Nat)
  | 1 => (288 * gib : Nat) - (s.cfg.programsEnd - t1Base : Nat) - (s.cfg.pers.weightBytes : Nat) - (512 * mib : Nat)
           - (s.mem.fencedPc.length * 1207959552 : Nat)
  | _ => let e := s.cfg.pers.t2ExpectGib * gib
         if e = 0 then 0 else (e : Nat) - (max (64 * mib) (e / 4096) : Nat)

def State.usedOf (s : State) (t : Fin 16) (x : Nat) : Nat := (s.quota.used.getD t.val []).getD x 0
def State.tenantCfg (s : State) (t : Fin 16) : TenantCfg := s.cfg.tenants.getD t.val TenantCfg.zero
def State.resOf (s : State) (t : Fin 16) (x : Nat) : Nat := (s.tenantCfg t).res.getD x 0
def State.limOf (s : State) (t : Fin 16) (x : Nat) : Nat := (s.tun.limit.getD t.val []).getD x 0
def State.overOf (s : State) (t : Fin 16) (x : Nat) : Nat := s.usedOf t x - s.resOf t x

/-- H: the shared headroom of a tier. -/
def State.headroom (s : State) (x : Nat) : Int :=
  s.capacity x - ((allFns.map fun t => s.resOf t x).sum : Nat) - ((allFns.map fun t => s.overOf t x).sum : Nat)

/-- The two conditions of R253, for D above 0. -/
def State.grantTest (s : State) (t : Fin 16) (x d : Nat) : Bool :=
  d == 0 || (decide (s.usedOf t x + d ≤ s.limOf t x)
    && decide (((s.usedOf t x + d - s.resOf t x : Nat) : Int) - (s.overOf t x : Nat) ≤ s.headroom x))

def State.addUsed (s : State) (t : Fin 16) (x d : Nat) : State :=
  s.modQuota fun q => { q with used := q.used.modify t.val fun u => u.modify x (· + d) }
def State.subUsed (s : State) (t : Fin 16) (x d : Nat) : State :=
  s.modQuota fun q => { q with used := q.used.modify t.val fun u => u.modify x (· - d) }

/-! ## Placement (R254) -/

/-- The lowest address of a region at which `size` bytes are free: the region's start, or the end of something placed. -/
def firstFit (busy : List (Nat × Nat)) (start top size : Nat) : Option Nat :=
  let cands := start :: (busy.map (·.2)).filter fun h => decide (start ≤ h)
  let ok := cands.filter fun c => decide (c + size ≤ top) && busy.all fun b => decide (c + size ≤ b.1) || decide (b.2 ≤ c)
  ok.foldl (fun best c => match best with | none => some c | some b => some (min b c)) none

/-- The region of a tier open to placement: T2 leaves out its system region (R239). -/
def State.placeRegion (s : State) (x : Nat) : Nat × Nat :=
  if x = 2 then (t2Base, s.t2SystemBase) else (s.tenantBase, spareBase)

/-- What is taken in a tier: fixed allocations, grants, withdrawn blocks, ranges of lost devices. -/
def State.busy (s : State) (x : Nat) : List (Nat × Nat) :=
  ((s.quota.fixed.filter fun f => f.tier == x).map fun f => (f.base, f.base + f.size))
  ++ ((s.quota.grants.filter fun g => g.tier == x).map fun g => (g.base, g.base + g.size))
  ++ (if x = 1 then s.mem.withdrawn.map fun r => (r.lo, r.hi + 1) else [])
  ++ (if x = 2 then (s.cxl.devs.filter (·.lost)).map fun d => (d.base, d.base + d.gib * gib) else [])

/-- Mark a range fresh, and the tags of its units raw (R241, R271). -/
def Mem.markFresh (m : Mem) (base size : Nat) : Mem :=
  if size = 0 then m else
  { m with fresh := m.fresh.flatMap (fun r => r.minus (base / 4096) ((base + size - 1) / 4096))
                      ++ [{ lo := base / 4096, hi := (base + size - 1) / 4096 }],
           tags := m.tags.filter fun t => !(decide (base / 16384 ≤ t.1) && decide (t.1 ≤ (base + size - 1) / 16384)) }

/-- Place one item and record its grant; none where no contiguous range exists. -/
def State.placeItem (s : State) (asn home : Nat) (t : Fin 16) (i : DemandItem) : Option (State × PlacedItem) :=
  let x := itemTier i.kind
  let r := s.placeRegion x
  match firstFit (s.busy x) r.1 r.2 (itemSize i) with
  | none => none
  | some base =>
    let g : Grant :=
      { asn := asn, home := home, tenant := t, tier := x, kind := i.kind, base := base, size := itemSize i }
    let s1 := s.modQuota fun q => { q with grants := q.grants ++ [g] }
    let s2 := s1.modMem fun m => m.markFresh base (itemSize i)
    some (s2, { node := s.net.nodeId, kind := i.kind, base := base, size := itemSize i })

def State.placeAll (asn home : Nat) (t : Fin 16) : List DemandItem → State → Option (State × List PlacedItem)
  | [], s => some (s, [])
  | i :: is, s =>
    match s.placeItem asn home t i with
    | none => none
    | some (s1, p) =>
      match State.placeAll asn home t is s1 with
      | none => none
      | some (s2, ps) => some (s2, p :: ps)

/-! ## Gallery slots (R197, R204, R253) -/

def State.streamClass (s : State) (c : Nat) : StreamClass := s.cfg.pers.classes.getD c StreamClass.zero

/-- Address of slot j of class c in bay b (R237). -/
def State.slotAddr (s : State) (c : Nat) (b : Fin 80) (j : Nat) : Nat :=
  bayBase b + s.w0
    + ((s.cfg.pers.classes.take c).map fun k => if k.present then k.slotsPerBay * k.slotSize else 0).sum
    + j * (s.streamClass c).slotSize

/-- The free slots of a class on this node, lowest (bay, slot) first. -/
def State.freeSlots (s : State) (c : Nat) : List (Fin 80 × Nat) :=
  (allBays.filter fun b => !(s.bayFenced b)).flatMap fun b =>
    ((List.range (s.streamClass c).slotsPerBay).filter fun j =>
      !(s.str.slots.any fun g => g.cls == c && g.bay == b && g.slot == j)).map fun j => (b, j)

/-- The slots a class's pool holds at all. -/
def State.poolSize (s : State) (c : Nat) : Nat := s.unfencedBays * (s.streamClass c).slotsPerBay

def State.reserveSlots (s : State) (asn home c g : Nat) : Option State :=
  let free := s.freeSlots c
  if free.length < g then none else
  let taken : List GalSlot := (free.take g).map fun p => { cls := c, bay := p.1, slot := p.2, owner := .reserved asn home }
  some (s.modStr fun t => { t with slots := t.slots ++ taken })

/-! ## Tokens (R255 to R257) -/

/-- Evaluate a demand on this node: the test of R253 in each tier with demand, the placement of R254, the gallery slots. -/
def State.evalDemand (s : State) (asn home : Nat) (t : Fin 16) (items : List DemandItem) (gallery : Option (Nat × Nat)) :
    Option (State × List PlacedItem) :=
  let d1 := demandTier items 1
  let d2 := demandTier items 2
  if !(s.grantTest t 1 d1 && s.grantTest t 2 d2) then none else
  let slots := match gallery with
    | some (c, g) => if g = 0 then some s else s.reserveSlots asn home c g
    | none => some s
  match slots with
  | none => none
  | some s1 =>
    match State.placeAll asn home t items s1 with
    | none => none
    | some (s2, ps) => some ((s2.addUsed t 1 d1).addUsed t 2 d2, ps)

/-- This node with no reservation of any request: used at the fixed allocations, the tenant regions free above them (R255). -/
def State.bare (s : State) : State :=
  { s with
    quota := { s.quota with grants := [],
                            used := allFns.map fun t => (List.range 3).map fun x =>
                              ((s.quota.fixed.filter fun f => f.tenant == t && f.tier == x).map (·.size)).sum },
    str := { s.str with slots := [] } }

/-- Whether a demand could ever be granted on this node (R255). -/
def State.everGrants (s : State) (t : Fin 16) (items : List DemandItem) (gallery : Option (Nat × Nat)) : Bool :=
  (s.bare.evalDemand 0 0 t items gallery).isSome

/-- Release what a request holds on this node: grants, use, gallery slots, token (R257). -/
def State.releaseHere (s : State) (home asn : Nat) : State :=
  let gs := s.quota.grants.filter fun g => g.asn == asn && g.home == home
  let bases := gs.map (·.base)
  let s := gs.foldl (fun s g => s.subUsed g.tenant g.tier g.size) s
  let s := s.modKv fun k =>
    { k with grantNext := k.grantNext.filter (fun p => !(bases.contains p.1)),
             grantFree := k.grantFree.filter fun p => !(bases.contains p.1) }
  let s := s.modQuota fun q =>
    { q with grants := q.grants.filter (fun g => !(g.asn == asn && g.home == home)),
             tokens := q.tokens.filter fun k => !(k.asn == asn && k.home == home) }
  s.modStr fun t => { t with slots := t.slots.filter fun g => g.owner != .reserved asn home }

/-- The ranges admission granted to a request on this node (R135). -/
def State.grantsOf (s : State) (home asn : Nat) : List Grant :=
  s.quota.grants.filter fun g => g.asn == asn && g.home == home

/-- The request's reservations on this node. -/
def State.grantRanges (s : State) (home asn : Nat) : List (Nat × Nat) :=
  (s.grantsOf home asn).map fun g => (g.base, g.base + g.size)

end Sys2Proof.Machine
end

