-- ==== Sys2Proof/Machine/MemOps.lean ====
section
/-! DEFINITION. What memory errors and fatal causes do: corrected errors and poison found by a reader, retirement and remapping of
granules, fencing of a pseudo-channel, and the fatal class (05 R150; 10 R261, R262; 18 R443, R453 to R456; 06 R170). -/
namespace Sys2Proof.Machine
open Sys2Proof

/-! ## Fatal causes (R455, R456, R170) -/

/-- The fault ramp-down of a bay's array: its instructions are abandoned and it is off, without a token (R170). A ramp token
it held or waited for leaves with it. -/
def Bay.faultRamp (y : Bay) : Bay :=
  { y with running := none, drain := none, tileQueue := [], ramp := .off, rowGroups := 0 }

/-- Fault ramp-down of one bay, counted where the array was not off (Table 17.1 event 17). -/
def State.faultRamp (s : State) (b : Fin 80) : State :=
  let y := s.bay b
  let s := s.modBay b Bay.faultRamp
  let s := s.modStew fun t => { t with tokenWait := t.tokenWait.modify (tileOf b).val fun w => w.filter (· != b) }
  if y.ramp = .off then s else s.countBay b 17 1

/-- Send SILENT with a reason: four flits in a row, then the transmitters turn off (R314). -/
def Port.silence (p : Port) (reason : Nat) : Port :=
  { p with silentLeft := 4, silentReason := reason, closed := true }

def State.silenceActive (s : State) (reason : Nat) : State :=
  s.each allPorts fun s n => if (s.port n).state == .active then s.modPort n fun p => p.silence reason else s

/-- SOURCE of a fatal record: the PCIe endpoint's or the stacks' block, the block whose units are all fenced, and for a cause whose
unit no one block of Table 20.1 owns a free value (log entry 20). -/
def fatalSource (code : Nat) (fenced : Option Nat) (free : BitVec 64) : Nat :=
  if code = 0x1232 then 0x0D else if code = 0x1233 then 0x08
  else match fenced with
    | some b => b
    | none => free.toNat % 256

/-- A fatal cause (R455, R456): its record, FATAL_N low, every array ramped down, SILENT LEAVING on every ACTIVE port. -/
def State.fatal (s : State) (code inst : Nat) (fenced : Option Nat) : State :=
  let (v, s) := s.draw
  let s := s.error { cls := 3, source := fatalSource code fenced v, inst := inst, code := code }
  let s := (s.modErr fun l => { l with fatal := if l.fatal.contains code then l.fatal else l.fatal ++ [code] }).modPins
    fun p => { p with fatalN := false }
  let s := s.each allBays State.faultRamp
  s.silenceActive 1

/-! ## Granule retirement and pseudo-channel fences (R262, R453) -/

/-- A T1 address inside the locked regions: programs and weights (R85). -/
def State.inLocked (s : State) (a : Nat) : Bool := decide (t1Base ≤ a) && decide (a < s.tenantBase)
def State.inTenant (s : State) (a : Nat) : Bool := decide (s.tenantBase ≤ a) && decide (a < spareBase)

/-- Global pseudo-channel number 32s + c of a granule (address / 4,096). -/
def pcOfGranule (g : Nat) : Nat := 32 * stackOf (g * 4096) + pcOf (g * 4096)

def spareGranule : Nat := spareBase / 4096
def spareCount : Nat := 65536

/-- The grant that holds a granule. -/
def State.granted (s : State) (g : Nat) : Bool :=
  s.quota.grants.any fun x => decide (x.base ≤ g * 4096) && decide (g * 4096 < x.base + x.size)

/-- The granule that serves an address: its own, or the one it has been remapped to. -/
def State.servedBy (s : State) (g : Nat) : Nat := if keyGet s.mem.remap g = 0 then g else keyGet s.mem.remap g

/-- The granule that takes a remapped one's place: the next usable one of the spare allowance for a retired granule, else the lowest
unfenced and unused granule of the withdrawn blocks. -/
def State.remapTarget (s : State) (g : Nat) : Option Nat :=
  let usable (t : Nat) : Bool := !(s.mem.fencedPc.contains (pcOfGranule t)) && !(s.mem.retired.contains t)
  if s.mem.fencedPc.contains (pcOfGranule (s.servedBy g)) then
    (s.mem.withdrawn.flatMap fun r => (List.range ((r.hi + 1 - r.lo) / 4096)).map fun i => r.lo / 4096 + i).find? fun t =>
      usable t && !(s.mem.remap.any fun p => p.2 == t)
  else ((List.range (spareCount - s.mem.spareNext)).map fun i => spareGranule + s.mem.spareNext + i).find? usable

/-- Whether a granule's address holds contents that no release ends: fixed allocations and the system region. -/
def State.keptGranule (s : State) (g : Nat) : Bool :=
  !(s.inTenant (g * 4096)) || s.quota.fixed.any fun f => decide (f.base ≤ g * 4096) && decide (g * 4096 < f.base + f.size)

/-- Remap a granule: its address is served by another granule from then on. A poisoned line of contents that are kept stays poisoned (DESIGN
CHOICE, log entry 74). -/
def State.remapGranule (s : State) (g : Nat) : State :=
  match s.remapTarget g with
  | none => s
  | some t =>
    let kept := s.keptGranule g
    s.modMem fun m =>
      { m with remap := keySet m.remap g t, granCe := keySet m.granCe g 0,
               spareNext := if spareGranule ≤ t then t + 1 - spareGranule else m.spareNext,
               poison := if kept then m.poison else m.poison.filter (fun l => l / 4096 != g),
               ceLines := m.ceLines.filter fun l => l / 4096 != g }

/-- Addresses that are due a remap: the granule that serves them is retired, or lies in a fenced pseudo-channel. -/
def State.remapDue (s : State) (g : Nat) : Bool :=
  let p := s.servedBy g
  s.mem.retired.contains p || (s.mem.fencedPc.contains (pcOfGranule p) && s.inTenant (g * 4096))

/-- At the release of grants, the due granules they held are remapped (R262, R453). -/
def State.remapReleased (s : State) (base size : Nat) : State :=
  s.each ((List.range (size / 4096)).map fun i => base / 4096 + i) fun s g => if s.remapDue g then s.remapGranule g else s

/-- Withdraw `n` granules' worth of the highest-addressed free 64 KiB blocks, going down from `top`. -/
def State.withdraw (s : State) (busy : List (Nat × Nat)) : Nat → Nat → Nat → List GranRange
  | 0, _, _ => []
  | fuel + 1, top, need =>
    let lo := top - block64
    if need = 0 || top < s.tenantBase + block64 then []
    else if busy.any fun b => decide (b.1 < top) && decide (lo < b.2) then s.withdraw busy fuel lo need
    else
      let usable := (List.range 16).countP fun i => !(s.mem.fencedPc.contains (pcOfGranule (lo / 4096 + i)))
      { lo := lo, hi := top - 1 } :: s.withdraw busy fuel lo (need - usable)

/-- Fence the pseudo-channel of a granule (R453); the eighth of a stack fences the stack, which is fatal. -/
def State.fencePc (s : State) (g : Nat) : State :=
  let pc := pcOfGranule g
  if s.mem.fencedPc.contains pc then s else
  let s := s.modMem fun m => { m with fencedPc := insertNat m.fencedPc pc }
  let s := s.error { cls := 2, source := 0x08, inst := pc, code := 0x0A23, fence := true, addr := g * 4096 }
  let mine := ((List.range ((spareBase - s.tenantBase) / 4096)).map fun i => s.tenantBase / 4096 + i).filter fun k =>
    pcOfGranule k == pc
  let blocks := s.withdraw (s.busy 1) ((spareBase - s.tenantBase) / block64) spareBase mine.length
  let s := s.modMem fun m => { m with withdrawn := m.withdrawn ++ blocks }
  let s := s.each (mine.filter fun k => !(s.granted k)) State.remapGranule
  if (s.mem.fencedPc.countP fun p => p / 32 == pc / 32) = 8 then s.fatal 0x1233 (pc / 32) none else s

/-- Retire the granule that serves an address (address / 4,096), or fence its pseudo-channel where no spare is left or 256 are retired (R262,
R453). Addresses of the spare allowance name no contents of their own, and are not remapped. -/
def State.retireGranule (s : State) (g : Nat) : State :=
  let p := s.servedBy g
  if s.inLocked (g * 4096) || s.mem.retired.contains p || s.mem.fencedPc.contains (pcOfGranule p) then s
  else if spareCount ≤ s.mem.spareUsed then s.fencePc p
  else
    let k := stackOf (p * 4096)
    let s := s.modMem fun m =>
      { m with retired := insertNat m.retired p, spareUsed := m.spareUsed + 1, stackRetired := m.stackRetired.modify k (· + 1) }
    let s := (s.error { cls := 0, source := 0x08, inst := k, code := 0x0A22, addr := g * 4096 }).countHbm k 13 1
    let spare := decide (spareBase ≤ g * 4096) && decide (g * 4096 < spareBase + spareCount * 4096)
    let s := if s.granted g || spare then s else s.remapGranule g
    if 256 ≤ s.mem.retired.countP (fun r => pcOfGranule r == pcOfGranule p) then s.fencePc p else s

/-- A corrected error in a T1 line (R261, R262). -/
def State.hbmCorrected (s : State) (line : Nat) : State :=
  let k := stackOf line
  let g := line / 4096
  let s := (s.modMem fun m => { m with stackCe := m.stackCe.modify k satInc, granCe := keySet m.granCe g (keyGet m.granCe g + 1) })
  let s := (s.error { cls := 0, source := 0x08, inst := k, code := 0x0A20, addr := line }).countHbm k 4 1
  if keyGet s.mem.granCe g = 16 then s.retireGranule g else s

/-- The manifest object whose bytes hold an address of the weights region. -/
def State.objectAt (s : State) (a : Nat) : Option Nat :=
  s.cfg.manifest.findIdx? fun e =>
    decide (s.cfg.programsEnd + e.t1Offset ≤ a) && decide (a < s.cfg.programsEnd + e.t1Offset + e.bytes)

/-- An uncorrectable error poisons the line; outside the locked regions its granule is retired, and a poisoned weight object
is marked failed (R261, R262). -/
def State.hbmPoison (s : State) (line : Nat) : State :=
  let k := stackOf line
  let s := s.modMem fun m => { m with poison := insertNat m.poison line, ceLines := m.ceLines.erase line }
  let s := (s.error { cls := 0, source := 0x08, inst := k, code := 0x0A21, addr := line }).countHbm k 5 1
  if s.inLocked line then
    match s.objectAt line with
    | some i => s.modBoot fun b => { b with weights := b.weights.set i .failed }
    | none => s
  else s.retireGranule (line / 4096)

/-! ## Corrected errors in bay SRAM (R150, R443) -/

/-- Put a bay into the next plumb rotation slot of its tile; with no run in progress one is queued to start (R443, R452). -/
def State.plumbAdvance (s : State) (b : Fin 80) : State :=
  if s.bayFenced b then s else
  s.modPlumb fun p =>
    { p with tiles := p.tiles.modify (tileOf b).val fun t =>
               if t.advance.contains b then t else { t with advance := t.advance ++ [b] },
             queued := p.queued || !p.running }

/-- A corrected error in a bay's SRAM: its record, its count, and the watch of R443 over the last second. -/
def State.sramCorrected (s : State) (b : Fin 80) (addr : Nat) : State :=
  let s := (s.error { cls := 0, source := 0x20, inst := b.val, code := 0x0510, addr := addr }).countBay b 30 1
  let now := s.clk.devTime
  let recent := (s.mem.bayCe.filter fun e => e.1 == b.val && decide (now < e.2 + 1000000000)) ++ [(b.val, now)]
  let others := s.mem.bayCe.filter fun e => e.1 != b.val
  if 64 < recent.length then (s.modMem fun m => { m with bayCe := others }).plumbAdvance b
  else s.modMem fun m => { m with bayCe := others ++ recent }

/-- What a reader of device memory meets on its way: corrected errors are logged, and the traffic is counted. -/
def State.meet (s : State) (a n : Nat) : State :=
  let hit := s.mem.ceLines.filter fun l => decide (l < a + n) && decide (a < l + 64)
  let s := s.each hit fun s l =>
    if s.mem.isFresh (l / 4096) then s
    else if l < t1Base then s.sramCorrected (bayIx (l / 0x800000)) l
    else s.hbmCorrected l
  s.noteRead a n

end Sys2Proof.Machine
end

