-- ==== Sys2Proof/Machine/StreamOps.lean ====
section
/-! DEFINITION. The stream directory, residency, backing copies and the stream agent's entry writes (08, R197 to R210). -/
namespace Sys2Proof.Machine
open Sys2Proof

/-! ## Directory entries (Table 8.5) -/

/-- A fixed allocation of a tenant (R507). -/
def State.fixedOf (s : State) (t : Fin 16) (k : FixedKind) : Option Fixed :=
  s.quota.fixed.find? fun f => f.tenant == t && f.kind == k

/-- Address of stream `id`'s directory entry; none for a tenant without streams. -/
def State.streamEntry (s : State) (t : Fin 16) (id : Nat) : Option Nat :=
  (s.fixedOf t .streamDir).map fun f => f.base + 32 * id

def State.entryField (s : State) (t : Fin 16) (id off n : Nat) : Nat :=
  match s.streamEntry t id with
  | some a => s.memLE (a + off) n
  | none => 0

def State.streamVersion (s : State) (t : Fin 16) (id : Nat) : Nat := s.entryField t id 0x00 4
def State.streamResident (s : State) (t : Fin 16) (id : Nat) : Nat := s.entryField t id 0x04 4
def State.streamBacking (s : State) (t : Fin 16) (id : Nat) : Nat := s.entryField t id 0x08 8
def State.streamTouch (s : State) (t : Fin 16) (id : Nat) : Nat := s.entryField t id 0x10 4
def State.streamRes (s : State) (t : Fin 16) (id : Nat) : Bool := bitOf (s.streamResident t id) 18
def State.streamSlot (s : State) (t : Fin 16) (id : Nat) : Nat × Nat :=
  (bits (s.streamResident t id) 11 7, bits (s.streamResident t id) 0 11)
def State.streamCls (s : State) (t : Fin 16) (id : Nat) : Nat := bits (s.streamResident t id) 19 3

/-- Write a field of an entry. -/
def State.setEntry (s : State) (t : Fin 16) (id off n v : Nat) : State :=
  match s.streamEntry t id with
  | some a => s.memWrite (a + off) (bytesLE n v)
  | none => s

/-- RESIDENT word of Table 8.5. -/
def residentWord (slot bay : Nat) (res : Bool) (cls : Nat) : Nat :=
  slot % 2048 + 2048 * (bay % 128) + 262144 * b2n res + 524288 * (cls % 8)

/-- Age of a stream: (epoch count − TOUCH) mod 2^32 (R206). -/
def State.streamAge (s : State) (t : Fin 16) (id : Nat) : Nat :=
  (s.str.epochCount + two32 - s.streamTouch t id % two32) % two32

/-! ## Leases (R32, R200) -/

/-- The admitted request that holds the lease of a stream: on this node, its home. -/
def State.leaseHolder (s : State) (t : Fin 16) (id : Nat) : Option Req :=
  s.req.table.find? fun r => r.leaseHeld && r.f == t && r.d.isStream && r.d.streamId == id

def State.leaseFree (s : State) (t : Fin 16) (id : Nat) : Bool := (s.leaseHolder t id).isNone

/-- An all-ones LEASE means free. -/
def leaseFreeWord : Nat := 2 ^ 64 - 1

def State.freeLease (s : State) (t : Fin 16) (id : Nat) : State := s.setEntry t id 0x18 8 leaseFreeWord

/-! ## Residency (R201, R206, R207, R210) -/

/-- Clear RES in an entry, in one 8-byte write that keeps VERSION, and free its slot. -/
def State.clearRes (s : State) (t : Fin 16) (id : Nat) : State :=
  let v := s.streamVersion t id
  let r := s.streamResident t id
  let s := s.setEntry t id 0x00 8 (v + two32 * (r - if bitOf r 18 then 262144 else 0))
  s.modStr fun x =>
    { x with resident := x.resident.filter (· != (t, id)), away := x.away.filter (· != (t, id)), slots := x.slots.filter fun g => g.owner != .resident t id }

/-- A resident stream swapped out: RES cleared, no state written (R206). -/
def State.swapOut (s : State) (t : Fin 16) (id : Nat) : State := (s.clearRes t id).countDev 14 1

/-- Resident streams of a class with a free lease, oldest first, ties to the lowest (bay, slot). -/
def State.swapVictim (s : State) (cls : Nat) : Option (Fin 16 × Nat) :=
  let cands := s.str.slots.filterMap fun g =>
    match g.owner with
    | .resident t id => if g.cls == cls && s.leaseFree t id then some (t, id, g.bay.val * 4096 + g.slot) else none
    | .reserved _ _ => none
  cands.foldl (fun best c => match best with
    | none => some (c.1, c.2.1)
    | some b =>
      let ab := s.streamAge b.1 b.2
      let ac := s.streamAge c.1 c.2.1
      let place := fun (p : Fin 16 × Nat) =>
        let q := s.streamSlot p.1 p.2
        q.1 * 4096 + q.2
      if ab < ac || (ab == ac && decide (c.2.2 < place b)) then some (c.1, c.2.1) else some b) none

/-- The slots that a request owns, in order (R204). -/
def State.ownSlots (s : State) (home asn : Nat) : List GalSlot :=
  s.str.slots.filter fun g => g.owner == .reserved asn home

/-- The idle sweep of an epoch boundary (R207). -/
def State.idleSweep (s : State) : State :=
  s.each s.str.resident fun s e =>
    let c := s.streamClass (s.streamCls e.1 e.2)
    if c.idleMs ≠ 0 && s.leaseFree e.1 e.2 && decide (c.idleMs ≤ s.streamAge e.1 e.2) then
      (s.swapOut e.1 e.2).countDev 15 1
    else s

/-- Clear RES of every stream, as a warm reset and P3 entry do (R210). -/
def State.dropResidents (s : State) : State := s.each (s.str.resident ++ s.str.away) fun s e => s.clearRes e.1 e.2

/-- The slots that a request owns return to the free pool, and its lease is free (R205). A stream whose state lay on another node is
swapped out: its slots there go with the request's token (log entry 72). -/
def State.endLease (s : State) (t : Fin 16) (id asn : Nat) : State :=
  let s := s.modStr fun x => { x with slots := x.slots.filter fun g => g.owner != .reserved asn s.net.nodeId }
  let s := if s.str.away.contains (t, id) then s.swapOut t id else s
  s.freeLease t id

/-! ## Backing pairs (R204) -/

def State.poolOf (s : State) (t : Fin 16) : Option Fixed := s.fixedOf t .streamPool

/-- Take a backing pair of twice the slot size from a tenant's pool: one returned uncommitted, else the next unused bytes. -/
def State.takeBacking (s : State) (t : Fin 16) (slotSize : Nat) : Option (Nat × State) :=
  match s.str.poolFree.find? fun p => p.1 == t && p.2.2 == slotSize with
  | some p => some (p.2.1, s.modStr fun x => { x with poolFree := x.poolFree.erase p })
  | none =>
    match s.poolOf t with
    | none => none
    | some f =>
      let used := ((s.str.poolNext.find? fun p => p.1 == t).map (·.2)).getD 0
      if used + 2 * slotSize ≤ f.size then
        some (f.base + used, s.modStr fun x =>
          { x with poolNext := x.poolNext.filter (fun p => p.1 != t) ++ [(t, used + 2 * slotSize)] })
      else none

def State.giveBacking (s : State) (t : Fin 16) (addr slotSize : Nat) : State :=
  s.modStr fun x => { x with poolFree := x.poolFree ++ [(t, addr, slotSize)] }

end Sys2Proof.Machine
end

