-- ==== Sys2Proof/Machine/CodecOps.lean ====
section
/-! DEFINITION. Tag-aware reads and writes of codec units in T1 and T2 (11, R268 to R273, R278 to R286). -/
namespace Sys2Proof.Machine
open Sys2Proof

def unitBytes : Nat := 16384

/-- The tag of a unit, by its number address / 16,384: 0x0000 where nothing else was written. -/
def Mem.tagOf (m : Mem) (u : Nat) : BitVec 16 := ((m.tags.find? fun t => t.1 == u).map (·.2)).getD 0
def Mem.setTag (m : Mem) (u : Nat) (v : BitVec 16) : Mem :=
  { m with tags := (m.tags.takeWhile fun t => decide (t.1 < u)) ++ (if v = 0 then [] else [(u, v)])
                     ++ (m.tags.filter fun t => decide (u < t.1)) }

def tagCoded (v : BitVec 16) : Bool := v.getLsbD 15
def tagWide (v : BitVec 16) : Bool := v.getLsbD 14
def tagLines (v : BitVec 16) : Nat := v.toNat % 256

/-- How a tag-aware read ends. -/
inductive TagRead where
  | ok (bytes : List Byte)
  | poison
  | absent
  /-- R285 -/
  | width
deriving DecidableEq, Repr

/-- T1 and T2 have tags, T0 has none (R268). -/
def tagged (a : Nat) : Bool := decide (t1Base ≤ a)

/-- Where the tag of a unit lies (R269). -/
def State.tagAddr (s : State) (u : Nat) : Nat :=
  if u < t2Base / unitBytes then 0x0057F4000000 + 2 * (u - t1Base / unitBytes) else s.t2SystemBase + 2 * (u - t2Base / unitBytes)

/-- Whether the tag of a unit can be read (R284). -/
def State.tagEnd (s : State) (u : Nat) : ReadEnd := s.readEnd (s.tagAddr u) 2

/-- A unit's bytes from what is stored under its tag. -/
def expandStored (wide : Bool) (tag : BitVec 16) (stored : List Byte) : List Byte :=
  if tagCoded tag then expandUnit wide stored else stored

/-- Read bytes inside one unit through its tag: a coded unit expands, and its width must be the reader's (R270, R279, R285). -/
def State.readInUnit (s : State) (wide : Bool) (a n : Nat) : TagRead :=
  let u := a / unitBytes
  let v := s.mem.tagOf u
  if tagged a && s.tagEnd u != .ok then (if s.tagEnd u == .absent then .absent else .poison)
  else if tagged a && tagCoded v then
    if tagWide v != wide then .width else
    match s.readEnd (u * unitBytes) (64 * tagLines v) with
    | .poison => .poison
    | .absent => .absent
    | .ok => .ok (slice (expandUnit wide (s.mem.read (u * unitBytes) (64 * tagLines v))) (a % unitBytes) n)
  else
    match s.readEnd a n with
    | .poison => .poison
    | .absent => .absent
    | .ok => .ok (s.mem.read a n)

/-- Pieces of a range that lie in one unit each. -/
def unitPieces (a n : Nat) : List (Nat × Nat) :=
  if n = 0 then [] else
  (List.range ((a + n - 1) / unitBytes - a / unitBytes + 1)).map fun i =>
    let lo := max a ((a / unitBytes + i) * unitBytes)
    let hi := min (a + n) ((a / unitBytes + i + 1) * unitBytes)
    (lo, hi - lo)

/-- Read a range through the tags of its units. -/
def State.readTagged (s : State) (wide : Bool) (a n : Nat) : TagRead :=
  (unitPieces a n).foldl (fun acc p => match acc with
    | .ok bs => match s.readInUnit wide p.1 p.2 with
      | .ok cs => .ok (bs ++ cs)
      | e => e
    | e => e) (.ok [])

/-- The units of a range whose tag is coded: those an expander serves. -/
def State.codedUnits (s : State) (a n : Nat) : Nat :=
  (unitPieces a n).countP fun p => tagged p.1 && tagCoded (s.mem.tagOf (p.1 / unitBytes))

/-- The traffic of a tag-aware read: a coded unit brings its LINES lines (R281). -/
def State.meetTagged (s : State) (a n : Nat) : State :=
  s.each (unitPieces a n) fun s p =>
    let v := s.mem.tagOf (p.1 / unitBytes)
    if tagged p.1 && tagCoded v then s.meet (p.1 / unitBytes * unitBytes) (64 * tagLines v) else s.meet p.1 p.2

/-- Coded lines are written, and then the tag (R271). -/
def State.writeCoded (s : State) (a : Nat) (tag : BitVec 16) (lines : List Byte) : State :=
  (s.memWrite a lines).modMem fun m =>
    { m.setTag (a / unitBytes) tag with unitsCoded := m.unitsCoded + 1, linesSaved := m.linesSaved + (256 - tagLines tag) }

/-- Write one whole unit: coded when asked and the raw rule does not apply, else raw with tag 0x0000 (R271, R278, R280). -/
def State.writeUnit (s : State) (code wide : Bool) (a : Nat) (bytes : List Byte) : State :=
  match if code then codeUnit wide bytes else none with
  | some lines => s.writeCoded a (codedTag wide lines) lines
  | none =>
    (s.memWrite a bytes).modMem fun m =>
      { m.setTag (a / unitBytes) 0 with unitsRaw := m.unitsRaw + b2n code }

/-- Write a range by a tag-aware path: whole aligned units may be coded, anything else is raw and clears the tags it meets. -/
def State.writeTagged (s : State) (code wide : Bool) (a : Nat) (bytes : List Byte) : State :=
  s.each (unitPieces a bytes.length) fun s p =>
    let part := slice bytes (p.1 - a) p.2
    if !(tagged p.1) then s.memWrite p.1 part
    else if p.2 = unitBytes then s.writeUnit code wide p.1 part
    else (s.memWrite p.1 part).modMem fun m => m.setTag (p.1 / unitBytes) 0

/-- The tags that a WRITE from another node's tag-aware path asks for, in ARG[63:48]: none; 1 raw, 2 raw under R280; else the coded tag of the
unit whose last lines it brings (log entry 57). -/
def State.markTags (s : State) (a n mark : Nat) : State :=
  if mark = 0 || !(tagged a) then s
  else if mark < 0x8000 then
    (s.each (unitPieces a n) fun s p => s.modMem fun m => m.setTag (p.1 / unitBytes) 0).modMem fun m =>
      { m with unitsRaw := m.unitsRaw + b2n (mark == 2) }
  else
    let tag := BitVec.ofNat 16 mark
    s.modMem fun m =>
      { m.setTag (a / unitBytes) tag with unitsCoded := m.unitsCoded + 1, linesSaved := m.linesSaved + (256 - tagLines tag) }

end Sys2Proof.Machine
end

