-- ==== Sys2Proof/Machine/KvOps.lean ====
section
/-! DEFINITION. The KV page manager: sequence records, landing slots, flushes, parks, commits, the tenant pools and resident
tails (09, R213 to R235). -/
namespace Sys2Proof.Machine
open Sys2Proof

/-! ## Requests as a stage node knows them -/

/-- The descriptor of a request that runs here: of this node's own table, or of a token granted to another home node. -/
def State.descOf (s : State) (home asn : Nat) : Desc :=
  if home = s.net.nodeId then ((s.req.table.find? fun r => r.asn == asn).map Req.d).getD []
  else ((s.quota.tokens.find? fun k => k.home == home && k.asn == asn).map fun k => k.desc).getD []

def State.stageCfg (s : State) (program stage : Nat) : Option StageCfg :=
  match s.program program with
  | some p => p.stages[stage]?
  | none => none

/-- Bytes of a page, and of a tail block (R214, R225). -/
def StageCfg.pageBytes (g : StageCfg) : Nat := 32 * g.d

/-! ## Landing slots (R219, R230) -/

/-- Address of landing slot j of a bay (R237). -/
def State.landingAddr (s : State) (b : Fin 80) (j : Nat) : Nat := bayBase b + s.w0 + s.carving + 32768 * j

def State.landing (s : State) (b : Fin 80) (j : Nat) : Landing := (s.bay b).landing.getD j .free
def State.setLanding (s : State) (b : Fin 80) (j : Nat) (l : Landing) : State :=
  s.modBay b fun y => { y with landing := y.landing.set j l }

def State.freeLanding (s : State) (b : Fin 80) : Option Nat := (s.bay b).landing.findIdx? (· == .free)

/-- The lowest run of n consecutive free landing slots of a bay. -/
def State.freeRun (s : State) (b : Fin 80) (n : Nat) : Option Nat :=
  (List.range (s.bay b).landing.length).find? fun i =>
    (List.range n).all fun k => (s.bay b).landing.getD (i + k) (.bound 0 0 0 0) == .free

def Landing.fill : Landing → Nat
  | .bound _ _ _ f => f
  | .resident _ _ _ _ _ f => f
  | .free => 0

/-! ## Records (R215) -/

def State.kvRecId (s : State) (i : Nat) : Option KvRec := s.kv.records.find? fun r => r.id == i
def State.kvRecOf (s : State) (home asn stage : Nat) (future : Option (Nat × Nat)) : Option KvRec :=
  s.kv.records.find? fun r => r.home == home && r.asn == asn && r.stage == stage && r.future == future
def State.modKvRec (s : State) (i : Nat) (f : KvRec → KvRec) : State :=
  s.modKv fun k => { k with records := k.records.map fun r => if r.id = i then f r else r }

/-- Branch points passed at a step. -/
def Desc.level (d : Desc) (step : Nat) : Nat := d.branches.countP fun b => decide (b.1 ≤ step)

/-- The record key of a wave row (R216). -/
def rowKey (d : Desc) (wu : WuKey) (row : Nat) : Option (Nat × Nat) :=
  match wu.step with
  | .context => none
  | .step n => some (d.level n, 32 * wu.wave + row)

/-- The key of a record's parent. -/
def parentKey (d : Desc) : Nat × Nat → Option (Nat × Nat)
  | (0, _) => none
  | (l + 1, f) => some (l, f / ((d.branches.getD l (0, 1)).2))

/-! ## Space: the KV grant of a request and the pool of a tenant (R225, R226) -/

def State.kvGrant (s : State) (home asn stage : Nat) : Option Grant :=
  s.quota.grants.find? fun g => g.home == home && g.asn == asn && g.kind == .kvSpace stage

/-- A block of the grant: a returned one, else the next unused bytes. -/
def State.grantBlock (s : State) (g : Grant) (bytes : Nat) : Nat × State :=
  match s.kv.grantFree.find? fun p => p.1 == g.base with
  | some p => (p.2, s.modKv fun k => { k with grantFree := k.grantFree.erase p })
  | none =>
    let n := keyGet s.kv.grantNext g.base
    (g.base + n, s.modKv fun k => { k with grantNext := keySet k.grantNext g.base (n + bytes) })

def State.kvPool (s : State) (t : Fin 16) (program stage : Nat) : Option Fixed := s.fixedOf t (.kvPool program stage)
def State.kvDirEntry (s : State) (t : Fin 16) (program stage stream : Nat) : Option Nat :=
  (s.fixedOf t (.kvDir program stage)).map fun f => f.base + 64 * stream

/-- The first of n consecutive free blocks of a pool: returned ones first, then those never used. -/
def State.poolRun (s : State) (f : Fixed) (blk n : Nat) : Option Nat :=
  let next := keyGet s.kv.poolNext f.base
  let back := (s.kv.poolFree.filter fun p => p.1 == f.base).map (·.2)
  let free (i : Nat) : Bool := back.contains i || decide (next ≤ i)
  (back ++ [next]).find? fun i => (List.range n).all (fun k => free (i + k)) && decide ((i + n) * blk ≤ f.size)

/-- Take n consecutive blocks of a pool. -/
def State.poolBlocks (s : State) (f : Fixed) (blk n : Nat) : Option (Nat × State) :=
  (s.poolRun f blk n).map fun i =>
    (i, s.modKv fun k =>
      { k with poolFree := k.poolFree.filter (fun p => !(p.1 == f.base && decide (i ≤ p.2) && decide (p.2 < i + n))),
               poolNext := keySet k.poolNext f.base (max (keyGet k.poolNext f.base) (i + n)) })

def State.returnBlocks (s : State) (f : Fixed) (idx : List Nat) : State :=
  s.modKv fun k => { k with poolFree := k.poolFree ++ idx.map fun i => (f.base, i) }

/-! ## Directory halves (R227, Table 9.6) -/

structure KvHalf where
  version : Nat
  length : Nat
  ptAddr : Nat
  tail : Nat
  lost : Nat
deriving DecidableEq, Repr

def KvHalf.empty : KvHalf := { version := 0, length := 0, ptAddr := 0, tail := 0, lost := 0 }

def State.readHalf (s : State) (a : Nat) : KvHalf :=
  { version := s.memLE a 4, length := s.memLE (a + 4) 4, ptAddr := s.memLE (a + 8) 8, tail := s.memLE (a + 16) 8,
    lost := s.memLE (a + 24) 2 }

def KvHalf.bytes (h : KvHalf) : List Byte :=
  bytesLE 4 h.version ++ bytesLE 4 h.length ++ bytesLE 8 h.ptAddr ++ bytesLE 8 h.tail ++ bytesLE 2 h.lost ++ List.replicate 6 0

/-- TAIL word: kind 0 none, 1 resident in (bay, first), 2 parked at a pool block. -/
def tailWord (kind bay first block : Nat) : Nat := kind % 4 + 4 * (bay % 128) + 512 * (first % 64) + two32 * (block % two32)

/-- The stream version that decides the valid half: the stream entry's on the home node; on another node, which does not hold the entry, the
one that the home has told it with the request's token (DESIGN CHOICE, log entry 21). -/
def State.kvVersion (s : State) (home asn : Nat) (t : Fin 16) (stream : Nat) : Nat :=
  if home = s.net.nodeId then s.streamVersion t stream
  else ((s.quota.tokens.find? fun k => k.home == home && k.asn == asn).map (·.version)).getD 0

/-- Address and content of the valid half of a request's stream; the empty sequence where none is valid (R227). -/
def State.validHalf (s : State) (home asn : Nat) (t : Fin 16) (program stage stream : Nat) : Option (Nat × KvHalf) :=
  match s.kvDirEntry t program stage stream with
  | none => none
  | some e =>
    let v := s.kvVersion home asn t stream
    let a := e + 32 * (v % 2)
    let h := s.readHalf a
    if v ≠ 0 && h.version = v then some (a, h) else none

/-! ## Creating records (R215, R223, R228) -/

/-- The context record of a stream on a PERSIST stage starts from the valid half: pages, length and tail (R228). -/
def State.persistStart (s : State) (home asn : Nat) (t : Fin 16) (program stage stream : Nat) (g : StageCfg) :
    List (List Nat) × Nat × List (Option (Nat × Nat)) :=
  match s.validHalf home asn t program stage stream, s.kvPool t program stage with
  | some (_, h), some f =>
    let n := h.length / 16
    let fill := h.length % 16
    let pages := (List.range g.layersKv).map fun l =>
      (List.range n).map fun i => f.base + g.pageBytes * s.memLE (h.ptAddr + 8192 * l + 4 * i) 4
    let tail := (List.range g.layersKv).map fun l =>
      if fill = 0 then none
      else if h.tail % 4 = 1 then some (s.landingAddr (bayIx (bits h.tail 2 7)) (bits h.tail 9 6 + l), fill)
      else if h.tail % 4 = 2 then some (f.base + g.pageBytes * (bits h.tail 32 32 + l), fill)
      else none
    (pages, h.length, tail)
  | _, _ => (List.replicate g.layersKv [], 0, List.replicate g.layersKv none)

/-- Take two tail blocks for each layer of a new record. -/
def State.tailBlocks (s : State) (gr : Option Grant) (g : StageCfg) : List (Nat × Nat) × State :=
  match gr with
  | none => (List.replicate g.layersKv (0, 0), s)
  | some gr =>
    (List.range g.layersKv).foldl (fun acc _ =>
      let (a, s1) := acc.2.grantBlock gr g.pageBytes
      let (b, s2) := s1.grantBlock gr g.pageBytes
      (acc.1 ++ [(a, b)], s2)) (([] : List (Nat × Nat)), s)

/-- Make sure a record exists, with those it descends from (R215). -/
def State.ensureRec (home asn stage program : Nat) (t : Fin 16) (d : Desc) (g : StageCfg) :
    Nat → Option (Nat × Nat) → State → State
  | 0, _, s => s
  | fuel + 1, key, s =>
    match s.kvRecOf home asn stage key with
    | some _ => s
    | none =>
      let s := match key with
        | none => s
        | some k => State.ensureRec home asn stage program t d g fuel (parentKey d k) s
      let par := match key with
        | none => none
        | some k => s.kvRecOf home asn stage (parentKey d k)
      let persist := key.isNone && g.persist && d.isStream
      let start := if persist then s.persistStart home asn t program stage d.streamId g
        else (List.replicate g.layersKv [], ((par.map (·.length)).getD 0), List.replicate g.layersKv none)
      let (blocks, s) := s.tailBlocks (s.kvGrant home asn stage) g
      let r : KvRec :=
        { id := s.kv.nextRec, asn := asn, home := home, stage := stage, future := key, parent := par.map (·.id),
          inherit := ((par.map (·.length)).getD 0) / 16, length := start.2.1, pages := start.1, blocks := blocks,
          tail := start.2.2, everBound := List.replicate g.layersKv persist, live := true,
          stream := if persist then some (t, d.streamId, program, start.2.1) else none, held := none, poolBlock := none }
      s.modKv fun k => { k with records := k.records ++ [r], nextRec := k.nextRec + 1 }

/-! ## Pages through the chain (R215) -/

/-- Address of page i of a layer: in the parent below INHERIT, else own entry i − INHERIT. -/
def State.pageAddr (s : State) : Nat → Nat → Nat → Nat → Option Nat
  | 0, _, _, _ => none
  | fuel + 1, rid, layer, i =>
    match s.kvRecId rid with
    | none => none
    | some r =>
      if i < r.inherit then
        match r.parent with
        | some p => s.pageAddr fuel p layer i
        | none => none
      else (r.pages.getD layer [])[i - r.inherit]?

/-! ## Parking a stream's resident tail (R231) -/

/-- The directory half that names a resident tail. -/
def State.tailHalf (s : State) (x : ResTail) : Option Nat :=
  (s.kvDirEntry x.tenant x.program x.stage x.stream).map fun e => e + 32 * (x.version % 2)

/-- Rewrite TAIL of the half and free the slots: the tails go to consecutive blocks of the tenant's pool (R231). -/
def State.parkResident (s : State) (x : ResTail) : State :=
  match s.stageCfg x.program x.stage, s.tailHalf x, s.kvPool x.tenant x.program x.stage with
  | some g, some a, some f =>
    match s.poolBlocks f g.pageBytes g.layersKv with
    | none => s
    | some (blk, s) =>
      let s := s.each (List.range g.layersKv) fun s l =>
        let data := s.mem.read (s.landingAddr x.bay (x.first + l)) g.pageBytes
        (s.writeTagged false false (f.base + g.pageBytes * (blk + l)) data).setLanding x.bay (x.first + l) .free
      let s := s.memWrite (a + 16) (bytesLE 8 (tailWord 2 0 0 blk))
      (s.modKv fun k => { k with residents := k.residents.erase x }).countDev 16 1
  | _, _, _ => s

/-- Whether no request holds the lease of a resident tail's stream: for a stream of another home, no request of it has a token here (log entry
21). -/
def State.tailFree (s : State) (x : ResTail) : Bool :=
  match x.home with
  | none => s.leaseFree x.tenant x.stream
  | some h => !(s.quota.tokens.any fun k => k.home == h && k.tenant == x.tenant && Desc.isStream k.desc && Desc.streamId k.desc == x.stream)

/-- The age of a tail under R206; of a stream of another home, since it became resident (log entry 21). -/
def State.tailAge (s : State) (x : ResTail) : Nat :=
  match x.home with
  | none => s.streamAge x.tenant x.stream
  | some _ => (s.str.epochCount + two32 - x.since % two32) % two32

/-- Whether the pool has room for a tail. -/
def State.tailRoom (s : State) (x : ResTail) : Bool :=
  match s.stageCfg x.program x.stage, s.kvPool x.tenant x.program x.stage with
  | some g, some f => (s.poolRun f g.pageBytes g.layersKv).isSome
  | _, _ => false

/-- Whether a hub mover has a tail to park, in any bay or in one. -/
def State.parking (s : State) : Bool := s.hub.jobs.any fun j => j.kind.tail.isSome
def State.parkingIn (s : State) (b : Fin 80) : Bool := s.hub.jobs.any fun j => (j.kind.tail.map (·.bay)) == some b

/-- Give a tail to a hub mover to park (R249). -/
def State.askPark (s : State) (x : ResTail) : State :=
  if s.hub.jobs.any fun j => j.kind.tail == some x then s else s.addJob (.park x)

/-- The mover has moved the tail: it is parked if it is still resident and its lease free. -/
def State.parkTail (s : State) (x : ResTail) : State :=
  if s.kv.residents.contains x && s.tailFree x then s.parkResident x else s

/-- The resident tail of a bay to park for room: a free lease, the greatest age, the lowest first slot. -/
def State.parkVictim (s : State) (b : Fin 80) : Option ResTail :=
  let cands := s.kv.residents.filter fun x => x.bay == b && s.tailFree x && s.tailRoom x
  cands.foldl (fun best x => match best with
    | none => some x
    | some y =>
      let ax := s.tailAge x
      let ay := s.tailAge y
      if ay < ax || (ax == ay && decide (x.first < y.first)) then some x else some y) none

/-- Room for a binding is being made in a bay, or a victim is given to a mover; none where nothing can be parked. -/
def State.makeRoom (s : State) (b : Fin 80) : Option State :=
  if s.parkingIn b then some s else (s.parkVictim b).map s.askPark

/-! ## Binding (R219, R230) -/

/-- The tail a slot is loaded with: the record's committed tail, else for a record never bound the parent's (R219). -/
def State.tailFor (s : State) (r : KvRec) (layer : Nat) : Option (Nat × Nat) :=
  match r.tail.getD layer none with
  | some t => some t
  | none =>
    if r.everBound.getD layer false then none else
    match r.parent with
    | some p => match s.kvRecId p with
      | some q => q.tail.getD layer none
      | none => none
    | none => none

/-- Bind one slot to (record, row, layer) and load its tail. -/
def State.bindAt (s : State) (b : Fin 80) (task : Task) (r : KvRec) (row layer j : Nat) (named : Bool) (g : StageCfg) : State :=
  let tl := s.tailFor r layer
  let s := match tl with
    | some (a, _) => s.memWrite (s.landingAddr b j) (s.mem.read a g.pageBytes)
    | none => s
  let s := s.setLanding b j (.bound r.id row layer ((tl.map (·.2)).getD 0))
  let s := s.modKvRec r.id fun r => { r with everBound := r.everBound.set layer true }
  s.modKv fun k => { k with work := k.work ++
    [{ wu := task.wu, home := task.home, record := r.id, row := row, layer := layer, bay := b, slot := j, named := named,
       before := r.everBound.getD layer false, appended := 0, newPages := [], parked := none }] }

def State.workOf (s : State) (task : Task) (row layer : Nat) : Option KvWork :=
  s.kv.work.find? fun w => w.home == task.home && w.wu == task.wu && w.row == row && w.layer == layer

def State.modWork (s : State) (w : KvWork) (f : KvWork → KvWork) : State :=
  s.modKv fun k => { k with work := k.work.map fun x =>
    if x.home == w.home && x.wu == w.wu && x.row == w.row && x.layer == w.layer then f x else x }

/-- How a binding ends: bound; the DETAIL of check 6 or 7 of Table 9.3; or the descriptor waits at the head of its queue for a tail that is
being parked. -/
inductive Bound where
  | ok (s : State)
  | fails (detail : Nat)
  | waits (s : State)
deriving DecidableEq, Repr

/-- Bind the lowest free slot, after the parking of resident tails (R219). -/
def State.bindOne (s : State) (b : Fin 80) (task : Task) (r : KvRec) (row layer : Nat) (g : StageCfg) : Bound :=
  match s.freeLanding b with
  | some j => .ok (s.bindAt b task r row layer j true g)
  | none =>
    match s.makeRoom b with
    | some s => .waits s
    | none => .fails 0x0907

/-- Bind the run of a PERSIST context: every layer in its slot (R230). -/
def State.bindRun (s : State) (b : Fin 80) (task : Task) (r : KvRec) (layer first : Nat) (g : StageCfg) : State :=
  let s := s.each (List.range g.layersKv) fun s l => s.bindAt b task r 0 l (first + l) (l == layer) g
  s.modKvRec r.id fun r => { r with held := some (b, first) }

/-- A layer of a run that no descriptor of the run's bay has named is named in another bay: the work unit binds under R219 from then on, and
holds no tail resident (R230). -/
def State.breakRun (s : State) (w : KvWork) : State :=
  let s := s.setLanding w.bay w.slot .free
  let s := s.modKvRec w.record fun r => { r with held := none }
  s.modKv fun k =>
    { k with work := (k.work.erase w).map fun x => if x.record = w.record then { x with parked := none } else x }

/-- Bind (ROW, LAYER) in a bay: the slot it already holds, a run for a PERSIST context, or the lowest free slot. -/
def State.bind (s : State) (b : Fin 80) (task : Task) (r : KvRec) (row layer : Nat) (g : StageCfg) : Bound :=
  let mine := s.kv.work.filter fun w => w.bay == b && w.home == task.home && w.wu == task.wu && w.named
  let full := decide (g.slotsPerTask ≤ mine.length)
  match s.workOf task row layer with
  | some w =>
    if w.named then (if w.bay == b then .ok s else .fails 0x0906)
    else if full then .fails 0x0906
    else if w.bay == b then .ok (s.modWork w fun w => { w with named := true })
    else (s.breakRun w).bindOne b task r row layer g
  | none =>
    if full then .fails 0x0906 else
    let wantRun := r.stream.isSome && task.wu.step == .context && decide (g.layersKv ≤ g.slotsPerTask)
      && decide (g.layersKv ≤ (s.bay b).landing.length)
      && !(s.kv.work.any fun w => w.home == task.home && w.wu == task.wu)
    if !wantRun then s.bindOne b task r row layer g else
    match s.freeRun b g.layersKv, s.makeRoom b with
    | some first, _ => .ok (s.bindRun b task r layer first g)
    | none, some s => .waits s
    | none, none => s.bindOne b task r row layer g

/-! ## Appending and flushing (R217, R220) -/

/-- A page for a flush: from the tenant's pool for a PERSIST context, else from the request's grant. -/
def State.newPage (s : State) (r : KvRec) (g : StageCfg) : Option (Nat × State) :=
  match r.stream with
  | some (t, _, program, _) =>
    match s.kvPool t program r.stage with
    | none => none
    | some f => (s.poolBlocks f g.pageBytes 1).map fun p => (f.base + g.pageBytes * p.1, p.2)
  | none => (s.kvGrant r.home r.asn r.stage).map fun gr => s.grantBlock gr g.pageBytes

/-- Whether the pages of a program's stage are coded (R272). -/
def State.kvCoded (s : State) (program : Nat) (g : StageCfg) : Bool :=
  bitOf (((s.program program).map (·.codec)).getD 0) 1 && g.d % 512 == 0

/-- Flush a full slot to T1 as the next pending page (R220). -/
def State.flush (s : State) (b : Fin 80) (task : Task) (w : KvWork) (r : KvRec) (g : StageCfg) : State :=
  match s.newPage r g with
  | none => s
  | some (a, s) =>
    let data := s.mem.read (s.landingAddr b w.slot) g.pageBytes
    let code := s.kvCoded task.program g
    let s := s.writeTagged code (g.kvFmt == 4 || g.kvFmt == 5) a data
    let s := s.modWork w fun x => { x with newPages := x.newPages ++ [a] }
    let s := s.modKv fun k => { k with pagesUsed := k.pagesUsed + 1 }
    ((s.setLanding b w.slot (.bound r.id w.row w.layer 0)).countBay b 23 1).countBay b 28 (if code then g.pageBytes / unitBytes else 0)

/-- Append one position to a bound slot. -/
def State.appendOne (s : State) (b : Fin 80) (task : Task) (w : KvWork) (r : KvRec) (g : StageCfg) (kRow vRow : List Byte) :
    State :=
  let fill := (s.landing b w.slot).fill
  let base := s.landingAddr b w.slot
  let s := (s.memWrite (base + fill * g.d) kRow).memWrite (base + 16 * g.d + fill * g.d) vRow
  let s := s.setLanding b w.slot (.bound r.id w.row w.layer (fill + 1))
  let s := s.modWork w fun x => { x with appended := x.appended + 1 }
  if fill + 1 = 16 then s.flush b task w r g else s

/-- Where position p of a (record, layer) lies: a pending or committed page, or the bound slot; as (page address, row, in slot). -/
def State.positionAt (s : State) (w : KvWork) (r : KvRec) (p : Nat) : Option (Nat × Nat × Bool) :=
  let own := (r.pages.getD w.layer []).length
  let i := p / 16
  if i < r.inherit + own then (s.pageAddr 8 r.id w.layer i).map fun a => (a, p % 16, false)
  else
    match w.newPages[i - r.inherit - own]? with
    | some a => some (a, p % 16, false)
    | none => some (s.landingAddr w.bay w.slot, p % 16, true)

/-! ## Park and commit (R221, R228 to R230) -/

/-- Park the bound slots of a bay task whose threads have all exited: fill and rows go to the tail block that does not hold the
committed tail, or for a PERSIST context bound under R219 to consecutive pool blocks; held tails stay. -/
def State.parkBay (s : State) (b : Fin 80) (task : Task) : State :=
  let mine := s.kv.work.filter fun w => w.bay == b && w.home == task.home && w.wu == task.wu && w.parked.isNone
  s.each mine fun s w =>
    match s.kvRecId w.record, s.stageCfg task.program task.wu.stage with
    | some r, some g =>
      let fill := (s.landing b w.slot).fill
      let base := s.landingAddr b w.slot
      if fill = 0 then s
      else if r.stream.isSome && r.held.isSome && task.wu.step == .context then s.modWork w fun x => { x with parked := some (base, fill) }
      else
        let dest : Option (Nat × State) :=
          match r.stream with
          | some (t, _, program, _) =>
            match s.kvPool t program r.stage with
            | none => none
            | some f =>
              match r.poolBlock with
              | some blk => some (f.base + g.pageBytes * (blk + w.layer), s)
              | none => (s.poolBlocks f g.pageBytes g.layersKv).map fun p =>
                  (f.base + g.pageBytes * (p.1 + w.layer), p.2.modKvRec r.id fun r => { r with poolBlock := some p.1 })
          | none =>
            let (a, c) := r.blocks.getD w.layer (0, 0)
            some (if (r.tail.getD w.layer none).map (·.1) = some a then c else a, s)
        match dest with
        | none => s
        | some (dst, s) =>
          let s := (s.memWrite dst (s.mem.read base g.pageBytes)).countBay b 24 1
          s.modWork w fun x => { x with parked := some (dst, fill) }
    | _, _ => s

/-- Whether every tail of a work unit is parked or empty: a full pool keeps a park, and the commit with it, waiting (DESIGN CHOICE, log entry
28). -/
def State.allParked (s : State) (home : Nat) (wu : WuKey) : Bool :=
  s.kv.work.all fun w => !(w.home == home && w.wu == wu) || w.parked.isSome || (s.landing w.bay w.slot).fill == 0

/-- Where tails are parked in the pool, those of layers that the work unit has not bound go to their block too: TAIL names one run of blocks
(R229, R230). -/
def State.joinTails (s : State) (i : Nat) : State :=
  match s.kvRecId i with
  | none => s
  | some r =>
    match r.stream, r.poolBlock with
    | some (t, _, program, _), some blk =>
      match s.kvPool t program r.stage, s.stageCfg program r.stage with
      | some f, some g =>
        s.each (List.range g.layersKv) fun s l =>
          let dst := f.base + g.pageBytes * (blk + l)
          match r.tail.getD l none with
          | some (a, fill) =>
            if a = dst then s
            else (s.memWrite dst (s.mem.read a g.pageBytes)).modKvRec i fun r => { r with tail := r.tail.set l (some (dst, fill)) }
          | none => s
      | _, _ => s
    | _, _ => s

/-- Commit what a work unit appended: per record the new length, the pending pages and the parked block, then its slots are
free, but for tails held resident (R221, R228). -/
def State.commitKv (s : State) (home : Nat) (wu : WuKey) : State :=
  let mine := s.kv.work.filter fun w => w.home == home && w.wu == wu
  let s := s.each mine fun (s : State) (w : KvWork) =>
    let s := s.modKvRec w.record fun r =>
      { r with pages := r.pages.modify w.layer (· ++ w.newPages), tail := r.tail.set w.layer w.parked }
    let held : Bool := match s.kvRecId w.record with
      | some r => r.held.isSome && wu.step == StepIx.context
      | none => false
    if held then s else s.setLanding w.bay w.slot .free
  let recs := mine.foldl (fun acc w => insertNat acc w.record) []
  let s := s.each recs fun s i =>
    let n := ((mine.filter fun w => w.record == i).map (·.appended)).foldl max 0
    (s.modKvRec i fun r => { r with length := r.length + n }).joinTails i
  s.modKv fun k => { k with work := k.work.filter fun w => !(w.home == home && w.wu == wu) }

/-- A work unit that is abandoned commits nothing: pending pages return, and its slots are free (R222). -/
def State.abandonKv (s : State) (home : Nat) (wu : WuKey) : State :=
  let mine := s.kv.work.filter fun w => w.home == home && w.wu == wu
  let s := s.each mine fun (s : State) (w : KvWork) =>
    let s := s.modKv fun k => { k with pagesUsed := k.pagesUsed - w.newPages.length }
    let s := match s.kvRecId w.record with
      | none => s
      | some r =>
        let ctx := wu.step == StepIx.context
        let s := s.modKvRec r.id fun r =>
          { r with held := if ctx then none else r.held, poolBlock := if ctx then none else r.poolBlock,
                   everBound := r.everBound.set w.layer w.before }
        match r.stream with
        | some (t, _, program, _) =>
          match s.kvPool t program r.stage, s.stageCfg program r.stage with
          | some f, some g =>
            let parked := match ctx, r.poolBlock with
              | true, some blk => (List.range g.layersKv).map fun l => blk + l
              | _, _ => []
            s.returnBlocks f ((w.newPages.map fun a => (a - f.base) / g.pageBytes) ++ parked)
          | _, _ => s
        | none =>
          match s.kvGrant r.home r.asn r.stage with
          | some gr => s.modKv fun k => { k with grantFree := k.grantFree ++ w.newPages.map fun a => (gr.base, a) }
          | none => s
    s.setLanding w.bay w.slot .free
  s.modKv fun k => { k with work := k.work.filter fun w => !(w.home == home && w.wu == wu) }

/-- The KV stage whose space a grant is. -/
def kvStageOf : ItemKind → Option Nat
  | .kvSpace k => some k
  | .scratch _ _ => none
  | .inputStaging => none
  | .outputStaging => none

/-- The records of a request here, or of one stage of it, are freed with its completion or for a replay; an uncommitted PERSIST context
returns its held slots, its parked blocks and the pages beyond the committed entries (R215, R229). Its grants still stand. -/
def State.freeKv (s : State) (home asn : Nat) (stage : Option Nat) : State :=
  let at_ (k : Nat) : Bool := stage.isNone || stage == some k
  let mine := s.kv.records.filter fun r => r.home == home && r.asn == asn && at_ r.stage
  let s := s.each mine fun s r =>
    let own := (r.pages.map (·.length)).sum
    match r.stream with
    | none => s.modKv fun k => { k with pagesUsed := k.pagesUsed - own }
    | some (t, _, program, base) =>
      match s.kvPool t program r.stage, s.stageCfg program r.stage with
      | some f, some g =>
        let extra := (r.pages.map fun l => l.drop (base / 16)).flatten
        let s := s.modKv fun k => { k with pagesUsed := k.pagesUsed - extra.length }
        let s := s.returnBlocks f (extra.map fun a => (a - f.base) / g.pageBytes)
        let s := match r.poolBlock with
          | some blk => s.returnBlocks f ((List.range g.layersKv).map fun l => blk + l)
          | none => s
        match r.held with
        | some (b, first) => s.each (List.range g.layersKv) fun s l => s.setLanding b (first + l) .free
        | none => s
      | _, _ => s
  let bases := (s.quota.grants.filter fun g => g.asn == asn && g.home == home && ((kvStageOf g.kind).map at_).getD false).map (·.base)
  s.modKv fun k =>
    { k with records := k.records.filter (fun r => !(r.home == home && r.asn == asn && at_ r.stage)),
             work := k.work.filter (fun w => !(w.home == home && w.wu.asn == asn && at_ w.wu.stage)),
             grantNext := k.grantNext.filter (fun p => !(bases.contains p.1)),
             grantFree := k.grantFree.filter fun p => !(bases.contains p.1) }

/-! ## The KV half of a commit (R229) -/

/-- The PERSIST context records of a request on this node. -/
def State.persistRecs (s : State) (home asn : Nat) : List KvRec :=
  s.kv.records.filter fun r => r.home == home && r.asn == asn && r.stream.isSome

/-- Blocks that the page lists of a stage take. -/
def StageCfg.listBlocks (g : StageCfg) : Nat := ceilDiv (8192 * g.layersKv) g.pageBytes

/-- Whether the pools have room for the page lists of sequences that have none yet: a full pool keeps phase 1 waiting (log entry 28). -/
def State.listRoom (s : State) (home asn : Nat) : Bool :=
  (s.persistRecs home asn).all fun r =>
    match r.stream with
    | none => true
    | some (t, stream, program, _) =>
      match s.kvPool t program r.stage, s.stageCfg program r.stage with
      | some f, some g =>
        (s.validHalf home asn t program r.stage stream).isSome || (s.poolRun f g.pageBytes g.listBlocks).isSome
      | _, _ => true

/-- A context that bound no slot leaves the sequence's tail where it is (R229). -/
def KvRec.keepsTail (r : KvRec) : Bool := r.length % 16 != 0 && r.held.isNone && r.poolBlock.isNone

/-- Phase 1: the other half gets VERSION + 1, the new length, the page lists with the appended entries, and TAIL. -/
def State.kvPhase1 (s : State) (home asn version : Nat) : State :=
  s.each (s.persistRecs home asn) fun (s : State) (r : KvRec) =>
    match r.stream with
    | none => s
    | some (t, stream, program, base) =>
      match s.kvDirEntry t program r.stage stream, s.kvPool t program r.stage, s.stageCfg program r.stage with
      | some e, some f, some g =>
        let old := s.validHalf home asn t program r.stage stream
        let (pt, s) : Nat × State :=
          match old with
          | some (_, h) => (h.ptAddr, s)
          | none =>
            match s.poolBlocks f g.pageBytes g.listBlocks with
            | some (i, s1) => (f.base + g.pageBytes * i, s1)
            | none => (0, s)
        let s := s.each (List.range g.layersKv) fun s l =>
          let new := (r.pages.getD l []).drop (base / 16)
          s.memWrite (pt + 8192 * l + 4 * (base / 16)) (new.flatMap fun a => bytesLE 4 ((a - f.base) / g.pageBytes))
        let tail := if r.length % 16 = 0 then 0 else
          match r.held, r.poolBlock with
          | some (b, first), _ => tailWord 1 b.val first 0
          | none, some blk => tailWord 2 0 0 blk
          | none, none => (old.map fun p => p.2.tail).getD 0
        let lost := (old.map fun p => p.2.lost).getD 0
        s.memWrite (e + 32 * ((version + 1) % 2))
          (KvHalf.bytes { version := version + 1, length := r.length, ptAddr := pt, tail := tail, lost := lost })
      | _, _, _ => s

/-- After phase 2: the previous resident slots or parked blocks are free, and the new tail is the stream's (R229). -/
def State.kvPhase2 (s : State) (home asn version : Nat) : State :=
  s.each (s.persistRecs home asn) fun (s : State) (r : KvRec) =>
    match r.stream with
    | none => s
    | some (t, stream, program, _) =>
      match s.kvDirEntry t program r.stage stream, s.kvPool t program r.stage, s.stageCfg program r.stage with
      | some e, some f, some g =>
        let h := s.readHalf (e + 32 * (version % 2))
        let ours (x : ResTail) : Bool := x.tenant == t && x.stream == stream && x.program == program && x.stage == r.stage
        let s := if version = 0 || h.version ≠ version || r.keepsTail then s
          else if h.tail % 4 = 1 then
            s.each (List.range g.layersKv) fun s l => s.setLanding (bayIx (bits h.tail 2 7)) (bits h.tail 9 6 + l) .free
          else if h.tail % 4 = 2 then s.returnBlocks f ((List.range g.layersKv).map fun l => bits h.tail 32 32 + l)
          else s
        let residents := if r.keepsTail then s.kv.residents.map fun x => if ours x then { x with version := version + 1 } else x
          else s.kv.residents.filter fun x => !(ours x)
        let s := s.modKv fun k => { k with residents := residents }
        let s := match r.held with
          | some (b, first) =>
            if r.length % 16 = 0 then s.each (List.range g.layersKv) fun s l => s.setLanding b (first + l) .free
            else
              let s := s.each (List.range g.layersKv) fun s l =>
                s.setLanding b (first + l) (.resident t stream program r.stage l (r.length % 16))
              let x : ResTail :=
                { home := if home = s.net.nodeId then none else some home, version := version + 1, since := s.str.epochCount,
                  tenant := t, stream := stream, program := program, stage := r.stage, bay := b, first := first }
              s.modKv fun k => { k with residents := k.residents ++ [x] }
          | none => s
        s.modKvRec r.id fun r =>
          { r with held := none, poolBlock := none,
                   stream := some (t, stream, program, r.length / 16 * 16) }
      | _, _, _ => s

/-! ## Rollback (R232) -/

/-- Rewrite the half of a lost resident tail: LENGTH to whole pages, TAIL none, LOST the positions dropped. -/
def State.rollback (s : State) (x : ResTail) : State :=
  let s := match s.tailHalf x with
    | some a =>
      let h := s.readHalf a
      s.memWrite a { h with length := h.length / 16 * 16, tail := 0, lost := h.length % 16 }.bytes
    | none => s
  let s := match s.stageCfg x.program x.stage with
    | some g => s.each (List.range g.layersKv) fun s l => s.setLanding x.bay (x.first + l) .free
    | none => s
  (s.modKv fun k => { k with residents := k.residents.erase x, rollbacks := satInc k.rollbacks }).countDev 17 1

/-- The PERSIST stages of a formation that lie on this node. -/
def State.persistHere (s : State) (m : Formation) (program : Nat) : List Nat :=
  match s.program program with
  | none => []
  | some p => (List.range p.stages.length).filter fun k =>
      ((p.stages[k]?).map (·.persist)).getD false && ((m.nodes[k]?).map (·.toNat)) == some s.net.nodeId

/-- Positions lost that the halves here of a request's stream still report (R232). -/
def State.lostHere (s : State) (home asn : Nat) (m : Formation) (d : Desc) (t : Fin 16) : Nat :=
  ((s.persistHere m d.program).map fun k =>
    ((s.validHalf home asn t d.program k d.streamId).map fun h => h.2.lost).getD 0).foldl max 0

/-- Clear LOST in the halves here, as a request completes with KV_TAIL_LOST (R232). -/
def State.clearHere (s : State) (home asn : Nat) (m : Formation) (d : Desc) (t : Fin 16) : State :=
  s.each (s.persistHere m d.program) fun s k =>
    match s.validHalf home asn t d.program k d.streamId with
    | some (a, _) => s.memWrite (a + 24) [0, 0]
    | none => s

def State.lostOf (s : State) (r : Req) : Nat := (r.formation.map fun m => s.lostHere s.net.nodeId r.asn m r.d r.f).getD 0
def State.clearLost (s : State) (r : Req) : State := (r.formation.map fun m => s.clearHere s.net.nodeId r.asn m r.d r.f).getD s

/-! ## The KV half of a stream whose PERSIST stage lies on another node than its home (log entry 21) -/

/-- The other nodes that hold a PERSIST stage of a request, in ascending order. -/
def State.persistNodes (s : State) (r : Req) : List Nat :=
  match r.formation, s.program r.d.program with
  | some m, some p =>
    if !r.d.isStream then [] else
    (List.range p.stages.length).foldl (fun acc k =>
      let n := ((m.nodes[k]?).map (·.toNat)).getD 0xFF
      if ((p.stages[k]?).map (·.persist)).getD false && n != s.net.nodeId then insertNat acc n else acc) []
  | _, _ => []

/-- Whether a KV message of a request is still unanswered. -/
def State.kvOpen (s : State) (asn : Nat) : Bool :=
  let mine (p : Purpose) : Bool := p == .kv asn 1 || p == .kv asn 2 || p == .kv asn 3
  s.net.txns.any (fun x => mine x.purpose) || s.net.unsent.any fun x => mine x.purpose

/-- The home's part: a LEASE use of the request's token, whose ARG names the operation and the stream's version. -/
def State.tellKv (s : State) (r : Req) (op version : Nat) : State :=
  s.each (s.persistNodes r) fun s n =>
    let held := s.net.leases.find? fun l => l.side == .held && l.peer == n && l.key == .token (BitVec.ofNat 64 r.asn)
    s.sendReq { dst := n, vc := 0, mtype := 0x06, otag := 0, arg := op + 4 * version,
                body := leaseBody 2 1 r.asn 0 ((held.map (·.epoch)).getD s.net.settled), purpose := .kv r.asn op }

/-- The stage node's part: it learns the version, writes the other half, or makes it the stream's. -/
def State.kvOp (s : State) (home asn op version : Nat) : State :=
  if op = 1 then
    s.modQuota fun q => { q with tokens := q.tokens.map fun k => if k.home == home && k.asn == asn then { k with version := version } else k }
  else if op = 2 then s.kvPhase1 home asn version
  else if op = 3 then
    let s := (s.kvPhase2 home asn version).modQuota fun q =>
      { q with tokens := q.tokens.map fun k => if k.home == home && k.asn == asn then { k with version := version + 1 } else k }
    match s.quota.tokens.find? fun k => k.home == home && k.asn == asn with
    | some k => s.clearHere home asn k.formation k.desc k.tenant
    | none => s
  else s

/-- LOST of the stage node's halves, which its answer carries. -/
def State.kvLostFor (s : State) (home asn : Nat) : Nat :=
  match s.quota.tokens.find? fun k => k.home == home && k.asn == asn with
  | some k => s.lostHere home asn k.formation k.desc k.tenant
  | none => 0

/-! ## Where a sequence lives (R233) -/

/-- The node that holds a stream's sequence of a stage; none while the stream has no version. -/
def State.kvPlace (s : State) (t : Fin 16) (stream program stage : Nat) : Option Nat :=
  if s.streamVersion t stream = 0 then none
  else (s.kv.places.find? fun x => x.tenant == t && x.stream == stream && x.program == program && x.stage == stage).map fun x =>
    if x.node = 0xFE then s.net.nodeId else x.node

/-- A commit notes where each PERSIST stage's sequence lies. -/
def State.notePlaces (s : State) (r : Req) : State :=
  match r.formation, s.program r.d.program with
  | some m, some p =>
    s.each (List.range p.stages.length) fun s k =>
      if !(((p.stages[k]?).map (·.persist)).getD false) then s else
      let n := ((m.nodes[k]?).map (·.toNat)).getD 0xFF
      let x : KvAt := { tenant := r.f, stream := r.d.streamId, program := r.d.program, stage := k, node := if n = s.net.nodeId then 0xFE else n }
      s.modKv fun v => { v with places := v.places.filter (fun y => !(y.tenant == x.tenant && y.stream == x.stream
        && y.program == x.program && y.stage == k)) ++ [x] }
  | _, _ => s

end Sys2Proof.Machine
end

