-- ==== Sys2Proof/Machine/WorkOps.lean ====
section
/-! DEFINITION. Work units: readiness, the dispatch test, charges, starting and ending bay tasks, store buffers, abandoning, and
the correction factors (01 R12, R16; 04 R98 to R111; 05 R124, R125, R149, R151; 10 R238, R258). -/
namespace Sys2Proof.Machine
open Sys2Proof

/-! ## Requests and formations -/

def State.reqOf (s : State) (asn : Nat) : Option Req := s.req.table.find? fun r => r.asn == asn
def State.modReq (s : State) (asn : Nat) (f : Req → Req) : State :=
  s.modReqs fun q => { q with table := q.table.map fun r => if r.asn = asn then f r else r }

def nodeOf (m : Formation) (k : Nat) : Nat := ((m.nodes[k]?).map (·.toNat)).getD 0xFF

/-- The formation of a request as this node knows it. -/
def State.formationOf (s : State) (home asn : Nat) : Option Formation :=
  if home = s.net.nodeId then (s.reqOf asn).bind (·.formation)
  else (s.quota.tokens.find? fun k => k.home == home && k.asn == asn).map (·.formation)

/-- Fresh free bytes. -/
def State.drawBytes (s : State) (n : Nat) : List Byte × State :=
  ((List.range n).map fun i => (Config.freeValue (s.freeCtr + i)).setWidth 8, { s with freeCtr := s.freeCtr + n })

/-! ## Readiness (R12) -/

/-- A work unit that may be dispatched here, with what its dispatch needs. -/
structure Cand where
  key : WuKey
  home : Nat
  f : Fin 16
  d : Desc
  p : Program
  tm : Template

/-- Whether the input of a (stage, wave, step) is here: pushed, or fetched for the context of stage 0. -/
def State.hasInput (s : State) (home : Nat) (k : WuKey) : Bool :=
  s.net.pushRx.any fun x => x.home == home && x.key == k && x.complete

def State.wuStarted (s : State) (home : Nat) (k : WuKey) : Bool :=
  s.req.running.any (fun r => r.home == home && r.key == k) || s.req.doneWu.contains (home, k)

/-- Insert without repeats. -/
def insertKey (l : List WuKey) (k : WuKey) : List WuKey := if l.contains k then l else l ++ [k]

/-- Step work units of stage 0 that an arrived input may make ready: every wave with that input among its parents. -/
def stageZeroKeys (d : Desc) (k : WuKey) : List WuKey :=
  match k.step with
  | .context => [k]
  | .step n =>
    ((List.range (d.waves n)).filter fun w => n == 0 || (d.parentWaves n w).contains k.wave).map fun w => { k with wave := w }

/-- The inputs that a work unit waits for. -/
def inputsOf (d : Desc) (k : WuKey) : List WuKey :=
  match k.stage, k.step with
  | 0, .step 0 => [{ k with wave := 0 }]
  | 0, .step n => (d.parentWaves n k.wave).map fun w => { k with wave := w }
  | _, _ => [k]

/-- A stage is stateful when it keeps KV or runs a SLOTS-mode cell. -/
def Program.stateful (p : Program) (k : Nat) : Bool :=
  match p.stages[k]? with
  | some g => decide (0 < g.layersKv) || (g.cell && p.streamClass.isSome)
  | none => false

/-- A stateful stage runs its context and then its steps in order; where inputs are replayed they are all here at once (R234). -/
def State.stateReady (s : State) (home : Nat) (d : Desc) (p : Program) (k : WuKey) : Bool :=
  !(p.stateful k.stage) ||
    (match k.step with
     | .context => true
     | .step 0 => s.req.doneWu.contains (home, { k with wave := 0, step := .context })
     | .step (n + 1) => (d.parentWaves (n + 1) k.wave).all fun w => s.req.doneWu.contains (home, { k with wave := w, step := .step n }))

/-- Ready work units of one request on this node. -/
def State.readyOf (s : State) (home asn : Nat) (d : Desc) (m : Formation) (p : Program) : List WuKey :=
  let arrived := s.net.pushRx.filter fun x =>
    x.home == home && x.key.asn == asn && x.complete && nodeOf m x.key.stage == s.net.nodeId
  let keys := arrived.foldl (fun acc x =>
    (if x.key.stage = 0 then stageZeroKeys d x.key else [x.key]).foldl insertKey acc) []
  keys.filter fun k => !(s.wuStarted home k) && (inputsOf d k).all (s.hasInput home) && s.stateReady home d p k

/-- A candidate from a ready key, where the program has its template. -/
def mkCand (p : Program) (home : Nat) (f : Fin 16) (d : Desc) (k : WuKey) : Option Cand :=
  (p.template (k.step == .context) k.stage d.shapeClass).map fun tm =>
    { key := k, home := home, f := f, d := d, p := p, tm := tm }

/-- DEADLINE_ENFORCE with a DEADLINE that device time has passed (R24, R29). -/
def State.pastDeadline (s : State) (d : Desc) : Bool :=
  d.enforce && d.deadline ≠ 0 && decide (d.deadline < s.clk.devTime)

/-- All ready work units of this node, of its own requests and of other homes'; none of a request past its enforced deadline (R12, R29). -/
def State.candidates (s : State) : List Cand :=
  let own := s.req.table.flatMap fun r =>
    match r.formation, s.program r.d.program with
    | some m, some p =>
      if (r.phase == .context || r.phase == .rolling) && !r.failed && !r.deadlinePassed && !(s.pastDeadline r.d) && !r.swapWait then
        (s.readyOf s.net.nodeId r.asn r.d m p).filterMap fun k => mkCand p s.net.nodeId r.f r.d k
      else []
    | _, _ => []
  let others := s.quota.tokens.flatMap fun t =>
    if t.home = s.net.nodeId || s.pastDeadline t.desc then [] else
    match s.program (Desc.program t.desc) with
    | some p => (s.readyOf t.home t.asn t.desc t.formation p).filterMap fun k => mkCand p t.home t.tenant t.desc k
    | none => []
  own ++ others

def stepCode : StepIx → Nat
  | .context => 0
  | .step n => n + 1

/-- The dispatch key of R107 as one number, each part in its own field; the stage counts down. -/
def Cand.order (c : Cand) : Nat :=
  let dl := if c.d.deadline = 0 then 2 ^ 64 else c.d.deadline
  ((((((c.d.cls * 2 ^ 65 + dl) * 2 ^ 64 + c.key.asn) * 2 ^ 20 + stepCode c.key.step) * 2 ^ 16 + c.key.wave) * 2 ^ 17
    + (65536 - c.key.stage)) * 256) + c.home

/-! ## Dividers, charges, durations (R98 to R100) -/


/-- s[d] of a tile: ⌊4,096 × (V_d / V_÷4)²⌋ (R99). -/
def State.voltScale (s : State) (t code : Nat) : Nat :=
  let v := (s.cfg.voltage.getD t []).getD code 0
  let v4 := (s.cfg.voltage.getD t []).getD 0 0
  if v4 = 0 then 0 else 4096 * (v * v) / (v4 * v4)

/-- Futures that count for the estimates: those in the wave, 1 for a context work unit. -/
def wuFutures (d : Desc) (k : WuKey) : Nat :=
  match k.step with
  | .context => 1
  | .step n => d.waveN n k.wave

def Cand.rawE (c : Cand) : Nat := c.tm.eFixed + wuFutures c.d c.key * c.tm.ePerFuture
def Cand.rawD (c : Cand) : Nat := c.tm.dFixed + wuFutures c.d c.key * c.tm.dPerFuture

/-- q = ⌈E × s[d] × kE / 2^24⌉. -/
def chargeOf (e scale ke : Nat) : Nat := ceilDiv (e * scale * ke) 16777216
/-- D × (d/4) × kD / 4,096, truncated. -/
def durationOf (d div kd : Nat) : Nat := d * div * kd / 16384

/-- The slowest divider among the bays' tiles, with the tile whose s[d] prices the unit. Where several of its tiles run at that divider, R100
does not say whose s[d] counts: the first such tile in assignment order does (DESIGN CHOICE, log entry 49). -/
def State.slowest (s : State) (bays : List (Fin 80)) : Nat × Nat :=
  bays.foldl (fun acc b =>
    let t := (tileOf b).val
    if acc.2 < (s.tile t).div then (t, (s.tile t).div) else acc) ((bays.head?.map fun b => (tileOf b).val).getD 0, 0)

/-! ## Resources (R107, R110, R119, R258) -/

/-- A bay that can take a bay task. -/
def State.bayFree (s : State) (b : Fin 80) : Bool :=
  let y := s.bay b
  let t := s.tile (tileOf b).val
  y.task.isNone && !y.fenced && !y.plumbHeld && !t.hold && !t.sensorsLost

def State.freeBays (s : State) : List (Fin 80) := allBays.filter s.bayFree

/-- Bays that a class holds on this chip. -/
def State.classBays (s : State) (c : Nat) : Nat :=
  ((s.req.running.filter fun r => r.cls == c).map fun r => r.bays.length - r.ended.length).sum

/-- The bays of a dispatch in turn over the tiles (R110). -/
def assignBays (free : List (Fin 80)) : Nat → Nat → List (Fin 80)
  | 0, _ => []
  | n + 1, turn =>
    let pick := (List.range 4).findSome? fun i => free.find? fun b => (tileOf b).val == (turn + i) % 4
    match pick with
    | none => []
    | some b => b :: assignBays (free.filter (· != b)) n ((tileOf b).val + 1)

def State.fits (s : State) (c : Cand) : Bool :=
  let n := c.tm.bayTasks
  decide (n ≤ s.freeBays.length)
    && decide (s.classBays c.d.cls + n ≤ (s.cfg.policy.classes.getD c.d.cls { maxShare := 0, maxBays := 0 }).maxBays)
    && s.grantTest c.f 0 (n * s.w0)

/-! ## Starting a bay task (R124, R238) -/

/-- Zeros over a bay's working area when the tenant changed since its last bay task (R238). -/
def State.tenantFill (s : State) (b : Fin 80) (t : Fin 16) : State :=
  let y := s.bay b
  let fill := match y.lastTenant with
    | .none => false
    | .unknown => true
    | .tenant u => u != t
  let s := s.modBay b fun y => { y with lastTenant := .tenant t }
  if fill then
    (s.modMem fun m => { m with cells := Memory.clear m.cells (bayBase b) s.w0,
                                poison := m.poison.filter fun l => !(decide (bayBase b ≤ l) && decide (l < bayBase b + s.w0)) }
      ).countBay b 31 1
  else s

/-- A thread at the start of a bay task. -/
def Thread.start (pc : Nat) : Thread := { Thread.reset with pc := BitVec.ofNat 64 pc, exited := false }

/-- The argument block: the bases of the items placed here, in the order of Table 10.8, 8 bytes each (log entry 22). -/
def State.argBlock (s : State) (home asn : Nat) : List Byte := (s.grantsOf home asn).flatMap fun g => bytesLE 8 g.base

/-- Start bay task i of a work unit on a bay. -/
def State.startTask (s : State) (c : Cand) (b : Fin 80) (i limit : Nat) : State :=
  let s := s.tenantFill b c.f
  let (v, s) := s.draw
  let block := s.argBlock c.home c.key.asn
  let args := bayBase b + 64 * (v.toNat % ((s.w0 - min s.w0 4096) / 64 + 1))
  let s := s.memWrite args block
  let wave := match c.key.step with
    | .context => (0, 1)
    | .step n => (32 * c.key.wave, c.d.waveN n c.key.wave)
  let task : Task :=
    { wu := c.key, home := c.home, f := c.f, program := c.p.number, idx := i, tasks := c.tm.bayTasks, waveFirst := wave.1,
      waveN := wave.2, args := args, started := s.clk.devTime, limit := limit, energy := 0 }
  let s := s.modBay b fun y =>
    { y with threads := List.replicate 128 (Thread.start (c.p.codeBase + c.tm.entry)), task := some task, shared := [],
             barriers := List.replicate 16 none, tileQueue := [], tileIssued := 0, tileFailed := [], running := none,
             drain := none, movers := List.replicate 2 Mover.reset, moveIssued := 0, moveFailed := [] }
  s.addUsed c.f 0 s.w0

/-- Start a work unit: its bay tasks, its KV records, its charge (R108, R110). -/
def State.startWu (s : State) (c : Cand) (charge : Nat) : State :=
  let bays := assignBays s.freeBays c.tm.bayTasks s.stew.t0
  let (tile, dv) := s.slowest bays
  let cdur := durationOf c.rawD (divOf dv) (s.stew.kD.getD c.p.number 0x1000)
  let w : RunWu :=
    { key := c.key, home := c.home, f := c.f, program := c.p.number, shapeClass := c.d.shapeClass, cls := c.d.cls,
      bays := (List.range bays.length).zip bays, ended := [], charge := charge, div := dv, scale := s.voltScale tile dv, cdur := cdur, raw := c.rawE,
      rawD := c.rawD, started := s.clk.devTime, measured := 0, kvDone := false }
  let limit := max 10000000 (64 * cdur)
  let s := s.each w.bays fun s b => s.startTask c b.2 b.1 limit
  let s := match c.p.stages[c.key.stage]? with
    | some g =>
      if g.layersKv = 0 then s else
      s.each (match c.key.step with
        | .context => [none]
        | .step _ => (List.range (wuFutures c.d c.key)).map fun r => rowKey c.d c.key r) fun s key =>
          State.ensureRec c.home c.key.asn c.key.stage c.p.number c.f c.d g 8 key s
    | none => s
  let s := s.modReqs fun q => { q with running := q.running ++ [w] }
  let s := s.modStew fun x => { x with t0 := ((bays.head?.map fun b => (tileOf b).val).getD 0 + 1) % 4 }
  ((s.countProg c.p.number 0 1).countProg c.p.number 4 charge).countDev 3 1

/-! ## Store buffers (R137, R140, R149) -/

/-- Node a thread address targets (Table 5.6): none is 0xFF. -/
def State.targetNode (s : State) (a : Nat) : Option Nat :=
  let n := a / 2 ^ 56
  if n = 0 || n = 0xFE || n = s.net.nodeId then some s.net.nodeId else if n = 0xFF then none else some n

/-- The local address within the node. -/
def localAddr (a : Nat) : Nat := a % 2 ^ 56

/-- Runs of stored bytes of a line: (offset, bytes). -/
def bufRuns (l : List (Option Byte)) : List (Nat × List Byte) :=
  (l.foldl (fun (acc : Nat × List (Nat × List Byte)) b =>
    match b with
    | none => (acc.1 + 1, acc.2)
    | some v =>
      match acc.2.getLast? with
      | some (o, bs) =>
        if o + bs.length = acc.1 then (acc.1 + 1, acc.2.dropLast ++ [(o, bs ++ [v])]) else (acc.1 + 1, acc.2 ++ [(acc.1, [v])])
      | none => (acc.1 + 1, [(acc.1, [v])])) (0, [])).2

/-- One line of stored bytes takes effect at its home: local bytes are written, a remote node's travel as WRITE messages. -/
def State.landLine (s : State) (b : Fin 80) (l : BufLine) : State :=
  s.each (bufRuns l.bytes) fun s r =>
    match s.targetNode l.addr with
    | none => s
    | some n =>
      let a := localAddr l.addr + r.1
      if n = s.net.nodeId then s.memWrite a r.2
      else s.sendReq { dst := n, vc := 0, mtype := 0x02, otag := addrOtag a, arg := a, body := r.2,
                       purpose := .store b l.thread l.pc }

/-- The line that a bay holds for its own observers takes effect: it precedes what its threads still buffer of it. -/
def State.landShared (s : State) (b : Fin 80) (line : Nat) : State :=
  match (s.bay b).shared.find? (·.addr == line) with
  | none => s
  | some l => (s.landLine b l).modBay b fun y => { y with shared := y.shared.filter (·.addr != line) }

/-- One buffered line drains for every observer. -/
def State.drainLine (s : State) (b : Fin 80) (l : BufLine) : State := (s.landShared b l.addr).landLine b l

/-- A thread's buffer drains for every observer, and so do the lines its bay holds. -/
def State.drainAll (s : State) (b : Fin 80) (t : Fin 128) : State :=
  let held := (s.bay b).shared
  let lines := (s.thr b t).buf
  let s := (s.each held fun s l => s.landLine b l).modBay b fun y => { y with shared := [] }
  (s.each lines fun s l => s.landLine b l).modThr b t fun th => { th with buf := [] }

/-- The stored bytes of a line over those of an earlier one. -/
def BufLine.over (new old : BufLine) : BufLine :=
  { new with bytes := (new.bytes.zip old.bytes).map fun p => p.1.orElse fun _ => p.2 }

/-- A line becomes visible to its bay alone. -/
def Bay.share (y : Bay) (l : BufLine) : Bay :=
  match y.shared.find? (·.addr == l.addr) with
  | some old => { y with shared := y.shared.map fun x => if x.addr = l.addr then l.over old else x }
  | none => { y with shared := y.shared ++ [l] }

/-- A thread's buffer drains for the observers of its bay (R138): a line of the bay's own SRAM is written; any other becomes visible to
the bay, and to the rest when it leaves the bay (DESIGN CHOICE, log entry 71). -/
def State.drainBay (s : State) (b : Fin 80) (t : Fin 128) : State :=
  let lines := (s.thr b t).buf
  let s := s.each lines fun s l =>
    if s.targetNode l.addr = some s.net.nodeId && localAddr l.addr / 0x800000 = b.val then s.landLine b l
    else s.modBay b fun y => y.share l
  s.modThr b t fun th => { th with buf := [] }

/-! ## Ending and abandoning work units -/

def State.runOf (s : State) (home : Nat) (k : WuKey) : Option RunWu :=
  s.req.running.find? fun r => r.home == home && r.key == k
def State.modRun (s : State) (home : Nat) (k : WuKey) (f : RunWu → RunWu) : State :=
  s.modReqs fun q => { q with running := q.running.map fun r => if r.home == home && r.key == k then f r else r }
def State.dropRun (s : State) (home : Nat) (k : WuKey) : State :=
  let s := s.modReqs fun q => { q with running := q.running.filter fun r => !(r.home == home && r.key == k) }
  let s := s.modStew fun t => { t with carries := t.carries.filter fun c => !(c.home == home && c.wu == k) }
  s.modBars fun x => { x with node := x.node.filter fun y => !(y.home == home && y.wu == k) }

/-- Whether an outstanding transaction serves a bay. -/
def Purpose.ofBay (p : Purpose) (b : Fin 80) : Bool :=
  match p with
  | .load x _ _ _ _ _ _ => x == b
  | .store x _ _ => x == b
  | .atomic x _ _ _ _ => x == b
  | .mover x _ => x == b
  | .steward _ => false
  | .push _ _ => false
  | .weight _ => false
  | .kv _ _ => false
  | .other => false

/-- What a freed bay still has outstanding serves nothing any more. -/
def State.forgetBay (s : State) (b : Fin 80) : State :=
  s.modNet fun n =>
    { n with txns := n.txns.map (fun x => if x.purpose.ofBay b then { x with purpose := .other } else x),
             unsent := n.unsent.map fun x => if x.purpose.ofBay b then { x with purpose := .other } else x }

/-- A bay becomes free: its task and threads end, and its T0 use is returned. -/
def State.freeBay (s : State) (b : Fin 80) : State :=
  match (s.bay b).task with
  | none => s
  | some t =>
    let held := (s.clk.devTime - t.started) / 1000
    let s := s.modBay b fun y =>
      { y with task := none, shared := [], barriers := List.replicate 16 none, tileQueue := [], running := none, drain := none,
               movers := List.replicate 2 Mover.reset,
               threads := y.threads.map fun th => { th with exited := true, buf := [], mbox := [], wait := .stopped, pend := [] } }
    ((s.subUsed t.f 0 s.w0).forgetBay b).countFn t.f 14 held

/-- Threads of these bays that wait at a fabric barrier of the request wait there no more (R149); at the home node, and where they had not been
sent, their arrivals no longer count (DESIGN CHOICE, log entry 26). -/
def State.leaveFabricBars (s : State) (home asn : Nat) (bays : List (Fin 80)) : State :=
  s.modBars fun x => { x with fabric := x.fabric.map fun f =>
    if f.home ≠ home || f.asn ≠ asn then f else
    let stay := f.bar.waiting.filter fun p => !(bays.contains p.1)
    let gone := f.bar.waiting.length - stay.length
    let held := f.bar.waiting.drop (f.bar.waiting.length - f.unsent)
    let by_ := if home = s.net.nodeId then keySet f.byNode home (keyGet f.byNode home - gone) else f.byNode
    let idle := home == s.net.nodeId && (by_.map (·.2)).sum == 0
    { f with bar := { count := if idle then 0 else f.bar.count, arrived := f.bar.arrived - gone, waiting := stay },
             byNode := by_,
             unsent := (held.filter fun p => !(bays.contains p.1)).length } }

/-- Stop a work unit on all its bays without completing it: its buffers are drained or discarded, its arrays take the fault ramp,
its KV work is left uncommitted, its bays are free (R149, R151, R170, R222). -/
def State.stopWu (s : State) (home : Nat) (k : WuKey) (drain : Bool) : State :=
  match s.runOf home k with
  | none => s
  | some w =>
    let live := w.bays.filter fun b => ((s.bay b.2).task.map fun t => (t.home, t.wu)) == some (home, k)
    let s := if drain then s.each live fun s b => s.each allThreads fun s t => s.drainAll b.2 t else s
    let s := s.leaveFabricBars home k.asn (live.map (·.2))
    let s := s.each live fun s b => (s.faultRamp b.2).freeBay b.2
    (s.abandonKv home k).dropRun home k

/-- Abandon a work unit, to run it again (R449, R344): buffers are discarded. -/
def State.abandonWu (s : State) (home : Nat) (k : WuKey) : State :=
  match s.runOf home k with
  | none => s
  | some w => (s.stopWu home k false).countProg w.program 2 1

/-- Clamp of R99. -/
def clampK (i : Int) : Nat := (max 0x0400 (min 0x8000 i)).toNat

/-- k + (a − k) / 2^SHIFT, truncating towards zero, clamped (R101). -/
def learn (k a shift : Nat) : Nat := clampK ((k : Int) + ((a : Int) - k).tdiv (2 ^ shift : Nat))

/-- The correction factors learn from a completed work unit, at the divider and s[d] of its charge (R100, R101). -/
def State.learnWu (s : State) (w : RunWu) (duration : Nat) : State :=
  let base := w.raw * w.scale
  let ae := if base = 0 then 0 else 4096 * w.measured * 4096 / base
  let dbase := w.rawD * divOf w.div
  let ad := if dbase = 0 then 0 else 4096 * duration * 4 / dbase
  let sh := s.cfg.policy.ewmaShift
  s.modStew fun t =>
    { t with kE := t.kE.modify w.program fun k => if base = 0 then k else learn k ae sh,
             kD := t.kD.modify w.program fun k => if dbase = 0 then k else learn k ad sh }

end Sys2Proof.Machine
end

