-- ==== Sys2Proof/Machine/ReqOps.lean ====
section
/-! DEFINITION. The life of a request after admission: pushes between stages, output and input jobs, draining, commits, failing
and finishing, and the exception of a thread (01 R9, R27 to R29; 05 R149; 10 R249, R257; 13 R342, R349, R350). -/
namespace Sys2Proof.Machine
open Sys2Proof

/-! ## Status codes (Table 14.5) -/

def stOk : Nat := 0x00
def stEmpty : Nat := 0x01
def stKvTailLost : Nat := 0x02
def stShape : Nat := 0x10
def stUnknown : Nat := 0x11
def stQuota : Nat := 0x12
def stTenantDisabled : Nat := 0x13
def stDeadline : Nat := 0x14
def stNotReady : Nat := 0x15
def stInputFault : Nat := 0x20
def stOutputFault : Nat := 0x21
def stWeight : Nat := 0x22
def stPoison : Nat := 0x30
def stContained : Nat := 0x31
def stFabricLost : Nat := 0x32
def stClockLoss : Nat := 0x33
def stResetAborted : Nat := 0x34
def stSentLocked : Nat := 0x40
def stSentMuted : Nat := 0x41

/-- How a tag-aware reader ends: its bytes, or the status and DETAIL it fails with (R248, R285). -/
def TagRead.result : TagRead → Except (Nat × Nat) (List Byte)
  | .ok bs => .ok bs
  | .poison => .error (stPoison, 0x0505)
  | .absent => .error (stPoison, 0x0A10)
  | .width => .error (stContained, 0x0B01)

/-- A range through its tags, each unit at the width of its own tag. -/
def State.readExpanded (s : State) (a n : Nat) : Except (Nat × Nat) (List Byte) :=
  (unitPieces a n).foldl (fun acc p => match acc with
    | .ok bs => ((s.readInUnit (tagWide (s.mem.tagOf (p.1 / unitBytes))) p.1 p.2).result).map fun cs => bs ++ cs
    | .error f => .error f) (.ok [])

/-- Units as they are stored under their tags. -/
def State.storedUnits (s : State) (a n : Nat) : Except (Nat × Nat) (List (BitVec 16 × List Byte)) :=
  (List.range n).foldl (fun acc i => match acc with
    | .ok us =>
      let u := a + unitBytes * i
      let tag := if tagged u then s.mem.tagOf (u / unitBytes) else 0
      ((s.readInUnit (tagWide tag) u unitBytes).result).map fun bs =>
        us ++ [(tag, if tagCoded tag then s.mem.read u (64 * tagLines tag) else bs)]
    | .error f => .error f) (.ok [])

/-- Admitted and not complete. -/
def Req.admitted (r : Req) : Bool :=
  r.phase == .context || r.phase == .rolling || r.phase == .draining || r.phase == .commit


/-! ## Pushes (R342, R349, R350) -/

/-- A stage's input is complete on this node. -/
def State.deliverPush (s : State) (home : Nat) (k : WuKey) (src : Nat) : State :=
  if s.net.pushRx.any fun x => x.home == home && x.key == k && x.complete then s else
  s.modNet fun n =>
    { n with pushRx := n.pushRx.filter (fun x => !(x.home == home && x.key == k)) ++
               [{ key := k, home := home, received := 0, complete := true, acked := src == s.net.nodeId, src := src }] }

/-- The step of a push that follows a work unit. -/
def nextStep : StepIx → StepIx
  | .context => .step 0
  | .step n => .step (n + 1)

/-- STEP_ACK for an input (subtype 0x20). -/
def State.sendStepAck (s : State) (dst : Nat) (k : WuKey) : State :=
  s.sendMsgTo dst 0x20 (bytesLE 8 k.asn ++ bytesLE 2 k.stage ++ bytesLE 2 k.wave
    ++ bytesLE 4 (match k.step with | .context => max32 | .step n => n)) (.steward k.asn)

/-- STEP_ACK every input here whose conditions are met (R349): its work units ran, and their pushes are acknowledged, or for
the last stage have received their responses. -/
def State.ackInputs (s : State) (home asn : Nat) : State :=
  match s.formationOf home asn with
  | none => s
  | some m =>
    let d := s.descOf home asn
    let due := s.net.pushRx.filter fun x =>
      x.home == home && x.key.asn == asn && x.complete && !x.acked && (stageZeroKeys d x.key).length ≠ 0 &&
        (if x.key.stage = 0 then stageZeroKeys d x.key else [x.key]).all fun k =>
          s.req.doneWu.contains (home, k) &&
          (if k.stage + 1 < m.nodes.length then
            !(s.net.pushTx.any fun p => p.home == home && p.key == { k with stage := k.stage + 1 } && !p.stepAcked)
          else
            !(s.net.pushTx.any fun p => p.home == home && p.key.asn == asn && p.key.stage == 0 && p.key.wave == k.wave
              && p.key.step == nextStep k.step && !p.responded))
    due.foldl (fun (s : State) x =>
      (s.modNet fun n => { n with pushRx := n.pushRx.map fun y =>
        if y.home == home && y.key == x.key then { y with acked := true } else y }).sendStepAck x.src x.key) s

/-! ## Finishing (R27, R28, R31, R32) -/

/-- The contained record of a request that ends after admission with a status other than OK (R444). -/
def State.requestRecord (s : State) (asn status detail source inst addr : Nat) (info : List Byte) : State :=
  let code := if status = stWeight then 0x0304 else if detail = 0 then 0x0140 + status else detail
  s.error { cls := 1, source := source, inst := inst, code := code, asn := some asn, addr := addr,
            info := if status = stWeight then bytesLE 2 detail else info }

/-- The record of an end that no one block of Table 20.1 owns: SOURCE, INSTANCE and, for poison at no given address, ADDR are free
values (log entry 24). -/
def State.openRecord (s : State) (asn status detail : Nat) (addr : Option Nat) : State :=
  let (v, s) := s.draw
  s.requestRecord asn status detail (v.toNat % 256) (v.toNat / 256 % 65536)
    (addr.getD (if status = stPoison then v.toNat / 2 ^ 24 else 0)) []

/-- Complete a request: its status is final, its lease is free, and the scribe's turn comes. -/
def State.finish (s : State) (asn status detail : Nat) : State :=
  match s.reqOf asn with
  | none => s
  | some r =>
    if r.phase == .complete then s else
    let s := if r.leaseHeld then s.endLease r.f r.d.streamId r.asn else s
    let s := if status = stKvTailLost then s.clearLost r else s
    let s := s.modStr fun t => { t with phase1 := t.phase1.filter (· != asn), swaps := t.swaps.filter fun x => x.asn != asn }
    let s := s.modReq asn fun r => { r with phase := .complete, status := status, detail := detail, leaseHeld := false,
                                            timeEnd := s.clk.devTime, epochEnd := s.net.settled,
                                            wallEnd := s.host.wallOffset, swapWait := false, jobOut := false, failed := status != stOk }
    let s := s.modHub fun h => { h with jobs := h.jobs.filter fun j => j.kind.asn != some asn }
    s.modReqs fun q => { q with doneQ := q.doneQ ++ [asn] }

/-- Whether every wave of a step has left the last stage. -/
def State.stepDone (s : State) (r : Req) (m : Formation) (n : Nat) : Bool :=
  (List.range (r.d.waves n)).all fun w =>
    s.req.doneWu.contains (s.net.nodeId, { asn := r.asn, stage := m.nodes.length - 1, wave := w, step := .step n })

/-- Work units of the request still running on this node. -/
def State.stillRuns (s : State) (home asn : Nat) : Bool := s.req.running.any fun w => w.home == home && w.key.asn == asn

/-- Move a request on as far as it can go: the next output step, the commit, or its end. -/
def State.settleReq (s : State) (asn : Nat) : State :=
  match s.reqOf asn with
  | none => s
  | some r =>
    if r.phase == .complete || r.phase == .commit || r.jobOut then s
    else if r.failed then (if s.stillRuns s.net.nodeId asn then s else s.finish asn r.status r.detail)
    else
      match r.formation with
      | none => s
      | some m =>
        if r.stepsCopied < r.d.steps && s.stepDone r m r.stepsCopied then
          (s.modReq asn fun r => { r with jobOut := true }).addJob (.output asn r.stepsCopied)
        else if r.deadlinePassed then
          (if s.stillRuns s.net.nodeId asn then s
           else (s.openRecord asn stDeadline 0 none).finish asn stDeadline 0)
        else if r.stepsCopied < r.d.steps then s
        else if r.d.isStream && r.d.commit then
          (s.modReq asn fun r => { r with phase := .commit, jobOut := true }).addJob (.commit asn)
        else if r.kvLost = 0 then s.finish asn stOk 0
        else s.finish asn stKvTailLost (0x0900 + r.kvLost)

/-- The nodes other than this one that hold the request's tokens. -/
def remoteTokens (s : State) (r : Req) : List Nat := r.heldTokens.filter (· != s.net.nodeId)

/-- Fail an admitted request, whose record is written: ABORT to the other nodes, its waiting jobs dropped; it ends when nothing of it
runs. -/
def State.failWith (s : State) (asn status detail : Nat) (record : State → State) : State :=
  match s.reqOf asn with
  | none => s
  | some r =>
    if r.failed || r.phase == .complete then s else
    let s := record s
    let s := (remoteTokens s r).foldl (fun s n => s.sendMsgTo n 0x21 (bytesLE 8 asn ++ bytesLE 1 status) (.steward asn)) s
    let waiting := s.hub.jobs.any fun j => j.kind.asn == some asn && j.running
    let s := s.modHub fun h => { h with jobs := h.jobs.filter fun j => j.kind.asn != some asn || j.running }
    let s := s.modReq asn fun r =>
      { r with failed := true, status := status, detail := detail, jobOut := waiting,
               phase := if r.phase == .commit then .draining else r.phase }
    s.settleReq asn

def State.failReqAt (s : State) (asn status detail source inst addr : Nat) (info : List Byte) : State :=
  s.failWith asn status detail fun s => s.requestRecord asn status detail source inst addr info

/-- Fail with the record's SOURCE taken from the status: the function for a host transfer, the network for FABRIC_LOST, else a free
value (log entry 24). -/
def State.failReq (s : State) (asn status detail : Nat) : State :=
  match s.reqOf asn with
  | none => s
  | some r =>
    if status = stInputFault || status = stOutputFault then s.failReqAt asn status detail 0x0D r.f.val 0 []
    else if status = stFabricLost then s.failReqAt asn status detail 0x1C 0xFFFF 0 []
    else s.failWith asn status detail fun s => s.openRecord asn status detail none

/-! ## A fault of a work unit (R149) -/

/-- The faulting work unit of a bay ends its request: buffers drain, the work unit stops on all its bays, the contained record
names the bay, thread, pc and address, and the request fails; on a stage node the home node is told. -/
def State.wuFault (s : State) (b : Fin 80) (info : List Byte) (status detail addr : Nat) : State :=
  match (s.bay b).task with
  | none => s
  | some t =>
    let s := s.stopWu t.home t.wu true
    if t.home = s.net.nodeId then
      let ended := ((s.reqOf t.wu.asn).map fun r => r.failed || r.phase == .complete).getD true
      if ended then s.requestRecord t.wu.asn status detail 0x20 b.val addr info
      else s.failReqAt t.wu.asn status detail 0x20 b.val addr info
    else
      let s := s.error { cls := 1, source := 0x20, inst := b.val, code := if detail = 0 then 0x0140 + status else detail,
                         asn := some t.wu.asn, addr := addr, info := info }
      let s := s.modNet fun n => { n with pushRx := n.pushRx.filter fun x => !(x.home == t.home && x.key.asn == t.wu.asn) }
      s.sendMsgTo t.home 0x21 (bytesLE 8 t.wu.asn ++ bytesLE 1 status) (.steward t.wu.asn)

/-! ## Sending a push (R12, R272, R275, R342) -/

/-- The units of a coded body: for each its tag, then its lines, or 16 KiB when it is raw (R275, R342). -/
def codedBody : Nat → List Byte → List (BitVec 16 × List Byte)
  | 0, _ => []
  | fuel + 1, bs =>
    if bs.length < 64 then [] else
    let tag := BitVec.ofNat 16 (fieldLE bs 0 2)
    let n := if tagCoded tag then 64 * tagLines tag else unitBytes
    (tag, slice bs 64 n) :: codedBody fuel (bs.drop (64 + n))

/-- Coded units that a message carries: those of a coded ACT_PUSH (Tables 13.3 and 13.5; counted under TRUSS events 29 and 30). -/
def msgCodedUnits (msg : List Byte) : Nat :=
  if fieldLE msg 0 1 = 4 && bitOf (fieldLE msg 41 1) 0 then (codedBody 4 (msg.drop 64)).countP fun u => tagCoded u.1 else 0

/-- The 32-byte push header (Table 13.5). -/
def pushHeaderBytes (k : WuKey) (home : Nat) (coded last : Bool) (off total : Nat) : List Byte :=
  bytesLE 8 k.asn ++ bytesLE 1 home ++ bytesLE 1 (b2n coded + 2 * b2n last) ++ bytesLE 2 k.stage
    ++ bytesLE 4 (match k.step with | .context => max32 | .step n => n) ++ bytesLE 2 k.wave ++ [0, 0] ++ bytesLE 4 off
    ++ bytesLE 4 total ++ [0, 0, 0, 0]

/-- The messages of a push that travels raw: at most 65,536 bytes each, the last with LAST. -/
def rawPush (k : WuKey) (home : Nat) (bs : List Byte) : List (List Byte) :=
  let c := ceilDiv bs.length 65536
  (List.range c).map fun i => pushHeaderBytes k home false (i + 1 == c) (65536 * i) bs.length ++ slice bs (65536 * i) 65536

/-- The messages of a push that travels unit by unit: at most four units each, a unit as a 64-byte field with its tag and then its lines, or its
16 KiB when it is raw. -/
def codedPush (k : WuKey) (home : Nat) (us : List (BitVec 16 × List Byte)) : List (List Byte) :=
  let c := ceilDiv us.length 4
  (List.range c).map fun i => pushHeaderBytes k home true (i + 1 == c) (65536 * i) (unitBytes * us.length) ++
    ((us.drop (4 * i)).take 4).flatMap fun u => fit 64 (bytesLE 2 u.1.toNat) ++ u.2

/-- A unit as the sender's engines code it: one that is coded travels as stored, one under the raw rule raw (R275, R280). -/
def pushUnit (wide : Bool) (u : BitVec 16 × List Byte) : BitVec 16 × List Byte :=
  if tagCoded u.1 then u else
  match codeUnit wide u.2 with
  | some lines => (codedTag wide lines, lines)
  | none => (0, u.2)

/-- The messages of a push. -/
def State.sendPush (s : State) (x : PushTx) : State :=
  s.each x.bodies fun s body =>
    s.sendReq { dst := x.dst, vc := 2, mtype := 0x04, otag := x.key.wave % 16, arg := x.arg, body := body, purpose := .push x.home x.key }

/-- Retain a push at its sender and send it (R349). -/
def State.startPush (s : State) (x : PushTx) : State :=
  (s.modNet fun t => { t with pushTx := t.pushTx.filter (fun y => !(y.home == x.home && y.key == x.key)) ++ [x] }).sendPush x

/-- A push whose source cannot be read fails its request, at its home or by ABORT (R284). -/
def State.pushFails (s : State) (home asn : Nat) (why : Nat × Nat) : State :=
  if home = s.net.nodeId then s.failReq asn why.1 why.2
  else (s.openRecord asn why.1 why.2 none).sendMsgTo home 0x21 (bytesLE 8 asn ++ bytesLE 1 why.1) (.steward asn)

/-- Whether the program of a request codes its pushes (R272). -/
def State.codesPushes (s : State) (home asn : Nat) : Bool :=
  bitOf (((s.program (s.descOf home asn).program).map (·.codec)).getD 0) 0

/-- Where a push may start from or land: inside the request's reservations here, or in the working area of a bay that runs a task of the
request (log entry 23). -/
def State.pushPlace (s : State) (home asn a n : Nat) : Bool :=
  inRanges (s.grantRanges home asn) a n ||
    inRanges ((allBays.filter fun b => ((s.bay b).task.map fun u => u.home == home && u.wu.asn == asn).getD false).map fun b =>
      (bayBase b, bayBase b + s.w0)) a n

/-- The messages of a push of `n` bytes from `src`. Under ACT, with source and destination aligned to units and whole units, it travels
coded; any other push travels raw, its coded units expanded (R275). -/
def State.pushBodies (s : State) (home : Nat) (k : WuKey) (wide : Bool) (src dst n : Nat) : Except (Nat × Nat) (List (List Byte)) :=
  if s.codesPushes home k.asn && src % unitBytes == 0 && dst % unitBytes == 0 && n % unitBytes == 0 then
    (s.storedUnits src (n / unitBytes)).map fun us => codedPush k home (us.map (pushUnit wide))
  else (s.readExpanded src n).map (rawPush k home)

/-- The same for bytes from no place the model knows. -/
def State.freeBodies (s : State) (home : Nat) (k : WuKey) (wide : Bool) (src dst : Nat) (bs : List Byte) : List (List Byte) :=
  if s.codesPushes home k.asn && src % unitBytes == 0 && dst % unitBytes == 0 && bs.length % unitBytes == 0 then
    codedPush k home ((List.range (bs.length / unitBytes)).map fun i => pushUnit wide (0, slice bs (unitBytes * i) unitBytes))
  else rawPush k home bs

/-- Push the input of (stage, wave, step) to the stage's node. Where the output lies, how long it is, where it goes and the width it is coded
at are thread code's: the spec gives none of them, so to another node they are free values; the bytes are those at the source where it is
a place of the request here, else free (log entry 23). -/
def State.push (s : State) (home : Nat) (m : Formation) (k : WuKey) : State :=
  let dst := nodeOf m k.stage
  if dst = s.net.nodeId then s.deliverPush home k dst
  else
    let (v, s) := s.draw
    let (w, s) := s.draw
    let (z, s) := s.draw
    let src := v.toNat % 2 ^ 48
    let arg := w.toNat % 2 ^ 48
    let n := 1 + z.toNat % (2 ^ 32 - 1)
    let wide := bitOf z.toNat 63
    let x : PushTx := { home := home, key := k, dst := dst, arg := arg, bodies := [], responded := false, stepAcked := false }
    if s.pushPlace home k.asn src n then
      match s.pushBodies home k wide src arg n with
      | .ok bodies => (s.meetTagged src n).startPush { x with bodies := bodies }
      | .error why => (s.meetTagged src n).pushFails home k.asn why
    else
      let (bs, s) := s.drawBytes n
      s.startPush { x with bodies := s.freeBodies home k wide src arg bs }

/-- What follows a finished work unit (R12, R349): stage k pushes to stage k + 1; the last stage pushes to stage 0 for the next
step, while there is one. -/
def State.pushNext (s : State) (home : Nat) (d : Desc) (m : Formation) (k : WuKey) : State :=
  if k.stage + 1 < m.nodes.length then s.push home m { k with stage := k.stage + 1 }
  else
    match k.step with
    | .context => s.push home m { k with stage := 0, wave := 0, step := .step 0 }
    | .step n => if n + 1 < d.steps then s.push home m { k with stage := 0, step := .step (n + 1) } else s

/-! ## Reservations leave (R257, R344) -/

/-- Everything held for a request of a departed home node is dropped: work units, reservations, KV, pushes, barriers (R344). -/
def State.dropHome (s : State) (home asn : Nat) : State :=
  let wus := s.req.running.filter fun w => w.home == home && w.key.asn == asn
  let s := s.each wus fun s w => s.abandonWu home w.key
  let gs := s.grantsOf home asn
  let s := (s.freeKv home asn none).releaseHere home asn
  let s := s.each gs fun s g => s.remapReleased g.base g.size
  let s := s.modReqs fun q => { q with doneWu := q.doneWu.filter fun p => !(p.1 == home && p.2.asn == asn) }
  let s := s.modBars fun x => { x with fabric := x.fabric.filter fun b => !(b.home == home && b.asn == asn) }
  s.modNet fun n =>
    { n with pushRx := n.pushRx.filter (fun x => !(x.home == home && x.key.asn == asn)),
             pushTx := n.pushTx.filter fun x => !(x.home == home && x.key.asn == asn) }

/-- A release that waited for the running work units of a late request takes effect with the end of the last (R29). -/
def State.dropReleased (s : State) (home asn : Nat) : State :=
  if s.stillRuns home asn || !(s.quota.tokens.any fun k => k.home == home && k.asn == asn && k.released) then s
  else s.dropHome home asn

/-! ## A work unit completes (R101, R109, R125, R349) -/

def State.completeWu (s : State) (w : RunWu) : State :=
  let duration := s.clk.devTime - w.started
  let s := s.learnWu w duration
  let s := (s.countProg w.program 1 1).countProg w.program 5 w.measured
  let s := s.countFn w.f 15 (w.measured / 10)
  let s := (s.dropRun w.home w.key).modReqs fun q => { q with doneWu := q.doneWu ++ [(w.home, w.key)] }
  let s := s.dropReleased w.home w.key.asn
  let s := if w.home = s.net.nodeId then s.modReq w.key.asn fun r => { r with energy := r.energy + w.measured } else s
  match s.formationOf w.home w.key.asn with
  | none => s
  | some m =>
    let d := s.descOf w.home w.key.asn
    let stopped := w.home == s.net.nodeId && ((s.reqOf w.key.asn).map fun r => r.failed || r.deadlinePassed).getD true
    let s := if stopped then s else s.pushNext w.home d m w.key
    let lastStep := w.key.stage + 1 == m.nodes.length && w.key.step != .context
    let tells := lastStep && w.home != s.net.nodeId && (w.key.stage == 0 || nodeOf m (w.key.stage - 1) != w.home)
    let s := if tells then s.sendStepAck w.home w.key else s
    let s := s.ackInputs w.home w.key.asn
    if w.home = s.net.nodeId then
      let s := if w.key.stage + 1 = m.nodes.length && w.key.step == .context then
          s.modReq w.key.asn fun r => { r with phase := if r.phase == .context then .rolling else r.phase }
        else s
      s.settleReq w.key.asn
    else s

/-! ## The context phase starts (R3, R200, R202) -/

/-- Whether a request's program keeps its streams in the gallery. -/
def Req.usesGallery (s : State) (r : Req) : Bool :=
  match s.program r.d.program with
  | some p => p.streamClass.isSome && p.cellStage.isSome
  | none => false

/-- With the input fetched, and for a stream with the lease held, no swap in progress and its version told to every node of a PERSIST stage, the
context is ready at stage 0. -/
def State.tryContext (s : State) (asn : Nat) : State :=
  match s.reqOf asn with
  | none => s
  | some r =>
    match r.formation with
    | none => s
    | some m =>
      if r.phase == .context && r.inputFetched && !r.failed && (!r.d.isStream || (r.leaseHeld && !r.swapWait && !(s.kvOpen asn))) then
        let k : WuKey := { asn := asn, stage := 0, wave := 0, step := .context }
        if s.net.pushTx.any (fun p => p.home == s.net.nodeId && p.key == k) then s else s.push s.net.nodeId m k
      else s

end Sys2Proof.Machine
end

