-- ==== Sys2Proof/Machine/ThreadOps.lean ====
section
/-! DEFINITION. What all thread instructions share: issue, guard and exceptions, the checks on an address, and the thread's view of
memory (05, R124 to R130, R134 to R143, R149, R506). -/
namespace Sys2Proof.Machine
open Sys2Proof

/-! ## Exceptions (R149, Table 5.9) -/

/-- INFO of a thread's record: the thread in bytes 0 and 1, the pc in bytes 8 to 15 (R444). -/
def threadInfo (t : Fin 128) (pc : Word) : List Byte := bytesLE 2 t.val ++ List.replicate 6 0 ++ bytesLE 8 pc.toNat

/-- Raise the exception of a thread's instruction at `pc`: earlier stores become visible, the work unit stops, its request ends. -/
def State.exceptAt (s : State) (b : Fin 80) (t : Fin 128) (pc : Word) (status detail addr : Nat) : State :=
  s.wuFault b (threadInfo t pc) status detail addr

/-- Raise the exception of the instruction that a thread is at. -/
def State.except (s : State) (b : Fin 80) (t : Fin 128) (status detail addr : Nat) : State :=
  s.exceptAt b t (s.thr b t).pc status detail addr

def excIllegal : Nat := 0x0501
def excMisaligned : Nat := 0x0502
def excAddress : Nat := 0x0503
def excLocked : Nat := 0x0504
def excPoison : Nat := 0x0505
def excRemote : Nat := 0x0506
def excTrap : Nat := 0x0520
def excMbox : Nat := 0x0508
def excBar : Nat := 0x0509

/-! ## Issue (R126 to R128, R130) -/

/-- Accesses of a thread that have not yet taken effect for the observers of a scope (R138 to R140). A store sent to another node has, for
this node's observers: what they send there for the same bytes follows it in order (R336). -/
def Purpose.ofThread (p : Purpose) (scope : Scope) (b : Fin 80) (t : Fin 128) : Bool :=
  match p with
  | .load x y _ _ _ _ _ => x == b && y == t
  | .store x y _ => x == b && y == t && scope == .fabric
  | .atomic x y _ _ _ => x == b && y == t
  | .mover _ _ => false
  | .steward _ => false
  | .push _ _ => false
  | .weight _ => false
  | .kv _ _ => false
  | .other => false

def State.outstandingAcc (s : State) (scope : Scope) (b : Fin 80) (t : Fin 128) : Bool :=
  s.net.txns.any (fun x => x.purpose.ofThread scope b t) || s.net.unsent.any fun x => x.purpose.ofThread scope b t

/-- A tile instruction of the bay that has not completed. -/
def Bay.tileOpen (y : Bay) (tag : Nat) : Bool :=
  y.tileQueue.any (fun e => e.tag == tag) || (y.running.map fun r => r.entry.tag == tag).getD false

/-- A mover entry of the bay that has not completed. -/
def Bay.moveOpen (y : Bay) (tag : Nat) : Bool := y.movers.any fun m => m.queue.any fun e => e.tag == tag

/-- Whether what a thread waits for has come. -/
def State.waitOver (s : State) (b : Fin 80) (t : Fin 128) (on : WaitOn) : Bool :=
  let th := s.thr b t
  match on with
  | .value k => !(th.pend.contains k)
  | .room line => th.buf.length < 8 || th.buf.any (·.addr == line)
  | .accesses scope => !(s.outstandingAcc scope b t)
  | .tile tag => th.tileFault.isSome || !((s.bay b).tileOpen tag)
  | .move tag => th.moveFault.isSome || !((s.bay b).moveOpen tag)
  | .message => !th.mbox.isEmpty
  | .mailbox c u => (s.thr c u).exited || (s.thr c u).mbox.length < 4

/-- Whether a thread of a bay is ready (R126). -/
def State.threadReady (s : State) (b : Fin 80) (t : Fin 128) : Bool :=
  let th := s.thr b t
  !th.exited && (match th.wait with
    | .ready => true
    | .retry on => s.waitOver b t on
    | .barrier => false
    | .remote => false
    | .stopped => false)

/-- Thread `i` places after the one its core issued last. -/
def coreThread (c last i : Nat) : Fin 128 := ⟨(8 * c + (last + i) % 8) % 128, Nat.mod_lt _ (by decide)⟩

/-- The thread whose turn it is on a core: its first ready thread after the one it issued last (R126). -/
def State.turn (s : State) (b : Fin 80) (c : Nat) : Option (Fin 128) :=
  ((List.range 8).map fun i => coreThread c ((s.bay b).rr.getD c 7) (i + 1)).find? (s.threadReady b)

/-- Whether the thread can issue: the bay runs a task, and on its core it is the thread's turn. -/
def State.canIssue (s : State) (w : Issue) : Bool :=
  s.running && (s.bay w.bay).task.isSome && s.turn w.bay (w.thread.val / 8) == some w.thread

/-- A register an instruction reads or writes: general or vector. -/
inductive RegName where
  | g (n : BitVec 5)
  | v (n : BitVec 5)
deriving DecidableEq, Repr

def RegName.key : RegName → Bool × Nat
  | .g n => (false, n.toNat)
  | .v n => (true, n.toNat)

/-- How an instruction went: done, or the thread waits for something and issues it again. -/
inductive Ran where
  | done (s : State)
  | wait (s : State) (on : WaitOn)

/-- The pc lies in the program region of the active image (R127). -/
def State.fetchable (s : State) (pc : Word) : Bool := decide (t1Base ≤ pc.toNat) && decide (pc.toNat < s.cfg.programsEnd)

/-- An outstanding load of the thread into this register no longer writes it: register 32 stands for none. -/
def Purpose.unload (w : Issue) (k : Bool × Nat) (p : Purpose) : Purpose :=
  match p with
  | .load b t reg size sg vec pc =>
    if b = w.bay && t = w.thread && vec = k.1 && reg = k.2 then .load b t 32 size sg vec pc else p
  | _ => p

def Net.unload (n : Net) (w : Issue) (k : Bool × Nat) : Net :=
  { n with txns := n.txns.map (fun x => { x with purpose := x.purpose.unload w k }),
           unsent := n.unsent.map fun x => { x with purpose := x.purpose.unload w k } }

/-- A later write to the destination of an outstanding load: the load's value is dropped when it arrives. -/
def State.forgetLoads (s : State) (w : Issue) (r : RegName) : State :=
  let k := r.key
  if !((s.thr w.bay w.thread).pend.contains k) then s else
  (s.modNet fun n => n.unload w k).modThr w.bay w.thread fun t => { t with pend := t.pend.filter (· != k) }

/-- The issue slot is used: the bay's count, and the core's round-robin place (R126). -/
def State.issued (s : State) (w : Issue) : State :=
  (s.modBay w.bay fun y => { y with rr := y.rr.set (w.thread.val / 8) (w.thread.val % 8) }).countBay w.bay 1 1

/-- The state in which an instruction that takes effect runs: its thread ready, no value on its way into the register it writes. -/
def State.startOf (s : State) (w : Issue) (write : Option RegName) : State :=
  match write with
  | some r => (s.modThr w.bay w.thread fun t => { t with wait := .ready }).forgetLoads w r
  | none => s.modThr w.bay w.thread fun t => { t with wait := .ready }

/-- Issue one instruction (R126 to R130, R506): the pc is checked before the fetch; a false guard only moves past it; an illegal
encoding raises ILLEGAL_INSTR; an instruction that needs a loaded value not yet there waits. -/
def State.issue (s : State) (w : Issue) (legal : Bool) (reads : List RegName) (write : Option RegName)
    (run : State → Ran) : State :=
  if !(s.canIssue w) then s else
  let t := s.thr w.bay w.thread
  let s := s.modThr w.bay w.thread fun t => { t with wait := .ready }
  if t.pc.toNat % 4 ≠ 0 then (s.issued w).except w.bay w.thread stContained excMisaligned t.pc.toNat
  else if !(s.fetchable t.pc) then (s.issued w).except w.bay w.thread stContained excAddress t.pc.toNat
  else if !(t.guard w) then (s.issued w).modThr w.bay w.thread Thread.next
  else if !legal then (s.issued w).except w.bay w.thread stContained excIllegal 0
  else
    match reads.find? fun r => t.pend.contains r.key with
    | some r => s.modThr w.bay w.thread fun t => { t with wait := .retry (.value r.key) }
    | none =>
      let s0 := match write with
        | some r => s.forgetLoads w r
        | none => s
      match run s0 with
      | .done s1 => s1.issued w
      | .wait s1 on => s1.modThr w.bay w.thread fun t => { t with wait := .retry on }

/-- An instruction that only changes its own thread. -/
def State.issueThr (s : State) (w : Issue) (legal : Bool) (reads : List RegName) (write : Option RegName)
    (f : Thread → Thread) : State :=
  s.issue w legal reads write fun s => .done (s.modThr w.bay w.thread f)

/-- g[RD] = op of g[RA] and g[RB]. -/
def State.issueAlu (s : State) (w : Issue) (rd ra rb : BitVec 5) (op : Word → Word → Word) : State :=
  s.issueThr w true [.g ra, .g rb] (some (.g rd)) fun t => (t.setG rd (op (t.gr ra) (t.gr rb))).next

/-- PCMP: RD[4:3] = 3 is illegal. -/
def State.issueCmp (s : State) (w : Issue) (rd ra rb : BitVec 5) (op : Word → Word → Bool) : State :=
  s.issueThr w (rd.extractLsb' 3 2 != 3#2) [.g ra, .g rb] none fun t => (t.combine rd (op (t.gr ra) (t.gr rb))).next

/-- VOP function `f`; only FMA reads v[RD]. -/
def State.issueVop (s : State) (w : Issue) (legal : Bool) (ty : BitVec 3) (f : Nat) (rd ra rb : BitVec 5) : State :=
  s.issueThr w legal ([.v ra] ++ (if f = 0xB then [] else [.v rb]) ++ if f = 0x5 then [.v rd] else []) (some (.v rd)) fun t =>
    (t.setV rd (vop ty.toNat f (t.vr rd) (t.vr ra) (t.vr rb))).next

/-! ## Addresses (R134 to R137, R506) -/

inductive AccKind where
  | load | store | atomic
deriving DecidableEq, Repr

/-- What becomes of an access: the exception it raises, the store to CSR space that is not performed, a node of the formation that has
left (R150), or its target. -/
inductive Target where
  | misaligned
  | address
  | locked
  | csrStore
  | left
  | here (a : Nat)
  | remote (node a : Nat)
deriving DecidableEq, Repr

/-- The global address of a local one on a node. -/
def globalAddr (node a : Nat) : Nat := node * 2 ^ 56 + a

/-- Whether every byte of a range lies inside the request's reservations on this node (R135). -/
def State.inGrants (s : State) (home asn a n : Nat) : Bool :=
  inRanges (s.grantRanges home asn) a n

/-- The program's own weight objects. -/
def State.weightRanges (s : State) (program : Nat) : List (Nat × Nat) :=
  match s.program program with
  | none => []
  | some p => (s.cfg.manifest.filter fun e => p.objects.contains e.objectId).map fun e =>
      (s.cfg.programsEnd + e.t1Offset, s.cfg.programsEnd + e.t1Offset + e.bytes)

/-- Bay SRAM that a task may reach: the working areas of the bays that run a bay task of the same work unit (R135, R238). -/
def State.t0Allowed (s : State) (task : Task) (a n : Nat) : Bool :=
  let mine (b : Fin 80) : Bool := ((s.bay b).task.map fun u => u.home == task.home && u.wu == task.wu).getD false
  let b := bayIx (a / 0x800000)
  mine b && (decide (a % 0x800000 + n ≤ s.w0)
    || inRanges ((allBays.filter mine).map fun b => (bayBase b, bayBase b + s.w0)) a n)

/-- A thread's access to this node. -/
def State.targetHere (s : State) (task : Task) (k : AccKind) (a n : Nat) : Target :=
  match s.region a with
  | .t0 => if s.t0Allowed task a n then .here a else .address
  | .t1 =>
    if a < s.tenantBase then
      match k with
      | .store => .locked
      | .atomic => .address
      | .load =>
        if inRanges (s.weightRanges task.program ++ s.grantRanges task.home task.wu.asn) a n then .here a else .address
    else if s.inGrants task.home task.wu.asn a n then .here a else .address
  | .csr =>
    match k with
    | .load => .here a
    | .store => .csrStore
    | .atomic => .address
  | .t2 => if s.inGrants task.home task.wu.asn a n then .here a else .address
  | .host => .address
  | .none => .address

/-- Reservations on a node of a request homed here. -/
def Req.basesOn (r : Req) (node : Nat) : List PlacedItem := r.bases.filter fun i => i.node == node

def PlacedItem.meets (i : PlacedItem) (a n : Nat) : Bool := decide (i.base < a + n) && decide (a < i.base + i.size)

/-- What the issuing node can say of a range of another node's T1 or T2: at the request's home, whether it lies in the request's own
reservations there, and for T1 at least in no other request's, since the weights of the program may be read; elsewhere the target
decides alone (log entry 25). -/
def State.remoteGranted (s : State) (task : Task) (node a n : Nat) : Bool :=
  if task.home = s.net.nodeId then
    match s.reqOf task.wu.asn with
    | some r =>
      inRanges ((r.basesOn node).map fun i => (i.base, i.base + i.size)) a n ||
        (decide (a < t2Base) && !(s.req.table.any fun q => (q.basesOn node).any fun i => i.meets a n))
    | none => false
  else true

/-- A thread's access to another node (R135, R136, R150; log entry 25): T1, T2 and CSR space can be reached there, and the target node
judges by its own layout. -/
def State.targetThere (s : State) (task : Task) (k : AccKind) (node a n : Nat) : Target :=
  let inForm := match s.formationOf task.home task.wu.asn with
    | some m => m.nodes.any fun x => x.toNat == node
    | none => false
  if !(s.net.members.contains node) then (if inForm then .left else .address)
  else if (t1Base ≤ a && decide (a < t1Top)) || (t2Base ≤ a && decide (a < 0x050000000000)) then
    if s.remoteGranted task node a n then .remote node a else .address
  else if csrBase ≤ a && decide (a < csrBase + 0x1000000) && k != .atomic then .remote node a
  else .address

/-- The checks on an access of a thread, in the order of R506. -/
def State.target (s : State) (b : Fin 80) (k : AccKind) (addr : Word) (n : Nat) : Target :=
  let a := addr.toNat
  if a % n ≠ 0 then .misaligned
  else
    match (s.bay b).task, s.targetNode a with
    | some task, some node =>
      let l := localAddr a
      if 2 ^ 48 ≤ l then .address
      else if node = s.net.nodeId then s.targetHere task k l n
      else s.targetThere task k node l n
    | _, _ => .address

/-- A thread store refused by CSR space or a locked region, as R86 records it. -/
def State.refuseStore (s : State) (b : Fin 80) (addr : Nat) : State :=
  s.lockViolation 0x20 b.val addr (((s.bay b).task).map fun t => t.wu.asn)

/-- A node that the work unit reaches for has left the fabric: the work unit is abandoned to be run again, and its request, where this
is its home, completes with REPLAYED (R150). -/
def State.abandonLeft (s : State) (home : Nat) (k : WuKey) : State :=
  let s := s.abandonWu home k
  if home = s.net.nodeId then s.modReq k.asn fun r => { r with replayed := true } else s

/-- The exception or record of an access that is not performed; `go` for one that is. -/
def State.onTarget (s : State) (w : Issue) (addr : Word) (x : Target) (go : Nat → Nat → Ran) : Ran :=
  let a := addr.toNat
  let exc := fun (s : State) d => Ran.done (s.except w.bay w.thread stContained d a)
  match x with
  | .misaligned => exc s excMisaligned
  | .address => exc s excAddress
  | .locked => exc (s.refuseStore w.bay a) excLocked
  | .csrStore => .done ((s.refuseStore w.bay a).modThr w.bay w.thread Thread.next)
  | .left => .done (((s.bay w.bay).task).elim s fun t => s.abandonLeft t.home t.wu)
  | .here l => go s.net.nodeId l
  | .remote n l => go n l

/-! ## The store buffer (R137) -/

/-- The canonical line address of an access: node field 0 for this node. -/
def State.lineAddr (s : State) (node a : Nat) : Nat := (if node = s.net.nodeId then 0 else node * 2 ^ 56) + a / 64 * 64

/-- Buffer bytes of one line merged with a store. -/
def BufLine.put (l : BufLine) (off : Nat) (bs : List Byte) : BufLine :=
  { l with bytes := l.bytes.take off ++ bs.map some ++ l.bytes.drop (off + bs.length) }

/-- A line that thread `t`, at `pc`, begins. -/
def BufLine.empty (t : Fin 128) (pc : Word) (addr : Nat) : BufLine :=
  { addr := addr, bytes := List.replicate 64 none, thread := t, pc := pc }

/-- A store of thread `i` enters its buffer; none where a ninth line would be needed. -/
def Thread.bufStore (t : Thread) (i : Fin 128) (line off : Nat) (bs : List Byte) : Option Thread :=
  if t.buf.any (·.addr == line) then
    some { t with buf := t.buf.map fun l => if l.addr = line then l.put off bs else l }
  else if t.buf.length < 8 then some { t with buf := t.buf ++ [(BufLine.empty i t.pc line).put off bs] }
  else none

/-- The bytes of an access that lines hold. -/
def bufRead (buf : List BufLine) (line off n : Nat) : List (Option Byte) :=
  match buf.find? (·.addr == line) with
  | some l => (List.range n).map fun j => l.bytes.getD (off + j) none
  | none => List.replicate n none

/-- The bytes of an access that a thread sees before memory: its own stores, then those its bay holds (R137, R138). -/
def State.seenBytes (s : State) (w : Issue) (line off n : Nat) : List (Option Byte) :=
  ((bufRead (s.thr w.bay w.thread).buf line off n).zip (bufRead (s.bay w.bay).shared line off n)).map fun p => p.1.orElse fun _ => p.2

/-- Drain the line that holds an address: the bay's, then the thread's own. -/
def State.drainOne (s : State) (w : Issue) (line : Nat) : State :=
  let s := s.landShared w.bay line
  match (s.thr w.bay w.thread).buf.find? (·.addr == line) with
  | none => s
  | some l => (s.landLine w.bay l).modThr w.bay w.thread fun t => { t with buf := t.buf.filter (·.addr != line) }

/-- Release: the buffer drains for the observers of the scope, and earlier accesses must have taken effect for them (R138 to R140); `go`
when they have. -/
def State.release (s : State) (w : Issue) (scope : Scope) (go : State → Ran) : Ran :=
  let s := if scope = .bay then s.drainBay w.bay w.thread else s.drainAll w.bay w.thread
  if s.outstandingAcc scope w.bay w.thread then .wait s (.accesses scope) else go s

/-! ## Reading device memory as a thread does -/

/-- How the home's read of bytes of T0, T1, T2 or CSR space ends. -/
def State.homeRead (s : State) (a n : Nat) : ReadEnd × List Byte :=
  match s.region a with
  | .csr => (.ok, s.csrBytes (a - csrBase) n)
  | _ => (s.readEnd a n, s.mem.read a n)

/-- What a read leaves behind: traffic and corrected errors. -/
def State.homeMeet (s : State) (a n : Nat) : State := if s.region a = .csr then s else s.meet a n

end Sys2Proof.Machine
end

