-- ==== Sys2Proof/Machine/BayOps.lean ====
section
/-! DEFINITION. Tags and their faults in a bay, the end of a bay task's threads, and barriers at the three scopes (05, R125, R145,
R146; 06, R156, R157, R172; 09, R221; 10, R243, R247, R248; 13, R345). -/
namespace Sys2Proof.Machine
open Sys2Proof

/-! ## Faults of tile instructions and mover entries -/

/-- Raise a tag's fault in a thread. -/
def State.raiseFault (s : State) (b : Fin 80) (t : Fin 128) (f : FaultInfo) : State := s.except b t f.status f.detail 0

def tileFaultOf (detail : Nat) : FaultInfo := { exc := 0x0A, status := stContained, detail := detail }
def poisonFault : FaultInfo := { exc := 0x05, status := stPoison, detail := excPoison }

/-- An entry's fault for a device that is absent (R248, R265). -/
def absentFault : FaultInfo := { exc := 0x05, status := stPoison, detail := 0x0A10 }

/-- The fault of a READ that another node refused (R248). -/
def RemotePiece.fault (p : RemotePiece) : FaultInfo :=
  if p.status = 2 then (if p.detail = 0x0A10 then absentFault else poisonFault) else tileFaultOf 0x0A06

/-- Tile instructions of a thread not yet completed. -/
def Bay.tileOut (y : Bay) (t : Fin 128) : Nat :=
  (y.tileQueue.filter fun e => e.thread == t).length + b2n ((y.running.map fun r => r.entry.thread == t).getD false)

/-- Entries of a thread in a mover's queue. -/
def Mover.outOf (m : Mover) (t : Fin 128) : Nat := (m.queue.filter fun e => e.thread == t).length

def Bay.mover (y : Bay) (m : Fin 2) : Mover := y.movers.getD m.val Mover.reset
def State.modMover (s : State) (b : Fin 80) (m : Fin 2) (f : Mover → Mover) : State :=
  s.modBay b fun y => { y with movers := y.movers.modify m.val f }

/-- A tile instruction has failed: its tag is complete, and the fault waits for its thread, or is raised now where the thread has
exited (R156). -/
def State.failTile (s : State) (b : Fin 80) (e : QEntry) (f : FaultInfo) : State :=
  let s := s.modBay b fun y => { y with tileFailed := y.tileFailed ++ [(e.tag, f)] }
  if (s.thr b e.thread).exited then s.raiseFault b e.thread f
  else s.modThr b e.thread fun t => { t with tileFault := some (t.tileFault.getD f) }

/-- A mover entry has failed, or was not started because an earlier one did (R247, R248). Only the failed entry's own thread has
the fault pending. -/
def State.failMove (s : State) (b : Fin 80) (e : QEntry) (f : FaultInfo) (own : Bool) : State :=
  let s := s.modBay b fun y => { y with moveFailed := y.moveFailed ++ [(e.tag, f)] }
  if !own then s
  else if (s.thr b e.thread).exited then s.raiseFault b e.thread f
  else s.modThr b e.thread fun t => { t with moveFault := some (t.moveFault.getD f) }

/-! ## The end of a bay task's threads (R125, R172, R221) -/

def Bay.allExited (y : Bay) : Bool := y.threads.all (·.exited)
def Bay.tilesDone (y : Bay) : Bool := y.tileQueue.isEmpty && y.running.isNone
def Bay.moversDone (y : Bay) : Bool := y.movers.all fun m => m.queue.isEmpty

/-- Once every thread has exited: a producer left without a consumer is a fault, and with the movers empty the bound KV slots are
parked. `t` is the thread named in the fault. -/
def State.afterExit (s : State) (b : Fin 80) (t : Fin 128) : State :=
  match (s.bay b).task with
  | none => s
  | some task =>
    let y := s.bay b
    if !y.allExited then s
    else if y.tilesDone && y.drain.isSome then s.raiseFault b t (tileFaultOf 0x0606)
    else if y.moversDone then s.parkBay b task
    else s

/-! ## Barriers (R145, R146) -/

/-- A thread released by a barrier goes on after its BAR. -/
def State.wake (s : State) (p : Fin 80 × Fin 128) : State :=
  s.modThr p.1 p.2 fun t => { t.next with wait := .ready }

/-- One more arrival at a slot. -/
def Barrier.arrive (x : Option Barrier) (count : Nat) (p : Fin 80 × Fin 128) : Barrier :=
  match x with
  | some g => { g with arrived := g.arrived + 1, waiting := g.waiting ++ [p] }
  | none => { count := count, arrived := 1, waiting := [p] }

def Barrier.full (g : Barrier) : Bool := decide (g.count ≤ g.arrived)

/-- The waiting mark of a thread at a barrier. -/
def State.park (s : State) (p : Fin 80 × Fin 128) : State := s.modThr p.1 p.2 fun t => { t with wait := .barrier }

def State.arriveBay (s : State) (b : Fin 80) (t : Fin 128) (slot count : Nat) : State :=
  let g := Barrier.arrive ((s.bay b).barriers.getD slot none) count (b, t)
  if g.full then (s.modBay b fun y => { y with barriers := y.barriers.set slot none }).each g.waiting State.wake
  else (s.modBay b fun y => { y with barriers := y.barriers.set slot (some g) }).park (b, t)

def State.nodeBar (s : State) (task : Task) (slot : Nat) : Option Barrier :=
  (s.bars.node.find? fun x => x.home == task.home && x.wu == task.wu && x.slot == slot).map (·.bar)

def State.arriveNode (s : State) (task : Task) (b : Fin 80) (t : Fin 128) (slot count : Nat) : State :=
  let g := Barrier.arrive (s.nodeBar task slot) count (b, t)
  let rest := s.bars.node.filter fun x => !(x.home == task.home && x.wu == task.wu && x.slot == slot)
  if g.full then (s.modBars fun x => { x with node := rest }).each g.waiting State.wake
  else
    let e : NodeBar := { home := task.home, wu := task.wu, slot := slot, bar := g }
    (s.modBars fun x => { x with node := rest ++ [e] }).park (b, t)

/-- A fabric barrier slot of a request, between generations where none is in progress. -/
def State.fabricBar (s : State) (home asn slot : Nat) : FabricBar :=
  (s.bars.fabric.find? fun x => x.home == home && x.asn == asn && x.slot == slot).getD
    { home := home, asn := asn, slot := slot, generation := 0, bar := { count := 0, arrived := 0, waiting := [] },
      byNode := [], unsent := 0, sentAt := none }

def State.setFabricBar (s : State) (f : FabricBar) : State :=
  s.modBars fun x =>
    { x with fabric := x.fabric.filter (fun y => !(y.home == f.home && y.asn == f.asn && y.slot == f.slot)) ++ [f] }

/-- The 16 bytes of a BARRIER message: request, slot, generation, count; the widths inside the 16 bytes are the model's (DESIGN
CHOICE, log entry 26). -/
def barrierBody (asn slot generation count : Nat) : List Byte :=
  bytesLE 8 asn ++ bytesLE 1 slot ++ bytesLE 3 generation ++ bytesLE 4 count

/-- A generation of a fabric slot is complete: the first `n` local threads that wait go on, and those beyond them have begun the next
one (R145). -/
def State.releaseFabric (s : State) (f : FabricBar) (n : Nat) (later : List (Nat × Nat)) : State :=
  let s := s.each (f.bar.waiting.take n) State.wake
  let rest := f.bar.waiting.drop n
  let count := if rest.isEmpty && later.isEmpty then 0 else f.bar.count
  s.setFabricBar { f with generation := f.generation + 1, bar := { count := count, arrived := rest.length, waiting := rest },
                          byNode := later }

/-- At the home node: when the total reaches the count, every node that arrived is sent a release with how many of its arrivals it covers
(R345; log entry 26). Arrivals of `from_`, the last to arrive, beyond the count begin the next generation (R145); `fuel` bounds how many
generations they complete. -/
def State.settleFabric (s : State) (f : FabricBar) (from_ : Nat) : Nat → State
  | 0 => s.setFabricBar f
  | fuel + 1 =>
    let total := (f.byNode.map (·.2)).sum
    if f.bar.count = 0 || total < f.bar.count then s.setFabricBar f
    else
      let excess := total - f.bar.count
      let mine := keySet f.byNode from_ (keyGet f.byNode from_ - excess)
      let s := (mine.filter fun p => p.1 != s.net.nodeId).foldl (fun (s : State) p =>
        s.sendReq { dst := p.1, vc := 3, mtype := 0x07, otag := 0, arg := 1 + 2 * p.2,
                    body := barrierBody f.asn f.slot f.generation f.bar.count, purpose := .steward f.asn }) s
      let s := s.releaseFabric f (keyGet mine s.net.nodeId) (if excess = 0 then [] else [(from_, excess)])
      s.settleFabric (s.fabricBar f.home f.asn f.slot) from_ fuel

def FabricBar.addArrivals (f : FabricBar) (node n : Nat) : FabricBar :=
  { f with byNode := keySet f.byNode node (keyGet f.byNode node + n) }

/-- Whether this node may send arrivals for a slot: it is the home, or holds the slot's lease. -/
def Net.holdsSlot (n : Net) (home asn slot : Nat) : Bool :=
  n.leases.any fun l => l.side == .held && l.peer == home &&
    (match l.key with
     | .barrierSlot a k => a.toNat == asn && k.val == slot
     | .stream _ _ => false
     | .token _ => false)

def State.arriveFabric (s : State) (task : Task) (b : Fin 80) (t : Fin 128) (slot count : Nat) : State :=
  let f := s.fabricBar task.home task.wu.asn slot
  let g : Barrier := { count := count, arrived := f.bar.arrived + 1, waiting := f.bar.waiting ++ [(b, t)] }
  let s := s.park (b, t)
  if task.home = s.net.nodeId then s.settleFabric ({ f with bar := g }.addArrivals s.net.nodeId 1) s.net.nodeId 2
  else
    let s := s.setFabricBar { f with bar := g, unsent := f.unsent + 1 }
    if s.net.holdsSlot task.home task.wu.asn slot || f.bar.arrived ≠ 0 then s
    else s.sendReq { dst := task.home, vc := 0, mtype := 0x06, otag := 0, arg := 0,
                     body := leaseBody 0 2 task.wu.asn slot s.net.settled, purpose := .steward task.wu.asn }

/-- BAR: its checks (R146), then a release, then the arrival. `cur` is the count of the generation in progress. -/
def State.issueBar (s : State) (w : Issue) (scope : Scope) (rd ra : BitVec 5) (ord : BitVec 4) (slots maxCount : Nat)
    (cur : State → Task → Nat → Option Nat) (arrive : State → Task → Nat → Nat → State) : State :=
  s.issue w (ord == 0#4) [.g ra, .g rd] none fun s =>
    match (s.bay w.bay).task with
    | none => .done s
    | some task =>
      let t := s.thr w.bay w.thread
      let slot := (t.gr ra).toNat
      let count := (t.gr rd).toNat
      let bad := count = 0 || decide (maxCount < count) || decide (slots ≤ slot)
        || ((cur s task slot).map fun c => decide (c ≠ count)).getD false
      if bad then .done (s.except w.bay w.thread stContained excBar 0)
      else s.release w scope fun s => .done ((arrive s task slot count).countBay w.bay 7 1)

end Sys2Proof.Machine
end

