-- ==== Sys2Proof/Machine/ArrayOps.lean ====
section
/-! DEFINITION. Tile instructions: the descriptor's fields, the checks of Tables 6.3 and 7.2, the operands with their shim zeros,
the accumulation of each cell, and the riser ramp (06; 07; 04, R117). -/
namespace Sys2Proof.Machine
open Sys2Proof

/-! ## The descriptor (Table 6.1) -/

abbrev TileDesc := List Byte

def TileDesc.top (d : TileDesc) : Nat := fieldLE d 0x00 1
def TileDesc.fmtA (d : TileDesc) : Nat := fieldLE d 0x01 1 % 16
def TileDesc.fmtB (d : TileDesc) : Nat := fieldLE d 0x01 1 / 16
def TileDesc.fmtOut (d : TileDesc) : Nat := fieldLE d 0x02 1 % 16
def TileDesc.flag (d : TileDesc) (i : Nat) : Bool := bitOf (fieldLE d 0x03 1) i
def TileDesc.acc (d : TileDesc) : Bool := d.flag 0
def TileDesc.chainOut (d : TileDesc) : Bool := d.flag 1
def TileDesc.keep (d : TileDesc) : Bool := d.flag 2
def TileDesc.aDrain (d : TileDesc) : Bool := d.flag 3
def TileDesc.bDrain (d : TileDesc) : Bool := d.flag 4
def TileDesc.aT (d : TileDesc) : Bool := d.flag 5
def TileDesc.bT (d : TileDesc) : Bool := d.flag 6
def TileDesc.m (d : TileDesc) : Nat := fieldLE d 0x04 2
def TileDesc.n (d : TileDesc) : Nat := fieldLE d 0x06 2
def TileDesc.k (d : TileDesc) : Nat := fieldLE d 0x08 2
def TileDesc.mV (d : TileDesc) : Nat := fieldLE d 0x0A 1
def TileDesc.nV (d : TileDesc) : Nat := fieldLE d 0x0B 1
def TileDesc.kV (d : TileDesc) : Nat := fieldLE d 0x0C 2
def TileDesc.outAddr (d : TileDesc) : Nat := fieldLE d 0x30 8
def TileDesc.outStride (d : TileDesc) : Nat := fieldLE d 0x38 4
/-- The operand descriptor: `o` is 0x10 for A, 0x20 for B. -/
def TileDesc.opAddr (d : TileDesc) (o : Nat) : Nat := fieldLE d o 8
def TileDesc.opStride (d : TileDesc) (o : Nat) : Nat := fieldLE d (o + 8) 4
def TileDesc.opSrc (d : TileDesc) (o : Nat) : Nat := fieldLE d (o + 12) 1
def TileDesc.isConv (d : TileDesc) : Bool := d.top == 2

/-- Bytes of an element (Table 6.2). -/
def fmtBytes (f : Nat) : Nat := laneWidth f / 8

/-! ## The window descriptor (Table 7.1) -/

structure Window' where
  inAddr : Nat
  rowStride : Nat
  pixStride : Nat
  cIn : Nat
  hIn : Nat
  wIn : Nat
  ho : Nat
  wo : Nat
  p0 : Nat
  cb : Nat
  cg : Nat
  r : Nat
  s : Nat
  strH : Nat
  strW : Nat
  dilH : Nat
  dilW : Nat
  ziH : Nat
  ziW : Nat
  padT : Nat
  padL : Nat
  reserved : Bool
deriving DecidableEq, Repr

def Window'.parse (b : List Byte) : Window' :=
  { inAddr := fieldLE b 0 8, rowStride := fieldLE b 8 4, pixStride := fieldLE b 0x0C 2, cIn := fieldLE b 0x0E 2,
    hIn := fieldLE b 0x10 2, wIn := fieldLE b 0x12 2, ho := fieldLE b 0x14 2, wo := fieldLE b 0x16 2, p0 := fieldLE b 0x18 4,
    cb := fieldLE b 0x1C 2, cg := fieldLE b 0x1E 2, r := fieldLE b 0x20 1, s := fieldLE b 0x21 1, strH := fieldLE b 0x22 1,
    strW := fieldLE b 0x23 1, dilH := fieldLE b 0x24 1, dilW := fieldLE b 0x25 1, ziH := fieldLE b 0x26 1,
    ziW := fieldLE b 0x27 1, padT := fieldLE b 0x28 2, padL := fieldLE b 0x2A 2, reserved := allZero (slice b 0x2C 20) }

/-- The taps in k order (R181): passes of at most 7 by 7 taps, row-major; in a pass r, then s, then c innermost. -/
def Window'.taps (w : Window') : List (Nat × Nat × Nat) :=
  (List.range (ceilDiv w.r 7)).flatMap fun i =>
    (List.range (ceilDiv w.s 7)).flatMap fun j =>
      (List.range (min 7 (w.r - 7 * i))).flatMap fun r =>
        (List.range (min 7 (w.s - 7 * j))).flatMap fun s =>
          (List.range w.cg).map fun c => (7 * i + r, 7 * j + s, c)

/-- The address of the element of row m at a tap; none for a shim zero (R180). -/
def Window'.element (w : Window') (es m : Nat) (t : Nat × Nat × Nat) : Option Nat :=
  let p := w.p0 + m
  let oy := if w.wo = 0 then 0 else p / w.wo
  let ox := if w.wo = 0 then 0 else p % w.wo
  let y := oy * w.strH + t.1 * w.dilH
  let x := ox * w.strW + t.2.1 * w.dilW
  if y < w.padT || x < w.padL then none else
  let ey := y - w.padT
  let ex := x - w.padL
  if (w.hIn - 1) * w.ziH < ey || (w.wIn - 1) * w.ziW < ex || ey % w.ziH ≠ 0 || ex % w.ziW ≠ 0 then none
  else some (w.inAddr + ey / w.ziH * w.rowStride + ex / w.ziW * w.pixStride + (w.cb + t.2.2) * es)

/-! ## Checks 2 to 5 (Table 6.3) -/

def opReservedOk (d : TileDesc) (o : Nat) : Bool := allZero (slice d (o + 13) 3)

/-- Check 2: TOP and the reserved fields; an operand from the drain is ignored. -/
def check2 (d : TileDesc) : Bool :=
  (d.top == 1 || d.top == 2) && fieldLE d 0x02 1 / 16 == 0 && !(d.flag 7) && allZero (slice d 0x0E 2)
    && allZero (slice d 0x3C 4) && (d.aDrain || opReservedOk d 0x10) && (d.bDrain || opReservedOk d 0x20)

/-- The format triples of Table 6.4. -/
def formatOk (a b o : Nat) : Bool :=
  let fp := o == 6 || o == 4 || o == 5 || o == 7 || o == 8
  (a == 0 && b == 0 && o == 2)
    || ((a == 7 || a == 8) && (b == 7 || b == 8) && fp)
    || ((a == 4 || a == 5) && (b == 4 || b == 5) && fp)

/-- Check 3. -/
def check3 (d : TileDesc) : Bool :=
  formatOk d.fmtA d.fmtB d.fmtOut && !(d.chainOut && (d.fmtOut == 2 || d.fmtOut == 6))
    && !(d.acc && !(d.fmtOut == 6 || d.fmtOut == 2))

/-- Check 4. -/
def check4 (d : TileDesc) : Bool :=
  decide (1 ≤ d.m) && decide (d.m ≤ 128) && decide (1 ≤ d.n) && decide (d.n ≤ 128) && decide (1 ≤ d.k) && decide (d.k ≤ 4096)
    && decide (d.mV ≤ d.m) && decide (d.nV ≤ d.n) && decide (d.kV ≤ d.k)

/-- Bytes of an engine-ready tile (R242). -/
def tileBytes (es : Nat) : Nat := 16384 * es

/-- Check 5 for one operand: stored rows and their bytes. -/
def strideOk (d : TileDesc) (o es : Nat) (transposed : Bool) (rows cols : Nat) : Bool :=
  let a := d.opAddr o
  let st := d.opStride o
  if d.opSrc o = 0 then
    a % 64 == 0 && st % 64 == 0 && (decide (rows ≤ 1) || decide (cols * es ≤ st))
  else if d.opSrc o = 1 then
    !transposed && a % tileBytes es == 0 && st % tileBytes es == 0
      && (decide (ceilDiv d.k 128 ≤ 1) || decide (tileBytes es ≤ st))
  else true

def check5 (d : TileDesc) : Bool :=
  let ea := fmtBytes d.fmtA
  let eb := fmtBytes d.fmtB
  (d.aDrain || d.isConv || (if d.aT then strideOk d 0x10 ea true d.k d.m else strideOk d 0x10 ea false d.m d.k))
    && (d.bDrain || (if d.bT then strideOk d 0x20 eb true d.n d.k else strideOk d 0x20 eb false d.k d.n))
    && d.outAddr % 64 == 0 && d.outStride % 64 == 0 && (decide (d.m ≤ 1) || decide (d.n * fmtBytes d.fmtOut ≤ d.outStride))

/-! ## Regions and check 6 -/

/-- A run of bytes of device memory: address and length. -/
abbrev Span := Nat × Nat

/-- Bytes inside this bay's own working area. -/
def State.inOwnBay (s : State) (b : Fin 80) (x : Span) : Bool :=
  decide (bayBase b ≤ x.1) && decide (x.1 + x.2 ≤ bayBase b + s.w0)

/-- Rows of an operand in bay SRAM that are read. -/
def sramRows (addr stride es rows cols : Nat) : List Span :=
  if cols = 0 then [] else (List.range rows).map fun r => (addr + r * stride, cols * es)

/-- Lines of engine-ready tiles that are read: k below `ks`, `lanes` lanes of each. -/
def tileLines (addr stride es ks lanes : Nat) : List Span :=
  if lanes = 0 then [] else (List.range ks).map fun k => (addr + k / 128 * stride + k % 128 * 128 * es, lanes * es)

/-- The bytes of operand A or B that are read, by row of storage. `o` is the operand, `outer` its m or n extent that is valid. -/
def operandSpans (d : TileDesc) (o es : Nat) (kRows : Bool) (outer : Nat) : List Span :=
  if d.opSrc o = 1 then tileLines (d.opAddr o) (d.opStride o) es d.kV outer
  else if kRows then sramRows (d.opAddr o) (d.opStride o) es d.kV outer
  else sramRows (d.opAddr o) (d.opStride o) es outer d.kV

def aSpans (d : TileDesc) : List Span :=
  if d.aDrain || d.nV = 0 || d.isConv then [] else operandSpans d 0x10 (fmtBytes d.fmtA) d.aT d.mV
def bSpans (d : TileDesc) : List Span :=
  if d.bDrain || d.mV = 0 then [] else operandSpans d 0x20 (fmtBytes d.fmtB) (!d.bT) d.nV
def outSpans (d : TileDesc) : List Span := sramRows d.outAddr d.outStride (fmtBytes d.fmtOut) d.mV d.nV

/-- Bytes of T1 that an operand may read (R135). -/
def State.t1Readable (s : State) (task : Task) (x : Span) : Bool :=
  decide (t1Base ≤ x.1) && decide (x.1 + x.2 ≤ t1Top)
    && inRanges (s.grantRanges task.home task.wu.asn ++ s.weightRanges task.program) x.1 x.2

def State.opOk (s : State) (b : Fin 80) (task : Task) (d : TileDesc) (o : Nat) (spans : List Span) : Bool :=
  if d.opSrc o = 0 then spans.all (s.inOwnBay b)
  else if d.opSrc o = 1 then
    decide (t1Base ≤ d.opAddr o) && decide (d.opAddr o < t1Top) && spans.all (s.t1Readable task)
  else false

/-- Elements a CONV reads: those of valid rows at taps below K_VALID, where a valid column uses them. -/
def convReads (d : TileDesc) (w : Window') : List Span :=
  if d.nV = 0 then [] else
  let es := fmtBytes d.fmtA
  ((List.range d.mV).flatMap fun m => (w.taps.take d.kV).filterMap fun t => w.element es m t).map fun a => (a, es)

def State.check6 (s : State) (b : Fin 80) (task : Task) (d : TileDesc) (w : Window') : Bool :=
  (d.aDrain || (if d.isConv then (convReads d w).all (s.inOwnBay b) else s.opOk b task d 0x10 (aSpans d)))
    && (d.bDrain || s.opOk b task d 0x20 (bSpans d))
    && decide (bayBase b ≤ d.outAddr) && decide (d.outAddr < bayBase b + 0x800000) && (outSpans d).all (s.inOwnBay b)

/-! ## Check 7: chaining (R172) -/

def check7 (d : TileDesc) (dr : Option Drain) : Bool :=
  match dr with
  | none => !d.aDrain && !d.bDrain
  | some p =>
    (d.aDrain != d.bDrain)
      && (if d.bDrain then d.fmtB == p.fmt && d.k == p.m && d.n == p.n else d.fmtA == p.fmt && d.m == p.m && d.k == p.n)

/-! ## CONV checks (Table 7.2) -/

def checkC1 (s : State) (b : Fin 80) (d : TileDesc) : Bool :=
  d.opAddr 0x10 % 64 == 0 && s.inOwnBay b (d.opAddr 0x10, 64) && d.opStride 0x10 == 0 && d.opSrc 0x10 == 0 && !d.aT && !d.aDrain

def checkC2 (w : Window') : Bool := decide (1 ≤ w.r) && decide (w.r ≤ 35) && decide (1 ≤ w.s) && decide (w.s ≤ 35)

def in14 (n : Nat) : Bool := decide (1 ≤ n) && decide (n ≤ 4)

def checkC3 (w : Window') : Bool :=
  in14 w.strH && in14 w.strW && in14 w.dilH && in14 w.dilW && in14 w.ziH && in14 w.ziW
    && !(decide (1 < w.ziH) && decide (1 < w.strH)) && !(decide (1 < w.ziW) && decide (1 < w.strW))
    && decide (w.padT ≤ (w.r - 1) * w.dilH) && decide (w.padL ≤ (w.s - 1) * w.dilW)

def checkC4 (d : TileDesc) (w : Window') : Bool :=
  let es := fmtBytes d.fmtA
  decide (1 ≤ w.cg) && decide (w.cb + w.cg ≤ w.cIn) && d.k == w.r * w.s * w.cg
    && decide (1 ≤ w.cIn) && decide (1 ≤ w.hIn) && decide (1 ≤ w.wIn) && decide (1 ≤ w.ho)
    && decide (1 ≤ w.wo) && w.inAddr % 64 == 0 && w.rowStride % 64 == 0 && w.pixStride % es == 0
    && decide (w.cIn * es ≤ w.pixStride) && w.reserved

def checkC5 (d : TileDesc) (w : Window') : Bool := decide (w.p0 + d.mV ≤ w.ho * w.wo)

/-- C6: the output region, M rows of N elements (R155), overlaps the range from the lowest to the highest input byte read. -/
def checkC6 (d : TileDesc) (w : Window') : Bool :=
  match convReads d w with
  | [] => true
  | x :: rest =>
    let lo := rest.foldl (fun m y => min m y.1) x.1
    let hi := rest.foldl (fun m y => max m (y.1 + y.2)) (x.1 + x.2)
    (sramRows d.outAddr d.outStride (fmtBytes d.fmtOut) d.m d.n).all fun o => decide (o.1 + o.2 ≤ lo) || decide (hi ≤ o.1)

/-- The DETAIL of the first check that fails (R156, R185). -/
def State.tileCheck (s : State) (b : Fin 80) (task : Task) (d : TileDesc) (w : Window') (dr : Option Drain) : Option Nat :=
  if !(check2 d) then some 0x0601
  else if d.isConv && !(checkC1 s b d) then some 0x0702
  else if d.isConv && !(checkC2 w) then some 0x0701
  else if d.isConv && !(checkC3 w) then some 0x0703
  else if d.isConv && !(checkC4 d w) then some 0x0704
  else if d.isConv && !(checkC5 d w) then some 0x0705
  else if d.isConv && !(checkC6 d w) then some 0x0706
  else if !(check3 d) then some 0x0602
  else if !(check4 d) then some 0x0603
  else if !(check5 d) then some 0x0604
  else if !(s.check6 b task d w) then some 0x0605
  else if !(check7 d dr) then some 0x0606
  else none

/-! ## Operands and their shim zeros (R155, R162, R163) -/

/-- The elements of a byte string. -/
def elementsOf (es : Nat) : Nat → List Byte → List Nat
  | 0, _ => []
  | n + 1, bs => natLE (bs.take es) :: elementsOf es n (bs.drop es)

/-- Read spans of bay SRAM; the failure is POISON. -/
def State.readSpans (s : State) : List Span → Except FaultInfo (List (List Byte))
  | [] => .ok []
  | x :: t =>
    match s.readEnd x.1 x.2 with
    | .ok =>
      match s.readSpans t with
      | .ok r => .ok (s.mem.read x.1 x.2 :: r)
      | .error e => .error e
    | .poison => .error poisonFault
    | .absent => .error poisonFault

/-- Status and DETAIL of R285. -/
def widthFault : FaultInfo := tileFaultOf 0x0B01

/-- Read spans of T1 through the tags of their units (R281, R285). -/
def State.readCodedSpans (s : State) (wide : Bool) : List Span → Except FaultInfo (List (List Byte))
  | [] => .ok []
  | x :: t =>
    match s.readInUnit wide x.1 x.2 with
    | .ok bs =>
      match s.readCodedSpans wide t with
      | .ok r => .ok (bs :: r)
      | .error e => .error e
    | .poison => .error poisonFault
    | .absent => .error poisonFault
    | .width => .error widthFault

def State.readOperand (s : State) (d : TileDesc) (o es : Nat) (spans : List Span) : Except FaultInfo (List (List Nat)) :=
  let r := if d.opSrc o = 1 then s.readCodedSpans (es == 2) spans else s.readSpans spans
  match r with
  | .ok rows => .ok (rows.map fun bs => elementsOf es (bs.length / es) bs)
  | .error e => .error e

/-- Element (i, j) of stored rows; none where it was not read. -/
def cellAt (rows : List (List Nat)) (i j : Nat) : Option Nat :=
  match rows[i]? with
  | some r => r[j]?
  | none => none

/-- An operand as a function of its outer index (m or n) and k; none is a shim zero. -/
abbrev Operand := Nat → Nat → Option Nat

/-- The rows and columns of a producer's output that its consumer multiplies: those valid for both (R163). -/
def drainUse (d : TileDesc) (p : Drain) : Nat × Nat :=
  if d.mV = 0 || d.nV = 0 then (0, 0)
  else if d.aDrain then (min p.mValid d.mV, min p.nValid d.kV)
  else (min p.mValid d.kV, min p.nValid d.nV)

/-- In NONE mode the consumer reads those elements where the producer wrote them (R173). -/
def drainSpans (d : TileDesc) (chained : Bool) (dr : Option Drain) : List Span :=
  match dr with
  | some p =>
    if chained || !(d.aDrain || d.bDrain) then []
    else sramRows p.addr p.stride (fmtBytes p.fmt) (drainUse d p).1 (drainUse d p).2
  | none => []

/-- A drain operand within the producer's valid extents and the consumer's. -/
def State.drainRows (s : State) (d : TileDesc) (chained : Bool) (p : Drain) : Except FaultInfo (List (List Nat)) :=
  if chained then .ok p.rows else
  match s.readSpans (drainSpans d chained (some p)) with
  | .ok rows => .ok (rows.map fun bs => elementsOf (fmtBytes p.fmt) (drainUse d p).2 bs)
  | .error e => .error e

/-- Operand A. -/
def State.operandA (s : State) (d : TileDesc) (w : Window') (dr : Option Drain) (chained : Bool) : Except FaultInfo Operand :=
  let es := fmtBytes d.fmtA
  if d.aDrain then
    match dr with
    | none => .ok fun _ _ => none
    | some p =>
      match s.drainRows d chained p with
      | .ok rows => .ok fun m k => if m < d.mV && k < d.kV then cellAt rows m k else none
      | .error e => .error e
  else if d.isConv then
    let addrs := fun m => (w.taps.take d.kV).map fun t => w.element es m t
    match s.readSpans (convReads d w) with
    | .error e => .error e
    | .ok _ => .ok fun m k =>
        if d.mV ≤ m || d.nV = 0 then none else
        match (addrs m)[k]? with
        | some (some a) => some (natLE (s.mem.read a es))
        | some none => none
        | none => none
  else
    match s.readOperand d 0x10 es (aSpans d) with
    | .error e => .error e
    | .ok rows => .ok fun m k => if m < d.mV && k < d.kV then (if d.aT || d.opSrc 0x10 = 1 then cellAt rows k m else cellAt rows m k) else none

/-- Operand B. -/
def State.operandB (s : State) (d : TileDesc) (dr : Option Drain) (chained : Bool) : Except FaultInfo Operand :=
  let es := fmtBytes d.fmtB
  if d.bDrain then
    match dr with
    | none => .ok fun _ _ => none
    | some p =>
      match s.drainRows d chained p with
      | .ok rows => .ok fun n k => if n < d.nV && k < d.kV then cellAt rows k n else none
      | .error e => .error e
  else
    match s.readOperand d 0x20 es (bSpans d) with
    | .error e => .error e
    | .ok rows => .ok fun n k => if n < d.nV && k < d.kV then (if d.bT && d.opSrc 0x20 ≠ 1 then cellAt rows n k else cellAt rows k n) else none

/-- The units of T1 that spans of an SRC 1 operand touch. -/
def spanUnits (spans : List Span) : List Nat := spans.foldl (fun acc x => insertNat acc (x.1 / unitBytes)) []

/-- What reading an operand leaves behind: corrected errors and traffic, and the units expanded or read raw (R281). -/
def State.meetOperand (s : State) (b : Fin 80) (src : Nat) (spans : List Span) : State :=
  if src = 1 then
    let us := spanUnits spans
    let coded := us.countP fun u => tagCoded (s.mem.tagOf u)
    let s := s.each us fun s u =>
      if tagCoded (s.mem.tagOf u) then s.meet (u * unitBytes) (64 * tagLines (s.mem.tagOf u)) else s
    let s := s.each spans fun s x => if tagCoded (s.mem.tagOf (x.1 / unitBytes)) then s else s.meet x.1 x.2
    (s.countBay b 27 coded).countBay b 29 (us.length - coded)
  else s.each spans fun s x => s.meet x.1 x.2

/-! ## The cells (R152, R159 to R162) -/

/-- One k-step in binary32: the product rounded, then the sum rounded. -/
def mac32 (fa fb : Fmt) (acc a b : Nat) : Nat :=
  Fmt.f32.add acc (Fmt.f32.round ((fa.decode a).mul (fb.decode b)))

/-- One k-step in INT32. -/
def macInt (acc a b : Nat) : Nat := ofSigned 32 ((acc : Int) + toSigned 8 a * toSigned 8 b)

/-- One k-step of a cell; a shim zero on either side leaves the accumulator (R162). -/
def macStep (fa fb : Nat) (acc : Nat) (a b : Option Nat) : Nat :=
  match a, b with
  | some x, some y =>
    match floatTy fa, floatTy fb with
    | some p, some q => mac32 p q acc x y
    | _, _ => macInt acc x y
  | _, _ => acc

/-- A cell's accumulation in increasing k. -/
def cellAcc (fa fb : Nat) (a b : Nat → Option Nat) (start k : Nat) : Nat :=
  (List.range k).foldl (fun acc i => macStep fa fb acc (a i) (b i)) start

/-- The conversion of an accumulator to the output format (R160). -/
def convertOut (fmt acc : Nat) : Nat :=
  match floatTy fmt with
  | some f => f.round (Fmt.f32.decode acc)
  | none => acc

/-- What an instruction computes: its valid output rows, in FMT_OUT bits. -/
def State.tileResult (s : State) (d : TileDesc) (w : Window') (dr : Option Drain) (chained : Bool) :
    Except FaultInfo (List (List Nat)) :=
  let eo := fmtBytes d.fmtOut
  match s.operandA d w dr chained, s.operandB d dr chained, (if d.acc then s.readSpans (outSpans d) else .ok []) with
  | .error e, _, _ => .error e
  | _, .error e, _ => .error e
  | _, _, .error e => .error e
  | .ok a, .ok b, .ok start =>
    .ok ((List.range d.mV).map fun m => (List.range d.nV).map fun n =>
      convertOut d.fmtOut (cellAcc d.fmtA d.fmtB (a m) (b n)
        (if d.acc then natLE (slice (start.getD m []) (n * eo) eo) else 0) d.k))

/-- The bytes of output rows. -/
def outCells (d : TileDesc) (rows : List (List Nat)) : List (Nat × List Byte) :=
  (List.range rows.length).map fun i => (d.outAddr + i * d.outStride, (rows.getD i []).flatMap (bytesLE (fmtBytes d.fmtOut)))

/-! ## Riser ramp tokens (R117, R168) -/

/-- Take a token of a tile. -/
def State.takeToken (s : State) (t : Fin 4) : State :=
  (s.modStew fun x => { x with tokens := x.tokens.modify t.val (· - 1), tokensOut := x.tokensOut.modify t.val (· + 1) }
    ).countTile t.val 14 1

def State.freeTokens (s : State) (t : Fin 4) : Nat := s.stew.tokens.getD t.val 0

/-- Wait for a token, behind those that wait already. -/
def State.waitToken (s : State) (b : Fin 80) : State :=
  s.modStew fun x => { x with tokenWait := x.tokenWait.modify (tileOf b).val fun w => if w.contains b then w else w ++ [b] }

def State.leaveWait (s : State) (b : Fin 80) : State :=
  s.modStew fun x => { x with tokenWait := x.tokenWait.modify (tileOf b).val fun w => w.filter (· != b) }

/-- Begin a ramp-up: the first 16 rows (Table 6.7). -/
def State.rampUp (s : State) (b : Fin 80) : State :=
  let now := s.clk.devTime
  ((s.takeToken (tileOf b)).modBay b fun y => { y with ramp := .up, rampAt := now, rowGroups := 1 }).countBay b 15 1

/-- Begin an ordinary ramp-down, the mirror of it. -/
def State.rampDown (s : State) (b : Fin 80) : State :=
  let now := s.clk.devTime
  ((s.takeToken (tileOf b)).modBay b fun y => { y with ramp := .down, rampAt := now, rowGroups := 7 }).countBay b 16 1

/-- A token is free for a bay: none of its tile waits before it (R117). -/
def State.tokenFor (s : State) (b : Fin 80) : Bool :=
  decide (0 < s.freeTokens (tileOf b)) && (((s.stew.tokenWait.getD (tileOf b).val []).head?.map (· == b)).getD true)

/-- Make the array ready to run: active, or ramping up with a token; else it waits. -/
def State.readyArray (s : State) (b : Fin 80) : State × Bool :=
  match (s.bay b).ramp with
  | .active => (s.leaveWait b, true)
  | .up => (s, true)
  | .down => (s, false)
  | .off => if s.tokenFor b then ((s.leaveWait b).rampUp b, true) else (s.waitToken b, false)

/-- A bay's program runs with CHAINED fusion (R171). -/
def State.chained (s : State) (task : Task) : Bool := ((s.program task.program).map (·.chained)).getD false

end Sys2Proof.Machine
end

