-- ==== Sys2Proof/Machine/Array.lean ====
section
/-! DEFINITION. The matrix array of a bay: an instruction reaching the head of its queue, its completion, and the riser ramp (06,
R152 to R175; 07, R178 to R188; 04, R117, R118). -/
namespace Sys2Proof.Machine
open Sys2Proof

/-- The window descriptor of a CONV whose address is good; an all-zero one otherwise. -/
def State.windowOf (s : State) (b : Fin 80) (d : TileDesc) : Window' :=
  Window'.parse (if d.isConv && checkC1 s b d then s.mem.read (d.opAddr 0x10) 64 else List.replicate 64 0)

/-- Take the head instruction off the queue as failed: it touches no array and writes nothing (R156). A producer's output that
awaited it is not used by a later one (R172); `next` is what a consumer of its own finds. -/
def State.failHead (s : State) (b : Fin 80) (e : QEntry) (f : FaultInfo) (next : Option Drain) : State :=
  let s := s.modBay b fun y => { y with tileQueue := y.tileQueue.drop 1, drain := next }
  (s.failTile b e f).afterExit b e.thread

/-- What an instruction with CHAIN_OUT leaves for its consumer: its output rows, or its failure. -/
def TileDesc.product (d : TileDesc) (rows : List (List Nat)) (failed : Option FaultInfo) : Option Drain :=
  if d.chainOut then
    some { m := d.m, n := d.n, mValid := d.mV, nValid := d.nV, fmt := d.fmtOut, rows := rows, addr := d.outAddr,
           stride := d.outStride, failed := failed }
  else none

/-- The read of a CONV's window descriptor, with what it leaves behind (R150, R178). -/
def State.meetWindow (s : State) (b : Fin 80) (d : TileDesc) : State :=
  if d.isConv && check2 d && checkC1 s b d then s.meet (d.opAddr 0x10) 64 else s

/-- Start the head instruction on a ready array: what it will have written when its tag completes. -/
def State.startTile (s : State) (b : Fin 80) (task : Task) (e : QEntry) (w : Window') (dr : Option Drain) : State :=
  let d : TileDesc := e.desc
  let chained := s.chained task
  let res := s.tileResult d w dr chained
  let s := s.meetOperand b (d.opSrc 0x10) (aSpans d)
  let s := s.meetOperand b (d.opSrc 0x20) (bSpans d)
  let s := s.each ((if d.isConv then convReads d w else []) ++ drainSpans d chained dr) fun s x => s.meet x.1 x.2
  let failed := match res with
    | .ok _ => none
    | .error f => some f
  let rows := match res with
    | .ok r => r
    | .error _ => []
  let run : RunTile :=
    { entry := e, outs := if d.chainOut && chained && !d.keep then [] else outCells d rows, failed := failed,
      producer := d.product rows failed }
  let s := s.modBay b fun y => { y with tileQueue := y.tileQueue.drop 1, running := some run, drain := none }
  if d.isConv then s.countBay b 19 (ceilDiv w.r 7 * ceilDiv w.s 7 - 1) else s

/-- The head of the queue, of the kind asked for, meets the checks of R156 and R185 and starts, once the array is ready. -/
def State.headTile (s : State) (b : Fin 80) (conv : Bool) : State :=
  let y := s.bay b
  match y.task, y.running, y.tileQueue with
  | some task, none, e :: _ =>
    let d : TileDesc := e.desc
    if !s.running || d.isConv != conv then s else
    let w := s.windowOf b d
    if check2 d && conv && checkC1 s b d && s.readEnd (d.opAddr 0x10) 64 != .ok then (s.meetWindow b d).failHead b e poisonFault none
    else
      match s.tileCheck b task d w y.drain with
      | some detail => (s.meetWindow b d).failHead b e (tileFaultOf detail) none
      | none =>
        match y.drain.bind (·.failed) with
        | some f => (s.meetWindow b d).failHead b e f (d.product [] (some f))
        | none =>
          let (s, ready) := s.readyArray b
          if ready then (s.meetWindow b d).startTile b task e w y.drain else s
  | _, _, _ => s

/-- The instruction at the head of a bay's queue, of whichever kind, meets its checks and starts if the array is ready. -/
def State.headAny (s : State) (b : Fin 80) : State :=
  match (s.bay b).tileQueue with
  | e :: _ => s.headTile b (TileDesc.isConv e.desc)
  | [] => s

def doMmul (bay : Fin 80) (s : State) : State := s.headTile bay false
def execMmul (bay : Fin 80) (s : State) : Host.Outcome State Fault Refusal := .next (doMmul bay s)

def doConv (bay : Fin 80) (s : State) : State := s.headTile bay true
def execConv (bay : Fin 80) (s : State) : Host.Outcome State Fault Refusal := .next (doConv bay s)

/-- The running instruction ends: its output is written, or it has failed while it ran; its tag completes, and a producer's output
awaits its consumer (R157, R163, R173). -/
def doTileTagComplete (bay : Fin 80) (s : State) : State :=
  match (s.bay bay).running with
  | none => s
  | some r =>
    let s := s.modBay bay fun y => { y with running := none, drain := r.producer, ramp := .active, rowGroups := 8 }
    match r.failed with
    | some f =>
      let s := if f = widthFault then s.modMem fun m => { m with widthFaults := satInc m.widthFaults } else s
      (s.failTile bay r.entry f).afterExit bay r.entry.thread
    | none =>
      let s := s.each r.outs fun s p => s.memWrite p.1 p.2
      (s.countBay bay 9 1).afterExit bay r.entry.thread
def execTileTagComplete (bay : Fin 80) (s : State) : Host.Outcome State Fault Refusal := .next (doTileTagComplete bay s)

/-- No new bay task within 16 cycles: an active array takes a token and ramps down, or waits for one (R169). -/
def doArrayRampDown (bay : Fin 80) (s : State) : State :=
  let y := s.bay bay
  if y.task.isSome || (s.rampView bay).1 != .active || y.running.isSome then s
  else if s.tokenFor bay then (s.leaveWait bay).rampDown bay
  else s.waitToken bay
def execArrayRampDown (bay : Fin 80) (s : State) : Host.Outcome State Fault Refusal := .next (doArrayRampDown bay s)

/-- A cell step at the head of a mover's queue of the bay. -/
def Bay.cellWaits (y : Bay) : Bool := y.movers.any fun m => (m.queue.head?.map fun e => fieldLE e.desc 0 1 == 0x40).getD false

/-- Whether a bay that waits for a token still needs it: an instruction is at the head of the queue of an array that is off, or the array
is active and the bay has no task. -/
def State.needsToken (s : State) (b : Fin 80) : Bool :=
  let y := s.bay b
  match (s.rampView b).1 with
  | .off => y.task.isSome && (!y.tileQueue.isEmpty || y.cellWaits)
  | .active => y.task.isNone
  | .up => false
  | .down => false

/-- A token returns and goes to the array that has waited longest: it ramps up with the instruction at its head, which meets its checks
first, or ramps down (R117, R156, R168, R169). -/
def doRampTokenReturn (tile : Fin 4) (s : State) : State :=
  if s.stew.tokensOut.getD tile.val 0 = 0 then s else
  let s := s.modStew fun x =>
    { x with tokensOut := x.tokensOut.modify tile.val (· - 1), tokens := x.tokens.modify tile.val (· + 1) }
  let keep := (s.stew.tokenWait.getD tile.val []).filter s.needsToken
  let s := s.modStew fun x => { x with tokenWait := x.tokenWait.set tile.val keep }
  match keep with
  | [] => s
  | b :: _ =>
    if (s.bay b).ramp != .off then (s.leaveWait b).rampDown b
    else if (s.bay b).tileQueue.isEmpty then (s.leaveWait b).rampUp b
    else s.headAny b
def execRampTokenReturn (tile : Fin 4) (s : State) : Host.Outcome State Fault Refusal := .next (doRampTokenReturn tile s)

/-- The ramp-down ends: the array is off; an instruction that waited for this meets its checks, takes a token and ramps it up (R156, R169). -/
def doArrayOff (bay : Fin 80) (s : State) : State :=
  if (s.bay bay).ramp != .down then s else
  let s := s.modBay bay fun y => { y with ramp := .off, rowGroups := 0, maxLag := 0 }
  s.headAny bay
def execArrayOff (bay : Fin 80) (s : State) : Host.Outcome State Fault Refusal := .next (doArrayOff bay s)

end Sys2Proof.Machine
end

