-- ==== Sys2Proof/Machine/Admission.lean ====
section
/-! DEFINITION. Fetch arbitration, the admission checks, formations, the attempt for reservation tokens and the start of the
context phase (01 R11, R19, R20; 03 R84; 04 R106; 10 R253 to R258; 13 R346 to R348; 14 R361, R366, R367; 16 R424). -/
namespace Sys2Proof.Machine
open Sys2Proof

/-! ## The slot a fetch needs (R11, R366, R367, R372) -/

/-- Entries of the hold queue. -/
def holdEntries : Nat := 4096

/-- Hold-queue entries occupied, and those that fetched requests have reserved. -/
def State.holdUsed (s : State) : Nat := s.host.holdQ.length + s.req.table.countP fun r => r.slot == .hold

/-- Audit-ring slots that fetched requests hold. -/
def State.ringHeld (s : State) : Nat :=
  s.req.table.countP (fun r => r.slot == .ring) + s.host.holdQ.countP fun h => h.slot == .ring && !h.audDone

/-- Audit-ring slots free against AUD_HEAD after the slots already held. -/
def State.audFree (s : State) : Nat :=
  let p := s.page 0
  2 ^ p.audLog2.toNat - (p.audTail - p.audHead).toNat - s.ringHeld

def State.slotFree (s : State) : Bool :=
  decide (s.holdUsed < holdEntries) && (!(s.page 0).armed || decide (0 < s.audFree))

/-- Where the record of a request fetched now will wait. -/
def State.slotKind (s : State) : SlotKind := if (s.page 0).armed then .ring else .hold

/-! ## The next function to fetch from (R106) -/

/-- R20: an admission of the function, a wake request's (R423) included, is not settled. -/
def State.admissionBlocked (s : State) (f : Fin 16) : Bool :=
  s.req.table.any fun r => r.f == f && (r.phase == .waiting13 || r.phase == .tokens)

/-- A function whose ring holds a descriptor that can be fetched. -/
def State.fetchEligible (s : State) (f : Fin 16) : Bool :=
  let p := s.page f
  p.armed && (f.val == 0 || p.vfEnabled) && p.reqHead != p.reqTail && s.canSend f && !(s.admissionBlocked f)

def State.canFetch (s : State) : Bool := s.running && !s.clk.p3Entering && !s.req.quiesced && !s.isFatal && s.slotFree

def State.weightOf (s : State) (f : Fin 16) : Nat := s.tun.weight.getD f.val 0

/-- Smooth weighted round robin: the counts after adding the weights, and the largest count, the lowest function winning a tie. -/
def State.chooseFn (s : State) : Option (Fin 16 × List Int) :=
  let el := allFns.filter s.fetchEligible
  let cur := el.foldl (fun (c : List Int) f => c.modify f.val (· + (s.weightOf f : Int))) s.stew.cur
  let best := el.foldl (fun (b : Option (Fin 16)) f =>
    match b with
    | none => some f
    | some g => if cur.getD g.val 0 < cur.getD f.val 0 then some f else some g) none
  best.map fun f => (f, cur.modify f.val (· - ((el.map s.weightOf).sum : Int)))

/-! ## Checks 1 to 10 (Table 1.2) -/

/-- PRESENT and enabled: check 1 (R361, R89). -/
def State.tenantEnabled (s : State) (f : Fin 16) : Bool := (s.tenantCfg f).present && s.tun.enable.getD f.val false

/-- Branch steps strictly increase, and steps and factors lie in range (R14). -/
def branchesOk (steps : Nat) : Nat → List (Nat × Nat) → Bool
  | _, [] => true
  | prev, (t, b) :: rest =>
    decide (2 ≤ b) && decide (b ≤ 16) && decide (prev < t) && decide (t + 1 ≤ steps) && branchesOk steps t rest

/-- A count of the descriptor exceeds the shape class or a limit of R14. -/
def overPlan (d : Desc) (c : ShapeClass) : Bool :=
  decide (min c.maxBranch 4 < d.branchCount) || decide (c.maxContext < d.contextCount) || decide (min c.maxF0 4096 < d.futures)
    || decide (min c.maxLeaves 4096 < d.leaves) || decide (min c.maxSteps 1024 < d.steps)

def kindAccepted (d : Desc) (c : ShapeClass) : Bool :=
  (d.kind == 0 && c.kindFrames) || (d.kind == 1 && c.kindStream)

/-- The first of checks 1 to 10 that fails, as status and DETAIL. -/
def State.earlyChecks (s : State) (f : Fin 16) (d : Desc) : Option (Nat × Nat) :=
  if !(s.tenantEnabled f) then some (stTenantDisabled, 0x0101)
  else if d.format ≠ 1 then some (stUnknown, 0x0102)
  else
    match s.program d.program with
    | none => some (stUnknown, 0x0103)
    | some p =>
      match p.shape d.shapeClass with
      | none => some (stUnknown, 0x0104)
      | some c =>
        if !(kindAccepted d c) then some (stUnknown, 0x0105)
        else if d.futures = 0 || d.steps = 0 || (d.kind = 0 && d.contextCount = 0) then some (stEmpty, 0x0106)
        else if overPlan d c then some (stShape, 0x0107)
        else if !(branchesOk d.steps 0 d.branches) then some (stShape, 0x0108)
        else if d.inputBytes ≠ c.rIn * d.contextCount || (!p.audioInput && d.inputAddr % 64 ≠ 0) then
          some (stInputFault, 0x0109)
        else if d.outputBytes < c.rOut * d.sumN d.steps || d.outputAddr % 64 ≠ 0 then some (stOutputFault, 0x010A)
        else none


/-! ## Formations (R346 to R348, R451) -/

/-- Whether this node may take a stage of a program; a failed weight object does not count against it (R84, log entry 29). -/
def State.selfEligible (s : State) (p : Program) : Bool :=
  s.isReady && !s.net.isolated && decide (p.maxBays ≤ s.unfencedBays)

/-- Eligibility of a member for the stages of a program. -/
def State.eligible (s : State) (p : Program) (n : Nat) : Bool :=
  s.net.members.contains n &&
    (if n = s.net.nodeId then s.selfEligible p
     else s.net.caps.any fun c => c.origin.toNat == n && c.entries.any fun e =>
       e.program.toNat == p.number && e.verified && e.digest == p.digest)

def State.placeEntry (s : State) (p : Program) (k : Nat) : Option PlaceEntry :=
  s.cfg.fabric.places.find? fun e => e.program == p.number && e.stage == k

/-- Stage k by the first rule of R347 that yields a node; `lower` holds the nodes of the lower stages. -/
def State.placeStage (s : State) (p : Program) (k : Nat) (lower : List Nat) : Option Nat :=
  let e := s.placeEntry p k
  let cand := ((e.map (·.cand)).getD []).filter (· != 0xFF)
  let first := (cand.map fun c => if c = 0xFE then s.net.nodeId else c).find? (s.eligible p)
  match first with
  | some n => some n
  | none =>
    if (e.map (·.any)).getD true then
      let el := s.net.members.filter (s.eligible p)
      match el.find? fun n => !(lower.contains n) with
      | some n => some n
      | none => el.head?
    else none

/-- The node of a PERSIST stage whose sequence of the request's stream lies on an eligible member (R233; log entry 21). -/
def State.keptNode (s : State) (p : Program) (t : Fin 16) (d : Desc) (k : Nat) : Option Nat :=
  if d.isStream && ((p.stages[k]?).map (·.persist)).getD false then (s.kvPlace t d.streamId p.number k).filter (s.eligible p) else none

def State.placeStages (s : State) (p : Program) (t : Fin 16) (d : Desc) : Nat → List Nat → Option (List Nat)
  | 0, nodes => some nodes
  | n + 1, nodes =>
    match (s.keptNode p t d nodes.length).or (s.placeStage p nodes.length nodes) with
    | none => none
    | some x => s.placeStages p t d n (nodes ++ [x])

/-- The formation of a request at the settled epoch. -/
def State.form (s : State) (p : Program) (t : Fin 16) (d : Desc) : Option Formation :=
  (s.placeStages p t d p.stages.length []).map fun ns =>
    { epoch := BitVec.ofNat 32 s.net.settled, program := BitVec.ofNat 8 p.number, nodes := ns.map (BitVec.ofNat 8) }

/-- The formation record of R348. -/
def formationBytes (m : Formation) : List Byte :=
  bytesLE 4 m.epoch.toNat ++ [m.program] ++ bytesLE 2 m.nodes.length ++ m.nodes

/-- The nodes of a formation in ascending order. -/
def formationNodes (m : Formation) : List Nat := m.nodes.foldl (fun acc n => insertNat acc n.toNat) []

/-! ## Reservation tokens (R255, R256) -/

/-- A token for a request on this node: its grants, and the token with its epoch; none is a refusal. -/
def State.grantToken (s : State) (home asn : Nat) (t : Fin 16) (m : Formation) (desc : Desc) (items : List DemandItem)
    (gallery : Option (Nat × Nat)) : Option (State × List PlacedItem) :=
  match s.evalDemand asn home t items gallery with
  | none => none
  | some (s1, ps) =>
    let k : TokenHeld :=
      { asn := asn, home := home, number := s1.quota.nextToken, leaseEpoch := s1.net.settled, tenant := t, formation := m,
        desc := desc, released := false, version := 0 }
    some (s1.modQuota fun q => { q with tokens := q.tokens ++ [k], nextToken := q.nextToken + 1 }, ps)

def itemBytes (i : DemandItem) : List Byte :=
  (match i.kind with
   | .scratch k t => [BitVec.ofNat 8 t] ++ bytesLE 2 k
   | .kvSpace k => [3] ++ bytesLE 2 k
   | .inputStaging => [4, 0, 0]
   | .outputStaging => [5, 0, 0]) ++ bytesLE 8 i.bytes

/-- The body of TOKEN_REQ; the widths of its fields are the model's (log entry 26). -/
def tokenReqBytes (home asn tenant epoch : Nat) (m : Formation) (items : List DemandItem) : List Byte :=
  bytesLE 1 home ++ bytesLE 8 asn ++ bytesLE 1 tenant ++ bytesLE 4 epoch ++ formationBytes m ++ items.flatMap itemBytes

/-- Release what an attempt or a request holds: here, and by TOKEN_RELEASE elsewhere (R255, R257). -/
def State.releaseTokens (s : State) (asn : Nat) : State :=
  match s.reqOf asn with
  | none => s
  | some r =>
    let s := (remoteTokens s r).foldl (fun (s : State) n => s.sendMsgTo n 0x13 (bytesLE 8 asn) (.steward asn)) s
    let gs := s.grantsOf s.net.nodeId asn
    let s := s.releaseHere s.net.nodeId asn
    let s := s.each gs fun s g => s.remapReleased g.base g.size
    let s := s.modNet fun n =>
      { n with leases := n.leases.filter fun l => !(l.key == .token (BitVec.ofNat 64 asn) && l.side == .held) }
    s.modReq asn fun r => { r with heldTokens := [], askNodes := [], bases := [] }

/-- The slot size of the class of a request's program. -/
def State.slotSizeOf (s : State) (r : Req) : Nat :=
  match (s.program r.d.program).bind (·.streamClass) with
  | some c => (s.streamClass c).slotSize
  | none => 0

/-- A backing pair reserved and not committed returns to the pool. -/
def State.returnBacking (s : State) (asn : Nat) : State :=
  match s.reqOf asn with
  | none => s
  | some r =>
    match r.backing with
    | none => s
    | some a => (s.giveBacking r.f a (s.slotSizeOf r)).modReq asn fun r => { r with backing := none }

/-- A request that fails admission: it holds nothing and computes nothing (R19). -/
def State.failAdmission (s : State) (asn status detail : Nat) : State :=
  match s.reqOf asn with
  | none => s
  | some r =>
    let s := ((s.releaseTokens asn).returnBacking asn).countFn r.f 3 1
    let s := if status = stQuota then s.countFn r.f 10 1 else if status = stTenantDisabled then s.countFn r.f 11 1 else s
    s.finish asn status detail

/-- A refused attempt: every token of it is released, and the request waits or fails by POLICY (R20, R255). -/
def State.refuseAttempt (s : State) (asn : Nat) : State :=
  match s.reqOf asn with
  | none => s
  | some r =>
    if (s.tenantCfg r.f).failPolicy then s.failAdmission asn stQuota 0x010D
    else
      (((s.releaseTokens asn).returnBacking asn).modReq asn fun r => { r with phase := .waiting13 }).countFn r.f 4 1

/-! ## The start of the context phase (R3, R84, R228, R424) -/

/-- The lowest manifest entry of the program that is not verified. -/
def State.badWeight (s : State) (p : Program) : Option Nat :=
  (List.range s.cfg.manifest.length).find? fun i =>
    p.objects.contains ((s.cfg.manifest[i]?.map (·.objectId)).getD 0) && s.boot.weights.getD i .pending != .verified

/-- The bytes of a pre-roll ring as a host or a program reads it: sets not recorded read zero and come first (R413). -/
def Sent.ringBytes (x : Sent) : List Byte :=
  List.replicate (8 * (62500 - x.ring.length)) 0 ++
    x.ring.flatMap fun set => (List.range 4).flatMap fun b => bytesLE 2 (ofSigned 16 (set.getD b 0))

/-- Input bytes reach the input staging raw, on this node or, in WRITE messages of at most 4,096 bytes, on another; the tags of their units
become raw (R271; log entry 57). -/
def State.stageInput (s : State) (r : Req) (data : List Byte) : State :=
  match r.bases.find? fun b => b.kind == .inputStaging with
  | none => s
  | some b =>
    if b.node = s.net.nodeId then s.writeTagged false false b.base data
    else s.each (List.range (ceilDiv data.length 4096)) fun s i =>
      s.sendReq { dst := b.node, vc := 0, mtype := 0x02, otag := addrOtag (b.base + 4096 * i), arg := 2 ^ 48 + b.base + 4096 * i,
                  body := slice data (4096 * i) 4096, purpose := .steward r.asn }

/-- A PERSIST stage and a STREAM_ID at or above KV_STREAMS (R228). -/
def State.streamTooHigh (s : State) (r : Req) (p : Program) : Bool :=
  r.d.isStream && p.stages.any (·.persist)
    && decide ((s.cfg.pers.places.getD r.f.val TenantPlace.zero).kvStreams ≤ r.d.streamId)

/-- The whole ring becomes the input of an audio program, where a window is open and the device is not muted (R424). -/
def State.copyRing (s : State) (r : Req) : State :=
  if s.sent.muted then s.failReqAt r.asn stSentMuted 0x1002 0x58 0xFFFF 0 []
  else if s.sent.windowEnd.isNone then
    ((s.modSent fun x => { x with lockedReads := satInc x.lockedReads }).countDev 19 1).failReqAt r.asn stSentLocked 0x1001
      0x58 0xFFFF 0 []
  else (s.stageInput r s.sent.ringBytes).modReq r.asn fun r => { r with inputFetched := true }

/-- An admitted request enters its context phase. -/
def State.startContext (s : State) (asn : Nat) : State :=
  let s := s.modReq asn fun r => { r with phase := .context, genStart := s.tun.gen }
  match s.reqOf asn with
  | none => s
  | some r =>
    match s.program r.d.program with
    | none => s
    | some p =>
      match s.badWeight p with
      | some i => s.failReq asn stWeight i
      | none =>
        if s.streamTooHigh r p then s.failReqAt asn stContained 0x0908 0x48 0xFFFF 0 []
        else
          let s := if p.audioInput then s.copyRing r
            else if r.d.inputBytes = 0 then s.modReq asn fun r => { r with inputFetched := true }
            else s.addJob (.input asn)
          s.tryContext asn

/-! ## The attempt (R253 to R256) -/

/-- Ask the nodes still to be asked, in ascending order: this node answers at once, another by message. -/
def State.askNodes (asn : Nat) : Nat → State → State
  | 0, s => s
  | fuel + 1, s =>
    match s.reqOf asn with
    | none => s
    | some r =>
      match r.formation, s.program r.d.program with
      | some m, some p =>
        match r.askNodes with
        | [] => s.startContext asn
        | n :: rest =>
          let nodes := m.nodes.map (·.toNat)
          let items := demandItems p r.d nodes n
          if n = s.net.nodeId then
            let gallery := galleryDemand p r.d nodes n
            match s.grantToken s.net.nodeId asn r.f m r.desc items gallery with
            | none =>
              let s := s.countFn r.f 13 1
              if s.everGrants r.f items gallery then s.refuseAttempt asn else s.failAdmission asn stQuota 0x010D
            | some (s1, ps) =>
              State.askNodes asn fuel (s1.modReq asn fun r =>
                { r with askNodes := rest, heldTokens := insertNat r.heldTokens n, bases := r.bases ++ ps })
          else
            s.sendMsgTo n 0x10 (tokenReqBytes s.net.nodeId asn r.f.val m.epoch.toNat m items) (.steward asn)
      | _, _ => s

/-- A work unit of the request that needs more bays than the tenant's T0 limit allows (R258). -/
def State.overT0 (s : State) (r : Req) (p : Program) : Bool :=
  p.templates.any fun t => t.shapeClass == r.d.shapeClass && decide (s.limOf r.f 0 < t.bayTasks * s.w0)

/-- The backing pair that check 13 reserves for a stream without one (R204); none where the pool has none. -/
def State.reserveBacking (s : State) (r : Req) : Option State :=
  if r.d.isStream && r.d.commit && r.usesGallery s && s.streamBacking r.f r.d.streamId == 0 then
    (s.takeBacking r.f (s.slotSizeOf r)).map fun (a, s1) => s1.modReq r.asn fun r => { r with backing := some a }
  else some s

/-- Checks 11 to 13, where a waiting request begins again (R256). -/
def State.admitFrom11 (s : State) (asn : Nat) : State :=
  match s.reqOf asn with
  | none => s
  | some r =>
    if s.pastDeadline r.d then s.failAdmission asn stDeadline 0x010B
    else
      match s.program r.d.program with
      | none => s
      | some p =>
        match s.form p r.f r.d with
        | none => (s.modReq asn fun r => { r with formation := none }).failAdmission asn stNotReady 0x010C
        | some m =>
          let s := s.modReq asn fun r =>
            { r with formation := some m, phase := .tokens, askNodes := formationNodes m, heldTokens := [], bases := [] }
          if s.overT0 r p then s.failAdmission asn stQuota 0x010D
          else
            match s.reserveBacking r with
            | none => s.refuseAttempt asn
            | some s1 => State.askNodes asn 255 s1

/-- Admission of a request whose ASN has been assigned (R19). -/
def State.admitRequest (s : State) (asn : Nat) : State :=
  match s.reqOf asn with
  | none => s
  | some r =>
    match s.earlyChecks r.f r.d with
    | some (st, dt) => s.failAdmission asn st dt
    | none => s.admitFrom11 asn

/-- A new request: the next ASN, and a slot for its audit record (R10, R11). -/
def State.newReq (s : State) (f : Fin 16) (desc : Desc) (wake : Bool) : Req :=
  { asn := s.req.nextAsn, f := f, desc := fit 128 desc, phase := .tokens, status := 0, detail := 0, genStart := s.tun.gen,
    tunChanged := false, replayed := false, streamCommitted := false, timeStart := s.clk.devTime, timeEnd := 0, epochEnd := 0,
    wallEnd := 0, slot := s.slotKind, formation := none, askNodes := [], heldTokens := [], bases := [], inputFetched := false,
    failed := false, deadlinePassed := false, outWritten := 0, stepsCopied := 0, outBytes := [], energy := 0,
    clockDegraded := s.clk.timeDegraded, leaseHeld := false, tookLease := false, verIn := 0, swapWait := false, pendingSlot := none,
    residency := none, cellSlots := [], backing := none, kvLost := 0, wake := wake, awaitSettle := false, lost := [], jobOut := false }

def State.submit (s : State) (f : Fin 16) (desc : Desc) (wake : Bool) : State :=
  let r := s.newReq f desc wake
  (s.modReqs fun q => { q with table := q.table ++ [r], nextAsn := q.nextAsn + 1 }).admitRequest r.asn

end Sys2Proof.Machine
end

