-- ==== Sys2Proof/Machine/FlashOps.lean ====
section
/-! DEFINITION. The boot flash: slot control records, the audit anchor area, and the queue of flash operations (03, R66, R72, R81,
R91, R92). -/
namespace Sys2Proof.Machine
open Sys2Proof

/-! ## The flash (Table 3.1) -/

def slotBytes : Nat := 0x07800000
def slotBase (slot : Nat) : Nat := slot % 2 * slotBytes
def ctlBase (bank : Nat) : Nat := 0x0F000000 + bank % 2 * 0x10000
def anchorBase : Nat := 0x0F800000
def anchorEnd : Nat := 0x10000000
def sectorBytes : Nat := 65536

/-- `n` bytes of flash: an erased byte reads 0xFF. -/
def Boot.flashRead (b : Boot) (a n : Nat) : List Byte := Memory.read 0xFF b.flash a n
def Boot.flashWrite (b : Boot) (a : Nat) (bs : List Byte) : Boot := { b with flash := Memory.write 0xFF b.flash a bs }
def Boot.flashErase (b : Boot) (a : Nat) : Boot :=
  { b with flash := Memory.clear b.flash (a / sectorBytes * sectorBytes) sectorBytes }

/-- Starts of the 128-byte slots of a range that hold a programmed byte, rising. -/
def Boot.used128 (b : Boot) (lo hi : Nat) : List Nat :=
  ((b.flash.filter fun c => decide (lo ≤ c.1) && decide (c.1 < hi)).foldl (fun (acc : List Nat) c =>
    let a := c.1 / 128 * 128
    if acc.head? = some a then acc else a :: acc) []).reverse

/-- A 128-byte record is valid when its MAGIC and its CRC hold (R72). -/
def record128Ok (magic : List Byte) (bs : List Byte) : Bool :=
  slice bs 0 4 == magic && fieldLE bs 0x7C 4 == (crc32 (bs.take 0x7C)).toNat

def seal128 (body : List Byte) : List Byte :=
  let b := fit 0x7C body
  b ++ bytesLE 4 (crc32 b).toNat

/-! ## Slot control records (R72, Table 3.5) -/

/-- "SLST" -/
def slstMagic : List Byte := [0x53, 0x4C, 0x53, 0x54]

structure CtlRec where
  addr : Nat
  slot : Nat
  state : Nat
  count : Nat
  sequence : Nat
  headerHash : BitVec 384
deriving DecidableEq, Repr

def CtlRec.bytes (r : CtlRec) : List Byte :=
  seal128 (slstMagic ++ [BitVec.ofNat 8 r.slot, BitVec.ofNat 8 r.state, 0, 0] ++ bytesLE 4 r.count ++ [0, 0, 0, 0]
    ++ bytesLE 8 r.sequence ++ bytesLE 48 r.headerHash.toNat)

def readCtl (a : Nat) (bs : List Byte) : Option CtlRec :=
  if record128Ok slstMagic bs then
    some { addr := a, slot := fieldLE bs 4 1, state := fieldLE bs 5 1, count := fieldLE bs 8 4, sequence := fieldLE bs 0x10 8,
           headerHash := BitVec.ofNat 384 (fieldLE bs 0x18 48) }
  else none

def Boot.ctlRecs (b : Boot) : List CtlRec :=
  (b.used128 (ctlBase 0) (ctlBase 0 + 2 * sectorBytes)).filterMap fun a => readCtl a (b.flashRead a 128)

/-- The valid record with the highest WRITE_COUNT among some (R72). -/
def newestCtl (l : List CtlRec) : Option CtlRec :=
  l.foldl (fun best r => match best with | none => some r | some x => if x.count < r.count then some r else some x) none

/-- The current record of a slot; none is EMPTY. -/
def Boot.slotRec (b : Boot) (slot : Nat) : Option CtlRec := newestCtl (b.ctlRecs.filter fun r => r.slot == slot)
def slotStaging : Nat := 1
def slotCommitted : Nat := 3
def Boot.slotState (b : Boot) (slot : Nat) : Nat := ((b.slotRec slot).map (·.state)).getD 0
def Boot.slotSequence (b : Boot) (slot : Nat) : Nat := ((b.slotRec slot).map (·.sequence)).getD 0

/-- WRITE_COUNT of the next record: one greater than the previous one. Table 3.5 gives the first record of a blank control area no count:
the model takes 1 (DESIGN CHOICE, log entry 64). -/
def Boot.nextCount (b : Boot) : Nat := ((newestCtl b.ctlRecs).map (·.count + 1)).getD 1

/-- The current bank: that of the newest record. R72 names no bank for the first record: the model takes bank 0 (DESIGN CHOICE, log entry
64). -/
def Boot.bank (b : Boot) : Nat := ((newestCtl b.ctlRecs).map fun r => (r.addr - ctlBase 0) / sectorBytes).getD 0

/-- The first slot of a bank above everything programmed in it; none where the bank is full. -/
def Boot.bankFree (b : Boot) (bank : Nat) : Option Nat :=
  let top := ((b.used128 (ctlBase bank) (ctlBase bank + sectorBytes)).map (· + 128)).foldl max (ctlBase bank)
  if top + 128 ≤ ctlBase bank + sectorBytes then some top else none

/-- The operations that append a control record; a full bank is first copied into the other one and then erased. -/
def Boot.ctlOps (b : Boot) (slot state sequence : Nat) (hash : BitVec 384) : List FlashOp :=
  let mk (a n : Nat) : FlashOp :=
    let r : CtlRec := { addr := a, slot := slot, state := state, count := n, sequence := sequence, headerHash := hash }
    if state = slotCommitted then .commit a r.bytes sequence else .control a r.bytes
  match b.bankFree b.bank with
  | some a => [mk a b.nextCount]
  | none =>
    let other := ctlBase (b.bank + 1)
    let keep := ([0, 1].filterMap b.slotRec)
    let copies := keep.mapIdx fun i r => FlashOp.control (other + 128 * i) r.bytes
    copies ++ [mk (other + 128 * keep.length) b.nextCount, .erase (ctlBase b.bank)]

/-! ## Anchors (R91, R92, Table 3.9) -/

/-- "ANCR" -/
def ancrMagic : List Byte := [0x41, 0x4E, 0x43, 0x52]

def Anchor.bytes (a : Anchor) : List Byte :=
  seal128 (ancrMagic ++ [1, 0, BitVec.ofNat 8 a.reason, 0] ++ bytesLE 8 a.recno ++ bytesLE 48 a.recHash.toNat
    ++ bytesLE 8 a.imageSeq)

def readAnchor (bs : List Byte) : Option Anchor :=
  if record128Ok ancrMagic bs then
    some { reason := fieldLE bs 6 1, recno := fieldLE bs 8 8, recHash := BitVec.ofNat 384 (fieldLE bs 0x10 48),
           imageSeq := fieldLE bs 0x40 8 }
  else none

def Boot.anchors (b : Boot) : List (Nat × Anchor) :=
  (b.used128 anchorBase anchorEnd).filterMap fun a => (readAnchor (b.flashRead a 128)).map fun x => (a, x)

/-- The latest anchor: the highest RECNO; among equals one whose REASON is not 0x01 (R402). -/
def Boot.latestAnchor (b : Boot) : Option (Nat × Anchor) :=
  b.anchors.foldl (fun best x => match best with
    | none => some x
    | some y =>
      if y.2.recno < x.2.recno || (y.2.recno == x.2.recno && y.2.reason == 1 && x.2.reason != 1) then some x else some y) none

def FlashOp.isAnchor : FlashOp → Bool
  | .anchorErase _ => true
  | .anchorWrite _ _ => true
  | .erase _ => false
  | .program _ _ => false
  | .readBack _ _ => false
  | .control _ _ => false
  | .verify _ => false
  | .commit _ _ _ => false

def FlashOp.anchorAddr : FlashOp → Option Nat
  | .anchorWrite a _ => some a
  | .anchorErase _ => none
  | .erase _ => none
  | .program _ _ => none
  | .readBack _ _ => none
  | .control _ _ => none
  | .verify _ => none
  | .commit _ _ _ => none

/-- The operation in progress, then those that wait. -/
def Boot.flashOps (b : Boot) : List FlashOp := (b.flashBusy.map fun o => [o]).getD [] ++ b.flashQueue

/-- What a finished flash operation leaves in the flash; one that failed leaves nothing (log entry 42). -/
def Boot.applyFlash (b : Boot) (o : FlashOp) : Boot :=
  match o with
  | .erase a => b.flashErase a
  | .program a bs => b.flashWrite a bs
  | .readBack _ _ => b
  | .anchorErase a => b.flashErase a
  | .anchorWrite a x => b.flashWrite a x.bytes
  | .control a bs => b.flashWrite a bs
  | .verify _ => b
  | .commit a bs _ => b.flashWrite a bs

/-- The flash as every queued operation leaves it: what the next control record goes by, since operations run one at a time (R81). -/
def Boot.planned (b : Boot) : Boot := b.flashOps.foldl Boot.applyFlash b

/-- Where the next anchor goes: after the last one queued or, if none is, after the latest one written, over no programmed slot of
its sector; the area is a ring (R91; DEDUCED, log entry 30). -/
def Boot.nextAnchorAddr (b : Boot) : Nat :=
  match (b.flashOps.filterMap FlashOp.anchorAddr).getLast? with
  | some a => if a + 128 < anchorEnd then a + 128 else anchorBase
  | none =>
    match b.latestAnchor with
    | none => anchorBase
    | some (a, _) =>
      let sector := a / sectorBytes * sectorBytes
      let top := ((b.used128 sector (sector + sectorBytes)).map (· + 128)).foldl max (a + 128)
      if top < anchorEnd then top else anchorBase

/-! ## The queue (R81) -/

/-- Start the next operation when none runs. -/
def Boot.startFlash (b : Boot) : Boot :=
  match b.flashBusy, b.flashQueue with
  | none, o :: rest => { b with flashBusy := some o, flashQueue := rest }
  | _, _ => b

/-- Staging and commit operations wait behind everything queued. -/
def Boot.queueOps (b : Boot) (ops : List FlashOp) : Boot := { b with flashQueue := b.flashQueue ++ ops }.startFlash

/-- Anchor operations wait only for the operation in progress and earlier anchors. -/
def Boot.queueAnchorOps (b : Boot) (ops : List FlashOp) : Boot :=
  { b with flashQueue := b.flashQueue.filter FlashOp.isAnchor ++ ops ++ b.flashQueue.filter fun o => !(FlashOp.isAnchor o) }.startFlash

/-- Queue an anchor; the first one of a sector erases the sector first. -/
def Boot.queueAnchor (b : Boot) (a : Anchor) : Boot :=
  let at_ := b.nextAnchorAddr
  b.queueAnchorOps ((if at_ % sectorBytes = 0 then [.anchorErase at_] else []) ++ [.anchorWrite at_ a])

/-- The anchor that is due (R91). Before a boot's first record, and in SAFE mode, the last committed record is that of the latest anchor. If
that anchor leaves a gap (REASON 0x01, Table 15.5), the new one leaves the same gap, so that no record number is used again; a chain
with no anchor and no record has nothing to anchor (DEDUCED, log entry 30). -/
def State.dueAnchor (s : State) (reason : Nat) : Option Anchor :=
  match s.aud.head with
  | some n => some { reason := reason, recno := n, recHash := s.aud.headHash, imageSeq := s.cfg.header.sequence }
  | none =>
    (s.aud.lastAnchor.or (s.boot.latestAnchor.map (·.2))).map fun x =>
      { x with reason := if x.reason = 1 then 1 else reason, imageSeq := s.cfg.header.sequence }

/-- Append an anchor (R91). -/
def State.writeAnchor (s : State) (reason : Nat) : State :=
  match s.dueAnchor reason with
  | some a => s.modBoot fun b => b.queueAnchor a
  | none => s

/-- The anchor last queued, waiting for its retry, or written. -/
def State.lastPlanned (s : State) : Option Anchor :=
  match (s.boot.flashOps.filterMap fun o =>
      match o with
      | .anchorWrite _ a => some a
      | .anchorErase _ => none
      | .erase _ => none
      | .program _ _ => none
      | .readBack _ _ => none
      | .control _ _ => none
      | .verify _ => none
      | .commit _ _ _ => none).getLast? with
  | some a => some a
  | none => (s.aud.anchorRetry.getLast?.map (·.2)).or s.aud.lastAnchor

/-- Whether an anchor is on its way to the flash. -/
def State.anchorPending (s : State) : Bool := s.boot.flashOps.any FlashOp.isAnchor || !s.aud.anchorRetry.isEmpty

/-- A sector's erase failed: the anchors queued for that sector are not programmed. -/
def Boot.dropSector (b : Boot) (a : Nat) : Boot :=
  { b with flashQueue := b.flashQueue.filter fun o => (o.anchorAddr.map (· / sectorBytes)) != some (a / sectorBytes) }

/-- The anchors queued for a sector, oldest first. -/
def Boot.sectorAnchors (b : Boot) (a : Nat) : List Anchor :=
  b.flashQueue.filterMap fun o =>
    match o with
    | .anchorWrite x y => if x / sectorBytes = a / sectorBytes then some y else none
    | .anchorErase _ => none
    | .erase _ => none
    | .program _ _ => none
    | .readBack _ _ => none
    | .control _ _ => none
    | .verify _ => none
    | .commit _ _ _ => none

end Sys2Proof.Machine
end

