-- ==== Sys2Proof/Machine/AuditOps.lean ====
section
/-! DEFINITION. Audit records, their commit, and the delivery of records and completion entries (01 R26, R27; 14 R365, R366, R368,
R370 to R372; 15 R395 to R401). -/
namespace Sys2Proof.Machine
open Sys2Proof

/-! ## The record (R395 to R397) -/

def Cfg.sectionHash (c : Cfg) (type : Nat) : BitVec 384 :=
  ((c.header.sections.find? fun e => e.type == type).map (·.hash)).getD 0

def Req.cflags (r : Req) : Nat := b2n r.tunChanged + 2 * b2n r.replayed + 4 * b2n r.streamCommitted

/-- STREAM_ID, STREAM_VER_IN and STREAM_VER_OUT (R396). -/
def Req.streamFields (r : Req) : List Byte :=
  if r.d.isStream && r.tookLease then
    bytesLE 4 r.d.streamId ++ bytesLE 4 r.verIn ++ bytesLE 4 (r.verIn + b2n r.streamCommitted)
  else List.replicate 12 0xFF

/-- Bytes 0x000 to 0x19F of the record of a request, with its number and the chain flags of Table 15.5. -/
def State.recordBody (s : State) (r : Req) (n : Nat) : List Byte :=
  let gap := if bitOf s.aud.nextFlags 4 then s.aud.gapFrom.getD 0 else 0
  let epoch := (r.formation.map fun m => m.epoch.toNat).getD r.epochEnd
  bytesLE 2 1 ++ bytesLE 1 r.status ++ [1] ++ bytesLE 2 r.detail ++ bytesLE 2 (r.cflags + s.aud.nextFlags + 32 * b2n r.clockDegraded)
    ++ bytesLE 8 n ++ bytesLE 48 s.aud.prevHash.toNat ++ bytesLE 8 r.asn ++ bytesLE 8 r.d.seed ++ bytesLE 8 s.cfg.header.sequence
    ++ bytesLE 1 s.boot.activeSlot ++ bytesLE 1 r.f.val ++ bytesLE 1 s.net.nodeId ++ bytesLE 1 r.d.program
    ++ bytesLE 1 r.d.shapeClass ++ [0] ++ bytesLE 2 r.stepsCopied ++ bytesLE 4 r.genStart ++ bytesLE 4 epoch
    ++ bytesLE 4 r.outWritten ++ r.streamFields ++ bytesLE 8 gap ++ bytesLE 8 r.timeStart ++ bytesLE 8 r.timeEnd
    ++ bytesLE 8 (r.energy / 10) ++ bytesLE 8 r.wallEnd.toNat ++ sha384 r.desc ++ bytesLE 48 s.cfg.header.imageHash.toNat
    ++ bytesLE 48 (s.cfg.sectionHash 0x08).toNat ++ sha384 ((r.formation.map formationBytes).getD []) ++ sha384 r.outBytes ++ keyId

/-- The 512 bytes of the record. -/
def State.auditRecord (s : State) (r : Req) (n : Nat) : List Byte :=
  let body := s.recordBody r n
  body ++ ecdsaSign identityKey body

/-- The completion entry's fields (Table 1.4). -/
def Req.cpl (r : Req) (recno : Nat) : Cpl :=
  { asn := r.asn, f := r.f, reqTag := BitVec.ofNat 64 r.d.tag, status := r.status, cflags := r.cflags, detail := r.detail,
    gen := r.genStart, recno := recno, timeEnd := r.timeEnd, energy := min (r.energy / 10) max32, outWritten := r.outWritten,
    outHashPfx := BitVec.ofNat 64 (fieldLE (sha384 r.outBytes) 0 8), epoch := r.epochEnd, stepsDone := r.stepsCopied }

/-- The 64 bytes of an entry with its phase bit. -/
def Cpl.bytes (c : Cpl) (phase : Nat) : List Byte :=
  bytesLE 8 c.reqTag.toNat ++ bytesLE 8 c.asn ++ bytesLE 1 c.status ++ bytesLE 1 c.cflags ++ bytesLE 2 c.detail ++ bytesLE 4 c.gen
    ++ bytesLE 8 c.recno ++ bytesLE 8 c.timeEnd ++ bytesLE 4 c.energy ++ bytesLE 4 c.outWritten ++ bytesLE 8 c.outHashPfx.toNat
    ++ bytesLE 4 c.epoch ++ bytesLE 2 c.stepsDone ++ [0] ++ bytesLE 1 phase

/-! ## Delivery (R365, R366, R372) -/

/-- A ring count's distance, modulo 2^32. -/
def behind (tail head : BitVec 32) : Nat := (tail - head).toNat

/-- Whether the next record can go to the audit ring. -/
def State.canDeliver (s : State) : Bool :=
  let p := s.page 0
  p.armed && s.canSend 0 && decide (behind p.audTail p.audHead < 2 ^ p.audLog2.toNat)
    && (s.aud.mirror.any fun r => r.1 == s.aud.deliverNext) && s.aud.withheld != some s.aud.deliverNext

def Hold.done (h : Hold) : Bool := h.cplDone && h.audDone

/-- Change the entry of a record; an entry frees when both its parts are delivered. -/
def State.modHold (s : State) (recno : Nat) (g : Hold → Hold) : State :=
  s.modHost fun h => { h with holdQ := (h.holdQ.map fun e => if e.cpl.recno = recno then g e else e).filter fun e => !e.done }

/-- Deliver the next record, then the AUD_WB update (R366, R368). -/
def State.deliverRecord (s : State) : State :=
  if !s.canDeliver then s else
  let p := s.page 0
  let n := s.aud.deliverNext
  let bytes := ((s.aud.mirror.find? fun r => r.1 == n).map (·.2)).getD []
  let tail := p.audTail + 1
  let s := s.emit (.audit (p.audTail.toNat % 2 ^ p.audLog2.toNat) bytes)
  let s := (s.modPage 0 fun p => { p with audTail := tail }).emit (.audWb p.audWb.toNat tail.toNat)
  let s := (s.modAud fun a => { a with deliverNext := n + 1 }).modHold n fun e => { e with audDone := true }
  (s.countDev 22 520).raise 0 1

def State.deliverAllRecords : Nat → State → State
  | 0, s => s
  | fuel + 1, s => if s.canDeliver then State.deliverAllRecords fuel s.deliverRecord else s

/-- Whether the completion of an entry can be written: its function is armed with room, and its record is not withheld. -/
def State.canComplete (s : State) (e : Hold) : Bool :=
  let p := s.page e.cpl.f
  !e.cplDone && p.armed && (e.cpl.f.val == 0 || p.vfEnabled) && s.canSend e.cpl.f
    && decide (behind p.cplTail p.cplHead < 2 ^ p.cplLog2.toNat)
    && (match s.aud.withheld with
        | some w => decide (e.cpl.recno < w)
        | none => true)

/-- The vector of a completion (R370). -/
def cplVector (c : Cpl) : Nat := if c.f.val = 0 then 16 + c.reqTag.toNat % 2032 else 1 + c.reqTag.toNat % 7

/-- Write a completion entry (R365). -/
def State.writeCompletion (s : State) (e : Hold) : State :=
  let f := e.cpl.f
  let p := s.page f
  let c := p.cplTail.toNat
  let size := 2 ^ p.cplLog2.toNat
  let phase := (1 + c / size) % 2
  let s := s.emit (.completion f (c % size) (e.cpl.bytes phase))
  let s := (s.modPage f fun p => { p with cplTail := p.cplTail + 1 }).modHold e.cpl.recno fun h => { h with cplDone := true }
  ((s.countFn f 1 1).countDev 22 64).sendQuiet f (cplVector e.cpl)

/-- The completions that can go, each function's in entry order. -/
def State.drainCompletions : Nat → State → State
  | 0, s => s
  | fuel + 1, s =>
    match s.host.holdQ.find? s.canComplete with
    | none => s
    | some e => State.drainCompletions fuel (s.writeCompletion e)

/-- Records first, then completions, so that a request's record precedes its completion (R368, R372). -/
def State.drainHold (s : State) : State :=
  let s := State.deliverAllRecords (s.aud.nextRecno - s.aud.deliverNext) s
  State.drainCompletions s.host.holdQ.length s

/-! ## Commit (R398, R401) -/

/-- The gate of R401: record (j + 1) × 65,536 waits for an anchor at or above j × 65,536; the first record after a gap has a number
that no anchor of this chain can precede (DEDUCED, log entry 31). -/
def State.gateOpen (s : State) : Bool :=
  let n := s.aud.nextRecno
  n % 65536 != 0 || n == 0 || s.aud.nextFlags != 0 ||
    (match s.aud.lastAnchor with
     | some a => decide (n - 65536 ≤ a.recno)
     | none => false)

/-- What the device forgets of a request whose record is committed. -/
def State.forgetReq (s : State) (asn : Nat) : State :=
  let home := s.net.nodeId
  let s := ((s.freeKv home asn none).releaseTokens asn).returnBacking asn
  let s := s.modReqs fun q =>
    { q with table := q.table.filter (fun r => r.asn != asn), doneWu := q.doneWu.filter fun p => !(p.1 == home && p.2.asn == asn) }
  let s := s.modBars fun x => { x with fabric := x.fabric.filter fun b => !(b.home == home && b.asn == asn) }
  s.modNet fun n =>
    { n with leases := n.leases.filter (fun l => match l.key with
               | .barrierSlot x _ => !(x.toNat == asn && l.side == .granted)
               | .token _ => true
               | .stream _ _ => true),
             pushRx := n.pushRx.filter (fun x => !(x.home == home && x.key.asn == asn)),
             pushTx := n.pushTx.filter fun x => !(x.home == home && x.key.asn == asn) }

/-- Commit the record of a complete request: signed, in the T1 mirror, the chain head updated; its completion entry follows. -/
def State.commitRecord (s : State) (r : Req) : State :=
  let n := s.aud.nextRecno
  let bytes := s.auditRecord r n
  let hash := sha384Val bytes
  let reopen := (s.lastPlanned.map fun a => a.reason != 1).getD false
  let s := s.modAud fun a =>
    { a with head := some n, headHash := hash, last := bytes, nextRecno := n + 1, prevHash := hash, nextFlags := 0,
             withheld := if reopen then some n else a.withheld, mirror := keepLast 131072 (a.mirror ++ [(n, bytes)]) }
  let s := (((s.countDev 8 1).count (5760 + r.status) 1).countProg r.d.program 6 1)
  let s := if reopen || n % 65536 = 0 then s.writeAnchor 1 else s
  let e : Hold := { cpl := r.cpl n, slot := r.slot, cplDone := false, audDone := false }
  let s := (s.forgetReq r.asn).modHost fun h => { h with holdQ := h.holdQ ++ [e] }
  let s := s.drainHold
  if s.host.holdQ.any fun x => x.cpl.recno == n then s.countDev 6 1 else s

/-- A flash anchor has been written (R401, R93). -/
def State.anchorWritten (s : State) (a : Anchor) : State :=
  let s := s.modAud fun x =>
    { x with lastAnchor := some a, withheld := if x.withheld == some a.recno && a.reason == 1 then none else x.withheld }
  (s.modBoot fun b => { b with anchorRecno := a.recno }).countDev 9 1

end Sys2Proof.Machine
end

