-- ==== Sys2Proof/Machine/StreamAgent.lean ====
section
/-! DEFINITION. The stream agent in a request: lease grants, swap-ins, and the two phases of a commit (08, R200 to R206). -/
namespace Sys2Proof.Machine
open Sys2Proof

/-- The node that runs the cell stage of a request's program. -/
def State.cellNode (s : State) (r : Req) : Option Nat :=
  match r.formation, (s.program r.d.program).bind Program.cellStage with
  | some m, some k => some (nodeOf m k)
  | _, _ => none

def State.reqClass (s : State) (r : Req) : Nat := ((s.program r.d.program).bind (·.streamClass)).getD 0

/-- Whether the gallery slots of a request lie on this node. -/
def State.galleryHere (s : State) (r : Req) : Bool := s.cellNode r == some s.net.nodeId && (s.program r.d.program).any (·.streamClass.isSome)

/-! ## Leases (R32, R200) -/

/-- An earlier admitted request for the same stream that has had no lease yet. -/
def State.earlierWaits (s : State) (r : Req) : Bool :=
  s.req.table.any fun x =>
    x.f == r.f && x.d.isStream && x.d.streamId == r.d.streamId && decide (x.asn < r.asn) && x.phase == .context && !x.leaseHeld
      && !x.failed

/-- Whether the stream agent can grant the lease of a request's stream now. -/
def State.canLease (s : State) (r : Req) : Bool :=
  r.phase == .context && r.d.isStream && !r.leaseHeld && !r.failed && s.leaseFree r.f r.d.streamId && !(s.earlierWaits r)
    && !(s.str.swaps.any fun x => x.tenant == r.f && x.stream == r.d.streamId)

/-- A swap-in waits for its hub job, and its request for it. -/
def State.queueSwap (s : State) (r : Req) (cls : Nat) (b : Fin 80) (slot node : Nat) : State :=
  let x : Swap := { tenant := r.f, stream := r.d.streamId, asn := r.asn, cls := cls, bay := b, slot := slot, node := node, sent := false }
  ((s.modStr fun t => { t with swaps := t.swaps ++ [x] }).modReq r.asn fun r => { r with swapWait := true }).addJob (.swapIn r.asn)

/-- The (bay, slot) of a class at an address of another node, whose layout is taken to be this node's (log entry 72). -/
def State.slotAt (s : State) (cls a : Nat) : Fin 80 × Nat :=
  let b := bayIx (a / 0x800000)
  (b, (a - s.slotAddr cls b 0) / max 1 (s.streamClass cls).slotSize % 2048)

/-- A swap-in to the node of the cell stage: into the request's residency slot there (R201). -/
def State.startSwapThere (s : State) (r : Req) (node : Nat) : State :=
  let cls := s.reqClass r
  let p := s.slotAt cls (r.cellSlots.headD 0)
  s.queueSwap r cls p.1 p.2 node

/-- A swap-in starts: an empty class pool first loses its oldest resident stream (R201, R206). -/
def State.startSwap (s : State) (r : Req) : State :=
  let cls := s.reqClass r
  let s := if (s.freeSlots cls).isEmpty then
      match s.swapVictim cls with
      | some v => s.swapOut v.1 v.2
      | none => s
    else s
  match s.ownSlots s.net.nodeId r.asn with
  | [] => s
  | g :: _ => s.queueSwap r cls g.bay g.slot s.net.nodeId

/-- LEASE, LEASE_EPOCH and TOUCH of an entry name the request and the node of its cell stage (R200). -/
def State.writeLease (s : State) (r : Req) : State :=
  let t := r.f
  let id := r.d.streamId
  let holder := (s.cellNode r).getD s.net.nodeId
  let s := s.setEntry t id 0x10 4 (s.str.epochCount % two32)
  let s := s.setEntry t id 0x14 4 s.net.settled
  s.setEntry t id 0x18 8 (holder % 256 * 2 ^ 56 + r.asn % 2 ^ 56)

/-- The committed state comes to the node of the cell stage: it is resident there already, or it is swapped in (R201). A state resident in
this node's gallery leaves it for a cell stage on another node. -/
def State.fetchState (s : State) (r : Req) : State :=
  let t := r.f
  let id := r.d.streamId
  if s.galleryHere r then
    if s.streamRes t id then
      let p := s.streamSlot t id
      (s.modReq r.asn fun r => { r with residency := some p }).tryContext r.asn
    else s.startSwap r
  else
    let s := if s.streamRes t id then s.swapOut t id else s
    s.startSwapThere r ((s.cellNode r).getD s.net.nodeId)

/-- Whether a sequence that the request needs lies on another node than its PERSIST stage: the node that holds it is no member (R233). -/
def State.kvAway (s : State) (r : Req) : Bool :=
  match r.formation, s.program r.d.program with
  | some m, some p => (List.range p.stages.length).any fun k =>
      ((p.stages[k]?).map (·.persist)).getD false &&
        (match s.kvPlace r.f r.d.streamId r.d.program k with
         | some n => n != nodeOf m k
         | none => false)
  | _, _ => false

/-- Grant the lease (R200): LEASE, LEASE_EPOCH and TOUCH of the entry are set, and the nodes of PERSIST stages are told the version. -/
def State.grantLease (s : State) (r : Req) : State :=
  let t := r.f
  let id := r.d.streamId
  let ver := s.streamVersion t id
  let lost := s.lostOf r
  let s := (s.writeLease r).modReq r.asn fun r => { r with leaseHeld := true, tookLease := true, verIn := ver, kvLost := lost }
  if s.kvAway r then s.failReqAt r.asn stFabricLost 0x0909 0x48 0xFFFF 0 [] else
  let s := s.tellKv r 1 ver
  if r.usesGallery s && ver ≠ 0 && s.streamCls t id ≠ s.reqClass r then s.failReqAt r.asn stContained 0x0805 0x44 0xFFFF 0 []
  else if !(r.usesGallery s) || ver = 0 then s.tryContext r.asn
  else s.fetchState r

/-! ## The end of a swap-in (R201) -/

/-- Address of the committed copy of a stream. -/
def State.backingCopy (s : State) (t : Fin 16) (id cls ver : Nat) : Nat :=
  s.streamBacking t id + ver % 2 * (s.streamClass cls).slotSize

/-- The copy is read and written to the slot: here, or in WRITE messages of at most 4,096 bytes on the node of the cell stage. -/
def State.copySwap (s : State) (x : Swap) : State :=
  let size := (s.streamClass x.cls).slotSize
  let src := s.backingCopy x.tenant x.stream x.cls (s.streamVersion x.tenant x.stream)
  let data := s.mem.read src size
  let dst := s.slotAddr x.cls x.bay x.slot
  let s := s.meet src size
  let s := match s.region src, s.t2Dev src with
    | .t2, some d => s.countT2 d 10 1
    | _, _ => s
  if x.node = s.net.nodeId then s.memWrite dst data
  else s.each (List.range (ceilDiv size 4096)) fun s i =>
    s.sendReq { dst := x.node, vc := 0, mtype := 0x02, otag := addrOtag (dst + 4096 * i), arg := dst + 4096 * i,
                body := slice data (4096 * i) 4096, purpose := .steward x.asn }

/-- A swap-in to another node has sent the copy and waits for the acknowledgements. -/
def State.sendSwap (s : State) (x : Swap) : State :=
  (s.copySwap x).modStr fun t => { t with swaps := t.swaps.map fun y => if y = x then { x with sent := true } else y }

/-- Writes of a swap-in that have not been acknowledged. -/
def State.swapOpen (s : State) (x : Swap) : Bool :=
  s.net.txns.any (fun y => y.dst == x.node && y.purpose == .steward x.asn && fieldLE y.bytes 0 1 == 0x02)
    || s.net.unsent.any fun y => y.dst == x.node && y.purpose == .steward x.asn && y.mtype == 0x02

/-- The state is in its slot: RES is set, and the request goes on (R201). -/
def State.finishSwap (s : State) (x : Swap) : State :=
  let ver := s.streamVersion x.tenant x.stream
  let here := x.node == s.net.nodeId
  let s := if here then s.copySwap x else s
  let s := s.setEntry x.tenant x.stream 0x00 8 (ver + two32 * residentWord x.slot x.bay.val true x.cls)
  let s := s.modStr fun t =>
    { t with swaps := t.swaps.filter fun y => !(y.asn == x.asn && y.stream == x.stream),
             resident := if here then t.resident ++ [(x.tenant, x.stream)] else t.resident,
             away := if here then t.away else t.away ++ [(x.tenant, x.stream)],
             slots := if here then t.slots.map fun g =>
               if g.cls == x.cls && g.bay == x.bay && g.slot == x.slot then { g with owner := .resident x.tenant x.stream } else g
               else t.slots }
  let s := (s.modReq x.asn fun r => { r with swapWait := false, residency := some (x.bay.val, x.slot) }).countDev 13 1
  s.tryContext x.asn

/-- A poisoned or absent backing copy fails the swap-in, and the stream stays at its version; the copy is in the record. -/
def State.failSwap (s : State) (x : Swap) (detail : Nat) : State :=
  let src := s.backingCopy x.tenant x.stream x.cls (s.streamVersion x.tenant x.stream)
  let s := s.modStr fun t => { t with swaps := t.swaps.erase x }
  (s.modReq x.asn fun r => { r with swapWait := false }).failWith x.asn stPoison detail fun s =>
    s.openRecord x.asn stPoison detail (some src)

/-! ## The commit (R205) -/

/-- Where the pending state lies: the pending slot, else the resident one (CONTEXT_COUNT 0). On another node it is the pending slot of the
last context event, which alternate from the first on (R202; log entry 72). -/
def State.pendingPlace (s : State) (r : Req) : Option (Nat × Nat) :=
  if s.galleryHere r then r.pendingSlot.or r.residency
  else if r.d.contextCount = 0 then r.residency
  else (r.cellSlots[1 + (r.d.contextCount - 1) % 2]?).map fun a =>
    let p := s.slotAt (s.reqClass r) a
    (p.1.val, p.2)

/-- The bytes of the pending state; `moved` is what a hub mover brought from the cell stage's node. -/
def State.pendingBytes (s : State) (r : Req) (moved : List Byte) : List Byte :=
  let size := s.slotSizeOf r
  if !(s.galleryHere r) then fit size moved else
  match s.pendingPlace r with
  | some p => s.mem.read (s.slotAddr (s.reqClass r) (bayIx p.1) p.2) size
  | none => List.replicate size 0

/-- Whether the pending state can be read. -/
def State.pendingEnd (s : State) (r : Req) : ReadEnd :=
  match s.galleryHere r, s.pendingPlace r with
  | true, some p => s.readEnd (s.slotAddr (s.reqClass r) (bayIx p.1) p.2) (s.slotSizeOf r)
  | _, _ => .ok

/-- Phase 1: the pending state goes to the other backing copy, and the KV halves are written (R205, R229). -/
def State.commitPhase1 (s : State) (r : Req) (moved : List Byte) : State :=
  let t := r.f
  let id := r.d.streamId
  let ver := s.streamVersion t id
  let s := if r.usesGallery s then
      let pair := if s.streamBacking t id = 0 then r.backing.getD 0 else s.streamBacking t id
      s.memWrite (pair + (ver + 1) % 2 * s.slotSizeOf r) (s.pendingBytes r moved)
    else s
  let s := (s.kvPhase1 s.net.nodeId r.asn ver).tellKv r 2 ver
  s.modStr fun x => { x with phase1 := x.phase1 ++ [r.asn] }

/-- Bytes 0x00 to 0x07 of the entry after phase 2. -/
def State.phase2Word (s : State) (r : Req) : Nat :=
  let ver := s.streamVersion r.f r.d.streamId + 1
  let word := match r.usesGallery s, s.pendingPlace r with
    | true, some p => residentWord p.2 p.1 true (s.reqClass r)
    | true, none => residentWord 0 0 false (s.reqClass r)
    | false, _ => 0
  ver % two32 + two32 * word

/-- A committed request completes once every node of a PERSIST stage has made its half the stream's (log entry 21). -/
def State.finishCommit (s : State) (asn : Nat) : State :=
  match s.reqOf asn with
  | none => s
  | some r =>
    if !r.streamCommitted || r.phase != .commit || s.kvOpen asn then s
    else if r.kvLost = 0 then s.finish asn stOk 0 else s.finish asn stKvTailLost (0x0900 + r.kvLost)

/-- Phase 2: one 8-byte write commits the stream; the pending slot becomes the resident one, the old one is free (R205). A stream that had
no backing pair takes the request's with it, so that a commit given up before leaves the entry as it was (R208). -/
def State.commitPhase2 (s : State) (r : Req) : State :=
  let t := r.f
  let id := r.d.streamId
  let ver := s.streamVersion t id
  let word := s.phase2Word r
  let s := if r.usesGallery s && s.streamBacking t id = 0 then s.setEntry t id 0x08 8 (r.backing.getD 0) else s
  let s := s.setEntry t id 0x00 8 word
  let s := if r.usesGallery s && !(s.galleryHere r) then
      s.modStr fun x => { x with away := x.away.filter (· != (t, id)) ++ [(t, id)] }
    else s
  let s := match s.galleryHere r, r.pendingSlot with
    | true, some p =>
      let kept := s.str.slots.filter fun (g : GalSlot) => g.owner != SlotOwner.resident t id
      let moved := kept.map fun (g : GalSlot) =>
        if g.cls == s.reqClass r && g.bay.val == p.1 && g.slot == p.2 then { g with owner := .resident t id } else g
      s.modStr fun x => { x with slots := moved, resident := x.resident.filter (· != (t, id)) ++ [(t, id)] }
    | _, _ => s
  let s := ((s.kvPhase2 s.net.nodeId r.asn ver).tellKv r 3 ver).notePlaces r
  let s := s.modStr fun x => { x with phase1 := x.phase1.filter (· != r.asn) }
  let s := s.modReq r.asn fun r => { r with streamCommitted := true, backing := none, jobOut := false }
  s.finishCommit r.asn

end Sys2Proof.Machine
end

