-- ==== Sys2Proof/Machine/ThreadMem.lean ====
section
/-! DEFINITION. Loads, stores, the store buffer's drain, atomics and fences (05, R136 to R143). -/
namespace Sys2Proof.Machine
open Sys2Proof

/-! ## Loads -/

/-- Put a loaded value into a register. -/
def Thread.loaded (t : Thread) (vector signed : Bool) (rt : BitVec 5) (size : Nat) (bs : List Byte) : Thread :=
  if vector then t.setV rt (vecOf bs) else t.setG rt (loadValue signed size bs)

/-- A load from this node: the thread's own buffered bytes over the bytes of memory; poison raises POISON unless every byte is
the thread's own. -/
def State.loadHere (s : State) (w : Issue) (vector signed : Bool) (rt : BitVec 5) (addr : Word) (a n : Nat) : State :=
  let own := s.seenBytes w (s.lineAddr s.net.nodeId a) (a % 64) n
  if own.all Option.isSome then
    s.modThr w.bay w.thread fun t => (t.loaded vector signed rt n (own.map fun b => b.getD 0)).next
  else
    let (e, bs) := s.homeRead a n
    let s := s.homeMeet a n
    match e with
    | .ok => s.modThr w.bay w.thread fun t =>
        (t.loaded vector signed rt n ((own.zip bs).map fun p => p.1.getD p.2)).next
    | .poison => s.except w.bay w.thread stPoison excPoison addr.toNat
    | .absent => s.except w.bay w.thread stPoison excPoison addr.toNat

/-- A load from another node: the thread's own line goes first, then a READ; the thread goes on until it needs the value. -/
def State.loadThere (s : State) (w : Issue) (vector signed : Bool) (rt : BitVec 5) (node a n : Nat) : State :=
  let s := s.drainOne w (s.lineAddr node a)
  let s := s.sendReq { dst := node, vc := 0, mtype := 0x01, otag := addrOtag a, arg := n * 2 ^ 48 + a, body := [],
                       purpose := .load w.bay w.thread rt.toNat n signed vector (s.thr w.bay w.thread).pc }
  s.modThr w.bay w.thread fun t =>
    { t.next with pend := if !vector && rt == 0 then t.pend else t.pend ++ [(vector, rt.toNat)] }

/-- A load of a format M instruction. -/
def State.issueLoad (s : State) (w : Issue) (legal vector signed : Bool) (rt ra : BitVec 5) (sz : BitVec 3) (off : BitVec 9) :
    State :=
  s.issue w legal [.g ra] (some (if vector then .v rt else .g rt)) fun s =>
    let addr := effAddr ((s.thr w.bay w.thread).gr ra) sz off
    let n := sizeOf_ sz
    let s := s.countBay w.bay 3 1
    s.onTarget w addr (s.target w.bay .load addr n) fun node a =>
      .done (if node = s.net.nodeId then s.loadHere w vector signed rt addr a n
             else s.loadThere w vector signed rt node a n)

def doLd (w : Issue) (rt ra : BitVec 5) (sz : BitVec 3) (off : BitVec 9) (s : State) : State :=
  s.issueLoad w (decide (sz.toNat < 4)) false false rt ra sz off
def execLd (w : Issue) (rt ra : BitVec 5) (sz : BitVec 3) (off : BitVec 9) (s : State) : Host.Outcome State Fault Refusal :=
  .next (doLd w rt ra sz off s)

def doLds (w : Issue) (rt ra : BitVec 5) (sz : BitVec 3) (off : BitVec 9) (s : State) : State :=
  s.issueLoad w (decide (sz.toNat < 4)) false true rt ra sz off
def execLds (w : Issue) (rt ra : BitVec 5) (sz : BitVec 3) (off : BitVec 9) (s : State) : Host.Outcome State Fault Refusal :=
  .next (doLds w rt ra sz off s)

def doVld (w : Issue) (rt ra : BitVec 5) (sz : BitVec 3) (off : BitVec 9) (s : State) : State :=
  s.issueLoad w (sz == 4#3) true false rt ra sz off
def execVld (w : Issue) (rt ra : BitVec 5) (sz : BitVec 3) (off : BitVec 9) (s : State) : Host.Outcome State Fault Refusal :=
  .next (doVld w rt ra sz off s)

/-! ## Stores -/

/-- A plain store enters the store buffer; with no room for its line the thread waits. -/
def State.issueStore (s : State) (w : Issue) (legal vector : Bool) (rt ra : BitVec 5) (sz : BitVec 3) (off : BitVec 9) : State :=
  s.issue w legal [.g ra, if vector then .v rt else .g rt] none fun s =>
    let t := s.thr w.bay w.thread
    let addr := effAddr (t.gr ra) sz off
    let n := sizeOf_ sz
    let bs := if vector then vecBytes (t.vr rt) else bytesLE n (t.gr rt).toNat
    s.onTarget w addr (s.target w.bay .store addr n) fun node a =>
      match t.bufStore w.thread (s.lineAddr node a) (a % 64) bs with
      | none => .wait s (.room (s.lineAddr node a))
      | some t1 => .done ((s.modThr w.bay w.thread fun _ => t1.next).countBay w.bay 4 1)

def doSt (w : Issue) (rt ra : BitVec 5) (sz : BitVec 3) (off : BitVec 9) (s : State) : State :=
  s.issueStore w (decide (sz.toNat < 4)) false rt ra sz off
def execSt (w : Issue) (rt ra : BitVec 5) (sz : BitVec 3) (off : BitVec 9) (s : State) : Host.Outcome State Fault Refusal :=
  .next (doSt w rt ra sz off s)

def doVst (w : Issue) (rt ra : BitVec 5) (sz : BitVec 3) (off : BitVec 9) (s : State) : State :=
  s.issueStore w (sz == 4#3) true rt ra sz off
def execVst (w : Issue) (rt ra : BitVec 5) (sz : BitVec 3) (off : BitVec 9) (s : State) : Host.Outcome State Fault Refusal :=
  .next (doVst w rt ra sz off s)

/-- Line `line` of a thread's store buffer leaves it; lines leave in any order. A number beyond them names one of the lines that the bay
holds for its own observers (log entry 71). -/
def doStoreLineDrain (bay : Fin 80) (thread : Fin 128) (line : Fin 8) (s : State) : State :=
  if !s.running then s else
  let buf := (s.thr bay thread).buf
  match buf[line.val]? with
  | some l => (s.drainLine bay l).modThr bay thread fun t => { t with buf := t.buf.eraseIdx line.val }
  | none =>
    match (s.bay bay).shared[line.val - buf.length]? with
    | some l => s.landShared bay l.addr
    | none => s
def execStoreLineDrain (bay : Fin 80) (thread : Fin 128) (line : Fin 8) (s : State) : Host.Outcome State Fault Refusal :=
  .next (doStoreLineDrain bay thread line s)

/-! ## Atomics (R139, R142, R143) -/

/-- What the home of an address does for an atomic: the old value, and the value it stores. -/
def State.atomHome (s : State) (op : AtomOp) (n a cmp new : Nat) : Nat × State :=
  let old := s.memLE a n
  let s := s.meet a n
  let s := match s.region a with
    | .t1 => s.countHbm (stackOf a) 14 1
    | .t2 => (s.t2Dev a).elim s fun d => s.countT2 d 9 1
    | _ => s
  (old, match op.store n old cmp new with
    | some v => s.memWrite a (bytesLE n v)
    | none => s)

/-- The result goes into g[RD], zero-extended; ST writes none. -/
def Thread.atomDone (t : Thread) (op : AtomOp) (rd : BitVec 5) (old : Nat) : Thread :=
  (if op = .st then t else t.setG rd (BitVec.ofNat 64 old)).next

def regNext (rd : BitVec 5) : BitVec 5 := rd + 1

/-- ORD[3:2] (Table 5.4). -/
def scopeOf (ord : BitVec 4) : Scope :=
  match bits ord.toNat 2 2 with
  | 0 => .bay
  | 1 => .node
  | _ => .fabric

def State.issueAtom (s : State) (w : Issue) (legal : Bool) (op : AtomOp) (rd ra : BitVec 5) (ord : BitVec 4) (width : BitVec 2) :
    State :=
  let n := atomBytes width
  s.issue w legal ([.g ra] ++ (if op = .ld then [] else [.g rd]) ++ (if op = .cas then [.g (regNext rd)] else []))
      (if op = .st then none else some (.g rd)) fun s =>
    let t := s.thr w.bay w.thread
    let addr := t.gr ra
    let go := fun (s : State) (node a : Nat) =>
      let s := (s.drainOne w (s.lineAddr node a)).countBay w.bay 5 1
      if node = s.net.nodeId then
        match s.readEnd a n with
        | .ok =>
          let (old, s) := s.atomHome op n a (t.gr rd).toNat (t.gr (regNext rd)).toNat
          Ran.done (s.modThr w.bay w.thread fun t => t.atomDone op rd old)
        | .poison => Ran.done ((s.meet a n).except w.bay w.thread stPoison excPoison addr.toNat)
        | .absent => Ran.done ((s.meet a n).except w.bay w.thread stPoison excPoison addr.toNat)
      else
        let body := bytesLE 1 ord.toNat ++ bytesLE 1 (atomXf width (BitVec.ofNat 6 op.code)).toNat ++ List.replicate 6 0
          ++ bytesLE 8 (t.gr rd).toNat ++ (if op = .cas then bytesLE 8 (t.gr (regNext rd)).toNat else [])
        let s := s.sendReq { dst := node, vc := 0, mtype := 0x03, otag := addrOtag a, arg := a, body := body,
                             purpose := .atomic w.bay w.thread rd.toNat (op != .st) (width == 1) }
        Ran.done (s.modThr w.bay w.thread fun t => { t with wait := .remote })
    s.onTarget w addr (s.target w.bay .atomic addr n) fun node a =>
      if ord.getLsbD 1 then s.release w (scopeOf ord) fun s => go s node a else go s node a

def doAtomLd (w : Issue) (rd ra : BitVec 5) (ord : BitVec 4) (width : BitVec 2) (s : State) : State :=
  s.issueAtom w (Instr.threadLegal (.atomLd w rd ra ord width)) .ld rd ra ord width
def execAtomLd (w : Issue) (rd ra : BitVec 5) (ord : BitVec 4) (width : BitVec 2) (s : State) : Host.Outcome State Fault Refusal :=
  .next (doAtomLd w rd ra ord width s)

def doAtomSt (w : Issue) (rd ra : BitVec 5) (ord : BitVec 4) (width : BitVec 2) (s : State) : State :=
  s.issueAtom w (Instr.threadLegal (.atomSt w rd ra ord width)) .st rd ra ord width
def execAtomSt (w : Issue) (rd ra : BitVec 5) (ord : BitVec 4) (width : BitVec 2) (s : State) : Host.Outcome State Fault Refusal :=
  .next (doAtomSt w rd ra ord width s)

def doAtomSwap (w : Issue) (rd ra : BitVec 5) (ord : BitVec 4) (width : BitVec 2) (s : State) : State :=
  s.issueAtom w (Instr.threadLegal (.atomSwap w rd ra ord width)) .swap rd ra ord width
def execAtomSwap (w : Issue) (rd ra : BitVec 5) (ord : BitVec 4) (width : BitVec 2) (s : State) : Host.Outcome State Fault Refusal :=
  .next (doAtomSwap w rd ra ord width s)

def doAtomCas (w : Issue) (rd ra : BitVec 5) (ord : BitVec 4) (width : BitVec 2) (s : State) : State :=
  s.issueAtom w (Instr.threadLegal (.atomCas w rd ra ord width)) .cas rd ra ord width
def execAtomCas (w : Issue) (rd ra : BitVec 5) (ord : BitVec 4) (width : BitVec 2) (s : State) : Host.Outcome State Fault Refusal :=
  .next (doAtomCas w rd ra ord width s)

def doAtomAdd (w : Issue) (rd ra : BitVec 5) (ord : BitVec 4) (width : BitVec 2) (s : State) : State :=
  s.issueAtom w (Instr.threadLegal (.atomAdd w rd ra ord width)) .add rd ra ord width
def execAtomAdd (w : Issue) (rd ra : BitVec 5) (ord : BitVec 4) (width : BitVec 2) (s : State) : Host.Outcome State Fault Refusal :=
  .next (doAtomAdd w rd ra ord width s)

def doAtomAnd (w : Issue) (rd ra : BitVec 5) (ord : BitVec 4) (width : BitVec 2) (s : State) : State :=
  s.issueAtom w (Instr.threadLegal (.atomAnd w rd ra ord width)) .and rd ra ord width
def execAtomAnd (w : Issue) (rd ra : BitVec 5) (ord : BitVec 4) (width : BitVec 2) (s : State) : Host.Outcome State Fault Refusal :=
  .next (doAtomAnd w rd ra ord width s)

def doAtomOr (w : Issue) (rd ra : BitVec 5) (ord : BitVec 4) (width : BitVec 2) (s : State) : State :=
  s.issueAtom w (Instr.threadLegal (.atomOr w rd ra ord width)) .or rd ra ord width
def execAtomOr (w : Issue) (rd ra : BitVec 5) (ord : BitVec 4) (width : BitVec 2) (s : State) : Host.Outcome State Fault Refusal :=
  .next (doAtomOr w rd ra ord width s)

def doAtomXor (w : Issue) (rd ra : BitVec 5) (ord : BitVec 4) (width : BitVec 2) (s : State) : State :=
  s.issueAtom w (Instr.threadLegal (.atomXor w rd ra ord width)) .xor rd ra ord width
def execAtomXor (w : Issue) (rd ra : BitVec 5) (ord : BitVec 4) (width : BitVec 2) (s : State) : Host.Outcome State Fault Refusal :=
  .next (doAtomXor w rd ra ord width s)

def doAtomMin (w : Issue) (rd ra : BitVec 5) (ord : BitVec 4) (width : BitVec 2) (s : State) : State :=
  s.issueAtom w (Instr.threadLegal (.atomMin w rd ra ord width)) .min rd ra ord width
def execAtomMin (w : Issue) (rd ra : BitVec 5) (ord : BitVec 4) (width : BitVec 2) (s : State) : Host.Outcome State Fault Refusal :=
  .next (doAtomMin w rd ra ord width s)

def doAtomMax (w : Issue) (rd ra : BitVec 5) (ord : BitVec 4) (width : BitVec 2) (s : State) : State :=
  s.issueAtom w (Instr.threadLegal (.atomMax w rd ra ord width)) .max rd ra ord width
def execAtomMax (w : Issue) (rd ra : BitVec 5) (ord : BitVec 4) (width : BitVec 2) (s : State) : Host.Outcome State Fault Refusal :=
  .next (doAtomMax w rd ra ord width s)

def doAtomMinu (w : Issue) (rd ra : BitVec 5) (ord : BitVec 4) (width : BitVec 2) (s : State) : State :=
  s.issueAtom w (Instr.threadLegal (.atomMinu w rd ra ord width)) .minu rd ra ord width
def execAtomMinu (w : Issue) (rd ra : BitVec 5) (ord : BitVec 4) (width : BitVec 2) (s : State) : Host.Outcome State Fault Refusal :=
  .next (doAtomMinu w rd ra ord width s)

def doAtomMaxu (w : Issue) (rd ra : BitVec 5) (ord : BitVec 4) (width : BitVec 2) (s : State) : State :=
  s.issueAtom w (Instr.threadLegal (.atomMaxu w rd ra ord width)) .maxu rd ra ord width
def execAtomMaxu (w : Issue) (rd ra : BitVec 5) (ord : BitVec 4) (width : BitVec 2) (s : State) : Host.Outcome State Fault Refusal :=
  .next (doAtomMaxu w rd ra ord width s)

/-! ## Fences (R140) -/

/-- A fence completes when the buffer is empty and every earlier access has taken effect. -/
def State.issueFence (s : State) (w : Issue) (scope : Scope) (rd ra : BitVec 5) (ord : BitVec 4) : State :=
  s.issue w (rd == 0#5 && ra == 0#5 && ord == 0#4) [] none fun s =>
    s.release w scope fun s => .done ((s.modThr w.bay w.thread Thread.next).countBay w.bay 6 1)

def doFenceB (w : Issue) (rd ra : BitVec 5) (ord : BitVec 4) (s : State) : State := s.issueFence w .bay rd ra ord
def execFenceB (w : Issue) (rd ra : BitVec 5) (ord : BitVec 4) (s : State) : Host.Outcome State Fault Refusal :=
  .next (doFenceB w rd ra ord s)

def doFenceN (w : Issue) (rd ra : BitVec 5) (ord : BitVec 4) (s : State) : State := s.issueFence w .node rd ra ord
def execFenceN (w : Issue) (rd ra : BitVec 5) (ord : BitVec 4) (s : State) : Host.Outcome State Fault Refusal :=
  .next (doFenceN w rd ra ord s)

def doFenceG (w : Issue) (rd ra : BitVec 5) (ord : BitVec 4) (s : State) : State := s.issueFence w .fabric rd ra ord
def execFenceG (w : Issue) (rd ra : BitVec 5) (ord : BitVec 4) (s : State) : Host.Outcome State Fault Refusal :=
  .next (doFenceG w rd ra ord s)

end Sys2Proof.Machine
end

