-- ==== Sys2Proof/Machine/FabricOps.lean ====
section
/-! DEFINITION. What the fabric agent does: records and their flooding, adjacencies, node IDs, the member set and its epochs, what a
settle revokes, replays of a departed stage, and the time master (13, R320 to R357). -/
namespace Sys2Proof.Machine
open Sys2Proof

/-- The ports carry messages: the configuration is applied, the TRUSS clock runs, and the device is not in P3. -/
def State.linkRuns (s : State) : Bool :=
  s.clk.pwrOk && s.boot.locked && s.clk.pllLocked && !s.clk.refLost && s.clk.pstate != .p3 && !s.clk.thermtrip

/-- A port on which the network layer hears its peer. -/
def State.hears (s : State) (n : Fin 12) : Bool :=
  s.linkRuns && (s.port n).linkUp && !s.net.isolated && !s.net.leftFabric

/-! ## Records as bytes (Table 13.4); the places inside a body follow its order (log entry 26) -/

def LsaAdj.bytes (a : LsaAdj) : List Byte :=
  bytesLE 4 (a.localPort.toNat + 16 * a.peerPort.toNat + 256 * a.peer.toNat + 65536 * a.cost.toNat)
def lsaBytes (l : Lsa) : List Byte :=
  [l.origin] ++ bytesLE 1 l.adjs.length ++ bytesLE 4 l.seq.toNat ++ bytesLE 8 l.chipNonce.toNat ++ bytesLE 4 l.claimEpoch.toNat
    ++ l.adjs.flatMap LsaAdj.bytes
def epochBytes (e : EpochRec) : List Byte :=
  [e.origin] ++ bytesLE 4 e.epoch.toNat ++ bytesLE 32 ((e.members.map fun m => 2 ^ m.toNat).foldl (· ||| ·) 0)
    ++ bytesLE 8 e.time.toNat
def capsEntryBytes (c : CapsEntry) : List Byte := [c.program] ++ bytesLE 1 (b2n c.verified) ++ bytesLE 16 c.digest.toNat
def capsBytes (c : Caps) : List Byte :=
  [c.origin] ++ bytesLE 4 c.seq.toNat ++ bytesLE 2 c.entries.length ++ c.entries.flatMap capsEntryBytes
def leaveBytes (l : LeaveRec) : List Byte := [l.origin, l.reason] ++ bytesLE 4 l.epoch.toNat

/-- The message of a flooded record of a node. -/
def State.recordMsg (s : State) (origin subtype : Nat) (body : List Byte) : List Byte :=
  msgBytes 0x05 origin 0xFF 0 0 0 0 0 0 s.net.settled 0 (bytesLE 1 subtype ++ body)

/-- A flooded record is new by its originator and sequence (R341); a new one is remembered. -/
def State.judgeNew (s : State) (subtype origin seq : Nat) : Option State :=
  let old := s.net.freshFlood.find? fun x => x.1 == subtype && x.2.1 == origin
  let isNew := match old with
    | some x => newer32 seq x.2.2
    | none => true
  if !isNew then none else
  some (s.modNet fun n =>
    { n with freshFlood := n.freshFlood.filter (fun x => !(x.1 == subtype && x.2.1 == origin)) ++ [(subtype, origin, seq)] })

/-! ## Own records (R328, R330, R346) -/

def Net.originates (n : Net) : Bool := n.nodeId != 0xFF && !n.isolated && !n.leftFabric

def State.ownLsa (s : State) (seq : Nat) : Lsa :=
  { origin := BitVec.ofNat 8 s.net.nodeId, seq := BitVec.ofNat 32 seq, chipNonce := s.net.chipNonce,
    claimEpoch := BitVec.ofNat 32 s.net.claimEpoch, isStatic := !s.cfg.fabric.automatic,
    adjs := s.net.adjs.map fun a =>
      { localPort := BitVec.ofNat 4 a.port, peerPort := BitVec.ofNat 4 a.peerPort, peer := BitVec.ofNat 8 a.peer,
        cost := BitVec.ofNat 16 (s.port (portIx a.port)).cost } }

def Net.setLsa (n : Net) (l : Lsa) (now : Nat) : Net :=
  { n with lsdb := n.lsdb.filter (fun e => e.lsa.origin != l.origin) ++ [{ lsa := l, heard := now }], routesDirty := true }

/-- Originate the node's own record with the next LSA_SEQ, and flood it. -/
def State.originate (s : State) : State :=
  if !s.net.originates then s else
  let seq := (s.net.lsaSeq + 1) % two32
  let l := s.ownLsa seq
  (s.modNet fun n => { n.setLsa l s.clk.devTime with lsaSeq := seq }).flood none (s.recordMsg s.net.nodeId 0x02 (lsaBytes l))

/-- What the clock of a record's sender leads this node's clock by, offset by 2^64 (R355). -/
def State.clockLead (s : State) (t : Nat) : Nat := t + 2 ^ 64 - s.clk.devTime

def Net.setTime (n : Net) (node lead : Nat) : Net :=
  { n with epochTimes := n.epochTimes.filter (fun x => x.1 != node) ++ [(node, lead)] }

/-- The clock lead of a node, as its last EPOCH record gave it. -/
def Net.leadOf (n : Net) (node : Nat) : Nat := ((n.epochTimes.find? fun x => x.1 == node).map (·.2)).getD 0

/-- Flood an EPOCH record with the next epoch and the node's own member set, and adopt it. -/
def State.raiseEpoch (s : State) : State :=
  let e := (s.net.epochCur + 1) % two32
  let mem := s.memberSet
  let r : EpochRec :=
    { origin := BitVec.ofNat 8 s.net.nodeId, epoch := BitVec.ofNat 32 e, members := mem.map (BitVec.ofNat 8),
      time := BitVec.ofNat 64 s.clk.devTime }
  let s := s.modNet fun n =>
    { n.setTime n.nodeId (2 ^ 64) with
        epochCur := e, epochOrigin := n.nodeId, epochMembers := mem, adoptedAt := s.clk.devTime,
        freshFlood := n.freshFlood.filter (fun x => !(x.1 == 3 && x.2.1 == n.nodeId)) ++ [(3, n.nodeId, e)] }
  s.flood none (s.recordMsg s.net.nodeId 0x03 (epochBytes r))

/-- A node whose member set differs from the list it has adopted raises the epoch (R328). -/
def State.checkMembers (s : State) : State :=
  if s.net.nodeId ≠ 0xFF && s.memberSet ≠ s.net.epochMembers then s.raiseEpoch else s

/-- Whether every weight object of a program is verified. -/
def State.weightsVerified (s : State) (p : Program) : Bool := (s.badWeight p).isNone

/-- The CAPS record of this node: the programs that its unfenced bays can run (R346, R451). -/
def State.ownCaps (s : State) (seq : Nat) : Caps :=
  { origin := BitVec.ofNat 8 s.net.nodeId, seq := BitVec.ofNat 32 seq,
    entries := (s.cfg.programs.filter fun p => decide (p.maxBays ≤ s.unfencedBays)).map fun p =>
      { program := BitVec.ofNat 8 p.number, verified := s.weightsVerified p, digest := p.digest } }

def State.floodCaps (s : State) : State :=
  if !s.net.originates then s else
  let seq := (s.net.capsSeq + 1) % two32
  (s.modNet fun n => { n with capsSeq := seq }).flood none (s.recordMsg s.net.nodeId 0x04 (capsBytes (s.ownCaps seq)))

/-- Flood LEAVE with a reason (R354). -/
def State.floodLeave (s : State) (reason : Nat) : State :=
  if !s.net.originates then s else
  let r : LeaveRec :=
    { origin := BitVec.ofNat 8 s.net.nodeId, reason := BitVec.ofNat 8 reason, epoch := BitVec.ofNat 32 s.net.epochCur }
  s.flood none (s.recordMsg s.net.nodeId 0x05 (leaveBytes r))

/-! ## Adjacencies (R325, R326) -/

def Net.adjOf (n : Net) (port : Nat) : Option Adj := n.adjs.find? fun a => a.port == port

/-- The EPOCH record this node has adopted, if it has adopted one; the originator's device time is carried forward (log entry 34). -/
def State.heldEpoch (s : State) : Option EpochRec :=
  let n := s.net
  if n.freshFlood.any fun x => x.1 == 3 && x.2.1 == n.epochOrigin && x.2.2 == n.epochCur then
    some { origin := BitVec.ofNat 8 n.epochOrigin, epoch := BitVec.ofNat 32 n.epochCur, members := n.epochMembers.map (BitVec.ofNat 8),
           time := BitVec.ofNat 64 (s.clk.devTime + n.leadOf n.epochOrigin) }
  else none

/-- The whole database goes to a new neighbour: the LSAs, the EPOCH record in force and the CAPS records held (DEDUCED, log entry 34). -/
def State.sendDatabase (s : State) (port : Fin 12) : State :=
  let s := s.each s.net.lsdb fun s e => s.putMsg port 3 (s.recordMsg e.lsa.origin.toNat 0x02 (lsaBytes e.lsa))
  let s := match s.heldEpoch with
    | some e => s.putMsg port 3 (s.recordMsg e.origin.toNat 0x03 (epochBytes e))
    | none => s
  s.each s.net.caps fun s c => s.putMsg port 3 (s.recordMsg c.origin.toNat 0x04 (capsBytes c))

/-! ## Node IDs (R321 to R324) -/

/-- An isolated node is a fabric of one, and says so in a degraded-class record (R324). -/
def State.isolate (s : State) : State :=
  let s := s.error { cls := 2, source := 0x1C, code := 0x0D04 }
  (s.modNet fun n => { n with isolated := true, adjs := [], lsdb := [], routesDirty := true }).checkMembers

/-- IDs that a valid record claims. -/
def Net.claimed (n : Net) : List Nat := n.lsdb.map fun e => e.lsa.origin.toNat

/-- Take an ID: the epoch held at this moment is the claim (R323). -/
def State.takeId (s : State) (id : Nat) : State :=
  let s := s.modNet fun n =>
    { n with nodeId := id, claimEpoch := n.epochCur,
             epochMembers := if n.epochMembers.isEmpty then [id] else n.epochMembers,
             members := if n.members.isEmpty then [id] else n.members, routesDirty := true }
  s.originate.floodCaps.checkMembers

/-- The ID an automatic node takes, with some excluded. -/
def State.autoId (s : State) (excluded : List Nat) : Option Nat :=
  let taken := s.net.claimed ++ excluded
  let pref := s.cfg.fabric.nodeId
  if s.net.adjs.isEmpty && excluded.isEmpty then some (if pref = 0xFF then 0 else pref)
  else if pref ≠ 0xFF && !(taken.contains pref) then some pref
  else (List.range 254).find? fun i => !(taken.contains i)

/-- Whether the database exchange is complete with every neighbour that the node had when it became READY and still has: a record of it is held,
and an epoch no older than its HELLOs carry is adopted (R321, R323). -/
def Net.exchanged (n : Net) : Bool :=
  n.adjs.all fun a => !((n.awaited.getD []).contains a.port) || ((n.lsaOf a.peer).isSome && !(newer32 a.epoch n.epochCur))

/-- The neighbours of the moment when an automatic node becomes READY (R321). -/
def State.noteAwaited (s : State) : State :=
  if s.net.awaited.isSome then s else s.modNet fun n => { n with awaited := some (n.adjs.map (·.port)) }

/-- Assign the node ID (R321): at READY, and for an automatic node again as records arrive and neighbours go away. -/
def State.assignId (s : State) (excluded : List Nat) : State :=
  if !s.isReady || s.net.nodeId ≠ 0xFF || s.net.isolated || s.net.leftFabric then s
  else if !s.cfg.fabric.automatic then s.takeId s.cfg.fabric.nodeId
  else
  let s := s.noteAwaited
  if !s.net.exchanged then s
  else
    match s.autoId excluded with
    | some id => s.takeId id
    | none => s.isolate

/-- Whether claim `a` keeps an ID against claim `b` (R322). -/
def claimWins (a b : Lsa) : Bool :=
  if a.isStatic ≠ b.isStatic then a.isStatic
  else if a.claimEpoch ≠ b.claimEpoch then newer32 b.claimEpoch.toNat a.claimEpoch.toNat
  else decide (a.chipNonce.toNat < b.chipNonce.toNat)

/-- This node's ID is claimed by another: the loser takes a new one, or is isolated if it is static (R322). -/
def State.idConflict (s : State) (r : Lsa) : State :=
  if claimWins (s.ownLsa s.net.lsaSeq) r then s
  else if !s.cfg.fabric.automatic then s.isolate
  else
    let id := s.net.nodeId
    let s := s.modNet fun n =>
      { n.setLsa r s.clk.devTime with
          nodeId := 0xFF, members := n.members.filter (· != id),
          epochMembers := n.epochMembers.filter (· != id) }
    match s.autoId [id] with
    | some k => s.takeId k
    | none => s.isolate

/-! ## Adjacencies come and go (R325, R326) -/

def State.adjUp (s : State) (port : Fin 12) (h : Hello) : State :=
  let a : Adj :=
    { port := port.val, peerPort := h.port.toNat, peer := h.node.toNat, peerNonce := h.chipNonce, lastHello := s.clk.devTime,
      epoch := h.epoch.toNat }
  let s := (s.modNet fun n => { n with adjs := insertBy (fun (x : Adj) => x.port) a n.adjs }).sendDatabase port
  s.originate.floodCaps.checkMembers

def State.adjDown (s : State) (port : Fin 12) : State :=
  if (s.net.adjOf port.val).isNone then s else
  let s := s.modNet fun n => { n with adjs := n.adjs.filter (fun a => a.port != port.val), routesDirty := true }
  (s.originate.assignId []).checkMembers

/-- A neighbour without an ID gets the database once, so that it can complete the exchange it needs before it takes one (R321, R323; log
entry 34). -/
def State.feedJoiner (s : State) (port : Fin 12) (nonce : BitVec 64) : State :=
  let j := (port.val, nonce)
  if s.net.joiners.contains j then s else
  (s.modNet fun n => { n with joiners := n.joiners.filter (fun x => x.1 != port.val) ++ [j] }).sendDatabase port

/-- The cost of a port follows its configuration: the LSA changes with it (R330, R331). -/
def State.costChanged (s : State) (port : Fin 12) (before : Port) : State :=
  if (s.port port).cost = before.cost || (s.net.adjOf port.val).isNone then s else s.originate

/-! ## The formation of a request after a departure (R351, R352, R451) -/

/-- Place again the stages whose node is no longer good. -/
def State.placeLost (s : State) (p : Program) (good : Nat → Bool) : List Nat → List Nat → Option (List Nat)
  | [], acc => some acc
  | n :: rest, acc =>
    if good n then s.placeLost p good rest (acc ++ [n])
    else
      match s.placeStage p acc.length acc with
      | none => none
      | some x => s.placeLost p good rest (acc ++ [x])

def itemStage (stages : Nat) : ItemKind → Nat
  | .scratch k _ => k
  | .kvSpace k => k
  | .inputStaging => 0
  | .outputStaging => stages - 1

/-- The demand of some stages of a request on a node. -/
def replayItems (p : Program) (d : Desc) (nodes : List Nat) (node : Nat) (ks : List Nat) : List DemandItem :=
  (demandItems p d nodes node).filter fun i => ks.contains (itemStage nodes.length i.kind)

def replayGallery (p : Program) (d : Desc) (nodes : List Nat) (node : Nat) (ks : List Nat) : Option (Nat × Nat) :=
  match p.cellStage with
  | some k => if ks.contains k then galleryDemand p d nodes node else none
  | none => none

/-- Whether a push into stage k must be run again: a stateful stage runs from its context; another one what is not acknowledged,
and the last stage also the steps whose output the host buffer does not hold yet (log entry 35). -/
def needsReplay (r : Req) (p : Program) (deep : Bool) (k : Nat) (x : PushTx) : Bool :=
  p.stateful k || deep || !x.stepAcked ||
    (k + 1 == p.stages.length && (match x.key.step with
      | .context => false
      | .step n => decide (r.stepsCopied ≤ n)))

/-- The input of a request is fetched again (R25, R351). -/
def State.fetchInput (s : State) (r : Req) (p : Program) : State :=
  let s := s.modReq r.asn fun r => { r with phase := .context, inputFetched := r.d.inputBytes == 0 && !p.audioInput }
  let s := s.modNet fun n =>
    { n with pushTx := n.pushTx.filter fun x => !(x.home == n.nodeId && x.key == WuKey.mk r.asn 0 0 .context) }
  let s := if p.audioInput then s.copyRing r else if r.d.inputBytes = 0 then s else s.addJob (.input r.asn)
  s.tryContext r.asn

/-- Replay stage k on its new node: every retained push that is needed goes there. -/
def State.replayStage (s : State) (asn k : Nat) (deep : Bool) : State :=
  match s.reqOf asn with
  | none => s
  | some r =>
    match r.formation, s.program r.d.program with
    | some m, some p =>
      let me := s.net.nodeId
      let dst := nodeOf m k
      let due := s.net.pushTx.filter fun x => x.home == me && x.key.asn == asn && x.key.stage == k && needsReplay r p deep k x
      let again := k == 0 && due.any fun x => x.key.step == .context
      let s := s.each due fun s x =>
        if k = 0 && x.key.step == .context then s
        else
          let y : PushTx := { x with dst := dst, responded := false, stepAcked := false }
          let rest := s.net.pushTx.filter fun z => !(z.home == me && z.key == x.key)
          if dst = me then
            ((s.modNet fun n => { n with pushTx := rest, replays := sat64 (n.replays + 1) }).deliverPush me x.key me)
          else (s.modNet fun n => { n with pushTx := rest ++ [y] }).sendPush y
      if again then s.fetchInput r p else s
    | _, _ => s

/-- A departed holder's lease is void: the entry's LEASE is free until the request has it again, which no other request gets meanwhile, and
a state that was resident on the departed node is resident nowhere (R208). -/
def State.voidLease (s : State) (r : Req) : State :=
  if !r.leaseHeld then s else
  let s := if s.str.away.contains (r.f, r.d.streamId) then s.clearRes r.f r.d.streamId else s
  (s.freeLease r.f r.d.streamId).modReq r.asn fun r => { r with residency := none, pendingSlot := none, cellSlots := [] }

/-- The replayed request has the lease again, for the new node of its cell stage, and the committed state comes there (R208). -/
def State.leaseAgain (s : State) (r : Req) : State :=
  if !r.leaseHeld || r.residency.isSome then s else
  let s := s.writeLease r
  if r.usesGallery s && s.streamVersion r.f r.d.streamId ≠ 0 then s.fetchState r else s

/-- The other nodes of a request learn its new formation: a TOKEN_REQ that asks for nothing more (log entry 59). -/
def State.tellFormation (s : State) (asn node : Nat) : State :=
  match s.reqOf asn with
  | none => s
  | some r =>
    match r.formation with
    | none => s
    | some m => s.each (r.heldTokens.filter fun n => n != node && n != s.net.nodeId) fun s n =>
        s.sendMsgTo n 0x10 (tokenReqBytes s.net.nodeId asn r.f.val m.epoch.toNat m []) (.steward asn)

/-- On a node that learns a new formation, what it retains for stages that have moved and need it goes to their new nodes (R234, R350). -/
def State.resendMoved (s : State) (home asn : Nat) : State :=
  match s.formationOf home asn with
  | none => s
  | some m =>
    let me := s.net.nodeId
    match s.program m.program.toNat with
    | none => s
    | some p =>
      let due := s.net.pushTx.filter fun x =>
        x.home == home && x.key.asn == asn && x.dst != nodeOf m x.key.stage && (p.stateful x.key.stage || !x.stepAcked)
      s.each due fun s x =>
        let dst := nodeOf m x.key.stage
        let y : PushTx := { x with dst := dst, responded := false, stepAcked := false }
        let rest := s.net.pushTx.filter fun z => !(z.home == home && z.key == x.key)
        if dst = me then (s.modNet fun n => { n with pushTx := rest, replays := sat64 (n.replays + 1) }).deliverPush home x.key me
        else (s.modNet fun n => { n with pushTx := rest ++ [y] }).sendPush y

/-- Stages that wait for a token on a node are replayed once it is granted; the cell stage of a stream once its state is there. -/
def State.replayGranted (s : State) (asn node : Nat) : State :=
  match s.reqOf asn with
  | none => s
  | some r =>
    match r.formation with
    | none => s
    | some m =>
      let cell := (s.program r.d.program).bind Program.cellStage
      let mine := r.lost.filter fun k => nodeOf m k == node
      let s := if mine.any fun k => some k == cell then s.leaseAgain r else s
      let waits := ((s.reqOf asn).map (·.swapWait)).getD false
      let ks := mine.filter fun k => !(waits && some k == cell)
      let deep := r.lost.any fun k => r.lost.contains (k + 1)
      let s := (s.modReq asn fun r => { r with lost := r.lost.filter fun k => !(ks.contains k) }).tellFormation asn node
      s.each ks fun s k => s.replayStage asn k deep

/-- A swap-in of a replayed request has ended: its cell stage is replayed. -/
def State.resumeReplay (s : State) (asn : Nat) : State :=
  match s.reqOf asn with
  | none => s
  | some r => if r.lost.isEmpty || r.swapWait then s else s.replayGranted asn ((s.cellNode r).getD 0xFF)

/-- Ask a node for the token of re-placed stages: this node answers at once. -/
def State.askReplay (s : State) (asn node : Nat) : State :=
  match s.reqOf asn with
  | none => s
  | some r =>
    match r.formation, s.program r.d.program with
    | some m, some p =>
      let nodes := m.nodes.map (·.toNat)
      let items := replayItems p r.d nodes node r.lost
      if node = s.net.nodeId then
        match s.grantToken s.net.nodeId asn r.f m r.desc items (replayGallery p r.d nodes node r.lost) with
        | none => s.failReq asn stFabricLost 0x0D02
        | some (s1, ps) =>
          (s1.modReq asn fun r => { r with heldTokens := insertNat r.heldTokens node, bases := r.bases ++ ps }).replayGranted asn node
      else s.sendMsgTo node 0x10 (tokenReqBytes s.net.nodeId asn r.f.val m.epoch.toNat m items) (.steward asn)
    | _, _ => s

/-- Re-place the stages of an admitted request whose node is no longer good, and begin their replay (R351). -/
def State.rePlace (s : State) (asn : Nat) (good : Nat → Bool) : State :=
  match s.reqOf asn with
  | none => s
  | some r =>
    match r.formation, s.program r.d.program with
    | some m, some p =>
      let old := m.nodes.map (·.toNat)
      if old.all good || r.failed || r.phase == .complete || r.streamCommitted then s else
      let ks := (List.range old.length).filter fun k => !(good (old.getD k 0xFF))
      if r.d.isStream && ks.any fun k => ((p.stages[k]?).map (·.persist)).getD false && (s.kvPlace r.f r.d.streamId p.number k).isSome then
        s.failReqAt asn stFabricLost 0x0909 0x48 0xFFFF 0 []
      else
      match s.placeLost p good old [] with
      | none => s.failReq asn stFabricLost 0x0D02
      | some nodes =>
        let gone := (r.heldTokens.filter fun n => !(nodes.contains n))
        let s := s.each (gone.filter fun n => s.net.members.contains n && n != s.net.nodeId) fun s n =>
          s.sendMsgTo n 0x13 (bytesLE 8 asn) (.steward asn)
        let s := if ((p.cellStage).map ks.contains).getD false then s.voidLease r else s
        let s := s.modReq asn fun r =>
          { r with formation := some { m with epoch := BitVec.ofNat 32 s.net.settled, nodes := nodes.map (BitVec.ofNat 8) },
                   replayed := true, heldTokens := r.heldTokens.filter nodes.contains,
                   bases := r.bases.filter (fun b => !(ks.contains (itemStage nodes.length b.kind))),
                   lost := ks.foldl insertNat (r.lost.filter fun k => good (old.getD k 0xFF)),
                   jobOut := r.jobOut && !(ks.contains (nodes.length - 1)) }
        let s := if ks.contains (nodes.length - 1) then
            s.modHub fun h => { h with jobs := h.jobs.filter fun j => !(j.kind.asn == some asn && j.kind.rank == 1) }
          else s
        let s := s.modReqs fun q =>
          { q with doneWu := q.doneWu.filter fun w => !(w.1 == s.net.nodeId && w.2.asn == asn && ks.contains w.2.stage) }
        let asks := ks.foldl (fun acc k => insertNat acc (nodes.getD k 0xFF)) []
        s.each asks fun s n => s.askReplay asn n
    | _, _ => s

/-! ## A settle (R329, R344, R351, R355) -/

/-- Abandon the work units that wait at a fabric barrier whose slot a departed node held or granted, or whose remote access lost its
target: they run again under the new formation (R146, R150). Arrivals of the departed no longer count. -/
def State.abandonLost (s : State) (gone : List Nat) : State :=
  let lostTask (b : Fin 80) : Bool :=
    s.net.txns.any (fun x => gone.contains x.dst && x.purpose.ofBay b) ||
      s.net.unsent.any (fun x => gone.contains x.dst && x.purpose.ofBay b)
  let revoked (f : FabricBar) : Bool := s.net.leases.any fun l => gone.contains l.peer &&
    (match l.key with
     | .barrierSlot a k => f.asn == a.toNat && f.slot == k.val && (f.home == s.net.nodeId || f.home == l.peer)
     | .stream _ _ => false
     | .token _ => false)
  let waits (w : RunWu) (f : FabricBar) : Bool := f.bar.waiting.any fun p => w.bays.any fun b => b.2 == p.1
  let lostBar (w : RunWu) : Bool := s.bars.fabric.any fun f => f.home == w.home && f.asn == w.key.asn && revoked f && waits w f
  let hit := s.req.running.filter fun w => lostBar w || w.bays.any fun b => lostTask b.2
  let s := s.each hit fun s w => s.abandonLeft w.home w.key
  s.modBars fun x => { x with fabric := x.fabric.map fun f => { f with byNode := f.byNode.filter fun p => !(gone.contains p.1) } }

/-- Candidates for time master: members with TIME_MASTER_OK set and TIME_DEGRADED clear. -/
def State.timeCandidates (s : State) : List Nat :=
  s.net.members.filter fun n =>
    if n = s.net.nodeId then s.cfg.fabric.timeMasterOk && !s.clk.timeDegraded
    else s.net.peerFlags.any fun f => f.1 == n && !f.2.1 && f.2.2

/-- The current master keeps its place unless a candidate leads it by more than 1 µs; else the greatest device time wins (R355). -/
def State.chooseMaster (s : State) : Option Nat :=
  let c := s.timeCandidates
  let best := c.foldl (fun (b : Option Nat) n =>
    match b with
    | none => some n
    | some m => if s.net.leadOf m < s.net.leadOf n then some n else some m) none
  match s.net.timeMaster with
  | some m =>
    if c.contains m && !(c.any fun n => decide (s.net.leadOf m + 1000 < s.net.leadOf n)) then some m else best
  | none => best

/-- The local port of the parent: the neighbour in the ECMP set towards the master with the lowest node ID. -/
def State.parentPort (s : State) (master : Nat) : Option Nat :=
  if master = s.net.nodeId then none
  else (routeFrom s.net.links s.net.nodeId master).ports.head?

/-- What a settle does, once it is due. A node without a parent runs free, at its own rate (R360, log entry 38). -/
def State.settleNow (s : State) : State :=
  let now := s.net.epochMembers
  let gone := (List.range 254).filter fun n => !(now.contains n)
  let s := (s.modNet fun n => { n with settled := n.epochCur, members := now }).countDev 12 1
  let s := s.abandonLost gone
  let homes := s.quota.tokens.filter fun k => gone.contains k.home
  let s := s.each homes fun s k => s.dropHome k.home k.asn
  let s := s.modNet fun n =>
    { n with leases := n.leases.filter (fun l => !(gone.contains l.peer)),
             txns := n.txns.filter (fun x => !(gone.contains x.dst)),
             unsent := n.unsent.filter (fun x => !(gone.contains x.dst)),
             pushRx := n.pushRx.filter fun x => !(gone.contains x.home) }
  let admitted := s.req.table.filter fun r => r.phase != .complete && r.phase != .waiting13 && r.phase != .tokens
  let s := s.each admitted fun s r => (s.rePlace r.asn fun n => now.contains n).finishCommit r.asn
  let stuck := s.req.table.filter fun r =>
    r.phase == .tokens && (match r.formation with
      | some m => m.nodes.any fun n => gone.contains n.toNat
      | none => false)
  let s := s.each stuck fun s r => ((s.releaseTokens r.asn).returnBacking r.asn).admitFrom11 r.asn
  let waiting := sortBy Req.asn (s.req.table.filter fun r => r.phase == .waiting13 && r.awaitSettle)
  let s := s.each waiting fun s r => (s.modReq r.asn fun r => { r with awaitSettle := false }).admitFrom11 r.asn
  let m := s.chooseMaster
  let parent := m.bind s.parentPort
  s.modNet fun n => { n with timeMaster := m, timeParent := parent, rateAdj := if parent.isSome then n.rateAdj else 0 }

/-! ## Weight objects and their sources (R83, R84, R353) -/

def WeightState.final : WeightState → Bool
  | .verified => true
  | .failed => true
  | .pending => false
  | .hostNext => false
  | .coding => false

/-- BOOT_STATUS.WEIGHTS_DONE sets once every object is verified or failed; CAPS is flooded then (R346). -/
def State.checkWeights (s : State) : State :=
  if !s.boot.weightsDone && s.boot.weights.all WeightState.final then
    (s.modBoot fun b => { b with weightsDone := true, retrying := false }).floodCaps
  else s

def State.setWeight (s : State) (i : Nat) (w : WeightState) : State :=
  s.modBoot fun b => { b with weights := b.weights.set i w }

/-- No source is left: the object fails, and a corrected-class record names its entry (R83). -/
def State.weightFailed (s : State) (i : Nat) : State :=
  ((s.setWeight i .failed).error { cls := 0, source := 0x02, code := 0x0303, info := bytesLE 2 i }).checkWeights

/-- The fabric peer did not serve an object: the host store is next, where it is enabled. -/
def State.peerFailed (s : State) (i : Nat) : State :=
  match s.cfg.manifest[i]? with
  | none => s
  | some e => if e.fromHost then s.setWeight i .hostNext else s.weightFailed i

/-- WEIGHT_QUERY to the next member in ascending node ID order; with none left the peer source has failed (R353). -/
def State.askPeer (s : State) (i after : Nat) : State :=
  match s.cfg.manifest[i]? with
  | none => s
  | some e =>
    match (s.net.members.filter fun n => n != s.net.nodeId && decide (after ≤ n)).head? with
    | some n => s.sendMsgTo n 0x30 (bytesLE 4 e.objectId ++ bytesLE 48 e.hash.toNat) (.weight i)
    | none => s.peerFailed i

/-- Begin the fetch of an object from its first source; while the node has no ID, a peer's bytes are waited for (Table 2.10). -/
def State.startWeight (s : State) (i : Nat) : State :=
  match s.cfg.manifest[i]? with
  | none => s
  | some e =>
    let s := s.setWeight i (if e.fromPeer then .pending else .hostNext)
    if !e.fromPeer && !e.fromHost then s.weightFailed i
    else if e.fromPeer && s.net.nodeId ≠ 0xFF then s.askPeer i 0 else s

end Sys2Proof.Machine
end

