-- ==== Sys2Proof/Machine/SchedOps.lean ====
section
/-! DEFINITION. The dispatch test, the joule ledger's part of a dispatch, and leaving the idle state (02, R57, R105; 04, R107 to R111). -/
namespace Sys2Proof.Machine
open Sys2Proof

/-- Ready work units in the order of R107. -/
def State.readyList (s : State) : List Cand := sortBy Cand.order s.candidates

/-- P1 when the cap in force is below the image cap or t is above 0, P0 otherwise (R105). -/
def State.runState (s : State) : PState :=
  if s.tun.powerCap < s.cfg.policy.capW || 0 < s.stew.thermT then .p1 else .p0

/-- P0 and P1 follow the cap and the thermal reduction. -/
def State.setRunState (s : State) : State :=
  if s.clk.pstate == .p0 || s.clk.pstate == .p1 then s.modClk fun c => { c with pstate := s.runState } else s

/-- Tiles ungate, and P2 is left (Table 2.8). -/
def State.leaveP2 (s : State) : State :=
  if s.clk.pstate == .p2 then
    s.modClk fun c => { c with pstate := s.runState, p2Since := none, idleSince := none,
                               tiles := c.tiles.map fun t => { t with gated := false } }
  else s

/-- The charge and corrected duration of a candidate on the bays that a dispatch would give it (R100). -/
def State.priceOf (s : State) (c : Cand) : Nat × Nat :=
  let sl := s.slowest (assignBays s.freeBays c.tm.bayTasks s.stew.t0)
  (chargeOf c.rawE (s.voltScale sl.1 sl.2) (s.stew.kE.getD c.p.number 0x1000),
   durationOf c.rawD (divOf sl.2) (s.stew.kD.getD c.p.number 0x1000))

/-- ⌊B_eff × MAX_SHARE / 256⌋ of a class. -/
def State.classShare (s : State) (c : Nat) : Nat :=
  s.stew.bEff * (s.cfg.policy.classes.getD c { maxShare := 0, maxBays := 0 }).maxShare / 256

def State.usedShare (s : State) (c : Nat) : Nat := s.stew.used.getD c 0

/-- Time left in the 100 µs window. -/
def State.windowLeft (s : State) : Nat := 100000 - s.clk.devTime % 100000

/-- p = q when D_c ≤ t_left, else ⌈q × t_left / D_c⌉. -/
def State.portion (s : State) (q d : Nat) : Nat := if d ≤ s.windowLeft then q else ceilDiv (q * s.windowLeft) d

/-- What the first pass of R108 finds: the first candidate that passes, and whether the budget refused one before it. -/
def State.findFull (s : State) : List Cand → Bool → Option (Cand × Nat) × Bool
  | [], r => (none, r)
  | c :: rest, r =>
    let q := (s.priceOf c).1
    if !(s.fits c) || s.classShare c.d.cls < s.usedShare c.d.cls + q then s.findFull rest r
    else if (q : Int) ≤ s.stew.remain then (some (c, q), r)
    else s.findFull rest true

/-- The second pass: the first memory-bound candidate whose portion passes, with charge, portion and duration. -/
def State.findPortion (s : State) (l : List Cand) : Option (Cand × Nat × Nat × Nat) :=
  l.findSome? fun c =>
    let (q, d) := s.priceOf c
    let p := s.portion q d
    if c.tm.memBound && s.fits c && decide (s.usedShare c.d.cls + p ≤ s.classShare c.d.cls) && decide ((p : Int) ≤ s.stew.remain)
    then some (c, q, p, d) else none

def State.debit (s : State) (cls p : Nat) : State :=
  s.modStew fun t => { t with remain := t.remain - p, used := t.used.modify cls (· + p) }

/-- One pass of the procedure of R108: the state after a dispatch, or none when nothing can be dispatched; and a budget refusal. -/
def State.dispatchOne (s : State) : Option State × Bool :=
  let l := s.readyList
  match s.findFull l false with
  | (some (c, q), r) => (some ((s.startWu c q).debit c.d.cls q), r)
  | (none, r) =>
    match s.findPortion l with
    | some (c, q, p, d) =>
      let x : Carry := { home := c.home, wu := c.key, owed := q - p, perWindow := ceilDiv (q * 100000) d }
      let s := ((s.startWu c q).debit c.d.cls p).countProg c.p.number 7 1
      (some (if q = p then s else s.modStew fun t => { t with carries := t.carries ++ [x] }), r)
    | none => (none, r)

/-- A refusal by the budget marks the window pressured (R108). -/
def State.noteRefusal (s : State) (r : Bool) : State :=
  if r then (s.modStew fun t => { t with pressured := true }).countDev 4 1 else s

/-- Repeat until no candidate is dispatched. -/
def State.dispatchLoop : Nat → State → State
  | 0, s => s
  | fuel + 1, s =>
    match s.dispatchOne with
    | (some s1, r) => State.dispatchLoop fuel (s1.noteRefusal r)
    | (none, r) => s.noteRefusal r

def State.canDispatch (s : State) : Bool := s.running && !s.isFatal

/-- The time since which no work unit has been ready: it restarts when one is. -/
def State.noteIdle (s : State) : State :=
  if s.candidates.isEmpty && s.req.running.isEmpty then
    s.modClk fun c => { c with idleSince := c.idleSince.or (some c.devTime) }
  else s.modClk fun c => { c with idleSince := none }

/-- A dispatch opportunity (R108). A bay holds one task, so at most 80 dispatches follow each other. -/
def State.dispatch (s : State) : State :=
  if !s.canDispatch then s else
  let s := if s.candidates.isEmpty then s else s.leaveP2
  (State.dispatchLoop 81 s).noteIdle

/-- R111: at a window start, the head of the order whose charge exceeds a full window's budget runs; the part that the remaining
budget does not cover is overdraft. Where the remaining budget is already negative at the window start, R103 lets nothing be dispatched
while R111 names no such limit: the model follows R103 and refuses it (DESIGN CHOICE, log entry 49). -/
def State.dispatchHuge (s : State) : State :=
  match s.readyList with
  | [] => s
  | c :: _ =>
    let q := (s.priceOf c).1
    if q ≤ s.stew.bEff || !(s.fits c) || s.stew.remain < 0 then s else
    let excess := q - s.stew.remain.toNat
    let s := ((s.startWu c q).debit c.d.cls q).modStew fun t => { t with overdraft := t.overdraft + excess }
    s.countDev 5 excess

end Sys2Proof.Machine
end

