-- ==== Sys2Proof/Machine/Requests.lean ====
section
/-! DEFINITION. Meanings of the request, scheduler, hub and scribe commands: doorbells, fetch and admission, dispatch, the end of bay
tasks, hub mover jobs, stream leases and commits, audit records and completions (01, 04, 08, 10, 14, 15). -/
namespace Sys2Proof.Machine
open Sys2Proof

/-! ## The doorbell (R364) -/

/-- A refused REQ_TAIL write: TAIL_ERR, and on a VF vector 0 (Table 14.3). -/
def State.refuseTail (s : State) (f : Fin 16) : State :=
  let s := (s.modPage f fun p => { p with tailErr := true }).countFn f 9 1
  if f.val = 0 then s else s.raise f 0

def State.writeTail (s : State) (f : Fin 16) (value : BitVec 32) : State :=
  let p := s.page f
  if !p.armed || 2 ^ p.reqLog2.toNat < (value - p.reqHead).toNat then s.refuseTail f
  else s.modPage f fun p => { p with reqTail := value }

/-- Whether the host reaches a function's windows: the link is up, and a VF is enabled. -/
def State.reachable (s : State) (f : Fin 16) : Bool :=
  s.host.linkUp && s.clk.pwrOk && (f.val == 0 || ((s.page f).vfEnabled && !s.isSafe))

/-- A host TLP in P3 is a PCIe wake, and waits for the exit (R59, R60). -/
def State.holdTlp (s : State) (h : Held) : State := (s.latchWake 1).modClk fun c => { c with held := c.held ++ [h] }

/-- A host write to a function's window: in P3 it wakes the device and is held until the exit (R59, R60). -/
def State.hostWrite (s : State) (h : HeldTlp) (go : State → State) : State :=
  if !(s.reachable h.f) then s
  else if s.asleep then s.holdTlp (.tlp h)
  else go s

/-- A 32-bit write to the function page (Table 14.1). -/
def pageWrite (f : Fin 16) (offset value : Nat) : HeldTlp :=
  { f := f, win := .doorbell, offset := offset, width := 4, value := BitVec.ofNat 64 value, dma := none }

def doReqTail (f : Fin 16) (value : BitVec 32) (s : State) : State := s.hostWrite (pageWrite f 0x40 value.toNat) fun s => s.writeTail f value
def execReqTail (f : Fin 16) (value : BitVec 32) (s : State) : Host.Outcome State Fault Refusal := .next (doReqTail f value s)

/-! ## Fetch and admission (R10, R11, R19, R106) -/

/-- A wake request that waits is submitted once fetch may run and no admission of the PF is unsettled (R20, R423). -/
def State.tryWake (s : State) : State :=
  if s.req.wakePending && s.canFetch && !(s.admissionBlocked 0) then
    let desc := (s.cfg.sentinel.map (·.wakeDesc)).getD []
    (s.modReqs fun q => { q with wakePending := false }).submit 0 desc true
  else s

def doDescriptorFetch (desc : List Byte) (s : State) : State :=
  if !s.canFetch then s else
  match s.chooseFn with
  | none => s
  | some (f, cur) =>
    let s := (s.modStew fun t => { t with cur := cur }).modPage f fun p => { p with reqHead := p.reqHead + 1 }
    ((s.countFn f 0 1).countDev 23 128).submit f desc false
def execDescriptorFetch (desc : List Byte) (s : State) : Host.Outcome State Fault Refusal := .next (doDescriptorFetch desc s)

/-- An enforced deadline passes during a run: a commit not yet at phase 2 is given up, and the request drains (R29). -/
def State.missDeadline (s : State) (r : Req) : State :=
  let s := s.modStr fun x => { x with phase1 := x.phase1.filter (· != r.asn) }
  let s := s.modHub fun h => { h with jobs := h.jobs.filter fun j => j.kind != .commit r.asn }
  let s := s.modReq r.asn fun r =>
    { r with deadlinePassed := true, jobOut := r.jobOut && r.phase != .commit,
             phase := if r.phase == .commit then .draining else r.phase }
  s.settleReq r.asn

def doDeadlinePassed (asn : BitVec 64) (at_ : Nat) (s : State) : State :=
  let s := s.advance at_
  match s.reqOf asn.toNat with
  | none => s
  | some r =>
    if s.running && r.admitted && !r.failed && !r.deadlinePassed && !r.streamCommitted && s.pastDeadline r.d then s.missDeadline r else s
def execDeadlinePassed (asn : BitVec 64) (at_ : Nat) (s : State) : Host.Outcome State Fault Refusal :=
  .next (doDeadlinePassed asn at_ s)

/-! ## Dispatch and the end of bay tasks (R108, R125) -/

def doDispatchOpportunity (s : State) : State := s.dispatch
def execDispatchOpportunity (s : State) : Host.Outcome State Fault Refusal := .next (doDispatchOpportunity s)

/-- Everything the bay task issued has completed (R125). -/
def State.taskQuiet (s : State) (b : Fin 80) : Bool :=
  let y := s.bay b
  y.allExited && y.threads.all (·.buf.isEmpty) && y.shared.isEmpty && y.tilesDone && y.moversDone && y.drain.isNone
    && !(s.net.txns.any fun x => x.purpose.ofBay b) && !(s.net.unsent.any fun x => x.purpose.ofBay b)

/-- A stage that keeps KV: its bays stay taken until its records are committed (R221). -/
def State.kvSettled (s : State) (w : RunWu) : Bool :=
  w.kvDone || ((s.stageCfg w.program w.key.stage).map (·.layersKv)).getD 0 == 0

/-- An estimator reading of a rail with the rail's gain, truncated (R102). -/
def State.gained (s : State) (rail raw : Nat) : Nat := raw * s.stew.gain.getD rail 0x1000 / 4096

/-- The bay task that a bay ran ends: its energy counts for its work unit, which completes with its last bay task. The bay's estimator lies
on its tile's rail. -/
def State.endTask (s : State) (b : Fin 80) (t : Task) (w : RunWu) (energy : Nat) : State :=
  let taken := t.energy + s.gained (tileOf b).val energy
  let s := s.freeBay b
  let w := { w with ended := w.ended ++ [t.idx], measured := w.measured + taken }
  if w.ended.length < w.bays.length then s.modRun t.home t.wu fun _ => w else (s.modRun t.home t.wu fun _ => w).completeWu w

def doBayTaskEnd (bay : Fin 80) (at_ energy : Nat) (s : State) : State :=
  let s := s.advance at_
  match (s.bay bay).task with
  | none => s
  | some t =>
    match s.runOf t.home t.wu with
    | none => s
    | some w => if s.running && s.taskQuiet bay && s.kvSettled w then (s.endTask bay t w energy).noteIdle else s
def execBayTaskEnd (bay : Fin 80) (at_ energy : Nat) (s : State) : Host.Outcome State Fault Refusal :=
  .next (doBayTaskEnd bay at_ energy s)

/-! ## Hub movers (R249, R369) -/

/-- The order in which waiting jobs are taken: kind, then ASN (those without one last), then issue order. -/
def HubJob.order (j : HubJob) : Nat := (j.kind.rank * 2 ^ 65 + (j.kind.asn).getD (2 ^ 64)) * 2 ^ 64 + j.id

/-- The job a free mover takes. -/
def Hub.nextOf (h : Hub) : Option HubJob := (sortBy HubJob.order (h.jobs.filter fun j => !j.running)).head?

/-- The LINEAR descriptors of a transfer: the lines it touches, at most 65,536 in each (Table 10.4). -/
def linearDescs (src dst n : Nat) : List (List Byte) :=
  let lines := ceilDiv n 64
  (List.range (ceilDiv lines 65536)).map fun i =>
    let off := 64 * 65536 * i
    [1, 0, 0, 0] ++ bytesLE 4 (min 65536 (lines - 65536 * i)) ++ bytesLE 8 (src + off) ++ bytesLE 8 (dst + off) ++ List.replicate 40 0

/-- A host address in the host window, which hub movers alone reach. -/
def hostWindow (a : Nat) : Nat := 0x100000000000 + a % 2 ^ 44

/-- The request's staging of a kind, as a global address. -/
def Req.stagingAt (r : Req) (out : Bool) : Option Nat :=
  (r.bases.find? fun b => b.kind == (if out then .outputStaging else .inputStaging)).map fun b => globalAddr b.node b.base

/-- Bytes of one output record of the request's shape. -/
def State.recordBytes (s : State) (r : Req) : Nat := (((s.program r.d.program).bind fun p => p.shape r.d.shapeClass).map (·.rOut)).getD 0

/-- The descriptors of a job, by the agent that issues it (R249; log entry 75). -/
def State.jobDescs (s : State) : JobKind → List (List Byte)
  | .output asn step =>
    match s.reqOf asn with
    | none => []
    | some r =>
      let rOut := s.recordBytes r
      let host := hostWindow (r.d.outputAddr + r.d.recordOffset rOut step 0)
      (r.stagingAt true).elim [] fun a => linearDescs (a + step % 2 * (rOut * r.d.leaves)) host (rOut * r.d.liveN step)
  | .input asn =>
    match s.reqOf asn with
    | none => []
    | some r => (r.stagingAt false).elim [] fun a => linearDescs (hostWindow r.d.inputAddr) a r.d.inputBytes
  | .swapIn asn =>
    match s.str.swaps.find? fun x => x.asn == asn with
    | none => []
    | some x =>
      linearDescs (globalAddr s.net.nodeId (s.backingCopy x.tenant x.stream x.cls (s.streamVersion x.tenant x.stream)))
        (globalAddr x.node (s.slotAddr x.cls x.bay x.slot)) (s.streamClass x.cls).slotSize
  | .commit asn =>
    match s.reqOf asn with
    | none => []
    | some r =>
      match r.usesGallery s, s.pendingPlace r with
      | true, some p =>
        let pair := if s.streamBacking r.f r.d.streamId = 0 then r.backing.getD 0 else s.streamBacking r.f r.d.streamId
        linearDescs (globalAddr ((s.cellNode r).getD s.net.nodeId) (s.slotAddr (s.reqClass r) (bayIx p.1) p.2))
          (globalAddr s.net.nodeId (pair + (s.streamVersion r.f r.d.streamId + 1) % 2 * s.slotSizeOf r)) (s.slotSizeOf r)
      | _, _ => []
  | .park x =>
    match s.stageCfg x.program x.stage, s.kvPool x.tenant x.program x.stage with
    | some g, some f =>
      match s.poolRun f g.pageBytes g.layersKv with
      | none => []
      | some blk => (List.range g.layersKv).flatMap fun l =>
          linearDescs (globalAddr s.net.nodeId (s.landingAddr x.bay (x.first + l)))
            (globalAddr s.net.nodeId (f.base + g.pageBytes * (blk + l))) g.pageBytes
    | _, _ => []
  | .weight _ => []
  | .copy src dst n => linearDescs (globalAddr s.net.nodeId src) (globalAddr s.net.nodeId dst) n

def doHubMoverJob (s : State) : State :=
  if !s.running || 16 ≤ s.hub.jobs.countP (·.running) then s else
  match s.hub.nextOf with
  | none => s
  | some j =>
    let descs := s.jobDescs j.kind
    s.modHub fun h => { h with jobs := h.jobs.map fun x => if x.id = j.id then { x with running := true, descs := descs } else x }
def execHubMoverJob (s : State) : Host.Outcome State Fault Refusal := .next (doHubMoverJob s)

/-- A hub mover reads a range here through the tags of its units, as 1-byte elements: a WIDE unit fails it (R270, R285; log entry 75). -/
def State.hubRead (s : State) (a n : Nat) : Except (Nat × Nat) (List Byte) × State :=
  let r := s.readTagged false a n
  let s := s.meetTagged a n
  (r.result, if r == .width then s.modMem fun m => { m with widthFaults := satInc m.widthFaults } else s)

/-- The output record of a step in output staging: each parity of the step has one half (log entry 32); on another node's staging it
is what the mover brought. -/
def State.stepOutput (s : State) (r : Req) (step : Nat) (moved : List Byte) : Except (Nat × Nat) (List Byte) × State :=
  let rOut := s.recordBytes r
  let n := rOut * r.d.liveN step
  match r.bases.find? fun b => b.kind == .outputStaging with
  | some b => if b.node = s.net.nodeId then s.hubRead (b.base + step % 2 * (rOut * r.d.leaves)) n else (.ok (fit n moved), s)
  | none => (.ok (fit n moved), s)

/-- A mover fault that is none of the host's (R248). -/
def jobDetail (r : JobResult) : Nat := if r == .absentT2 then 0x0A10 else 0x0505

/-- A host transfer fault, also reported through AER. -/
def State.hostFault (s : State) (r : Req) (status detail : Nat) : State := (s.emit (.aer r.f)).failReq r.asn status detail

/-- The job no longer keeps its request waiting. -/
def State.jobOff (s : State) (asn : Nat) : State := s.modReq asn fun r => { r with jobOut := false }

/-- The records of a step are written to the host buffer (R18, R27). -/
def State.outputDone (s : State) (r : Req) (step : Nat) (result : JobResult) (moved : List Byte) : State :=
  let s := s.jobOff r.asn
  if r.failed then s.settleReq r.asn
  else if result == .busMasterClear || !(s.page r.f).busMaster then s.hostFault r stOutputFault 0x0E11
  else
    if result == .memPoison || result == .absentT2 then s.failReq r.asn stPoison (jobDetail result) else
    match s.stepOutput r step moved with
    | (.error why, s) => s.failReq r.asn why.1 why.2
    | (.ok bytes, s) =>
      let s := s.emit (.output r.f (r.d.outputAddr + r.d.recordOffset (s.recordBytes r) step 0) bytes)
      let s := (s.countFn r.f 6 bytes.length).countDev 22 bytes.length
      (s.modReq r.asn fun r =>
        { r with outBytes := r.outBytes ++ bytes, outWritten := r.outWritten + bytes.length, stepsCopied := r.stepsCopied + 1 }
        ).settleReq r.asn

/-- The whole input is in T1, or its fetch failed. -/
def State.inputDone (s : State) (r : Req) (result : JobResult) (data : List Byte) : State :=
  let s := s.jobOff r.asn
  if r.failed then s.settleReq r.asn
  else
    match result with
    | .readFault => s.hostFault r stInputFault 0x0E01
    | .readPoison => s.hostFault r stInputFault 0x0E03
    | .memPoison => s.failReq r.asn stPoison 0x0505
    | .absentT2 => s.failReq r.asn stPoison 0x0A10
    | .busMasterClear => s.hostFault r stInputFault 0x0E01
    | .ok =>
      let s := (s.stageInput r (fit r.d.inputBytes data)).countFn r.f 5 r.d.inputBytes
      ((s.countDev 23 r.d.inputBytes).modReq r.asn fun r => { r with inputFetched := true }).tryContext r.asn

/-- Phase 1 of a commit is written and acknowledged, or its pending state could not be read. -/
def State.commitDone (s : State) (r : Req) (result : JobResult) (moved : List Byte) : State :=
  if r.failed then (s.jobOff r.asn).settleReq r.asn
  else if result == .memPoison || result == .absentT2 then (s.jobOff r.asn).failReq r.asn stPoison (jobDetail result)
  else
    match s.pendingEnd r with
    | .ok => if r.phase == .commit then s.commitPhase1 r moved else s
    | .poison => (s.jobOff r.asn).failReq r.asn stPoison 0x0505
    | .absent => (s.jobOff r.asn).failReq r.asn stPoison 0x0A10

/-- Whether what a finished job does has room: a commit waits for the page lists of a sequence that has none (log entry 28). -/
def State.jobRoom (s : State) : JobKind → Bool
  | .commit asn => s.listRoom s.net.nodeId asn
  | .output _ _ => true
  | .input _ => true
  | .swapIn _ => true
  | .park _ => true
  | .weight _ => true
  | .copy _ _ _ => true

/-- What a finished job does. -/
def State.jobDone (s : State) (k : JobKind) (result : JobResult) (data : List Byte) : State :=
  match k with
  | .output asn step => (s.reqOf asn).elim s fun r => s.outputDone r step result data
  | .input asn => (s.reqOf asn).elim s fun r => s.inputDone r result data
  | .commit asn => (s.reqOf asn).elim s fun r => s.commitDone r result data
  | .swapIn asn =>
    match s.str.swaps.find? fun x => x.asn == asn with
    | some x => if result == .memPoison || result == .absentT2 then s.failSwap x (jobDetail result) else s
    | none => s
  | .weight _ => s
  | .park x => s.parkTail x
  | .copy src dst n =>
    match s.hubRead src n with
    | (.ok bs, s) => if result == .ok then s.writeTagged false false dst bs else s
    | (.error _, s) => s

def doHubMoverJobDone (job : Nat) (result : JobResult) (data : List Byte) (s : State) : State :=
  match s.hub.jobs.find? fun j => j.id == job && j.running with
  | none => s
  | some j =>
    if !s.running || !(s.jobRoom j.kind) then s else
    (s.modHub fun h => { h with jobs := h.jobs.filter fun x => x.id != job }).jobDone j.kind result data
def execHubMoverJobDone (job : Nat) (result : JobResult) (data : List Byte) (s : State) : Host.Outcome State Fault Refusal :=
  .next (doHubMoverJobDone job result data s)

/-! ## Streams (R200, R201, R205) -/

def doStreamCommitPhase2 (asn : BitVec 64) (s : State) : State :=
  match s.reqOf asn.toNat with
  | none => s
  | some r =>
    if s.running && r.phase == .commit && !r.failed && s.str.phase1.contains r.asn && !(s.kvOpen r.asn) then s.commitPhase2 r else s
def execStreamCommitPhase2 (asn : BitVec 64) (s : State) : Host.Outcome State Fault Refusal := .next (doStreamCommitPhase2 asn s)

def doStreamLeaseGrant (asn : BitVec 64) (s : State) : State :=
  match s.reqOf asn.toNat with
  | none => s
  | some r => if s.running && s.canLease r then s.grantLease r else s
def execStreamLeaseGrant (asn : BitVec 64) (s : State) : Host.Outcome State Fault Refusal := .next (doStreamLeaseGrant asn s)

/-- The copy of a swap-in has been read. To a cell stage on another node it then travels, and the swap ends with a later command, once it
is acknowledged there (log entry 72). -/
def doStreamSwapInDone (asn : BitVec 64) (poisoned : Bool) (s : State) : State :=
  match s.str.swaps.find? fun x => x.asn == asn.toNat with
  | none => s
  | some x =>
    if !s.running then s else
    let s := s.modHub fun h => { h with jobs := h.jobs.filter fun j => j.kind != .swapIn x.asn }
    if x.sent then (if s.swapOpen x then s else (s.finishSwap x).resumeReplay x.asn) else
    let src := s.backingCopy x.tenant x.stream x.cls (s.streamVersion x.tenant x.stream)
    match s.readEnd src (s.streamClass x.cls).slotSize with
    | .absent => s.failSwap x 0x0A10
    | .poison => s.failSwap x 0x0505
    | .ok =>
      if poisoned then s.failSwap x 0x0505
      else if x.node ≠ s.net.nodeId then s.sendSwap x
      else (s.finishSwap x).resumeReplay x.asn
def execStreamSwapInDone (asn : BitVec 64) (poisoned : Bool) (s : State) : Host.Outcome State Fault Refusal :=
  .next (doStreamSwapInDone asn poisoned s)

/-! ## The scribe and the hold queue (R366, R372, R398, R401) -/

/-- Records and completion entries are written only while the device runs and FATAL_N is high (R456). -/
def State.scribeRuns (s : State) : Bool := s.running && !s.isFatal && s.boot.keyReady

/-- Deliver what the rings and the link have room for, while the scribe runs; a completion that had waited counts as held. -/
def State.tryDrain (s : State) : State :=
  if !s.scribeRuns then s else
  let before := s.host.holdQ.filter fun e => !e.cplDone
  let s := s.drainHold
  let left := s.host.holdQ.filter fun e => !e.cplDone
  s.each (before.filter fun e => !(left.any fun x => x.cpl.recno == e.cpl.recno)) fun s e => s.countFn e.cpl.f 2 1

def doAuditRecordCommit (s : State) : State :=
  match s.req.doneQ with
  | [] => s
  | asn :: rest =>
    if !(s.scribeRuns && s.gateOpen) then s else
    let s := s.modReqs fun q => { q with doneQ := rest }
    match s.reqOf asn with
    | none => s
    | some r => s.commitRecord r
def execAuditRecordCommit (s : State) : Host.Outcome State Fault Refusal := .next (doAuditRecordCommit s)

/-- 10 ms after a failed anchor write (R401), not before; it waits while the NVM domain is stopped (Table 2.1, R46). -/
def doAnchorRetry (at_ : Nat) (s : State) : State :=
  let s := s.advance at_
  if !s.clk.pllLocked then s else
  match s.aud.anchorRetry with
  | [] => s
  | (due, a) :: rest =>
    if s.clk.devTime < due then s else (s.modAud fun x => { x with anchorRetry := rest }).modBoot fun b => b.queueAnchor a
def execAnchorRetry (at_ : Nat) (s : State) : Host.Outcome State Fault Refusal := .next (doAnchorRetry at_ s)

def doAuditRecordDelivery (s : State) : State := if s.scribeRuns then s.deliverRecord else s
def execAuditRecordDelivery (s : State) : Host.Outcome State Fault Refusal := .next (doAuditRecordDelivery s)

def doHoldQueueDrain (s : State) : State := s.tryDrain
def execHoldQueueDrain (s : State) : Host.Outcome State Fault Refusal := .next (doHoldQueueDrain s)

end Sys2Proof.Machine
end

