-- ==== Sys2Proof/Machine/SentOps.lean ====
section
/-! DEFINITION. The acoustic sentinel's signal chain, frames, floors and detectors (16, R407 to R419). -/
namespace Sys2Proof.Machine
open Sys2Proof

/-! ## Arithmetic of the chain (Table 16.1, R411) -/

/-- Division rounded to nearest, ties away from zero. -/
def roundDiv (x : Int) (d : Nat) : Int := x.sign * ((2 * x.natAbs + d) / (2 * d) : Nat)

/-- Saturation at ±(2^23 − 1). -/
def sat24 (x : Int) : Int := max (-8388607) (min 8388607 x)

/-- Whether n ≤ 2^14 × 10^(g / 2,000) + 1/2, decided exactly on 2,000th powers. -/
def gainReaches (g : Int) (n : Nat) : Bool :=
  n == 0 || decide ((2 * n - 1) ^ 2000 * 10 ^ (-g).toNat ≤ 32768 ^ 2000 * 10 ^ g.toNat)

/-- G = round(2^14 × 10^(GAIN_CDB / 2,000)) (R411). -/
def gainG (g : Int) : Nat :=
  [32768, 16384, 8192, 4096, 2048, 1024, 512, 256, 128, 64, 32, 16, 8, 4, 2, 1].foldl
    (fun acc b => if gainReaches g (acc + b) then acc + b else acc) 0

/-- A FIR coefficient, signed Q1.22 in 32 bits (Table 16.6). -/
def firCoef (i : Nat) : Int := (Config.firCoef i).toInt

/-- The sum of taps `first` on over samples held newest first. -/
def firSum (first : Nat) (held : List Int) : Int :=
  (held.zipIdx.map fun (x, k) => firCoef (first + k) * x).foldl (· + ·) 0

/-- A PDM bit counts as +1 or −1 (R407). -/
def pdmValue (b : Bool) : Int := if b then 1 else -1

/-- One tick of the five integrators, wrapping (Table 16.1, stage 2). -/
def cicTick (integ : List Int) (x : Int) : List Int :=
  (integ.foldl (fun (acc : List Int × Int) i => (acc.1 ++ [toSigned 32 (ofSigned 32 (i + acc.2))], toSigned 32 (ofSigned 32 (i + acc.2))))
    ([], x)).1

/-- The five combs at one output of the decimator: their new memories, and the output, 26-bit signed (log entry 41). -/
def cicComb (comb : List Int) (x : Int) : List Int × Int :=
  let (mem, y) := comb.foldl (fun (acc : List Int × Int) c => (acc.1 ++ [acc.2], toSigned 32 (ofSigned 32 (acc.2 - c)))) ([], x)
  (mem, max (-33554432) (min 33554431 y))

/-- Thirty-two ticks of a path: stage 2, and its sample into stage 3 (Table 16.1). -/
def PathReg.group (p : PathReg) (bits : List Bool) : PathReg :=
  let integ := bits.foldl (fun i b => cicTick i (pdmValue b)) p.integ
  let (comb, y) := cicComb p.comb (integ.getLastD 0)
  { p with integ := integ, comb := comb, fir3 := (y :: p.fir3).take 63 }

/-- The output of stage 3: gain 2^25 becomes full scale 2^23. -/
def PathReg.stage3 (p : PathReg) : Int := sat24 (roundDiv (firSum 0 p.fir3) (2 ^ 24))

/-- Stage 4 of channel c (R411). -/
def PathReg.stage4 (p : PathReg) (c : ChanCfg) (gain : Nat) : PathReg × Int :=
  let u := sat24 (roundDiv (p.stage3 * gain) (2 ^ 14))
  ({ p with prevU := u }, sat24 (u - roundDiv (c.phase * (u - p.prevU)) 4096))

/-- A path's gained samples over a frame: one for each two groups of 32 bits. -/
def PathReg.run (c : ChanCfg) (gain : Nat) : Nat → PathReg → List Bool → PathReg × List Int
  | 0, p, _ => (p, [])
  | n + 1, p, bits =>
    let p := (p.group (bits.take 32)).group ((bits.drop 32).take 32)
    let (p, y) := p.stage4 c gain
    let (p, ys) := PathReg.run c gain n p (bits.drop 64)
    (p, y :: ys)

/-- Channels that contribute nothing: dead, stuck or not fitted (R408, R412, R429). -/
def State.chanOut (s : State) (cfg : SentCfg) (c : Nat) : Bool :=
  s.sent.chanDead.getLsbD c || s.sent.chanStuck.getLsbD c || !((cfg.chans[c]?).any (·.fitted))

/-- Stage 5: sample n of beam b (R412). -/
def State.beamSample (s : State) (cfg : SentCfg) (chans : List (List Int)) (b n : Nat) : Int :=
  sat24 (roundDiv (((List.range 8).map fun c =>
    if s.chanOut cfg c then 0 else ((cfg.weights.getD b []).getD c 0) * ((chans.getD c []).getD n 0)).foldl (· + ·) 0) (2 ^ 14))

/-- Stage 6: the detector samples of a beam's new wideband samples, one for each three. -/
def stage6 : List Int → List Int → List Int × List Int
  | held, a :: b :: c :: rest =>
    let held := (c :: b :: a :: held).take 95
    let y := sat24 (roundDiv (firSum 63 held) (2 ^ 22))
    let (h, ys) := stage6 held rest
    (h, y :: ys)
  | held, _ => (held, [])

/-- The 16-bit value a detector sample has in the pre-roll ring (R413). -/
def ringValue (x : Int) : Int := max (-32768) (min 32767 (roundDiv x 256))

/-- The wideband and detector samples that a frame of 24,576 ticks adds to the four beams, and the chain's state after it. -/
def State.chain (s : State) (cfg : SentCfg) (pdm : List Byte) : State × List (List Int) × List (List Int) :=
  let frame := fit 24576 pdm
  let lines := (List.range 8).map fun c =>
    let old := s.sent.delayLine.getD c []
    List.replicate (4096 - old.length) false ++ old ++ frame.map fun t => t.getLsbD c
  let gains := cfg.chans.map fun c => gainG c.gainCdb
  let outs := (List.range 32).map fun i =>
    let c := i % 8
    let d := (cfg.delays.getD (i / 8) []).getD c 0
    PathReg.run (cfg.chans.getD c { gainCdb := 0, phase := 0, fitted := false }) (gains.getD c 0) 384
      (s.sent.paths.getD i PathReg.reset) (((lines.getD c []).drop (4096 - d)).take 24576)
  let wide := (List.range 4).map fun b =>
    let chans := (List.range 8).map fun c => (outs.getD (8 * b + c) (PathReg.reset, [])).2
    (List.range 384).map fun n => s.beamSample cfg chans b n
  let six := (List.range 4).map fun b => stage6 (s.sent.fir6.getD b []) (wide.getD b [])
  let s := s.modSent fun x =>
    { x with delayLine := lines.map fun l => keepLast 4096 l, paths := outs.map (·.1), fir6 := six.map (·.1) }
  (s, wide, six.map (·.2))

/-! ## Frames and floors (R415) -/

/-- Frames that a duration in ms takes, rounded up. -/
def framesOf (ms : Nat) : Nat := (1000 * ms + 8191) / 8192

/-- The floor after a frame of energy e, frame `n` of those since PDM_CLK started. -/
def floorAfter (f : Option Int) (e : Int) (n : Nat) : Int :=
  match f with
  | none => e
  | some f => if e < f then f - ((f - e + 7) / 8) else if (n + 1) % 16 = 0 then f + 1 else f

/-- The margin of a frame over its threshold, where the signal is above it (R415, R420). -/
def above (f : Option Int) (e : Int) (thr : Nat) : Option Nat :=
  match f with
  | none => none
  | some f => if f + thr ≤ e then some (e - (f + thr)).toNat else none

/-- A detection of one frame: kind, tone index, beams and margin (R419, R420). -/
structure Detection where
  kind : Nat
  tone : Nat
  beams : BitVec 4
  margin : Nat
deriving DecidableEq, Repr

/-- One detection from what each beam reported: the mask of the beams and the margin of the lowest one. -/
def joinBeams (kind tone : Nat) (hits : List (Option Nat)) : Option Detection :=
  match hits.filterMap id with
  | [] => none
  | m :: _ => some { kind := kind, tone := tone, margin := m,
                     beams := BitVec.ofNat 4 ((hits.zipIdx.map fun (h, b) => if h.isSome then 2 ^ b else 0).sum) }

/-! ## Glass break (R416) -/

/-- One beam's frame: runs, flex onset, and the margin where a glass break is detected. -/
def glassBeam (cfg : SentCfg) (n : Nat) (flex shatter : Option Nat) (flexRun shatterRun : Nat) (onset : Option Nat) :
    Nat × Nat × Option Nat × Option Nat :=
  let fr := if flex.isSome then flexRun + 1 else 0
  let sr := if shatter.isSome then shatterRun + 1 else 0
  let onset := if fr = framesOf cfg.flexMinMs then some (n + 1 - fr) else onset
  match onset, shatter with
  | some f, some m =>
    let gap := 8192 * (n + 1 - sr - f)
    if sr = framesOf cfg.shatterMinMs && decide (f ≤ n + 1 - sr) && decide (1000 * cfg.winMinMs ≤ gap)
        && decide (gap ≤ 1000 * cfg.winMaxMs) then (fr, sr, none, some m)
    else (fr, sr, onset, none)
  | _, _ => (fr, sr, onset, none)

/-- The glass-break detector over the four beams at the end of frame n. -/
def State.glassFrame (s : State) (cfg : SentCfg) (n : Nat) (flex shatter : List Int) : State × Option Detection :=
  let beams := List.range 4
  let res := beams.map fun b =>
    let fl := s.sent.floors.getD b []
    if cfg.glass && cfg.glassBeams.getLsbD b then
      glassBeam cfg n (above (fl.getD 0 none) (flex.getD b 0) cfg.flexThr) (above (fl.getD 1 none) (shatter.getD b 0) cfg.shatterThr)
        (s.sent.flexRun.getD b 0) (s.sent.shatterRun.getD b 0) (s.sent.flexOnset.getD b none)
    else (0, 0, none, none)
  let s := s.modSent fun x => { x with flexRun := res.map (·.1), shatterRun := res.map (·.2.1), flexOnset := res.map (·.2.2.1) }
  (s, joinBeams 1 0 (res.map (·.2.2.2)))

/-! ## Alarm tones (R417, R418) -/

/-- Segments, tolerance and repeats of a definition; the template of ISO 8201 gives its own segments and ±10 %. -/
def Tone.segs (t : Tone) : List Nat := if t.iso8201 then [500, 500, 500, 500, 500, 1500] else t.segMs
def Tone.tol (t : Tone) : Nat := if t.iso8201 then 10 else t.tolPct

/-- Whether a run of n frames matches a segment: within the tolerance, and within at least one frame. -/
def Tone.matches_ (t : Tone) (n seg : Nat) : Bool :=
  decide ((8192 * (n : Int) - 1000 * seg).natAbs ≤ max (10 * t.tol * seg) 8192)

/-- The place of the last on segment. -/
def Tone.lastOn (t : Tone) : Nat := (t.segs.length - 1) / 2 * 2

/-- A run that ended, held against the segment that is due: the place after it, and whether the definition is detected. A run that
does not match starts the list again, and may itself be its first segment. -/
def Tone.judge (t : Tone) (r : ToneRun) : Nat × Nat × Bool :=
  let fits (i : Nat) : Bool := (i % 2 == 0) == r.on && t.matches_ r.frames (t.segs.getD i 0)
  let go (i cycles : Nat) : Nat × Nat × Bool :=
    if i = t.lastOn && cycles + 1 = t.repeats then (0, 0, true)
    else if i + 1 = t.segs.length then (0, cycles + 1, false) else (i + 1, cycles, false)
  if fits r.seg then go r.seg r.cycles else if fits 0 then go 0 0 else (0, 0, false)

/-- One frame of a definition on a beam: the run goes on, or ends and is judged. -/
def Tone.frame (t : Tone) (r : ToneRun) (m : Option Nat) : ToneRun × Option Nat :=
  if r.frames = 0 || m.isSome == r.on then
    ({ r with on := m.isSome, frames := r.frames + 1, margin := m.getD r.margin }, none)
  else
    let (seg, cycles, hit) := t.judge r
    ({ on := m.isSome, frames := 1, seg := seg, cycles := cycles, margin := m.getD r.margin }, if hit then some r.margin else none)

/-- The alarm-tone detector over one frame of detector samples: detections in ascending index. -/
def State.toneFrame (s : State) (cfg : SentCfg) (energy : List (List Int)) : State × List Detection :=
  let res := cfg.toneDefs.zipIdx.map fun (t, i) =>
    (List.range 4).map fun b =>
      let r := (s.sent.toneRuns.getD i []).getD b ToneRun.reset
      if cfg.tones && t.freqHz != 0 && t.beams.getLsbD b then
        t.frame r (above ((s.sent.floors.getD b []).getD (2 + i) none) ((energy.getD b []).getD i 0) t.thr)
      else (ToneRun.reset, none)
  let s := s.modSent fun x => { x with toneRuns := res.map fun row => row.map (·.1) }
  (s, res.zipIdx.filterMap fun (row, i) => joinBeams 2 i (row.map (·.2)))

/-! ## Records (R420) -/

/-- Detections made from the RC oscillator, or while the reference is lost, are tagged (R47, R420). -/
def State.pdmDegraded (s : State) : Bool := s.clk.aonOnRc || s.clk.refLost

/-- Write an event record with the next sequence number. -/
def State.sentRecord (s : State) (kind tone : Nat) (beams : BitVec 4) (woke inWindow : Bool) (margin : Nat) : State :=
  let flags := b2n s.pdmDegraded + 2 * b2n woke + 4 * b2n inWindow
  s.modSent fun x =>
    { x with eventSeq := x.eventSeq + 1,
             events := keepLast 64 (x.events ++ [{ time := s.clk.devTime, kind := kind, tone := tone, beams := beams,
                                                   flags := BitVec.ofNat 8 flags, margin := margin, seq := x.eventSeq + 1 }]) }

/-! ## Wake (R421) -/

/-- WAKE_OUT_N goes low for WAKE_PULSE_MS. -/
def State.pulseWake (s : State) (cfg : SentCfg) : State :=
  (s.modPins fun p => { p with wakeOutN := false }).modSent fun x =>
    { x with wakePulseUntil := some (s.clk.devTime + 1000000 * cfg.wakePulseMs) }

/-- PF vector 6, at once, or when the link is up again and the P3 exit has raised its own vector. -/
def State.wakeVector (s : State) : State :=
  if s.host.linkUp && !s.asleep then s.raise 0 6 else s.modHost fun h => { h with vec6Due := true }

/-- A wake at the end of a frame: the pulse, the wake source, the freeze to come, and the vector. A second wake before the freeze
does not move it. -/
def State.sentWake (s : State) (cfg : SentCfg) : State :=
  let s := (s.pulseWake cfg).latchWake 0
  let s := s.modClk fun c => { c with wakeCause := c.wakeCause ||| 1#5 }
  let s := s.modSent fun x => 
    { x with wakeTime := if x.freezeAtFrame.isSome then x.wakeTime else s.clk.devTime,
             freezeAtFrame := x.freezeAtFrame.or (some (x.frameNo + framesOf cfg.postMs)) }
  s.wakeVector

/-- Report the detections of a frame in order; the first may wake (R419, R421). -/
def State.report (s : State) (cfg : SentCfg) (ds : List Detection) : State :=
  match ds with
  | [] => s
  | d :: rest =>
    let shut := s.sent.frozen || s.sent.windowEnd.isSome
    let s := s.sentRecord d.kind d.tone d.beams (!shut) shut d.margin
    let s := rest.foldl (fun s (e : Detection) => s.sentRecord e.kind e.tone e.beams false shut e.margin) s
    let s := s.countDev 18 ds.length
    if shut then s.pulseWake cfg else s.sentWake cfg

/-- Whether the pre-roll ring records the frame that ends now (R422). -/
def Sent.records (x : Sent) : Bool := !x.frozen && (match x.freezeAtFrame with | some n => decide (x.frameNo < n) | none => true)

/-- The end of a frame: samples, the ring, energies, detectors and floors. -/
def State.frameEnd (s : State) (cfg : SentCfg) (pdm : List Byte) : State :=
  let n := s.sent.frameNo
  let (s, wide, det) := s.chain cfg pdm
  let sets := (List.range 128).map fun i => (List.range 4).map fun b => ringValue ((det.getD b []).getD i 0)
  let s := s.modSent fun x =>
    { x with wideHist := (List.range 4).map fun b => x.wideHist.getD b [] ++ wide.getD b [],
             detHist := (List.range 4).map fun b => x.detHist.getD b [] ++ det.getD b [],
             ring := if x.records then keepLast 62500 (x.ring ++ sets) else x.ring }
  let flex := (List.range 4).map fun b => Config.bandEnergy 0 (s.sent.detHist.getD b [])
  let shatter := (List.range 4).map fun b => Config.bandEnergy 1 (s.sent.wideHist.getD b [])
  let tone := (List.range 4).map fun b => cfg.toneDefs.map fun t => Config.toneEnergy t.freqHz (det.getD b [])
  let (s, glass) := s.glassFrame cfg n flex shatter
  let (s, tones) := s.toneFrame cfg tone
  let quiet := decide (0 < s.sent.warmupLeft)
  let s := s.modSent fun x =>
    { x with frameNo := n + 1, warmupLeft := x.warmupLeft - 1,
             floors := (List.range 4).map fun b =>
               (flex.getD b 0 :: shatter.getD b 0 :: tone.getD b []).zipIdx.map fun (e, i) =>
                 some (floorAfter ((x.floors.getD b []).getD i none) e n) }
  if quiet then s else s.report cfg (glass.toList ++ tones)

end Sys2Proof.Machine
end

