-- ==== Sys2Proof/Machine/Sentinel.lean ====
section
/-! DEFINITION. Meanings of the acoustic sentinel's events: frames, the wake pulse, freeze and window, mute, and the microphone
self-check (16). -/
namespace Sys2Proof.Machine
open Sys2Proof

/-- The image's SENTINEL section, where the sentinel may run (R408). -/
def State.sentCfg (s : State) : Option SentCfg := if s.isSafe then none else s.cfg.sentinel

def doSentinelFrameEnd (at_ : Nat) (pdm : List Byte) (s : State) : State :=
  let s := s.advance at_
  match s.sentCfg with
  | none => s
  | some cfg => if s.pins.pdmClk then s.frameEnd cfg pdm else s
def execSentinelFrameEnd (at_ : Nat) (pdm : List Byte) (s : State) : Host.Outcome State Fault Refusal :=
  .next (doSentinelFrameEnd at_ pdm s)

def doWakePulseEnd (at_ : Nat) (s : State) : State :=
  let s := s.advance at_
  if s.due s.sent.wakePulseUntil then
    (s.modPins fun p => { p with wakeOutN := true }).modSent fun x => { x with wakePulseUntil := none }
  else s
def execWakePulseEnd (at_ : Nat) (s : State) : Host.Outcome State Fault Refusal := .next (doWakePulseEnd at_ s)

/-- The ring freezes, the window opens, and the wake request is submitted (R422, R423). -/
def State.freeze (s : State) (cfg : SentCfg) : State :=
  let s := s.modSent fun x =>
    { x with frozen := true, freezeAtFrame := none, windowEnd := some (s.clk.devTime + 1000000000 * cfg.unlockS) }
  if cfg.wakeReq then (s.modReqs fun q => { q with wakePending := true }).tryWake else s

def doPrerollFreeze (at_ : Nat) (s : State) : State :=
  let s := s.advance at_
  match s.sentCfg, s.sent.freezeAtFrame with
  | some cfg, some n => if n ≤ s.sent.frameNo && s.pins.pdmClk then s.freeze cfg else s
  | _, _ => s
def execPrerollFreeze (at_ : Nat) (s : State) : Host.Outcome State Fault Refusal := .next (doPrerollFreeze at_ s)

/-- The window closes: the ring is zero, locked and records again (R422). -/
def Sent.close (x : Sent) : Sent := { x with ring := [], frozen := false, windowEnd := none }

def doWakeWindowClose (at_ : Nat) (s : State) : State :=
  let s := s.advance at_
  if s.due s.sent.windowEnd then s.modSent Sent.close else s
def execWakeWindowClose (at_ : Nat) (s : State) : Host.Outcome State Fault Refusal := .next (doWakeWindowClose at_ s)

/-! ## Mute (R427, R428, Table 16.5) -/

/-- PDM_CLK stops: the detectors hold nothing more. -/
def Sent.stopClock (x : Sent) : Sent :=
  { x with warmupLeft := 0, flexRun := List.replicate 4 0, shatterRun := List.replicate 4 0, flexOnset := List.replicate 4 none,
           toneRuns := List.replicate 8 (List.replicate 4 ToneRun.reset), freezeAtFrame := none, unmuteAt := none }

/-- An admitted request of an audio program ends with SENTINEL_MUTED; its input staging is zero-filled (R427). -/
def State.muteReq (s : State) (r : Req) : State :=
  if r.admitted && (s.program r.d.program).any (·.audioInput) then
    (s.stageInput r (List.replicate 500000 0)).failReqAt r.asn stSentMuted 0x1002 0x58 0xFFFF 0 []
  else s

/-- MUTE_SW_N goes low, which acts in reset too. A wake whose freeze was still to come finds its window closed: its request ends with
SENTINEL_MUTED. -/
def doMute (s : State) : State :=
  if !s.clk.pwrOk || (!s.pins.muteSwN && (s.sent.muted || s.clk.heldInReset)) then s else
  let underWay := s.sent.freezeAtFrame.isSome && (s.sentCfg.any (·.wakeReq))
  let s := s.modPins fun p => { p with muteSwN := false, pdmClk := false, micPwrEn := false, muteLed := true }
  if s.clk.heldInReset then s else
  let s := s.modSent fun x => { (Sent.close x).stopClock with muted := true, erasing := true }
  let s := s.each s.req.table State.muteReq
  if underWay then (s.modReqs fun q => { q with wakePending := true }).tryWake else s
def execMute (s : State) : Host.Outcome State Fault Refusal := .next (doMute s)

def doMuteEraseDone (s : State) : State :=
  if s.sent.erasing then (s.modSent fun x => { x with erasing := false }).sentRecord 3 0 0 false false 0 else s
def execMuteEraseDone (s : State) : Host.Outcome State Fault Refusal := .next (doMuteEraseDone s)

/-- MUTE_SW_N has read high for 100 ms: the microphones are powered, and PDM_CLK starts 50 ms later (R428, R408). In reset only the pin
follows. -/
def doUnmute (at_ : Nat) (s : State) : State :=
  let s := s.advance at_
  if !s.clk.pwrOk || (s.pins.muteSwN && (!s.sent.muted || s.sent.unmuteAt.isSome)) then s
  else if s.clk.heldInReset then s.modPins fun p => { p with muteSwN := true, muteLed := false }
  else
  (s.modPins fun p => { p with muteSwN := true, micPwrEn := s.sentCfg.isSome }).modSent fun x =>
    { x with unmuteAt := some (s.clk.devTime + 50000000) }
def execUnmute (at_ : Nat) (s : State) : Host.Outcome State Fault Refusal := .next (doUnmute at_ s)

/-- A start of PDM_CLK: an empty chain, the warm-up, channels not fitted dead (R408, R415). -/
def Sent.startClock (x : Sent) (cfg : SentCfg) : Sent :=
  { x.stopClock with
    warmupLeft := 128, frameNo := 0, floors := List.replicate 4 (List.replicate 10 none), delayLine := List.replicate 8 [],
    paths := List.replicate 32 PathReg.reset, fir6 := List.replicate 4 (List.replicate 95 0), wideHist := List.replicate 4 [],
    detHist := List.replicate 4 [],
    chanDead := x.chanDead ||| BitVec.ofNat 8 ((cfg.chans.zipIdx.map fun (c, i) => if c.fitted then 0 else 2 ^ i).sum) }

/-- PDM_CLK starts 50 ms after MIC_PWR_EN; after a mute the LED goes off and an unmute record is written (R428). -/
def doPdmClkStart (at_ : Nat) (s : State) : State :=
  let s := s.advance at_
  if !s.pins.muteSwN || !(s.due s.sent.unmuteAt) then s else
  let was := s.sent.muted
  let s := s.modPins fun p => { p with muteLed := false, pdmClk := s.sentCfg.isSome }
  let s := s.modSent fun x => { ((s.sentCfg.elim x x.startClock) : Sent) with muted := false, unmuteAt := none }
  if was then s.sentRecord 4 0 0 false false 0 else s
def execPdmClkStart (at_ : Nat) (s : State) : Host.Outcome State Fault Refusal := .next (doPdmClkStart at_ s)

/-! ## Self-check (R429) -/

/-- One fitted channel: stuck, dead or sound, and the record of a change. -/
def State.checkChan (s : State) (cfg : SentCfg) (c : Nat) (m : ChanMeasure) : State :=
  let stuck := decide (-100 < m.meanCdb)
  let dead := !stuck && decide (m.powerCdb < cfg.deadCdb)
  let was := s.sent.chanDead.getLsbD c || s.sent.chanStuck.getLsbD c
  let put (v : BitVec 8) (on : Bool) : BitVec 8 := if on then v ||| (1#8 <<< c) else v &&& ~~~ (1#8 <<< c)
  let s := s.modSent fun x =>
    { x with levels := x.levels.set c m.powerCdb, chanDead := put x.chanDead dead, chanStuck := put x.chanStuck stuck }
  if (stuck || dead) && !was then s.error { cls := 2, source := 0x58, inst := c, code := 0x1010 }
  else if !(stuck || dead) && was then s.error { cls := 0, source := 0x58, inst := c, code := 0x1011 }
  else s

def doMicSelfCheck (at_ : Nat) (chans : List ChanMeasure) (s : State) : State :=
  let s := s.advance at_
  match s.sentCfg with
  | none => s
  | some cfg =>
    if !s.pins.pdmClk then s else
    (chans.take 8).zipIdx.foldl (fun s (m, c) => if (cfg.chans[c]?).any (·.fitted) then s.checkChan cfg c m else s) s
def execMicSelfCheck (at_ : Nat) (chans : List ChanMeasure) (s : State) : Host.Outcome State Fault Refusal :=
  .next (doMicSelfCheck at_ chans s)

end Sys2Proof.Machine
end

