-- ==== Sys2Proof/Machine/Image.lean ====
section
/-! DEFINITION. The image: its header and sections read from bytes, and the firmware's semantic checks (03, R67 to R70, R82, R498 to
R503; 04, R119; 08, R197, R198; 09, R213, R226; 10, R240, R250, R251, R507; 12, R306; 13, R320, R347; 16, R414; 18, R459). -/
namespace Sys2Proof.Machine
open Sys2Proof

/-! ## Header (Tables 3.2 to 3.4) -/

/-- "PLPN" -/
def plpnMagic : List Byte := [0x50, 0x4C, 0x50, 0x4E]

/-- A 48-byte hash field as a value, first byte lowest. -/
def hashAt (bs : List Byte) (off : Nat) : BitVec 384 := BitVec.ofNat 384 (fieldLE bs off 48)

def readEntry (bs : List Byte) : SectionEntry :=
  { type := fieldLE bs 0 1, inst := fieldLE bs 1 1, offset4k := fieldLE bs 2 2, length := fieldLE bs 4 4, hash := hashAt bs 8 }

/-- The header's fields; entries at SECTION_COUNT and above are not read (R68). -/
def readHeader (h : List Byte) : ImageHeader :=
  { sequence := fieldLE h 0x008 8, imageBytes := fieldLE h 0x010 4, svn := fieldLE h 0x014 1, numericGen := fieldLE h 0x007 1,
    buildStamp := fieldLE h 0x018 8, fwVersion := fieldLE h 0x020 4, imageHash := sha384Val h,
    sections := (List.range (min 64 (fieldLE h 0x006 1))).map fun i => readEntry (slice h (0x200 + 56 * i) 56) }

def SectionEntry.start (e : SectionEntry) : Nat := e.offset4k * 4096
def SectionEntry.stop (e : SectionEntry) : Nat := e.start + e.length

/-- Least and greatest count of a section type (Table 3.4); none for a type that is not listed. -/
def sectionCount (t : Nat) : Option (Nat × Nat) :=
  if t = 7 then some (1, 55) else if t = 9 then some (0, 1) else if 1 ≤ t && t ≤ 10 then some (1, 1) else none

/-- Table order of a section: type, then instance. -/
def SectionEntry.rank (e : SectionEntry) : Nat := e.type * 256 + if e.type = 7 then e.inst else 0

/-- Sections by rising start, in table order, each after the end of the one before. R69's "table order" is read as the order of Table 3.4, PROGRAMS
by INSTANCE, and not as the order of the section table's entries (DEDUCED, log entry 68). -/
def ordered : List SectionEntry → Bool
  | a :: b :: t => decide (a.rank < b.rank) && decide (a.stop ≤ b.start) && ordered (b :: t)
  | _ => true

/-- The rules of R69, with the ranges of Table 3.3. -/
def sectionsOk (h : ImageHeader) : Bool :=
  let es := h.sections
  (es.head?.map (·.type)) == some 1 && (es[1]?.map (·.type)) == some 2
    && es.all (fun e => (sectionCount e.type).isSome && decide (1 ≤ e.offset4k) && decide (1 ≤ e.length)
        && decide (e.stop ≤ h.imageBytes) && (e.type == 7 || e.inst == 0))
    && ((List.range 10).all fun i =>
        match sectionCount (i + 1) with
        | some (lo, hi) => let n := es.countP (fun e => e.type == i + 1); decide (lo ≤ n) && decide (n ≤ hi)
        | none => true)
    && (let is := (es.filter fun e => e.type == 7).map (·.inst)
        (List.range is.length).all is.contains)
    && ordered (sortBy SectionEntry.start es)

def maxImage : Nat := 125829120

/-- Check 3 of Table 3.6. -/
def structureOk (h : List Byte) : Bool :=
  let hd := readHeader h
  let n := fieldLE h 0x006 1
  slice h 0 4 == plpnMagic && fieldLE h 0x004 2 == 1 && decide (9 ≤ n) && decide (n ≤ 64)
    && hd.imageBytes % 4096 == 0 && decide (4096 ≤ hd.imageBytes) && decide (hd.imageBytes ≤ maxImage)
    && decide (hd.svn ≤ 64) && sectionsOk hd

/-! ## Signatures (R70, R71) -/

/-- FW_VERSION and the hashes of entries 0 and 1. -/
def vendorMessage (h : List Byte) : List Byte := slice h 0x20 4 ++ slice h 0x208 48 ++ slice h 0x240 48

def vendorKeyBytes : List Byte := bytesBE 48 Config.vendorKeyX.toNat ++ bytesBE 48 Config.vendorKeyY.toNat
def vendorSigOk (h : List Byte) : Bool := ecdsaVerify vendorKeyBytes (sha384 (vendorMessage h)) (slice h 0xA0 96)

def customerKey (h : List Byte) : List Byte := slice h 0x40 96
/-- An all-zero key hash matches no key. -/
def customerKeyOk (h : List Byte) : Bool := Config.customerKeyHash != 0 && sha384Val (customerKey h) == Config.customerKeyHash
/-- The signature covers the header with its own bytes taken as zero. -/
def customerSigOk (h : List Byte) : Bool :=
  ecdsaVerify (customerKey h) (sha384 (overlay h 0x1A0 (List.replicate 96 0))) (slice h 0x1A0 96)

/-! ## VOLTAGE and AUDIT (R498, R503) -/

def readVoltage (b : List Byte) : List (List Nat) :=
  (List.range 4).map fun t => (List.range 5).map fun d => fieldLE b (8 + 10 * t + 2 * d) 2

def voltageOk (b : List Byte) : Bool :=
  b.length == 64 && fieldLE b 0 2 == 1 && allZero (slice b 2 6) && allZero (slice b 0x30 16)
    && (readVoltage b).all fun r => r.all fun v => decide (600 ≤ v) && decide (v ≤ 950)

def auditOk (b : List Byte) : Bool := b == [(1 : Byte), 0] ++ List.replicate 62 0

/-! ## POLICY (R119) -/

def readPolicy (b : List Byte) : Policy :=
  { capW := fieldLE b 0x02 2, softC := fieldLE b 0x04 1, hardC := fieldLE b 0x05 1, hbmC := fieldLE b 0x06 1,
    ewmaShift := fieldLE b 0x07 1, tileMaxDiv := (List.range 4).map fun t => fieldLE b (0x08 + t) 1,
    idleDwellUs := fieldLE b 0x0C 2, p3Enable := fieldLE b 0x0E 1 == 1, p3DwellMs := fieldLE b 0x10 4,
    aonTimerS := fieldLE b 0x14 4,
    classes := (List.range 4).map fun c => { maxShare := fieldLE b (0x40 + 16 * c) 2, maxBays := fieldLE b (0x42 + 16 * c) 1 } }

def within (lo n hi : Nat) : Bool := decide (lo ≤ n) && decide (n ≤ hi)

def policyOk (b : List Byte) : Bool :=
  let p := readPolicy b
  b.length == 128 && fieldLE b 0 2 == 1 && within 450 p.capW 1000 && within 80 p.softC 100 && within (p.softC + 5) p.hardC 110
    && within 75 p.hbmC 95 && within 2 p.ewmaShift 8 && p.tileMaxDiv.all (fun d => decide (d ≤ 3))
    && within 10 p.idleDwellUs 10000 && decide (fieldLE b 0x0E 1 ≤ 1) && within 1 p.p3DwellMs 3600000
    && decide (p.aonTimerS ≤ 86400) && p.classes.all fun c => within 1 c.maxShare 256 && within 1 c.maxBays 80

/-! ## PERSONALITY (R499) -/

def readStreamClass (b : List Byte) : StreamClass :=
  let z := fieldLE b 0 1
  { present := z != 0xFF, slotSize := if z = 0xFF then 0 else 1024 * 2 ^ z, form := fieldLE b 1 1, fmtS := fieldLE b 2 1,
    h := fieldLE b 4 2, slotsPerBay := fieldLE b 6 2, idleMs := fieldLE b 8 4 }

def readPersonality (b : List Byte) : Personality :=
  { weightBytes := fieldLE b 0x300 8, t2ExpectGib := fieldLE b 0x308 4,
    classes := (List.range 8).map fun c => readStreamClass (slice b (0x400 + 16 * c) 16),
    places := (List.range 16).map fun t =>
      { streamTier := fieldLE b (0x480 + 16 * t) 1, poolBytes := fieldLE b (0x488 + 16 * t) 8,
        kvStreams := fieldLE b (0x580 + 16 * t) 4, kvPoolBytes := fieldLE b (0x588 + 16 * t) 8 },
    landingKib := fieldLE b 0x680 2, kvIdleMs := fieldLE b 0x684 4, plumbIntervalS := fieldLE b 0x700 4,
    scrubHours := fieldLE b 0x704 2, marginScan := bitOf (fieldLE b 0x706 1) 0 }

/-- Every byte outside the fields of Table 3.17 and of the tables it names. -/
def personalityReserved (b : List Byte) : Bool :=
  allZero (slice b 0x002 766) && allZero (slice b 0x30C 52) && allZero (slice b 0x340 192)
    && ((List.range 8).all fun c => fieldLE b (0x403 + 16 * c) 1 == 0 && fieldLE b (0x40C + 16 * c) 4 == 0)
    && ((List.range 16).all fun t => allZero (slice b (0x481 + 16 * t) 7) && allZero (slice b (0x584 + 16 * t) 4))
    && allZero (slice b 0x682 2) && allZero (slice b 0x688 120) && allZero (slice b 0x707 9) && allZero (slice b 0x710 240)

/-- Bytes of the carving of one bay (R197). -/
def Personality.carving (p : Personality) : Nat :=
  (p.classes.map fun c => if c.present then c.slotsPerBay * c.slotSize else 0).sum

/-- The semantic check of PERSONALITY (R499). A stream-class entry marked absent (SLOT_SIZE 0xFF) has no other field range-checked: R499 rejects a
value outside its range and does not say whether an absent entry's fields have one (DESIGN CHOICE, log entry 69). -/
def personalityOk (b : List Byte) : Bool :=
  let p := readPersonality b
  b.length == 2048 && fieldLE b 0 2 == 1 && personalityReserved b && p.weightBytes % (64 * mib) == 0
    && decide (p.t2ExpectGib ≤ 4096)
    && ((List.range 8).all fun c =>
        let e := slice b (0x400 + 16 * c) 16
        let k := readStreamClass e
        fieldLE e 0 1 == 0xFF || (decide (fieldLE e 0 1 ≤ 3) && decide (k.form ≤ 2) && (k.fmtS == 4 || k.fmtS == 6)
          && within 1 k.h 2048 && decide (k.slotsPerBay ≤ 2048) && decide (k.idleMs ≤ 86400000)))
    && decide (p.carving ≤ 2 * mib)
    && p.places.all (fun t => decide (t.streamTier ≤ 2) && t.poolBytes % block64 == 0 && decide (t.kvStreams ≤ 16777216)
        && t.kvPoolBytes % block64 == 0)
    && decide (p.landingKib ≤ 1024) && p.landingKib % 32 == 0 && decide (p.kvIdleMs ≤ 86400000)
    && (p.plumbIntervalS == 0 || within 60 p.plumbIntervalS 86400) && within 1 p.scrubHours 168
    && decide (fieldLE b 0x706 1 ≤ 1)

/-! ## TENANTS (R250, R251) -/

def readTenant (b : List Byte) : TenantCfg :=
  { present := fieldLE b 0 1 == 1, enabled := fieldLE b 1 1 == 1, weight := fieldLE b 2 1, failPolicy := fieldLE b 3 1 == 1,
    res := (List.range 3).map fun x => fieldLE b (0x08 + 8 * x) 8, lim := (List.range 3).map fun x => fieldLE b (0x20 + 8 * x) 8 }

def tenantBytes (b : List Byte) (t : Nat) : List Byte := slice b (64 + 64 * t) 64
def readTenants (b : List Byte) : List TenantCfg := (List.range 16).map fun t => readTenant (tenantBytes b t)

/-- An entry that is present has its fields in range; one that is not has every field 0. -/
def tenantEntryOk (e : List Byte) : Bool :=
  let t := readTenant e
  if fieldLE e 0 1 = 0 then allZero (slice e 1 3) && allZero (slice e 8 48)
  else fieldLE e 0 1 == 1 && decide (fieldLE e 1 1 ≤ 1) && decide (1 ≤ t.weight) && decide (fieldLE e 3 1 ≤ 1)
    && (t.res ++ t.lim).all fun v => v % block64 == 0

def tenantsFormOk (b : List Byte) : Bool :=
  decide (64 + 1024 ≤ b.length) && fieldLE b 0 2 == 1 && allZero (slice b 2 62) && fieldLE (tenantBytes b 0) 0 1 == 1
    && (List.range 16).all fun t => tenantEntryOk (tenantBytes b t)

/-! ## FABRIC (R306, R320, R347) -/

def readPort (b : List Byte) : PortCfg :=
  let f := fieldLE b 1 1
  { mode := fieldLE b 0 1, listen := bitOf f 0, farLoopAllow := bitOf f 1, spareEnable := bitOf f 2, minWidth := fieldLE b 2 1,
    minRate := fieldLE b 3 1, weakMargin := fieldLE b 4 2, critMargin := fieldLE b 6 2, hyst := fieldLE b 8 1,
    restoreS := fieldLE b 0xA 2 }

def portOk (b : List Byte) : Bool :=
  let p := readPort b
  decide (p.mode ≤ 3) && decide (fieldLE b 1 1 < 8) && (p.minWidth == 16 || p.minWidth == 8 || p.minWidth == 4)
    && decide (p.minRate ≤ 2) && within 5 p.weakMargin 100 && decide (p.critMargin + 5 ≤ p.weakMargin) && within 5 p.hyst 50
    && (p.restoreS == 0 || within 10 p.restoreS 3600)

def readPlace (b : List Byte) : PlaceEntry :=
  { program := fieldLE b 0 1, any := bitOf (fieldLE b 1 1) 0, stage := fieldLE b 2 2,
    cand := (List.range 8).map fun i => fieldLE b (4 + i) 1 }

def readFabric (b : List Byte) : FabricCfg :=
  { automatic := fieldLE b 2 1 == 1, nodeId := fieldLE b 3 1, fabricId := fieldLE b 8 8, settleUs := fieldLE b 0x12 2,
    timeMasterOk := fieldLE b 0x14 1 == 1, ports := (List.range 12).map fun n => readPort (slice b (0x100 + 32 * n) 32),
    places := (List.range (fieldLE b 0x10 2)).map fun i => readPlace (slice b (0x300 + 16 * i) 16) }

/-- Strictly rising by a key. -/
def rising {α : Type} (key : α → Nat) : List α → Bool
  | a :: b :: t => decide (key a < key b) && rising key (b :: t)
  | _ => true

def fabricOk (b : List Byte) : Bool :=
  let f := readFabric b
  let n := fieldLE b 0x10 2
  fieldLE b 0 2 == 1 && decide (fieldLE b 2 1 ≤ 1) && (decide (f.nodeId ≤ 253) || (f.automatic && f.nodeId == 0xFF))
    && allZero (slice b 4 4) && allZero (slice b 0x15 235) && decide (n ≤ 2048) && within 20 f.settleUs 1000
    && decide (fieldLE b 0x14 1 ≤ 1) && decide (0x300 + 16 * n ≤ b.length)
    && ((List.range 12).all fun i => portOk (slice b (0x100 + 32 * i) 32))
    && ((List.range n).all fun i => decide (fieldLE b (0x301 + 16 * i) 1 ≤ 1))
    && rising (fun (e : PlaceEntry) => e.program * 65536 + e.stage) f.places

/-! ## MANIFEST (R82) -/

def readObject (b : List Byte) : ManifestEntry :=
  { objectId := fieldLE b 0 4, fromPeer := bitOf (fieldLE b 4 1) 0, fromHost := bitOf (fieldLE b 4 1) 1, bytes := fieldLE b 8 8,
    hostAddr := fieldLE b 0x10 8, t1Offset := fieldLE b 0x18 8, hash := hashAt b 0x20 }

def readManifest (b : List Byte) : List ManifestEntry :=
  (List.range (min 16384 (fieldLE b 0 4))).map fun i => readObject (slice b (64 + 128 * i) 128)

def ManifestEntry.stop (e : ManifestEntry) : Nat := e.t1Offset + e.bytes

/-- Neighbours in a list sorted by place do not overlap. -/
def apart : List (Nat × Nat) → Bool
  | a :: b :: t => decide (a.2 ≤ b.1) && apart (b :: t)
  | _ => true

def manifestOk (b : List Byte) (weightBytes : Nat) : Bool :=
  let n := fieldLE b 0 4
  let es := readManifest b
  within 1 n 16384 && allZero (slice b 4 60) && decide (64 + 128 * n ≤ b.length)
    && ((List.range n).all fun i =>
        let e := slice b (64 + 128 * i) 128
        within 1 (fieldLE e 4 1) 3 && allZero (slice e 5 3) && allZero (slice e 0x50 48))
    && es.all (fun e => e.bytes % 64 == 0 && within 64 e.bytes gib && e.hostAddr % 64 == 0 && e.t1Offset % 4096 == 0
        && decide (e.stop ≤ weightBytes))
    && apart (sortBy (fun (p : Nat × Nat) => p.1) (es.map fun e => (e.t1Offset, e.stop)))

/-! ## PROGRAMS (R500 to R502) -/

def readShape (b : List Byte) : ShapeClass :=
  { maxContext := fieldLE b 0 2, maxF0 := fieldLE b 2 2, maxLeaves := fieldLE b 4 2, maxSteps := fieldLE b 6 2,
    maxBranch := fieldLE b 8 1, kindFrames := bitOf (fieldLE b 9 1) 0, kindStream := bitOf (fieldLE b 9 1) 1,
    rIn := fieldLE b 0xC 4, rOut := fieldLE b 0x10 4 }

def shapeOk (b : List Byte) : Bool :=
  let c := readShape b
  within 1 c.maxF0 4096 && within 1 c.maxLeaves 4096 && within 1 c.maxSteps 1024 && decide (c.maxBranch ≤ 4)
    && within 1 (fieldLE b 9 1) 3 && allZero (slice b 0xA 2) && decide (1 ≤ c.rIn) && decide (1 ≤ c.rOut)
    && allZero (slice b 0x14 12)

def readStage (b : List Byte) : StageCfg :=
  { layersKv := fieldLE b 0 1, kvFmt := fieldLE b 1 1, d := fieldLE b 2 2, appendMax := fieldLE b 4 2, ctxPerEvent := fieldLE b 6 2,
    persist := fieldLE b 0 1 != 0 && fieldLE b 8 1 == 1, slotsPerTask := fieldLE b 9 1, cell := bitOf (fieldLE b 0xA 1) 0 }

/-- A stage entry's ranges (Tables 3.16 and 9.1); `streamOnly` tells that the program accepts only stream contexts. -/
def stageOk (b : List Byte) (streamOnly : Bool) : Bool :=
  let g := readStage b
  decide (fieldLE b 0xA 1 ≤ 1) && allZero (slice b 0xB 5) &&
    (if g.layersKv = 0 then allZero (slice b 1 9)
     else decide (g.layersKv ≤ 64) && (g.kvFmt == 4 || g.kvFmt == 5 || g.kvFmt == 7 || g.kvFmt == 8) && within 64 g.d 1024
       && g.d % 64 == 0 && within 1 g.appendMax 4096 && decide (g.ctxPerEvent ≤ 4096)
       && (fieldLE b 8 1 == 0 || (fieldLE b 8 1 == 1 && streamOnly)) && within 1 g.slotsPerTask 32)

def readDemand (b : List Byte) : Demand :=
  { t1Fix := fieldLE b 0 8, t1PerFuture := fieldLE b 8 4, t1PerRecord := fieldLE b 0xC 4, t2Fix := fieldLE b 0x10 8,
    t2PerFuture := fieldLE b 0x18 4, t2PerRecord := fieldLE b 0x1C 4 }

def readTemplate (b : List Byte) : Template :=
  { stage := fieldLE b 0 2, shapeClass := fieldLE b 2 1 % 16, memBound := bitOf (fieldLE b 3 1) 0, context := bitOf (fieldLE b 3 1) 1,
    bayTasks := fieldLE b 4 1, eFixed := fieldLE b 8 4, ePerFuture := fieldLE b 0xC 4, dFixed := fieldLE b 0x10 4,
    dPerFuture := fieldLE b 0x14 4, entry := fieldLE b 0x18 4 }

def Template.rank (t : Template) : Nat := (b2n t.context * 65536 + t.stage) * 16 + t.shapeClass

/-- Entries of one size from an offset. -/
def entries (b : List Byte) (off size n : Nat) : List (List Byte) := (List.range n).map fun i => slice b (off + size * i) size

/-- The program in a body; `base` is the T1 address of the body. -/
def readProgram (b : List Byte) (base : Nat) : Program :=
  let ns := fieldLE b 4 2
  let nc := fieldLE b 6 1
  { number := fieldLE b 0 1, chained := fieldLE b 1 1 == 1, codec := fieldLE b 2 1, audioInput := fieldLE b 3 1 == 1,
    streamClass := if fieldLE b 7 1 = 0xFF then none else some (fieldLE b 7 1),
    classes := (entries b (fieldLE b 0x0C 4) 32 nc).map readShape, stages := (entries b (fieldLE b 0x10 4) 16 ns).map readStage,
    demands := (entries b (fieldLE b 0x14 4) 32 (ns * nc)).map readDemand,
    templates := (entries b (fieldLE b 0x18 4) 32 (2 * ns * nc)).map readTemplate,
    objects := (entries b (fieldLE b 0x1C 4) 4 (fieldLE b 0xA 2)).map natLE, codeBase := base + fieldLE b 0x20 4,
    codeLen := fieldLE b 0x24 4, digest := BitVec.ofNat 128 (fieldLE (sha384 b) 0 16) }

/-- A table that starts at a multiple of 64 and lies within the body. -/
def tableOk (b : List Byte) (off n : Nat) : Bool := off % 64 == 0 && decide (off + n ≤ b.length)

/-- The sums of R97: energy at 32 futures from 1 to 450,000, duration not 0. -/
def Template.sumsOk (t : Template) : Bool :=
  within 1 (t.eFixed + 32 * t.ePerFuture) 450000 && t.dFixed + 32 * t.dPerFuture != 0

/-- R501 and R97 over one body; `ids` are the manifest's objects. -/
def programOk (b : List Byte) (number : Nat) (ids : List Nat) : Bool :=
  let ns := fieldLE b 4 2
  let nc := fieldLE b 6 1
  let no := fieldLE b 0xA 2
  let p := readProgram b 0
  let streamOnly := p.classes.all fun c => c.kindStream && !c.kindFrames
  let cells := p.stages.countP (·.cell)
  decide (64 ≤ b.length) && fieldLE b 0 1 == number && decide (fieldLE b 1 1 ≤ 1) && decide (fieldLE b 2 1 < 8)
    && decide (fieldLE b 3 1 ≤ 1) && within 1 ns 256 && within 1 nc 16
    && (decide (fieldLE b 7 1 ≤ 7) || fieldLE b 7 1 == 0xFF) && fieldLE b 8 2 == 2 * ns * nc && decide (no ≤ 16384)
    && allZero (slice b 0x28 24) && tableOk b (fieldLE b 0x0C 4) (32 * nc) && tableOk b (fieldLE b 0x10 4) (16 * ns)
    && tableOk b (fieldLE b 0x14 4) (32 * ns * nc) && tableOk b (fieldLE b 0x18 4) (64 * ns * nc)
    && tableOk b (fieldLE b 0x1C 4) (4 * no) && fieldLE b 0x20 4 % 4096 == 0
    && decide (fieldLE b 0x20 4 + p.codeLen ≤ b.length) && p.codeLen % 4 == 0 && decide (4 ≤ p.codeLen)
    && (entries b (fieldLE b 0x0C 4) 32 nc).all shapeOk
    && (entries b (fieldLE b 0x10 4) 16 ns).all (fun e => stageOk e streamOnly)
    && decide (cells ≤ 1) && (p.streamClass.isNone == (cells == 0))
    && p.templates.all (fun t => within 1 t.bayTasks 80 && t.entry % 4 == 0 && decide (t.entry < p.codeLen)
        && decide (t.stage < ns) && decide (t.shapeClass < nc) && t.sumsOk)
    && rising Template.rank p.templates && rising id p.objects && p.objects.all ids.contains

/-- A directory entry: number, offset, length. -/
structure DirEntry where
  number : Nat
  offset : Nat
  length : Nat

def readDir (b : List Byte) : List DirEntry :=
  (entries b 64 16 (min 256 (fieldLE b 2 2))).map fun e => { number := fieldLE e 0 1, offset := fieldLE e 4 4, length := fieldLE e 8 4 }

/-- The programs of a section copied to a T1 address. -/
def readPrograms (b : List Byte) (base : Nat) : List Program :=
  (readDir b).map fun e => readProgram (slice b e.offset e.length) (base + e.offset)

def readCodedWeights (b : List Byte) : List CodedWeight :=
  (entries b (fieldLE b 4 4) 16 (min 262144 (fieldLE b 8 4))).map fun e =>
    { objectId := fieldLE e 0 4, wide := bitOf (fieldLE e 4 1) 0, firstUnit := fieldLE e 8 4, units := fieldLE e 0xC 4 }

def programsOk (b : List Byte) (ids : List Nat) : Bool :=
  let n := fieldLE b 2 2
  let cw := fieldLE b 8 4
  let cwOff := fieldLE b 4 4
  let dir := readDir b
  fieldLE b 0 2 == 1 && within 1 n 256 && decide (cw ≤ 262144) && cwOff % 64 == 0 && (cw != 0 || cwOff == 0)
    && decide (cwOff + 16 * cw ≤ b.length) && allZero (slice b 0xC 52) && decide (64 + 16 * n ≤ b.length)
    && (entries b 64 16 n).all (fun e => allZero (slice e 1 3) && allZero (slice e 0xC 4))
    && rising DirEntry.number dir
    && dir.all (fun e => e.offset % 4096 == 0 && decide (e.offset + e.length ≤ b.length)
        && programOk (slice b e.offset e.length) e.number ids)
    && apart (sortBy (fun (p : Nat × Nat) => p.1)
        (dir.map (fun e => (e.offset, e.offset + e.length)) ++ (if cw = 0 then [] else [(cwOff, cwOff + 16 * cw)])))

/-- No number twice. -/
def distinct : List Nat → Bool
  | [] => true
  | a :: t => !(t.contains a) && distinct t

/-! ## SENTINEL (R414) -/

def readTone (b : List Byte) : Tone :=
  { freqHz := fieldLE b 0 2, beams := BitVec.ofNat 4 (fieldLE b 2 1), iso8201 := fieldLE b 3 1 == 1, thr := fieldLE b 4 2,
    tolPct := fieldLE b 6 1, repeats := fieldLE b 7 1, segMs := ((List.range 8).map fun i => fieldLE b (8 + 2 * i) 2).takeWhile (· != 0) }

def readSentinel (b : List Byte) : SentCfg :=
  let f := fieldLE b 2 1
  { glass := bitOf f 0, tones := bitOf f 1, wakeReq := bitOf f 2, unlockS := fieldLE b 4 2, postMs := fieldLE b 6 2,
    wakePulseMs := fieldLE b 8 2, deadCdb := toSigned 16 (fieldLE b 0xA 2), selfCheckS := fieldLE b 0xC 4,
    chans := (List.range 8).map fun c =>
      { gainCdb := toSigned 16 (fieldLE b (0x10 + 8 * c) 2), phase := fieldLE b (0x12 + 8 * c) 1,
        fitted := bitOf (fieldLE b (0x13 + 8 * c) 1) 0 },
    delays := (List.range 4).map fun k => (List.range 8).map fun c => fieldLE b (0x50 + 16 * k + 2 * c) 2,
    weights := (List.range 4).map fun k => (List.range 8).map fun c => toSigned 16 (fieldLE b (0x90 + 16 * k + 2 * c) 2),
    glassBeams := BitVec.ofNat 4 (fieldLE b 0xD0 1), flexThr := fieldLE b 0xD2 2, flexMinMs := fieldLE b 0xD4 2,
    shatterThr := fieldLE b 0xD6 2, shatterMinMs := fieldLE b 0xD8 2, winMinMs := fieldLE b 0xDA 2, winMaxMs := fieldLE b 0xDC 2,
    toneDefs := (List.range 8).map fun i => readTone (slice b (0x100 + 32 * i) 32), wakeDesc := slice b 0x200 128 }

def thrOk (n : Nat) : Bool := within 30 n 600
def msOk (n : Nat) : Bool := within 8 n 5000

/-- A tone entry that is used. -/
def toneOk (b : List Byte) : Bool :=
  let t := readTone b
  fieldLE b 0 2 == 0 || (within 300 t.freqHz 7500 && decide (fieldLE b 2 1 < 16) && decide (fieldLE b 3 1 ≤ 1) && thrOk t.thr
    && within 5 t.tolPct 25 && within 1 t.repeats 8 && t.segMs.all msOk && !t.segMs.isEmpty && allZero (slice b 0x18 8))

def sentinelOk (b : List Byte) : Bool :=
  let c := readSentinel b
  b.length == 640 && fieldLE b 0 2 == 1 && decide (fieldLE b 2 1 < 8) && fieldLE b 3 1 == 0 && within 10 c.unlockS 600
    && decide (c.postMs ≤ 2000) && within 1 c.wakePulseMs 1000 && decide (-11000 ≤ c.deadCdb) && decide (c.deadCdb ≤ -6000)
    && within 60 c.selfCheckS 86400
    && ((List.range 8).all fun i => decide (fieldLE b (0x13 + 8 * i) 1 ≤ 1) && allZero (slice b (0x14 + 8 * i) 4))
    && c.chans.all (fun k => decide (-600 ≤ k.gainCdb) && decide (k.gainCdb ≤ 600) && decide (k.phase ≤ 63))
    && c.delays.all (fun r => r.all fun d => decide (d ≤ 4095)) && decide (fieldLE b 0xD0 1 < 16) && fieldLE b 0xD1 1 == 0
    && thrOk c.flexThr && thrOk c.shatterThr && msOk c.flexMinMs && msOk c.shatterMinMs && msOk c.winMinMs && msOk c.winMaxMs
    && decide (c.winMinMs ≤ c.winMaxMs) && allZero (slice b 0xDE 18) && allZero (slice b 0xF0 16)
    && (List.range 8).all fun i => toneOk (slice b (0x100 + 32 * i) 32)

/-! ## The whole configuration -/

/-- The sections' bytes as the flash holds them. -/
structure ImageBytes where
  header : List Byte
  bytes : SectionEntry → List Byte

def ImageBytes.entry (x : ImageBytes) (type : Nat) : Option SectionEntry := (readHeader x.header).sections.find? fun e => e.type == type
def ImageBytes.section_ (x : ImageBytes) (type : Nat) : List Byte := ((x.entry type).map x.bytes).getD []

/-- PROGRAMS sections in INSTANCE order. -/
def ImageBytes.progs (x : ImageBytes) : List (List Byte) :=
  (sortBy SectionEntry.inst ((readHeader x.header).sections.filter fun e => e.type == 7)).map x.bytes

def up4k (n : Nat) : Nat := roundUp n 4096

/-- Each PROGRAMS section with its T1 address, and the address after the last (R502). -/
def placeProgs : List (List Byte) → Nat → List (List Byte × Nat) × Nat
  | [], a => ([], a)
  | b :: t, a => let r := placeProgs t (up4k (a + b.length)); ((b, a) :: r.1, r.2)

/-- The end of the programs region (R502, Table 10.2). -/
def regionEnd (manifestAt manifestLen : Nat) : Nat := t1Base + roundUp (manifestAt + manifestLen - t1Base) (64 * mib)

/-- The configuration an image describes. -/
def ImageBytes.cfg (x : ImageBytes) : Cfg :=
  let placed := placeProgs x.progs t1Base
  let man := x.section_ 8
  { header := readHeader x.header, voltage := readVoltage (x.section_ 2), policy := readPolicy (x.section_ 4),
    tenants := readTenants (x.section_ 5), pers := readPersonality (x.section_ 3), fabric := readFabric (x.section_ 6),
    programs := sortBy Program.number (placed.1.flatMap fun p => readPrograms p.1 p.2),
    codedWeights := placed.1.flatMap fun p => readCodedWeights p.1, manifest := readManifest man,
    sentinel := (x.entry 9).map fun e => readSentinel (x.bytes e), programsEnd := regionEnd placed.2 man.length }

/-- The fixed allocations of a tenant in placement order (R507): tier, kind, bytes. Each starts at a 64 KiB boundary. -/
def Cfg.fixedOf (c : Cfg) (t : Nat) : List (Nat × FixedKind × Nat) :=
  let p := c.pers.places.getD t TenantPlace.zero
  let stream := if p.streamTier = 0 then [] else
    [(p.streamTier, FixedKind.streamDir, 512 * mib), (p.streamTier, FixedKind.streamPool, p.poolBytes)]
  let kv := if p.kvStreams = 0 then [] else
    c.programs.flatMap fun q => (List.range q.stages.length).flatMap fun k =>
      if ((q.stages[k]?).map (·.persist)).getD false then
        [(1, FixedKind.kvDir q.number k, roundUp (64 * p.kvStreams) block64), (1, FixedKind.kvPool q.number k, p.kvPoolBytes)]
      else []
  stream ++ kv

/-- Capacity of a tier with no bay or pseudo-channel fenced (R239). -/
def Cfg.capacity (c : Cfg) (x : Nat) : Int :=
  match x with
  | 0 => 80 * ((0x800000 : Int) - c.pers.carving - c.pers.landingKib * 1024)
  | 1 => (288 * gib : Nat) - (c.programsEnd - t1Base : Nat) - (c.pers.weightBytes : Nat) - (512 * mib : Nat)
  | _ => let e := c.pers.t2ExpectGib * gib
         if e = 0 then 0 else (e : Nat) - (max (64 * mib) (e / 4096) : Nat)

/-- The invariants of R251. -/
def Cfg.tenantsOk (c : Cfg) : Bool :=
  let live := c.tenants.filter (·.present)
  (List.range 3).all fun x =>
    decide (((live.map fun t => t.res.getD x 0).sum : Nat) ≤ c.capacity x)
      && live.all (fun t => decide (t.res.getD x 0 ≤ t.lim.getD x 0) && decide ((t.lim.getD x 0 : Nat) ≤ c.capacity x))
      && (List.range 16).all fun t =>
          let need := ((c.fixedOf t).filter fun f => f.1 == x).map fun f => f.2.2
          !((c.tenants.getD t TenantCfg.zero).present) || decide (need.sum ≤ (c.tenants.getD t TenantCfg.zero).res.getD x 0)

/-- Check 11 of Table 3.6. -/
def ImageBytes.semanticsOk (x : ImageBytes) : Bool :=
  let c := x.cfg
  let ids := c.manifest.map (·.objectId)
  voltageOk (x.section_ 2) && personalityOk (x.section_ 3) && policyOk (x.section_ 4) && tenantsFormOk (x.section_ 5)
    && fabricOk (x.section_ 6) && manifestOk (x.section_ 8) c.pers.weightBytes && auditOk (x.section_ 10)
    && (match x.entry 9 with
        | some e => sentinelOk (x.bytes e)
        | none => true)
    && x.progs.all (fun b => programsOk b ids) && distinct (c.programs.map (·.number)) && decide (c.programs.length ≤ 256)
    && decide (0 ≤ c.capacity 1) && c.tenantsOk

end Sys2Proof.Machine
end

