-- ==== Sys2Proof/Machine/SlotOps.lean ====
section
/-! DEFINITION. Slot verification: the checks of Table 3.6, the order of the slots, and the fallback (03, R72 to R74). -/
namespace Sys2Proof.Machine
open Sys2Proof

/-- The image a slot holds. -/
def Boot.slotImage (b : Boot) (slot : Nat) : ImageBytes :=
  { header := b.flashRead (slotBase slot) 4096, bytes := fun e => b.flashRead (slotBase slot + e.start) e.length }

def ImageBytes.sectionHashesOk (x : ImageBytes) : Bool :=
  (readHeader x.header).sections.all fun e => sha384Val (x.bytes e) == e.hash

/-- The first check that fails among some, as (check, code); none where all pass. -/
def firstFail : List (Nat × Nat × Bool) → Option (Nat × Nat)
  | [] => none
  | (n, code, ok) :: t => if ok then firstFail t else some (n, code)

/-- Checks 2 to 9 and 11 of Table 3.6 against a header hash and a fuse floor. -/
def ImageBytes.checks (x : ImageBytes) (hash : BitVec 384) (floor : Nat) : List (Nat × Nat × Bool) :=
  let h := x.header
  [(2, 0x0B, sha384Val h == hash), (3, 0x02, structureOk h), (4, 0x03, (readHeader h).numericGen == 1), (5, 0x04, vendorSigOk h),
   (6, 0x05, customerKeyOk h), (7, 0x06, customerSigOk h), (8, 0x07, decide (floor ≤ (readHeader h).svn)),
   (9, 0x08, x.sectionHashesOk), (11, 0x09, x.semanticsOk)]

/-- The code of a slot's verification, 0 where it passes. A flash read that times out during check k gives 0x0A unless an earlier
check has failed (R73). -/
def Boot.slotCode (b : Boot) (slot : Nat) (timeout : Option Nat) : Nat :=
  let x := b.slotImage slot
  let fail := firstFail ((1, 0x01, b.slotState slot == slotCommitted) ::
    x.checks (((b.slotRec slot).map (·.headerHash)).getD 0) b.fuseFloor)
  match timeout, fail with
  | none, none => 0
  | none, some f => f.2
  | some _, none => 0x0A
  | some k, some f => if k ≤ f.1 then 0x0A else f.2

/-- Checks 2 to 11 of a staged slot for COMMIT_IMAGE, with the header hash the device computes itself (R80). -/
def Boot.commitCode (b : Boot) (slot : Nat) : Nat :=
  let x := b.slotImage slot
  ((firstFail (x.checks (sha384Val x.header) b.fuseFloor)).map (·.2)).getD 0

/-- The slot that is verified first: the higher SEQUENCE of the current control records, slot A on a tie (R74). -/
def Boot.firstSlot (b : Boot) : Nat :=
  let seq (slot : Nat) : Nat := if b.slotState slot = slotStaging then 0 else b.slotSequence slot
  if seq 0 < seq 1 then 1 else 0

/-- Verification of both slots as far as needed: the codes of A and B (0 where it passed or was not tried), and the active slot. -/
def Boot.verify (b : Boot) (timeoutA timeoutB : Option Nat) : Nat × Nat × Option Nat :=
  let code (slot : Nat) : Nat := b.slotCode slot (if slot = 0 then timeoutA else timeoutB)
  let first := b.firstSlot
  let second := 1 - first
  let c1 := code first
  if c1 = 0 then (0, 0, some first) else
  let c2 := code second
  let pair := if first = 0 then (c1, c2) else (c2, c1)
  (pair.1, pair.2, if c2 = 0 then some second else none)

end Sys2Proof.Machine
end

