-- ==== Sys2Proof/Machine/FenceOps.lean ====
section
/-! DEFINITION. The fence of a bay: work units abandoned and replayed, residents dropped, reservations moved, CAPS (18, R448 to R451). -/
namespace Sys2Proof.Machine
open Sys2Proof

/-! ## Replay inside the node (R449, R450, R234) -/

/-- A stage of a request runs again from its context work unit on this node: its work units, and the KV records it keeps, are
forgotten; its inputs are still here. -/
def State.replayLocal (s : State) (home asn k : Nat) : State :=
  let wus := s.req.running.filter fun w => w.home == home && w.key.asn == asn && w.key.stage == k
  let s := s.each wus fun s w => s.abandonWu home w.key
  let s := s.freeKv home asn (some k)
  s.modReqs fun q => { q with doneWu := q.doneWu.filter fun p => !(p.1 == home && p.2.asn == asn && p.2.stage == k) }

/-- End a request whose slots cannot be supplied: here, or at its home node. -/
def State.endNoSlots (s : State) (b : Fin 80) (home asn : Nat) : State :=
  if home = s.net.nodeId then s.failReqAt asn stContained 0x1202 0x20 b.val 0 []
  else
    let s := s.error { cls := 1, source := 0x20, inst := b.val, code := 0x1202, asn := some asn }
    (s.dropHome home asn).sendMsgTo home 0x21 (bytesLE 8 asn ++ bytesLE 1 stContained) (.steward asn)

/-- The program of a request that holds a reservation here. -/
def State.programOf (s : State) (home asn : Nat) : Option Program :=
  if home = s.net.nodeId then (s.reqOf asn).bind fun r => s.program r.d.program
  else (s.quota.tokens.find? fun t => t.home == home && t.asn == asn).bind fun t => s.program (Desc.program t.desc)

/-- The requests whose reserved gallery slots of a bay are lost: home, ASN, class and how many. -/
def State.lostSlots (s : State) (b : Fin 80) : List (Nat × Nat × Nat × Nat) :=
  let mine := s.str.slots.filterMap fun g =>
    if g.bay = b then
      match g.owner with
      | .reserved asn home => some (home, asn, g.cls)
      | .resident _ _ => none
    else none
  (mine.foldl (fun acc x => if acc.contains x then acc else acc ++ [x]) []).map fun x =>
    (x.1, x.2.1, x.2.2, mine.count x)

/-- Move a request's lost gallery slots to other bays, and replay its cell stage; without enough slots it ends (R450). -/
def State.moveSlots (s : State) (b : Fin 80) (x : Nat × Nat × Nat × Nat) : State :=
  let (home, asn, cls, n) := x
  match s.reserveSlots asn home cls n with
  | none => s.endNoSlots b home asn
  | some s =>
    let s := if home = s.net.nodeId then s.modReq asn fun r => { r with pendingSlot := none } else s
    let swap := s.str.swaps.find? fun y => y.asn == asn && y.bay == b
    let s := match swap, s.reqOf asn with
      | some y, some r =>
        let s := s.modStr fun t => { t with swaps := t.swaps.erase y }
        (s.modHub fun h => { h with jobs := h.jobs.filter fun j => j.kind != JobKind.swapIn asn }).startSwap r
      | _, _ => s
    match (s.programOf home asn).bind Program.cellStage with
    | some k => s.replayLocal home asn k
    | none => s

/-- A request that reads its stream's state from a fenced bay swaps the committed version in again and replays its cell stage. -/
def State.rereadStream (s : State) (b : Fin 80) (r : Req) : State :=
  if r.leaseHeld && !r.failed && (r.residency.map (·.1)) == some b.val then
    let s := (s.modReq r.asn fun r => { r with residency := none }).startSwap r
    match (s.program r.d.program).bind Program.cellStage with
    | some k => s.replayLocal s.net.nodeId r.asn k
    | none => s
  else s

/-! ## The fence (R448) -/

/-- The programs this node's unfenced bays can run. -/
def State.runnable (s : State) : List Nat := (s.cfg.programs.filter fun p => decide (p.maxBays ≤ s.unfencedBays)).map (·.number)

/-- After a fence: CAPS again where it removes a program, and the re-placement of this home node's requests (R451). -/
def State.capsAfterFence (s : State) (before : List Nat) : State :=
  if s.runnable = before then s else
  let s := s.floodCaps
  let live := s.req.table.filter fun r => r.admitted && r.phase != .complete
  s.each live fun s r =>
    if s.runnable.contains r.d.program then s else s.rePlace r.asn fun n => n != s.net.nodeId

/-- The work unit that a bay runs. One whose KV records have committed is complete, and counts as no longer there (R221, R222). -/
def State.hitWu (s : State) (b : Fin 80) : Option RunWu :=
  ((s.bay b).task).bind fun t => (s.runOf t.home t.wu).filter fun w => !w.kvDone

/-- The work unit on a bay is abandoned everywhere and runs again under its key (R449). -/
def State.abandonHit (s : State) (b : Fin 80) : State :=
  match s.hitWu b with
  | some w => (s.abandonWu w.home w.key).countProg w.program 3 1
  | none => s

/-- The streams resident in a bay. -/
def State.residentsOf (s : State) (b : Fin 80) : List (Fin 16 × Nat) :=
  s.str.slots.filterMap fun (g : GalSlot) =>
    if g.bay = b then
      match g.owner with
      | .resident t id => some (t, id)
      | .reserved _ _ => none
    else none

/-- Resident stream states and tails in the bay are dropped; its gallery slots leave their pools (R450). -/
def State.dropBay (s : State) (b : Fin 80) : State :=
  let s := s.each (s.kv.residents.filter fun (x : ResTail) => x.bay == b) State.rollback
  let s := s.each (s.residentsOf b) fun (s : State) (e : Fin 16 × Nat) => s.clearRes e.1 e.2
  s.modStr fun t => { t with slots := t.slots.filter fun (g : GalSlot) => g.bay != b }

/-- Reservations in the bay move, and their stages replay (R450). -/
def State.moveAll (s : State) (b : Fin 80) (lost : List (Nat × Nat × Nat × Nat)) (readers : List Req) (held : List KvRec) : State :=
  let s := s.each lost fun (s : State) (x : Nat × Nat × Nat × Nat) => s.moveSlots b x
  let s := s.each readers fun (s : State) (r : Req) => s.rereadStream b r
  s.each held fun (s : State) (r : KvRec) => s.replayLocal r.home r.asn r.stage

/-- What a fence does beside its record: the bay receives nothing more and leaves every pool (R448). -/
def State.fenceEffects (s : State) (b : Fin 80) : State :=
  let before := s.runnable
  let s := ((s.abandonHit b).faultRamp b).modBay b fun y => { y with fenced := true, plumbHeld := false }
  let held := s.kv.records.filter fun (r : KvRec) => (r.held.map (·.1)) == some b
  let readers := s.req.table.filter fun (r : Req) => (r.residency.map (·.1)) == some b.val
  let lost := s.lostSlots b
  let s := ((s.dropBay b).moveAll b lost readers held).modBay b fun y => { y with landing := [] }
  let s := s.capsAfterFence before
  if s.unfencedBays = 0 then s.fatal 0x1235 0xFFFF (some 0x20) else s

/-- Fence a bay with a degraded record that names its cause (R448). -/
def State.fenceBay (s : State) (b : Fin 80) (code : Nat) (info : List Byte) : State :=
  if s.bayFenced b then s else
  (s.error { cls := 2, source := 0x20, inst := b.val, code := code, fence := true, info := info }).fenceEffects b

/-- A fault of the bay's own logic: INFO holds how many work units are abandoned (R449). -/
def State.bayFault (s : State) (b : Fin 80) : State :=
  s.fenceBay b 0x1210 (bytesLE 4 (if (s.hitWu b).isSome then 1 else 0))

end Sys2Proof.Machine
end

