-- ==== Sys2Proof/Machine/PlumbOps.lean ====
section
/-! DEFINITION. The plumb test's runs, rounds and steps (18, R459 to R464). -/
namespace Sys2Proof.Machine
open Sys2Proof

def State.plumbTile (s : State) (t : Fin 4) : PlumbTile := s.plumb.tiles.getD t.val PlumbTile.idle
def State.modPlumbTile (s : State) (t : Fin 4) (f : PlumbTile → PlumbTile) : State :=
  s.modPlumb fun p => { p with tiles := p.tiles.modify t.val f }

/-- The bay of a tile's round from round `r` on, with the round it has: an advanced bay first, else the next one not fenced. -/
def State.nextRound (s : State) (t : Fin 4) (r : Nat) : Option (Nat × Fin 80 × List (Fin 80)) :=
  if 20 ≤ r then none else
  match (s.plumbTile t).advance.filter fun b => !(s.bayFenced b) with
  | b :: rest => some (r, b, rest)
  | [] =>
    ((List.range 20).find? fun i => decide (r ≤ i) && !(s.bayFenced (bayIx (20 * t.val + i)))).map fun i =>
      (i, bayIx (20 * t.val + i), [])

/-- Start the round of a tile from round `r` on: its bay is held, and gets no new bay task; or the tile is done (R461). -/
def State.holdRound (s : State) (t : Fin 4) (r : Nat) : State :=
  match s.nextRound t r with
  | some (i, b, rest) =>
    (s.modBay b fun y => { y with plumbHeld := true }).modPlumbTile t fun x =>
      { x with round := i, bay := some b, step := 0, segment := 0, retry := false, yielded := false, waitingBay := true,
               finished := false, advance := rest }
  | none => s.modPlumbTile t fun x => { x with round := min r 19, bay := none, step := 0, waitingBay := false, finished := true }

/-- The spare lane of each ACTIVE port, where MARGIN_SCAN is set (R464); not while it carries traffic or is being brought into use (R305). -/
def State.scanSpares (s : State) : State :=
  if !s.cfg.pers.marginScan then s else
  s.each allPorts fun s n =>
    let p := s.port n
    if p.state == .active && p.spareUse == 0x1F && p.spareNext.isNone && decide (p.margins.getD 16 0 < ((s.cfg.fabric.ports.getD n.val PortCfg.zero).weakMargin : Int)) then
      (s.error { cls := 0, source := 0x10, inst := n.val, code := 0x1217 }).modPort n fun p => { p with noSpare := true }
    else s

/-- Start a run: the next number, every tile at round 0 (R460, R461). -/
def State.startRun (s : State) : State :=
  let s := s.modPlumb fun p =>
    { p with running := true, queued := false, run := p.run + 1, lastStart := s.clk.devTime }
  (s.each allTiles fun s t => s.holdRound t 0).countDev 20 1

/-- A trigger: a run starts, or one more is queued (R460). -/
def State.triggerRun (s : State) : State :=
  if s.plumb.running then s.modPlumb fun p => { p with queued := true } else s.startRun

/-- The number of the run that a trigger starts or joins. -/
def State.triggeredRun (s : State) : Nat := s.plumb.run + 1

/-- The run ends when every tile has finished its rounds; a queued one then starts (R461). -/
def State.endRun (s : State) : State :=
  if s.plumb.running && s.plumb.tiles.all (·.finished) then
    let s := s.scanSpares.modPlumb fun p => { p with running := false, runEnd := s.clk.devTime }
    if s.plumb.queued then s.startRun else s
  else s

/-- The round of a tile ends: its bay is released, and the next round starts. -/
def State.endRound (s : State) (t : Fin 4) : State :=
  let x := s.plumbTile t
  let s := match x.bay with
    | some b => s.modBay b fun y => { y with plumbHeld := false }
    | none => s
  (s.holdRound t (x.round + 1)).endRun

/-- A run in progress is abandoned and keeps its number; its bays are released (18, Reset and power). -/
def State.abandonRun (s : State) : State :=
  let s := s.each allBays fun s b => s.modBay b fun y => { y with plumbHeld := false }
  s.modPlumb fun p => { p with running := false, queued := false, tiles := p.tiles.map fun x => { PlumbTile.idle with advance := x.advance } }

/-- The code of a step's failure (Table 18.4). -/
def stepCode18 (step : Nat) : Nat := [0x1214, 0x1211, 0x1212, 0x1213].getD (step - 1) 0x1213

/-- March C− leaves the working area zero, and of no tenant (Table 18.8). -/
def State.marchZero (s : State) (b : Fin 80) : State :=
  (s.modMem fun m => { m with cells := Memory.clear m.cells (bayBase b) s.w0 }).modBay b fun y => { y with lastTenant := .none }

/-- A hub codec engine that fails its check is fenced; with the last one the device is fatal (R454, Table 18.6). -/
def State.fenceEngine (s : State) (e : Nat) : State :=
  if s.mem.hubCodecFenced.getLsbD e then s else
  let s := s.error { cls := 2, source := 0x40, inst := e, code := 0x1216, fence := true }
  let s := s.modMem fun m => { m with hubCodecFenced := m.hubCodecFenced ||| (1#32 <<< e) }
  if s.mem.hubCodecFenced = BitVec.allOnes 32 then s.fatal 0x1235 0xFFFF (some 0x40) else s

/-- Hub engines r and r + 20 are checked in round r of TILE[0] (R464). -/
def State.checkEngines (s : State) (r : Nat) (fails : BitVec 32) : State :=
  let es := r :: (if r < 12 then [r + 20] else [])
  s.each es fun s e => if fails.getLsbD e then s.fenceEngine e else s

/-- A step on a held bay ends: passed, repeated once, or its bay is fenced (R463). -/
def State.stepEnd (s : State) (t : Fin 4) (b : Fin 80) (passed : Bool) (group : Nat) : State :=
  let x := s.plumbTile t
  if passed then
    let s := if x.retry then s.error { cls := 0, source := 0x20, inst := b.val, code := 0x1215 } else s
    if 4 ≤ x.step then
      let s := (s.marchZero b).modPlumb fun p => { p with bayPass := p.bayPass.set b.val s.clk.devTime }
      s.endRound t
    else s.modPlumbTile t fun x => { x with step := x.step + 1, segment := 0, retry := false }
  else if !x.retry then s.modPlumbTile t fun x => { x with retry := true, segment := 0 }
  else
    (s.fenceBay b (stepCode18 x.step) (bytesLE 8 (s.plumb.bayPass.getD b.val 0) ++ bytesLE 2 group)).endRound t

end Sys2Proof.Machine
end

