-- ==== Sys2Proof/Machine/TrussOps.lean ====
section
/-! DEFINITION. The port engine: flits and their CRC, training sets, lanes and their health, the configuration a leader picks, codewords,
acknowledgement and replay, recovery, port reset, silence and drain (12, R287 to R318). -/
namespace Sys2Proof.Machine
open Sys2Proof

/-! ## CRCs (R292, Table 12.5) -/

def crc64Bit (c : BitVec 64) : BitVec 64 := if c.getLsbD 63 then (c <<< 1) ^^^ 0x42F0E1EBA9EA3693#64 else c <<< 1
def crc64Byte (c : BitVec 64) (b : Byte) : BitVec 64 :=
  crc64Bit (crc64Bit (crc64Bit (crc64Bit (crc64Bit (crc64Bit (crc64Bit (crc64Bit (c ^^^ (b.setWidth 64 <<< 56)))))))))
/-- The CRC-64 of a flit's header and payload (R292). -/
def crc64 (bs : List Byte) : BitVec 64 := ~~~ (bs.foldl crc64Byte 0xFFFFFFFFFFFFFFFF#64)

def crc16Bit (c : BitVec 16) : BitVec 16 := if c.getLsbD 15 then (c <<< 1) ^^^ 0x1021#16 else c <<< 1
def crc16Byte (c : BitVec 16) (b : Byte) : BitVec 16 :=
  crc16Bit (crc16Bit (crc16Bit (crc16Bit (crc16Bit (crc16Bit (crc16Bit (crc16Bit (c ^^^ (b.setWidth 16 <<< 8)))))))))
/-- The CHECK of a training set (Table 12.5). -/
def crc16 (bs : List Byte) : BitVec 16 := bs.foldl crc16Byte 0xFFFF#16

/-! ## Flits (Table 12.2) -/

def flitIdle : Nat := 0
def flitData : Nat := 1
def flitNak : Nat := 2
def flitSilent : Nat := 3
def flitLctl : Nat := 4

structure FlitHead where
  seq : Nat
  ack : Nat
  type : Nat
  vc : Nat
  crVc : Nat
  crCum : Nat
  valid16 : Nat
  eom : Bool
deriving DecidableEq, Repr

def FlitHead.word (h : FlitHead) : Nat :=
  h.seq % 4096 + 2 ^ 12 * (h.ack % 4096) + 2 ^ 24 * (h.type % 16) + 2 ^ 28 * (h.vc % 4) + 2 ^ 30 * (h.crVc % 4)
    + 2 ^ 32 * (h.crCum % 4096) + 2 ^ 44 * (h.valid16 % 16) + 2 ^ 48 * b2n h.eom

/-- The 256 bytes of a flit (R291, R292). -/
def flitBytes (h : FlitHead) (payload : List Byte) : List Byte :=
  let body := bytesLE 8 h.word ++ fit 240 payload
  body ++ bytesBE 8 (crc64 body).toNat

abbrev Flit := List Byte

def Flit.head (f : Flit) : FlitHead :=
  let w := fieldLE f 0 8
  { seq := bits w 0 12, ack := bits w 12 12, type := bits w 24 4, vc := bits w 28 2, crVc := bits w 30 2, crCum := bits w 32 12,
    valid16 := bits w 44 4, eom := bitOf w 48 }

/-- Payload chunks at and beyond VALID16 are ignored. -/
def Flit.payload (f : Flit) : List Byte := slice f 8 (16 * f.head.valid16)

/-- Whether the CRC holds and the TYPE is listed. -/
def Flit.good (f : Flit) : Bool :=
  f.length == 256 && natBE (slice f 248 8) == (crc64 (f.take 248)).toNat && decide (f.head.type ≤ 4)

/-! ## Training sets (Table 12.5) -/

abbrev TrainSet := List Byte

def TrainSet.ok (t : TrainSet) : Bool :=
  t.length == 32 && slice t 0 4 == [0x54, 0x52, 0x53, 0x53] && fieldLE t 0x1E 2 == (crc16 (t.take 0x1E)).toNat
    && decide (fieldLE t 4 1 ≤ 16)
def TrainSet.lane (t : TrainSet) : Nat := fieldLE t 0x04 1
def TrainSet.port (t : TrainSet) : Nat := fieldLE t 0x05 1
def TrainSet.tstate (t : TrainSet) : Nat := fieldLE t 0x06 1
def TrainSet.caps (t : TrainSet) : Nat := fieldLE t 0x07 1
def TrainSet.nonce (t : TrainSet) : BitVec 64 := BitVec.ofNat 64 (fieldLE t 0x08 8)
def TrainSet.chip (t : TrainSet) : BitVec 64 := BitVec.ofNat 64 (fieldLE t 0x10 8)
def TrainSet.laneOk (t : TrainSet) : BitVec 17 := BitVec.ofNat 17 (fieldLE t 0x18 4)
def TrainSet.preset (t : TrainSet) : Nat := fieldLE t 0x1C 1 % 8
def TrainSet.proposal (t : TrainSet) : Nat := fieldLE t 0x1D 1

/-- A training set as it is read off a lane whose polarity may be inverted: inverted levels turn the first bit of each pair over (R287, R289). -/
def TrainSet.upright (set : List Byte) : TrainSet × Bool :=
  if TrainSet.ok set then (set, false)
  else
    let t := set.map fun b => b ^^^ 0xAA#8
    if TrainSet.ok t then (t, true) else (set, false)

/-! ## Lanes (R287, R288, R307, R310) -/

def State.portCfg (s : State) (n : Fin 12) : PortCfg := s.cfg.fabric.ports.getD n.val PortCfg.zero

/-- Lanes of a width code: 0 x16, 1 x8, 2 x4. -/
def widthLanes (width : Nat) : Nat := 16 / 2 ^ width

/-- The port carries flits, or comes back from a RECOVERY. -/
def Port.up (p : Port) : Bool := p.state == .active || p.state == .recovery

/-- Physical lane that logical lane i of a configuration runs on. -/
def physLane (width group spare i : Nat) : Nat := if i = spare then 16 else group * widthLanes width + i

def Port.activeLanes (p : Port) : List Nat := (List.range (widthLanes p.width)).map (physLane p.width p.group p.spareUse)

/-- A lane pair is unhealthy when either direction is weak or has failed (R307). -/
def Port.unhealthy (p : Port) (l : Nat) : Bool :=
  p.weak.getLsbD l || p.failedLanes.getLsbD l || p.peerWeak.getLsbD l || p.peerFailed.getLsbD l

def Port.lost (p : Port) (l : Nat) : Bool := p.failedLanes.getLsbD l || p.peerFailed.getLsbD l

/-- A group of a width with `bad` lanes: usable alone, or with the spare for one lane; answers the logical lane on the spare. -/
def groupSpare (bad : Nat → Bool) (spareOk : Bool) (width g : Nat) : Option Nat :=
  match (List.range (widthLanes width)).filter fun i => bad (g * widthLanes width + i) with
  | [] => some 0x1F
  | [i] => if spareOk && !(bad 16) then some i else none
  | _ => none

/-- The lowest-numbered usable group of a width, with its spared lane (R310). -/
def usableGroup (bad : Nat → Bool) (spareOk : Bool) (width : Nat) : Option (Nat × Nat) :=
  (List.range (2 ^ width)).findSome? fun g => (groupSpare bad spareOk width g).map fun sp => (g, sp)

/-- The widest usable configuration from a width code on, not below MIN_WIDTH: width, group, spared lane. -/
def widest (bad : Nat → Bool) (spareOk : Bool) (minWidth from_ : Nat) : Option (Nat × Nat × Nat) :=
  ((List.range 3).filter fun w => decide (from_ ≤ w) && decide (minWidth ≤ widthLanes w)).findSome? fun w =>
    (usableGroup bad spareOk w).map fun g => (w, g.1, g.2)

/-- What a leader does about unhealthy lanes (R308). -/
inductive LaneAct where
  | none
  | spare (logical : Nat)
  | narrow (width group spare : Nat)
  | rate (rate width group spare : Nat)
  | reset
deriving DecidableEq, Repr

/-- The slowest rate both ends accept. -/
def Port.maxRate (p : Port) (c : PortCfg) : Nat := min c.minRate (p.peerCaps.toNat % 4)

/-- The action of R308. The spare's margin is the own direction's; of the peer's direction a leader knows what HEALTH tells, that the lane is
neither weak nor failed (no message of Table 12.8 and no field of Table 12.5 carries a margin). Step 3 retrains, so that the width and group
it names hold only until the margins at the new rate are known. -/
def leaderAct (p : Port) (c : PortCfg) : LaneAct :=
  let act := p.activeLanes
  let bad := act.filter p.unhealthy
  let spareOk := c.spareEnable && !p.noSpare
  match bad with
  | [] => .none
  | l :: rest =>
    let i := act.findIdx (· == l)
    if rest.isEmpty && spareOk && p.spareUse = 0x1F && p.spareNext.isNone && !(p.unhealthy 16)
        && decide ((c.weakMargin + c.hyst : Nat) ≤ p.margins.getD 16 0) then .spare i
    else
      match widest p.unhealthy spareOk c.minWidth (p.width + 1) with
      | some (w, g, sp) => .narrow w g sp
      | none =>
        if p.rate < p.maxRate c then
          match widest p.lost spareOk c.minWidth 0 with
          | some (w, g, sp) => .rate (p.rate + 1) w g sp
          | none => .reset
        else .reset

/-! ## Codewords (R289, R290) -/

/-- ALIGN starts: the streams are empty, codewords count from 0 and the scramblers are seeded. -/
def Port.realign (p : Port) : Port :=
  { p with txBits := BitRun.empty, txWords := 0, txPrbs := prbsSeeds, rxBits := [], rxWords := 0, rxPrbs := prbsSeeds }

/-- Put a codeword onto the lanes of the configuration. -/
def Port.sendWord (p : Port) (cw : List Sym) : Port :=
  let w := widthLanes p.width
  let lanes := (List.range w).map fun i =>
    let l := physLane p.width p.group p.spareUse i
    (l, laneLevels (p.txPrbs.getD l 0) (laneSyms w i cw))
  { p with wire := p.wire ++ [lanes.map fun x => x.2.1], txWords := (p.txWords + 1) % two32,
           txPrbs := lanes.foldl (fun (ps : List (BitVec 31)) x => ps.set x.1 x.2.2) p.txPrbs }

/-- A flit's bits join the stream, which is cut into messages of 5,140 bits. -/
def Port.feed (p : Port) (f : Flit) : Port :=
  let r := p.txBits.push 2048 (natBE f)
  if r.len < 5140 then { p with txBits := r } else
  let m := r.take 5140
  ({ p with txBits := m.2 }).sendWord (rsEncode (symsOf 514 m.1))

/-- What a codeword off the lanes leaves: its bits join the received stream, corrected where that is possible. -/
def Port.readWord (p : Port) (levels : LaneLevels) : Port :=
  let w := widthLanes p.width
  let lanes : List (Nat × List Sym × BitVec 31) := (List.range w).map fun i =>
    let l := physLane p.width p.group p.spareUse i
    (l, laneRead (p.rxPrbs.getD l 0) (p.polarity.getLsbD l) (levels.getD i []))
  let cw := (List.range 544).map fun k => coef (((lanes.getD (k % w) (0, [], 0)).2).1) (k / w)
  let p : Port := { p with rxWords := (p.rxWords + 1) % two32,
                           rxPrbs := lanes.foldl (fun (ps : List (BitVec 31)) x => ps.set x.1 x.2.2) p.rxPrbs }
  match rsDecode cw with
  | some (m, wrong) =>
    { p with rxBits := p.rxBits ++ [{ len := 5140, val := symsVal (m.take 514), good := true }],
             fecCorr := sat64 (p.fecCorr + wrong.length),
             laneCorr := wrong.foldl (fun (cs : List Nat) k => cs.modify (physLane p.width p.group p.spareUse (k % w)) (· + 1)) p.laneCorr }
  | none =>
    { p with rxBits := p.rxBits ++ [{ len := 5140, val := symsVal (cw.take 514), good := false }],
             fecUncorr := sat64 (p.fecUncorr + 1) }

/-- The codewords that arrive, and their event counts (Table 17.1 events 17 and 18). -/
def State.readWords (s : State) (n : Fin 12) (words : List LaneLevels) : State :=
  let p := s.port n
  let q := words.foldl Port.readWord p
  ((s.modPort n fun _ => q).countPort n 17 (q.fecCorr - p.fecCorr)).countPort n 18 (q.fecUncorr - p.fecUncorr)

/-- The next flit of the received stream, with whether every codeword that has a bit of it was correctable. -/
def Port.nextFlit (p : Port) : Option (Flit × Bool × Port) :=
  if runBits p.rxBits < 2048 then none else
  let x := takeRuns 2048 p.rxBits
  some (bytesBE 256 x.1, x.2.1, { p with rxBits := x.2.2 })

/-! ## Sending a flit (R293, R295, R296) -/

/-- Receive buffers in flits (Table 12.3). -/
def vcBuffer (v : Nat) : Nat := [128, 128, 192, 64].getD v 0

def Port.credit (p : Port) (v : Nat) : Bool :=
  decide ((p.vcSent.getD v 0 + 4096 - p.vcRxFreed.getD v 0 % 4096) % 4096 < vcBuffer v)

def Port.vcReady (p : Port) (v : Nat) : Bool := !((p.vcq.getD v []).isEmpty) && p.credit v

/-- Build a flit with the ACK and credit return every header carries, and put it on the lanes. -/
def Port.emit (p : Port) (type seq vc valid16 : Nat) (eom : Bool) (payload : List Byte) : Port × Flit :=
  let h : FlitHead :=
    { seq := seq, ack := (p.rxSeq + 4095) % 4096, type := type, vc := vc, crVc := p.crVc, crCum := p.vcFreed.getD p.crVc 0 % 4096,
      valid16 := valid16, eom := eom }
  let b := flitBytes h payload
  ({ p with out := p.out ++ [b], crVc := (p.crVc + 1) % 4 }.feed b, b)

/-- Send a sequenced flit: it enters the replay buffer. -/
def Port.emitSeq (p : Port) (now type vc valid16 : Nat) (eom : Bool) (payload : List Byte) : Port :=
  let (q, b) := p.emit type p.txSeq vc valid16 eom payload
  { q with replayBuf := q.replayBuf ++ [{ seq := p.txSeq, bytes := b }], txSeq := (p.txSeq + 1) % 4096,
           lastProgress := if p.replayBuf.isEmpty then now else p.lastProgress }

/-- The next flit of the message at the head of a virtual channel. -/
def Port.sendData (p : Port) (now v : Nat) : Port × Nat :=
  match p.vcq.getD v [] with
  | [] => (p, 0)
  | m :: rest =>
    let part := slice m.bytes (240 * m.sent) 240
    let valid := ceilDiv part.length 16
    let last := decide (m.bytes.length ≤ 240 * (m.sent + 1))
    let q := p.emitSeq now flitData v valid last part
    let q := { q with vcSent := q.vcSent.modify v fun n => (n + 1) % 4096 }
    if last then
      let x : FlightMsg := { vc := v, bytes := m.bytes, lastSeq := p.txSeq }
      ({ q with vcq := q.vcq.set v rest, inFlight := q.inFlight ++ [x] }, valid)
    else ({ q with vcq := q.vcq.set v ({ m with sent := m.sent + 1 } :: rest) }, valid)

/-- The VC that sends next: one that has waited 15 slots first, else VC 3, 1, 2, 0 (R296). -/
def Port.pickVc (p : Port) : Option Nat :=
  match (List.range 4).find? fun v => p.vcReady v && decide (15 ≤ p.vcWait.getD v 0) with
  | some v => some v
  | none => [3, 1, 2, 0].find? p.vcReady

/-- After a slot: how long each VC has been ready without sending. -/
def Port.waited (p : Port) (ready : List Bool) (sent : Option Nat) : Port :=
  { p with vcWait := (List.range 4).map fun v =>
             if sent = some v || !(ready.getD v false) then 0 else p.vcWait.getD v 0 + 1 }

def lctlMsg (type a b c weak failed index : Nat) : List Byte :=
  bytesLE 1 type ++ bytesLE 1 a ++ bytesLE 1 b ++ bytesLE 1 c ++ bytesLE 4 weak ++ bytesLE 4 failed ++ bytesLE 4 index

def Port.queueLctl (p : Port) (m : List Byte) : Port := { p with lctl := p.lctl ++ [m] }
def Port.sendHealth (p : Port) : Port := p.queueLctl (lctlMsg 1 0 0 0 p.weak.toNat p.failedLanes.toNat 0)

/-- Four SILENT flits at once (R314, R316). -/
def Port.silentNow (p : Port) (reason : Nat) : Port :=
  (List.range 4).foldl (fun p _ => (p.emit flitSilent 0 0 1 false (bytesLE 16 reason)).1) p

/-! ## Acknowledgement (R298, R299) -/

/-- ACK releases the flits up to it, and their messages. -/
def Port.ackTo (p : Port) (now a : Nat) : Port :=
  let kept := p.replayBuf.dropWhile fun f => decide ((a + 4096 - f.seq % 4096) % 4096 < 2048)
  if kept.length = p.replayBuf.length then p else
  let live := fun (n : Nat) => kept.any fun f => f.seq == n
  { p with replayBuf := kept, resend := p.resend.filter (fun f => live f.seq), inFlight := p.inFlight.filter (fun m => live m.lastSeq),
           lastProgress := now, replaysNoAck := 0, ackSeen := a }

/-- A header's ACK and credit return take effect. -/
def Port.hear (p : Port) (now : Nat) (h : FlitHead) : Port :=
  let p := p.ackTo now h.ack
  { p with vcRxFreed := p.vcRxFreed.set h.crVc h.crCum }

/-! ## Link life (R300, R317) -/

/-- What a port reset clears: replay buffer, sequence numbers, credits, equaliser state and lane map. -/
def Port.clearLink (p : Port) : Port :=
  { p with rate := 0, width := 0, group := 0, spareUse := 0x1F, leader := false, pairSelf := false, loopPlug := false, loop := 0,
           peerLaneOk := 0, marginSum := List.replicate 17 0, marginCount := 0, marginMin := List.replicate 17 0,
           winMin := List.replicate 17 0, weak := 0, failedLanes := 0, peerWeak := 0, peerFailed := 0, critLow := 0, polarity := 0,
           presets := List.replicate 17 0, trainedLanes := 0, txBits := BitRun.empty, txWords := 0, txPrbs := prbsSeeds, rxBits := [],
           rxWords := 0, rxPrbs := prbsSeeds, rxHeld := List.replicate 4 0, trainStart := none, continuous := false, txSeq := 0, rxSeq := 0, ackSeen := 0, replayBuf := [], resend := [],
           replaysNoAck := 0, recoveryTimes := [], recovery := none, nakDue := false, discarding := false, silentLeft := 0,
           silentReason := 0, lctl := [], vcq := List.replicate 4 [], vcSent := List.replicate 4 0, vcFreed := List.replicate 4 0,
           vcRxFreed := List.replicate 4 0, vcWait := List.replicate 4 0, crVc := 0, rxMsg := List.replicate 4 [], inFlight := [],
           resyncSent := false, resyncSeen := false, spareNext := none, degraded := [], healthyWindow := false, closed := false }

/-- Messages with an unacknowledged or unsent flit. -/
def Port.unfinished (p : Port) : List (Nat × List Byte) :=
  p.inFlight.map (fun m => (m.vc, m.bytes)) ++
    (List.range 4).flatMap fun v => (p.vcq.getD v []).map fun m => (v, m.bytes)

/-- A message of the transport goes out again over the route that now holds; a flooded or port-local one is not repeated. -/
def State.reroute (s : State) (skip : Fin 12) (vc : Nat) (bytes : List Byte) : State :=
  let src := fieldLE bytes 1 1
  let dst := fieldLE bytes 2 1
  let tfl := fieldLE bytes 3 1
  if dst = 0xFF then s else
  match s.net.pickPort src dst (tfl % 16) (tfl / 16 % 4) with
  | some q => if q = skip.val then s else s.putMsg (portIx q) vc bytes
  | none => s

/-- Give the messages that a port cannot finish back to the transport (R316). -/
def State.returnMsgs (s : State) (n : Fin 12) : State :=
  let ms := (s.port n).unfinished
  let s := s.modPort n fun p => { p with vcq := List.replicate 4 [], inFlight := [] }
  s.each ms fun s m => s.reroute n m.1 m.2

/-- Link down, as the network layer sees it. -/
def State.linkDown (s : State) (n : Fin 12) : State := (s.adjDown n).returnMsgs n

/-- A port reset (R317): its record, and SILENT RESET unless the peer's SILENT caused it; training starts from DETECT. The transmitter keeps its
lanes and its stream until SILENT RESET has gone out. -/
def State.portReset (s : State) (n : Fin 12) (tell : Bool) : State :=
  let s := s.modPort n fun p => { p with closed := true }
  let s := s.linkDown n
  let s := (s.error { cls := 2, source := 0x10, inst := n.val, code := 0x0C04 }).countPort n 24 1
  s.modPort n fun p =>
    let q := p.clearLink
    if tell then
      { q with state := .drain, silentLeft := 4, silentReason := 4, closed := true, width := p.width, group := p.group, spareUse := p.spareUse,
               txBits := p.txBits, txWords := p.txWords, txPrbs := p.txPrbs }
    else { q with state := .detect }

/-- No lane has been measured yet: none counts as good, here or at the peer. -/
def Port.unmeasured (p : Port) : Port :=
  { p with weak := ~~~0#17, peerWeak := ~~~0#17, peerLaneOk := 0, marginCount := 0, marginSum := List.replicate 17 0, critLow := 0 }

/-- Enter RECOVERY: ALIGN again, and at a new rate EQ as well (Table 12.4; R300, R308, R309). -/
def State.enterRecovery (s : State) (n : Fin 12) (k : RecoveryKind) : State :=
  (s.modPort n fun p =>
    let q := { p with state := .recovery, recovery := some k, recoveries := satInc p.recoveries, nakDue := false }.realign
    if k = .rate then q.unmeasured else q).countPort n 19 1

/-- RECOVERY after 8 replays without progress; the third within 1 s resets the port. -/
def State.replayRecovery (s : State) (n : Fin 12) : State :=
  let now := s.clk.devTime
  let p := s.port n
  let times := (p.recoveryTimes.filter fun t => decide (now < t + 1000000000)) ++ [now]
  let s := s.modPort n fun p => { p with recoveryTimes := times, replaysNoAck := 0 }
  let s := s.enterRecovery n .replay
  if 3 ≤ times.length then s.portReset n true else s

/-- Replay from the oldest unacknowledged flit (R299, R300). -/
def State.replay (s : State) (n : Fin 12) : State :=
  let s := (s.modPort n fun p =>
    { p with resend := p.replayBuf, replays := sat64 (p.replays + 1), replaysNoAck := p.replaysNoAck + 1 }).countPort n 12 1
  if 8 ≤ (s.port n).replaysNoAck && (s.port n).state == .active then s.replayRecovery n else s

/-- RECOVERY ends: what is unacknowledged is sent again, and a new evaluation window begins. -/
def Port.recovered (p : Port) : Port :=
  { p with state := .active, recovery := none, resend := p.replayBuf, discarding := false, marginCount := 0,
           marginSum := List.replicate 17 0 }

/-- A new configuration takes effect in RECOVERY. -/
def State.reconfigure (s : State) (n : Fin 12) (rate width group : Nat) : State :=
  let c := s.portCfg n
  let p := s.port n
  let spare := (groupSpare p.unhealthy (c.spareEnable && !p.noSpare) width group).getD 0x1F
  let kind : RecoveryKind := if rate = p.rate then .narrow else .rate
  let s := (s.modPort n fun p => { p with rate := rate, width := width, group := group, spareUse := spare }).costChanged n p
  s.enterRecovery n kind

/-! ## Leader actions (R308, R309) -/

/-- A codeword index at least 64 ahead of the codewords the leader has sent: how far is the leader's choice (a free value, log entry 39). -/
def State.freeIndex (s : State) (n : Fin 12) : Nat × State :=
  let (v, s) := s.draw
  (((s.port n).txWords + 64 + v.toNat % 2 ^ 30) % two32, s)

/-- Whether the codewords of the direction that the leader counts have reached an index: those sent by a leader, those received by a follower. -/
def Port.reached (p : Port) (ix : Nat) : Bool :=
  decide (((if p.leader then p.txWords else p.rxWords) + two32 - ix % two32) % two32 < 2147483648)

def State.degradedRecord (s : State) (n : Fin 12) (code event : Nat) : State :=
  let s := (s.error { cls := 2, source := 0x10, inst := n.val, code := code }).countPort n event 1
  s.modPort n fun p => { p with degradedAt := s.clk.devTime }

def State.laneAct (s : State) (n : Fin 12) : State :=
  let p := s.port n
  match leaderAct p (s.portCfg n) with
  | .none => s
  | .spare l =>
    let (ix, s) := s.freeIndex n
    (s.modPort n fun p =>
      { p.queueLctl (lctlMsg 2 l 0 0 0 0 ix) with spareNext := some (l, ix, true), degraded := .spare l :: p.degraded }).degradedRecord
        n 0x0C01 20
  | .narrow w g _ =>
    (s.modPort n fun p =>
      { p.queueLctl (lctlMsg 4 p.rate w g 0 0 0) with
        degraded := .narrow p.width p.group p.spareUse :: p.degraded }).degradedRecord n 0x0C02 21
  | .rate r w g _ =>
    (s.modPort n fun p =>
      { p.queueLctl (lctlMsg 4 r w g 0 0 0) with
        degraded := .rateDown p.rate p.width p.group p.spareUse :: p.degraded }).degradedRecord n 0x0C03 22
  | .reset => s.portReset n true

/-- The leader judges the lanes; in RECOVERY what it decides takes effect at once (Collisions, 12). -/
def State.judgeLanes (s : State) (n : Fin 12) : State :=
  let p := s.port n
  if !p.leader || !(p.state == .active || p.state == .recovery) || p.closed then s
  else if p.lctl.any fun m => fieldLE m 0 1 == 4 then s
  else
    let s := s.laneAct n
    let q := s.port n
    if q.state == .recovery then
      match q.lctl.find? fun m => fieldLE m 0 1 == 4 with
      | some m => s.reconfigure n (fieldLE m 1 1) (fieldLE m 2 1) (fieldLE m 3 1)
      | none => s
    else s

/-! ## Starting, silence and drain -/

/-- A port starts under its FABRIC entry: MODE 0 stays DISABLED, MODE 2 loops inside the PHY. -/
def Port.start (p : Port) (c : PortCfg) : Port :=
  let q := p.clearLink
  if c.mode = 0 then { q with state := .disabled }
  else if c.mode = 2 then { q with state := .loopback, loop := 1 }
  else { q with state := .detect }

/-- The transmitters turn off after the last SILENT. -/
def Port.afterSilent (p : Port) (c : PortCfg) : Port :=
  let q := p.clearLink
  if p.silentReason = 4 then { q with state := .detect }
  else if p.silentReason = 2 && c.listen then { q with state := .listen }
  else { q with state := .disabled }

/-- A port stops accepting new messages and enters DRAIN (R316); DRAIN_END then sends SILENT with the reason. -/
def Port.drain (p : Port) (reason : Nat) : Port := { p with state := .drain, closed := true, silentReason := reason }

/-- SILENT now, without DRAIN, on an ACTIVE port, and the state that follows it. -/
def State.silenceNow (s : State) (n : Fin 12) (reason : Nat) : State :=
  let c := s.portCfg n
  if (s.port n).state == .active || (s.port n).state == .recovery || (s.port n).state == .drain then
    let s := s.modPort n fun p => { p.silentNow reason with closed := true }
    let s := s.linkDown n
    s.modPort n fun p => { p with silentReason := reason }.afterSilent c
  else s.modPort n fun p => ({ p with silentReason := reason }.afterSilent c)

/-- Restart sequence numbers and credits at 0 (R295, R318). -/
def Port.restart (p : Port) : Port :=
  { p with txSeq := 0, rxSeq := 0, ackSeen := 0, replayBuf := [], resend := [], inFlight := [], nakDue := false, discarding := false,
           replaysNoAck := 0, vcSent := List.replicate 4 0, vcFreed := List.replicate 4 0, vcRxFreed := List.replicate 4 0,
           vcWait := List.replicate 4 0, rxHeld := List.replicate 4 0, rxMsg := List.replicate 4 [], resyncSent := false,
           resyncSeen := false, closed := false }

/-- Messages that a restart of the sequence cuts short are sent from their start again; the transport drops what arrives twice (R337). -/
def Port.requeue (p : Port) : Port :=
  { p with vcq := (List.range 4).map fun v =>
      ((p.inFlight.filter fun m => m.vc == v).map fun m => { bytes := m.bytes, sent := 0 }) ++
        (p.vcq.getD v []).map fun m => { m with sent := 0 } }

/-- Both ends have sent and received RESYNC (R318). -/
def Port.resync (p : Port) : Port := p.requeue.restart

end Sys2Proof.Machine
end

