-- ==== Sys2Proof/Machine/MbxOps.lean ====
section
/-! DEFINITION. The mailbox: its queue, its checks, and what each command does (14, R375 to R380; 03, R78 to R81, R87, R88). -/
namespace Sys2Proof.Machine
open Sys2Proof

/-! ## Asking for a reset (R49, R64) -/

/-- A reset cause arrives: a broader one replaces a narrower one, and an equal or narrower one is absorbed (R49, R64). -/
def State.askReset (s : State) (r : ResetReq) : State :=
  match s.clk.pendingReset, r with
  | _, .none => s
  | .none, r => if s.clk.warmInProgress && (match r with | .warm _ => true | .cold _ => false | .none => true) then s
                else s.modClk fun c => { c with pendingReset := r }
  | .warm _, .cold c => s.modClk fun k => { k with pendingReset := .cold c, warmAt := none }
  | .warm _, .warm _ => s
  | .cold _, _ => s

/-- A warm reset is asked for; a cold power-up under way absorbs it (R49, R64). -/
def State.askWarm (s : State) (cause : Nat) : State :=
  if s.boot.phase == .ready || s.boot.phase == .safe then s.askReset (.warm cause) else s

/-! ## Posting a result (R375) -/

/-- The command that runs ends: its result and code are posted and vector 0 is raised, or all are dropped after an FLR or PERST_N
(R373). -/
def State.mbxPost (s : State) (j : MbxJob) (code : Nat) (res : List Byte) : State :=
  let s := s.modHost fun h => { h with mbxRunning := none }
  if (s.page j.f).mbxDrop then s.modPage j.f fun p => { p with mbxDrop := false }
  else
    (s.modPage j.f fun p =>
      { p with mbxResult := fit 64 res, mbxCode := BitVec.ofNat 8 code, mbxSeq := j.seq, mbxBusy := false }).raise j.f 0

/-- Argument bytes outside the listed fields are 0. -/
def argsClear (args : List Byte) (used : List (Nat × Nat)) : Bool :=
  (fit 64 args).zipIdx.all fun (b, i) => b == 0 || used.any fun u => decide (u.1 ≤ i) && decide (i < u.1 + u.2)

def idGetInfo : Nat := 0x0001
def idSetTunable : Nat := 0x0002
def idQuiesce : Nat := 0x0003
def idResume : Nat := 0x0004
def idStage : Nat := 0x0010
def idCommit : Nat := 0x0011
def idWarmReset : Nat := 0x0020
def idSnapshot : Nat := 0x0030
def idPlumbNow : Nat := 0x0031
def idSentinelRead : Nat := 0x0040
def idExportPubkey : Nat := 0x0050
def idSetTimeOffset : Nat := 0x0060
def idLeaveFabric : Nat := 0x0070

/-- The fields of MBX_ARGS that a command takes, as (offset, bytes) (Table 14.4); none for an unknown command. -/
def mbxFields (id : Nat) : Option (List (Nat × Nat)) :=
  if id = idGetInfo || id = idResume || id = idWarmReset || id = idSnapshot || id = idPlumbNow || id = idLeaveFabric then some []
  else if id = idSetTunable then some [(0, 2), (8, 8)]
  else if id = idQuiesce || id = idCommit then some [(0, 1)]
  else if id = idStage then some [(0, 1), (4, 4), (8, 4), (0x10, 8)]
  else if id = idSentinelRead then some [(0, 8), (8, 4), (0xC, 4)]
  else if id = idExportPubkey then some [(0, 8), (8, 4)]
  else if id = idSetTimeOffset then some [(0, 8), (8, 8)]
  else none

/-- Firmware runs once a slot has passed (R73); what a command finds before that is the model's choice (log entry 44). -/
def State.firmwareRuns (s : State) : Bool := s.boot.phase == .hbm || s.boot.phase == .weights || s.boot.phase == .ready

/-- The code of a command that is not taken: unknown, not permitted, or refused in SAFE mode, while FATAL_N is low, or before the
firmware runs (R76, R376, R456). -/
def State.mbxDenied (s : State) (j : MbxJob) : Option Nat :=
  match mbxFields j.id with
  | none => some 0x80
  | some fields =>
    if j.f.val ≠ 0 && j.id ≠ idGetInfo && j.id ≠ idExportPubkey then some 0x81
    else if s.isSafe && j.id ≠ idGetInfo && j.id ≠ idStage && j.id ≠ idCommit then some 0x81
    else if !s.isSafe && s.isFatal && j.id ≠ idGetInfo && j.id ≠ idExportPubkey && j.id ≠ idWarmReset then some 0x83
    else if !s.isSafe && !s.firmwareRuns && j.id ≠ idGetInfo then some 0x83
    else if !(argsClear j.args fields) then some 0x82
    else none

/-! ## The commands -/

/-- GET_INFO's result. -/
def State.infoBytes (s : State) (f : Fin 16) : List Byte :=
  let flags := flagsNat [s.isReady, s.isSafe, s.clk.timeDegraded, s.req.quiesced]
  [0xB0, 1] ++ bytesLE 1 s.net.nodeId ++ bytesLE 1 f.val ++ bytesLE 1 flags ++ [0, 0, 0]
    ++ bytesLE 8 (if s.isSafe then 0 else s.cfg.header.sequence) ++ bytesLE 4 (if s.isSafe then 0 else s.cfg.header.fwVersion)
    ++ bytesLE 4 s.net.settled ++ bytesLE 4 s.tun.gen ++ bytesLE 4 s.mappedGib ++ bytesLE 8 s.clk.devTime
    ++ bytesLE 8 s.host.wallOffset.toNat

/-- A tunable that Table 3.8 lists, at an allowed value (R87). -/
def State.tunableOk (s : State) (id v : Nat) : Bool :=
  let t := id % 16
  let tenant := s.cfg.tenants.getD t TenantCfg.zero
  if id = 0x0001 then within 450 v s.cfg.policy.capW
  else if id / 16 = 0x10 then within 1 v 255
  else if 0x20 ≤ id / 16 && decide (id / 16 ≤ 0x22) then
    let x := id / 16 - 0x20
    v % 65536 == 0 && within (tenant.res.getD x 0) v (tenant.lim.getD x 0)
  else if id / 16 = 0x30 then decide (v ≤ 1) && (v == 0 || tenant.present)
  else if id = 0x0400 then within 1 v 1000000
  else if id = 0x0401 then v == 0 || within 100 v 10000000
  else false

/-- The first scheduler epoch boundary after now (R88, R94). -/
def State.nextEpoch (s : State) : Nat := (s.clk.devTime / 1000000 + 1) * 1000000

def State.mbxSetTunable (s : State) (j : MbxJob) : State :=
  let id := fieldLE j.args 0 2
  let v := fieldLE j.args 8 8
  if !(s.tunableOk id v) then s.mbxPost j 0x82 []
  else if max32 ≤ s.tun.gen then s.mbxPost j 0x83 []
  else
    let s := s.modTun fun t =>
      { t with shadow := (t.shadow.filter fun x => x.id != id) ++ [{ id := id, value := v, posted := s.clk.devTime }] }
    s.mbxPost j 0 (bytesLE 8 s.nextEpoch ++ bytesLE 4 s.tun.gen)

/-- Admitted requests that have not completed. -/
def State.admittedCount (s : State) : Nat := s.req.table.countP fun r => r.admitted && r.phase != .complete

/-- QUIESCE completes with no admitted request: the anchor of R91, and the result (R377). -/
def State.quiescePost (s : State) (j : MbxJob) (admitted : Nat) : State :=
  if s.admittedCount = 0 && s.req.doneQ.isEmpty then
    (s.writeAnchor 3).mbxPost j 0 (bytesLE 4 admitted ++ [0, 0, 0, 0] ++ bytesLE 8 (s.aud.head.getD (2 ^ 64 - 1)))
  else s.mbxPost j 0 (bytesLE 4 admitted ++ [0, 0, 0, 0] ++ bytesLE 8 (2 ^ 64 - 1))

/-- QUIESCE stops fetch; with WAIT the command goes on running until no request is admitted. -/
def State.mbxQuiesce (s : State) (j : MbxJob) : State :=
  let w := fieldLE j.args 0 1
  if 1 < w then s.mbxPost j 0x82 [] else
  let s := s.modReqs fun q => { q with quiesced := true }
  if w = 1 then s.modReqs fun q => { q with quiesceWait := some (j.f, j.seq) } else s.quiescePost j s.admittedCount

def State.mbxResume (s : State) (j : MbxJob) : State := (s.modReqs fun q => { q with quiesced := false }).tryWake.mbxPost j 0 []

/-- The flash operations that write a chunk: each 64 KiB sector is read around the chunk, erased, programmed and compared (R79). -/
def Boot.stageOps (b : Boot) (slot off : Nat) (data : List Byte) : List FlashOp :=
  let lo := slotBase slot + off
  let hi := lo + data.length
  let n := (hi - 1) / sectorBytes - lo / sectorBytes + 1
  (List.range n).flatMap fun i =>
    let a := (lo / sectorBytes + i) * sectorBytes
    let start := max lo a
    let part := slice data (start - lo) (min hi (a + sectorBytes) - start)
    [.erase a, .program a (overlay (b.flashRead a sectorBytes) (start - a) part), .readBack a (i + 1 == n)]

/-- Which slot STAGE_IMAGE and COMMIT_IMAGE may name: in SAFE mode either, else the inactive one (R76, R78). -/
def State.slotAllowed (s : State) (slot : Nat) : Bool := decide (slot ≤ 1) && (s.isSafe || slot != s.boot.activeSlot)

def State.mbxStage (s : State) (j : MbxJob) : State :=
  let slot := fieldLE j.args 0 1
  let off := fieldLE j.args 4 4
  let n := fieldLE j.args 8 4
  if !(s.slotAllowed slot) || off % 4096 ≠ 0 || n % 4096 ≠ 0 || n = 0 || 4194304 < n || slotBytes < off + n
      || fieldLE j.args 0x10 8 % 4096 ≠ 0 then s.mbxPost j 0x82 []
  else
    let s := if s.boot.planned.slotState slot = slotStaging then s
      else s.modBoot fun b => b.queueOps (b.planned.ctlOps slot slotStaging 0 0)
    match j.dma with
    | none => s.mbxPost j 0x87 []
    | some data =>
      if !(s.canSend 0) then s.mbxPost j 0x87 [] else (s.modBoot fun b => b.queueOps (b.stageOps slot off (fit n data))).countDev 23 n

/-- COMMIT_IMAGE reads the staged slot; the checks decide when the reads are done. -/
def State.mbxCommit (s : State) (j : MbxJob) : State :=
  let slot := fieldLE j.args 0 1
  if !(s.slotAllowed slot) then s.mbxPost j 0x82 [] else s.modBoot fun b => b.queueOps [.verify slot]

/-- SEQUENCE of the active image: that of the slot that passed, before its configuration is applied too. -/
def State.activeSequence (s : State) : Nat := (s.boot.verified.map (·.header.sequence)).getD s.cfg.header.sequence

/-- The code of a staged slot whose reads succeeded: the checks of Table 3.6, and outside SAFE mode the SEQUENCE (R80). -/
def State.stagedCode (s : State) (slot : Nat) : Nat :=
  let code := s.boot.commitCode slot
  if code ≠ 0 then code
  else if !s.isSafe && decide ((readHeader (s.boot.slotImage slot).header).sequence ≤ s.activeSequence) then 0x0C
  else 0

/-- The warm reset starts 100 µs after the result is posted (Table 14.4). -/
def State.mbxWarmReset (s : State) (j : MbxJob) : State :=
  let s := s.mbxPost j 0 []
  let free := s.clk.pendingReset == .none && !s.clk.warmInProgress
  let s := s.askWarm 4
  if free && s.clk.pendingReset != .none then s.modClk fun c => { c with warmAt := some (s.clk.devTime + 100000) } else s

/-- SNAPSHOT waits for the next pulse (R435). -/
def State.mbxSnapshot (s : State) (j : MbxJob) : State :=
  s.modCnt fun c => { c with due := c.due ++ [1], mbxDue := c.mbxDue ++ [(j.f, j.seq)] }

def State.mbxPlumbNow (s : State) (j : MbxJob) : State :=
  if !s.running then s.mbxPost j 0x83 [] else
  let n := s.triggeredRun
  s.triggerRun.mbxPost j 0 (bytesLE 8 n)

/-- SENTINEL_READ (R378): ring bytes inside an open window, zeros otherwise. -/
def State.mbxSentinelRead (s : State) (j : MbxJob) : State :=
  let addr := fieldLE j.args 0 8
  let off := fieldLE j.args 8 4
  let n := fieldLE j.args 0xC 4
  if addr % 64 ≠ 0 || off % 8 ≠ 0 || n % 8 ≠ 0 || 500000 < off + n then s.mbxPost j 0x82 []
  else if 0 < n && !(s.canSend j.f) then s.mbxPost j 0x87 []
  else
    let opened := !s.sent.muted && s.sent.windowEnd.isSome
    let bytes := if opened then slice s.sent.ringBytes off n else List.replicate n 0
    let s := if n = 0 then s else (s.emit (.dma j.f addr bytes)).countDev 22 n
    if opened then s.mbxPost j 0 (bytesLE 4 n ++ [0, 0, 0, 0] ++ bytesLE 8 s.sent.wakeTime)
    else
      let s := (s.modSent fun x => { x with lockedReads := satInc x.lockedReads }).countDev 19 1
      s.mbxPost j (if s.sent.muted then 0x86 else 0x85) (bytesLE 4 n)

/-- EXPORT_PUBKEY (R379), of any function; the transfer carries the PF's requester ID (R369). -/
def State.mbxExport (s : State) (j : MbxJob) : State :=
  let addr := fieldLE j.args 0 8
  let bytes := identityPublic ++ Config.certChain
  if addr % 64 ≠ 0 then s.mbxPost j 0x82 []
  else if fieldLE j.args 8 4 < bytes.length then s.mbxPost j 0x82 (bytesLE 4 bytes.length)
  else if !(s.canSend 0) then s.mbxPost j 0x87 []
  else ((s.emit (.dma 0 addr bytes)).countDev 22 bytes.length).mbxPost j 0 (bytesLE 4 bytes.length)

/-- SET_TIME_OFFSET (R380): a step is accepted only while TIME_DEGRADED is set and the node has no time master. -/
def State.mbxSetTimeOffset (s : State) (j : MbxJob) : State :=
  let step := fieldLE j.args 8 8
  if 1000000000 < step then s.mbxPost j 0x82 []
  else if 0 < step && !(s.clk.timeDegraded && s.net.timeMaster.isNone) then s.mbxPost j 0x83 []
  else
    let s := s.modHost fun h => { h with wallOffset := BitVec.ofNat 64 (fieldLE j.args 0 8) }
    let s := if step = 0 then s else s.modClk fun c => { c with devTime := c.devTime + step, timeDegraded := false }
    s.mbxPost j 0 (bytesLE 8 s.clk.devTime)

/-- LEAVE_FABRIC (R352, R354): LEAVE is flooded, every port drains, sends SILENT LEAVING and stays DISABLED, the node is a fabric of one,
and this home node's requests whose formation names another node fail. -/
def State.mbxLeave (s : State) (j : MbxJob) : State :=
  let hit := s.req.table.filter fun r => r.admitted && r.phase != .complete && !r.failed &&
    (match r.formation with
     | some m => m.nodes.any fun n => n.toNat != s.net.nodeId
     | none => false)
  let s := s.floodLeave 1
  let s := (s.modNet fun n => { n with leftFabric := true, adjs := [], lsdb := [], routesDirty := true }).checkMembers
  let s := s.each allPorts fun s n =>
    if (s.port n).state == .active || (s.port n).state == .recovery then
      s.modPort n fun p => p.drain 1
    else s.modPort n fun p => { p.clearLink with state := .disabled }
  let s := s.each hit fun s r => s.failReq r.asn stFabricLost 0x0D03
  s.mbxPost j 0 (bytesLE 4 hit.length)

/-- Run one command. -/
def State.mbxRun (s : State) (j : MbxJob) : State :=
  let s := s.countFn j.f 8 1
  match s.mbxDenied j with
  | some code => s.mbxPost j code []
  | none =>
    if j.id = idGetInfo then s.mbxPost j 0 (s.infoBytes j.f)
    else if j.id = idSetTunable then s.mbxSetTunable j
    else if j.id = idQuiesce then s.mbxQuiesce j
    else if j.id = idResume then s.mbxResume j
    else if j.id = idStage then s.mbxStage j
    else if j.id = idCommit then s.mbxCommit j
    else if j.id = idWarmReset then s.mbxWarmReset j
    else if j.id = idSnapshot then s.mbxSnapshot j
    else if j.id = idPlumbNow then s.mbxPlumbNow j
    else if j.id = idSentinelRead then s.mbxSentinelRead j
    else if j.id = idExportPubkey then s.mbxExport j
    else if j.id = idSetTimeOffset then s.mbxSetTimeOffset j
    else s.mbxLeave j

/-- Run waiting commands, one at a time, in order of arrival, until one goes on running (R375). -/
def State.mbxNext : Nat → State → State
  | 0, s => s
  | fuel + 1, s =>
    match s.host.mbxRunning, s.host.mbxWaiting with
    | none, j :: rest =>
      State.mbxNext fuel ((s.modHost fun h => { h with mbxRunning := some j, mbxWaiting := rest }).mbxRun j)
    | _, _ => s

def State.mbxGo (s : State) : State := State.mbxNext s.host.mbxWaiting.length s

/-- The running command ends, and the next one starts. -/
def State.mbxFinish (s : State) (j : MbxJob) (code : Nat) (res : List Byte) : State := (s.mbxPost j code res).mbxGo

/-- A write of MBX_CMD: it starts a command, or sets OVERRUN while BUSY is set. -/
def State.writeMbxCmd (s : State) (f : Fin 16) (v : Nat) (dma : Option (List Byte)) : State :=
  if (s.page f).mbxBusy then s.modPage f fun p => { p with mbxOverrun := true }
  else
    let j : MbxJob := { f := f, id := v % 65536, seq := BitVec.ofNat 16 (v / 65536), args := (s.page f).mbxArgs, dma := dma }
    let s := s.modPage f fun p => { p with mbxCmd := BitVec.ofNat 32 v, mbxBusy := true }
    (s.modHost fun h => { h with mbxWaiting := h.mbxWaiting ++ [j] }).mbxGo


/-- Staging and commit operations of the running command are given up. -/
def Boot.dropStaging (b : Boot) : Boot := { b with flashQueue := b.flashQueue.filter FlashOp.isAnchor }

/-- The mailbox command that runs ends with a flash result. -/
def State.flashResult (s : State) (code : Nat) (res : List Byte) : State :=
  match s.host.mbxRunning with
  | some j => if j.id = idStage || j.id = idCommit then s.mbxFinish j code res else s
  | none => s

/-- An anchor write fails: a degraded-class record, and a retry after 10 ms (R401). -/
def State.anchorFailed (s : State) (a : Anchor) : State :=
  (s.error { cls := 2, source := 0x50, code := 0x0F01 }).modAud fun x =>
    { x with anchorFail := satInc x.anchorFail, anchorRetry := x.anchorRetry ++ [(s.clk.devTime + 10000000, a)] }

/-- What the end of an operation means to the agent that asked for it (R79, R80, R91, R401). An anchor whose sector could not be erased is
not programmed: its write has failed. A check of COMMIT_IMAGE whose read does not succeed is check 10 of Table 3.6. -/
def State.flashEnded (s : State) (o : FlashOp) (ok : Bool) : State :=
  match o with
  | .anchorWrite _ a => if ok then (s.anchorWritten a).tryDrain else s.anchorFailed a
  | .anchorErase a =>
    if ok then s else (s.each (s.boot.sectorAnchors a) State.anchorFailed).modBoot fun b => b.dropSector a
  | .verify slot =>
    let code := if ok then s.stagedCode slot else 0x0A
    if (s.host.mbxRunning.map (·.id)) ≠ some idCommit then s
    else if code ≠ 0 then s.flashResult code []
    else
      let header := (s.boot.slotImage slot).header
      s.modBoot fun b => b.queueOps (b.planned.ctlOps slot slotCommitted (readHeader header).sequence (sha384Val header))
  | .commit _ _ seq =>
    if ok then
      let s := if s.isSafe then s.modBoot fun b => { b with commitResetAt := some (s.clk.devTime + 10000000) } else s
      s.flashResult 0 (bytesLE 8 seq)
    else (s.modBoot Boot.dropStaging).flashResult 0x84 []
  | .readBack _ last => if !ok then (s.modBoot Boot.dropStaging).flashResult 0x84 [] else if last then s.flashResult 0 [] else s
  | .erase _ => if ok then s else (s.modBoot Boot.dropStaging).flashResult 0x84 []
  | .program _ _ => if ok then s else (s.modBoot Boot.dropStaging).flashResult 0x84 []
  | .control _ _ => if ok then s else (s.modBoot Boot.dropStaging).flashResult 0x84 []

end Sys2Proof.Machine
end

