-- ==== Sys2Proof/Machine/CounterOps.lean ====
section
/-! DEFINITION. Snapshots and bandwidth windows (17, R435 to R439). -/
namespace Sys2Proof.Machine
open Sys2Proof

/-! ## Snapshots -/

/-- The state of the counters at a pulse, as a ring record (R436). -/
def State.snapRecord (s : State) (seq trigger : Nat) : SnapRec :=
  { index := seq % 1024, seq := seq, time := s.clk.devTime, trigger := trigger, saved := s.clk.tiles.any (fun t => !t.powered),
    epoch := s.net.settled, gen := s.tun.gen, values := s.cnt.values }

/-- One pulse: every counter into the shadow bank and the ring; it serves everything that waits (R435). The record names the trigger
that came first (log entry 43). -/
def State.pulse (s : State) : State :=
  match s.cnt.due with
  | [] => s
  | trigger :: _ =>
    let seq := s.cnt.snapLast + 1
    let r := s.snapRecord seq trigger
    let s := s.modCnt fun c =>
      { c with shadow := c.values, snapSeq := seq, snapTime := s.clk.devTime, snapLast := seq, due := [], mbxDue := [],
               ring := (c.ring.filter fun x => x.index != r.index) ++ [r] }
    match s.host.mbxRunning with
    | some j => if j.id = idSnapshot then s.mbxFinish j 0 (bytesLE 8 seq) else s
    | none => s

def snapRingBase : Nat := 0x0057F8000000

/-- LOAD: a ring record into the shadow bank; one not written, or poisoned, loads as zeros (R438, R441). -/
def State.loadRecord (s : State) (k : Nat) : State :=
  let r := if s.mem.poisoned (snapRingBase + 65536 * k) 65536 then none else s.cnt.ring.find? fun x => x.index == k
  s.modCnt fun c =>
    { c with shadow := (r.map (·.values)).getD [], snapSeq := (r.map (·.seq)).getD 0, snapTime := (r.map (·.time)).getD 0 }

/-- A write of CNT_SNAP_CTRL (Table 17.3): both bits set perform TAKE only. -/
def State.writeSnapCtrl (s : State) (v : Nat) : State :=
  let s := s.modCnt fun c => { c with loadIndex := BitVec.ofNat 10 (bits v 16 10) }
  if bitOf v 0 then s.modCnt fun c => { c with due := c.due ++ [0] }
  else if bitOf v 1 then s.loadRecord (bits v 16 10)
  else s

/-! ## Bandwidth windows (R439) -/

/-- The source count of window w (Table 17.4). -/
def State.bwSource (s : State) (w : Nat) : Nat :=
  let g := keyGet s.cnt.values
  if w < 12 then g (2624 + 32 * w)
  else if w < 24 then g (2625 + 32 * (w - 12))
  else if w < 32 then g (3008 + 16 * (w - 24))
  else if w < 40 then g (3009 + 16 * (w - 32))
  else if w = 40 then ((List.range 4).map fun d => g (3392 + 16 * d)).sum
  else if w = 41 then ((List.range 4).map fun d => g (3393 + 16 * d)).sum
  else g (6142 + (w - 42))

/-- A new B: histories, summaries and the window in progress are discarded; `done` windows lie before it (log entry 43). -/
def State.restartWindows (s : State) (len base done : Nat) : State :=
  s.modCnt fun c =>
    { c with winLen := len, winBase := base, winSeq := done,
             windows := (List.range 44).map fun w => { hist := [], base := s.bwSource w, last := 0 } }

/-- Store a rate in slot k mod 64, newest first. -/
def BwWindow.store (w : BwWindow) (k rate now : Nat) : BwWindow :=
  { hist := (k % 64, rate) :: w.hist.filter (fun p => p.1 != k % 64), base := now, last := rate }

/-- The end of window k: the rate of each source. -/
def State.endWindow (s : State) : State :=
  let k := s.cnt.winSeq
  s.modCnt fun c =>
    { c with winSeq := k + 1,
             windows := c.windows.zipIdx.map fun (w, i) =>
               w.store k (((s.bwSource i + 2 ^ 48 - w.base % 2 ^ 48) % 2 ^ 48) / max 1 c.winLen) (s.bwSource i) }

end Sys2Proof.Machine
end

