-- ==== Sys2Proof/Machine/HostOps.lean ====
section
/-! DEFINITION. Writes to the function pages and the CSR window, function-level and host-link resets (14, R361 to R373; 20, R489, R490). -/
namespace Sys2Proof.Machine
open Sys2Proof

/-! ## RING_CTRL (Table 14.2, R363) -/

/-- The checks of an arm. -/
def FnPage.armOk (p : FnPage) (pf : Bool) : Bool :=
  p.reqBase.toNat % 4096 == 0 && p.cplBase.toNat % 4096 == 0 && within 4 p.reqLog2.toNat 16 && within 4 p.cplLog2.toNat 16
    && (!pf || (p.audBase.toNat % 4096 == 0 && p.audWb.toNat % 8 == 0 && within 6 p.audLog2.toNat 16))

/-- Arm: ARMED with every count 0, or ARM_ERR. -/
def FnPage.arm (p : FnPage) (pf : Bool) : FnPage :=
  if p.armOk pf then
    { p with armBit := true, armed := true, armErr := false, reqTail := 0, reqHead := 0, cplHead := 0, cplTail := 0,
             audHead := 0, audTail := 0 }
  else { p with armBit := true, armErr := true }

/-- Requests that hold an audit-ring slot wait for one in the hold queue once the PF's audit ring is disarmed (R367). -/
def State.ringSlotsToHold (s : State) : State :=
  (s.modReqs fun q => { q with table := q.table.map fun r => { r with slot := .hold } }).modHost fun h =>
    { h with holdQ := h.holdQ.map fun e => { e with slot := .hold } }

/-- Disarm a function; its sizes and bases stand. -/
def State.disarm (s : State) (f : Fin 16) : State :=
  let s := s.modPage f fun p => { p with armBit := false, armed := false }
  if f = 0 then s.ringSlotsToHold else s

/-- A write of RING_CTRL: W1C TAIL_ERR; the sizes while unarmed; then ARM. -/
def State.writeRingCtrl (s : State) (f : Fin 16) (v : Nat) : State :=
  let pf := f.val == 0
  let s := if bitOf v 3 then s.modPage f fun p => { p with tailErr := false } else s
  let s := s.modPage f fun p =>
    if p.armed then p else
    { p with reqLog2 := BitVec.ofNat 5 (bits v 4 5), cplLog2 := BitVec.ofNat 5 (bits v 9 5),
             audLog2 := if pf then BitVec.ofNat 5 (bits v 14 5) else p.audLog2 }
  if !(bitOf v 0) then s.disarm f
  else if (s.page f).armBit then s
  else (s.modPage f fun p => p.arm pf).tryDrain

/-! ## The heads (R365, R371) -/

/-- A head write is taken when it does not pass the tail. -/
def headOk (head tail value : BitVec 32) : Bool := decide ((value - head).toNat ≤ (tail - head).toNat)

/-- REQ_TAGs of the newest `n` completions written to a function, oldest first. -/
def State.lastTags (s : State) (f : Fin 16) (n : Nat) : List Nat :=
  keepLast n (s.host.out.filterMap fun m =>
    match m with
    | .completion g _ bytes => if g = f then some (fieldLE bytes 0 8) else none
    | .output _ _ _ => none
    | .audit _ _ => none
    | .audWb _ _ => none
    | .dma _ _ _ => none
    | .msix _ _ => none
    | .doe _ => none
    | .aer _ => none
    | .ur _ => none
    | .cxlUr _ => none)

/-- The completion vector of a REQ_TAG on a function (R370). -/
def tagVector (f : Fin 16) (tag : Nat) : Nat := if f.val = 0 then 16 + tag % 2032 else 1 + tag % 7

/-- A CPL_HEAD write ends the moderation of the completion vectors; entries left unconsumed send their message at once. -/
def State.writeCplHead (s : State) (f : Fin 16) (value : BitVec 32) : State :=
  let p := s.page f
  if !(headOk p.cplHead p.cplTail value) then s else
  let s := s.modPage f fun p => { p with cplHead := value, quiet := p.quiet.filter fun v => f.val == 0 && v == 1 }
  let s := s.each (s.lastTags f (p.cplTail - value).toNat) fun s tag => s.sendQuiet f (tagVector f tag)
  s.tryDrain

/-- AUD_HEAD, and PF vector 1. -/
def State.writeAudHead (s : State) (value : BitVec 32) : State :=
  let p := s.page 0
  if !(headOk p.audHead p.audTail value) then s else
  let s := s.modPage 0 fun p => { p with audHead := value, quiet := p.quiet.filter (· != 1) }
  let s := if value = p.audTail then s else s.sendQuiet 0 1
  s.tryDrain

/-! ## Page writes (Table 14.1) -/

/-- One half of a 64-bit register replaced. -/
def setHalf (w : Word) (hi : Bool) (v : Nat) : Word :=
  if hi then BitVec.ofNat 64 (w.toNat % two32 + two32 * (v % two32)) else BitVec.ofNat 64 (w.toNat / two32 * two32 + v % two32)

/-- A write to the bases, which is ignored while armed. -/
def State.writeBase (s : State) (f : Fin 16) (o v : Nat) : State :=
  let hi := o % 8 == 4
  let pf := f.val == 0
  s.modPage f fun p =>
    if p.armed then p
    else if o < 0x08 then { p with reqBase := setHalf p.reqBase hi v }
    else if o < 0x10 then { p with cplBase := setHalf p.cplBase hi v }
    else if !pf then p
    else if o < 0x18 then { p with audBase := setHalf p.audBase hi v }
    else { p with audWb := setHalf p.audWb hi v }

/-- A 32-bit write at an offset of a function page; a read-only or absent register ignores it. -/
def State.writePage (s : State) (f : Fin 16) (o v : Nat) (dma : Option (List Byte)) : State :=
  if o < 0x20 then s.writeBase f o v
  else if o = 0x20 then s.writeRingCtrl f v
  else if o = 0x40 then s.writeTail f (BitVec.ofNat 32 v)
  else if o = 0x48 then s.writeCplHead f (BitVec.ofNat 32 v)
  else if o = 0x50 then (if f = 0 then s.writeAudHead (BitVec.ofNat 32 v) else s)
  else if o = 0x60 then s.modPage f fun p => { p with irqCause := p.irqCause &&& ~~~ (BitVec.ofNat 32 v) }
  else if o = 0x64 then s.modPage f fun p => { p with irqMask := BitVec.ofNat 32 v }
  else if 0x100 ≤ o && decide (o < 0x140) then
    s.modPage f fun p => { p with mbxArgs := overlay p.mbxArgs (o - 0x100) (bytesLE 4 v) }
  else if o = 0x180 then s.writeMbxCmd f v dma
  else s

/-! ## The windows (R362, R489, R490) -/

/-- Offsets in CSR space of 32-bit words with an IMG or TUN field: TOP_FW_VERSION and POWER_CAP. -/
def lockedWord (o : Nat) : Bool := o == 0x30 || o == 0x40008

/-- A 32-bit write through the CSR window, which only the PF has. -/
def State.writeCsr (s : State) (o v : Nat) (dma : Option (List Byte)) : State :=
  if 0xD0000 ≤ o && decide (o < 0xD0200) then s.writePage 0 (o - 0xD0000) v dma
  else if o = 0x61C000 then s.writeSnapCtrl v
  else if lockedWord o then s.lockViolation 0x0D 0 (csrBase + o) none
  else s

def State.writeWord (s : State) (h : HeldTlp) (o v : Nat) : State :=
  match h.win with
  | .doorbell => if o < 0x200 then s.writePage h.f o v h.dma else s
  | .csr => if h.f = 0 then s.writeCsr o v h.dma else s

/-- A host write: 4 or 8 bytes, naturally aligned, or dropped. An 8-byte write sets its two words, the lower first. -/
def State.writeReg (s : State) (h : HeldTlp) : State :=
  let v := h.value.toNat
  if h.width = 4 && h.offset % 4 = 0 then s.writeWord h h.offset (v % two32)
  else if h.width = 8 && h.offset % 8 = 0 then (s.writeWord h h.offset (v % two32)).writeWord h (h.offset + 4) (v / two32)
  else s

/-- A host write as it arrives: held in P3, else done. -/
def State.hostReg (s : State) (h : HeldTlp) : State := s.hostWrite h fun s => s.writeReg h

/-! ## Function-level reset and host-link reset (R52, R373) -/

/-- A function's page at its reset values. The rest of its PCIe function state resets with it, but not VF Enable, which is the PF's
(PRESUMED, log entry 45). Its waiting commands are dropped, and the result of a running one is discarded. -/
def State.clearPage (s : State) (f : Fin 16) (keepVf : Bool) : State :=
  let runs := (s.host.mbxRunning.map (·.f)) == some f
  let s := s.modPage f fun p => { FnPage.reset with vfEnabled := keepVf && p.vfEnabled, mbxDrop := runs }
  let s := s.modHost fun h => { h with mbxWaiting := h.mbxWaiting.filter fun j => j.f != f }
  if f = 0 then s.ringSlotsToHold else s

/-- The host-link reset of every function at once; the link is down, and the DOE exchange starts again. -/
def State.hostLinkReset (s : State) : State :=
  let s := s.each allFns fun s f => s.clearPage f false
  s.modHost fun h => { h.linkDown with doe := Doe.reset }

end Sys2Proof.Machine
end

