-- ==== Sys2Proof/Machine/StewOps.lean ====
section
/-! DEFINITION. The Steward's own work: divider steps, sensors, the joule ledger's windows, live tunables and what falls due at a
scheduler epoch boundary (02, R40 to R42; 03, R88 to R90; 04, R103 to R122; 18, R446). -/
namespace Sys2Proof.Machine
open Sys2Proof

/-! ## Tile dividers (R40, R114, R115) -/

/-- ÷5 while the reference is fast (R45). -/
def Clk.driftLimit (c : Clk) : Nat := if c.refDrift && c.refFast then 1 else 0

/-- The fastest divider that the limits in force leave a tile. -/
def State.ownLimit (s : State) (t : Nat) : Nat := max (s.tileLimit t) s.clk.driftLimit

/-- The divider a tile should run at: ÷16 in the hard hold, else the slower of the pressure divider and its own limit. -/
def State.wantedDiv (s : State) (t : Nat) : Nat := if (s.tile t).hold then 4 else max s.stew.pressureDiv (s.ownLimit t)

/-- TARGET_MV of a tile and divider code (Table 2.11). -/
def State.targetMv (s : State) (t d : Nat) : Nat := (s.cfg.voltage.getD t []).getD d 0

/-- Start a step: towards a lower frequency the divider switches first; towards a higher one the voltage is sent first. -/
def State.stepTo (s : State) (t d : Nat) : State :=
  let v := s.targetMv t d
  let slower := decide ((s.tile t).div < d)
  let s := s.modTile t fun x => { x with div := max x.div d, step := some { target := d, mv := v }, avsTarget := v }
  (s.countTile t 8 1).countTile t 5 (b2n slower)

/-- Whether a step waits for its voltage to rise. -/
def TileClk.rising (x : TileClk) : Bool :=
  match x.step with
  | some d => decide (d.target < x.div)
  | none => false

/-- Send a tile's voltage for the divider it runs at: a rise was given up, and the lower voltage is sent (R115). -/
def State.lowerVoltage (s : State) (t : Nat) : State :=
  let d := (s.tile t).div
  let v := s.targetMv t d
  (s.modTile t fun x => { x with step := some { target := d, mv := v }, avsTarget := v }).countTile t 8 1

/-- Abandon a rise (R115, R121): the divider is never raised. -/
def State.dropRise (s : State) (t : Nat) : State :=
  if (s.tile t).rising then (s.modTile t fun x => { x with step := none }).countTile t 7 1 else s

/-- Bring a tile to the divider it should run at. A pending step is waited for, but a rise is abandoned for a slower divider, and the
lower voltage is sent. -/
def State.pursue (s : State) (t : Nat) : State :=
  let x := s.tile t
  let want := s.wantedDiv t
  match x.step with
  | none => if want = x.div then s else s.stepTo t want
  | some d => if x.rising && decide (d.target < want) then (s.dropRise t).stepTo t want else s

/-- The hard hold takes effect at once (R113); a tile still at ÷16 with a rise pending gives it up and gets the lower voltage (R115). -/
def State.enterHold (s : State) (t : Nat) (lost : Bool) : State :=
  let rose := (s.tile t).rising
  let s := ((s.dropRise t).modTile t fun x => { x with hold := true, sensorsLost := lost }).countTile t 10 1
  let s := if (s.tile t).div ≠ 4 then s.stepTo t 4 else if rose then s.lowerVoltage t else s
  let s := s.error { cls := 0, source := 0x03, inst := t, code := 0x0401 }
  if lost then s.error { cls := 2, source := 0x03, inst := t, code := 0x0404 } else s

def State.leaveHold (s : State) (t : Nat) : State :=
  (s.modTile t fun x => { x with hold := false, sensorsLost := false }).error { cls := 0, source := 0x03, inst := t, code := 0x0401 }

/-! ## Sensors (R112, R113, R122) -/

/-- Highest reading and the lowest sensor that reads it. -/
def hottest (sensors : List (Option Int)) : Option (Int × Nat) :=
  sensors.zipIdx.foldl (fun best (v, i) =>
    match v, best with
    | none, b => b
    | some x, none => some (x, i)
    | some x, some b => if b.1 < x then some (x, i) else some b) none

/-- Readings of a tile's 22 sensors that are in range. -/
def tileReads (sensors : List (Option Int)) (t : Nat) : List Int := ((sensors.drop (22 * t)).take 22).filterMap id

/-- t = min(12, ⌈Tmax − SOFT_C⌉), with Tmax in 0.25 °C. -/
def thermOf (soft : Nat) (tmax : Int) : Nat := min 12 (ceilDiv (tmax - 4 * soft).toNat 4)

/-- Read the 96 sensors; one that newly reads out of range is recorded (DEDUCED, log entry 49). -/
def State.readSensors (s : State) (sensors : List (Option Int)) : State :=
  let new := (List.range 96).map fun i => sensors.getD i none
  let gone := (List.range 96).filter fun i => (new.getD i none).isNone && (s.stew.sensors.getD i none).isSome
  let h := (hottest new).getD (0, 0)
  let soft := s.cfg.policy.softC
  let t := if (hottest new).isSome then thermOf soft h.1 else 0
  let s := s.modStew fun x => { x with sensors := new, tmax := h.1, tmaxIdx := h.2, thermT := t }
  let s := s.each gone fun s i => s.error { cls := 0, source := 0x03, inst := i, code := 0x0403 }
  s.each ((List.range 96).filter fun i => (new.getD i none).any fun v => decide (4 * (soft : Int) < v)) fun s i => s.count (6016 + i) 1

/-- A tile already held by heat loses its last sensor (R122). -/
def State.loseSensors (s : State) (t : Nat) : State :=
  (s.modTile t fun x => { x with sensorsLost := true }).error { cls := 2, source := 0x03, inst := t, code := 0x0404 }

/-- Hard holds entered and left, from the readings. -/
def State.holds (s : State) : State :=
  let hard : Int := 4 * s.cfg.policy.hardC
  s.each (List.range 4) fun s t =>
    let r := tileReads s.stew.sensors t
    if !(s.tile t).hold && (r.isEmpty || r.any fun v => decide (hard ≤ v)) then s.enterHold t r.isEmpty
    else if (s.tile t).hold && r.isEmpty && !(s.tile t).sensorsLost then s.loseSensors t
    else if (s.tile t).hold && !r.isEmpty && r.all fun v => decide (v ≤ hard - 20) then s.leaveHold t
    else s

/-! ## The pressure divider (R114) -/

/-- A step after 8 windows of one kind; both counts then start again. A faster step stays within the least restrictive tile limit. -/
def State.pressureStep (s : State) : State :=
  let p := s.stew.pressureDiv
  let least := ((List.range 4).map s.ownLimit).foldl min 3
  let to_ := fun (d : Nat) => s.modStew fun x => { x with pressureDiv := d, pressCount := 0, relaxCount := 0 }
  if 8 ≤ s.stew.pressCount && decide (p < 3) then to_ (p + 1)
  else if 8 ≤ s.stew.relaxCount && decide (0 < p) && decide (least ≤ p - 1) then to_ (p - 1)
  else s

/-! ## Budget windows (R103, R104, R109, R121) -/

/-- The end of the window in progress, if there is one: the excess becomes overdraft, and the window counts as pressured, relaxed or
neither. -/
def State.closeWindow (s : State) (measured : Nat) : State :=
  let b := s.stew.bEff
  if b = 0 then s else
  let excess := measured - b
  let s := (s.countDev 5 excess).countDev 1 (b2n s.stew.pressured)
  s.modStew fun x =>
    { x with overdraft := x.overdraft + excess, pressCount := if x.pressured then min 255 (x.pressCount + 1) else 0,
             relaxCount := if !x.pressured && decide (8 * measured ≤ 7 * b) then min 255 (x.relaxCount + 1) else 0 }

/-- B_eff, with the further factor of 7/8 while telemetry is stale (R103, R122). R122 does not say where its factor rounds: the whole product
is rounded down once (DESIGN CHOICE, log entry 49). -/
def State.effective (s : State) : Nat :=
  let b := s.tun.powerCap * 1000 * (16 - s.stew.thermT)
  if s.stew.vrmStale then b * 7 / 128 else b / 16

/-- The debits of R103, and the counts of a new window. -/
def State.openWindow (s : State) (baseline : Nat) : State :=
  let b := s.effective
  let od := min s.stew.overdraft b
  let due := fun (c : Carry) => min c.owed c.perWindow
  let owed := (s.stew.carries.map due).sum
  let s := ((s.countDev 0 1).countDev 2 (b2n (decide (0 < s.stew.thermT))))
  s.modStew fun x =>
    { x with windowSeq := x.windowSeq + 1, bEff := b, remain := (b : Int) - baseline - od - owed, overdraft := x.overdraft - od,
             carries := (x.carries.map fun c => { c with owed := c.owed - due c }).filter fun c => c.owed != 0,
             used := [0, 0, 0, 0], pressured := decide (0 < x.thermT), winEnergy := 0, winBase := 0 }

/-! ## Live tunables (R88 to R90) -/

def Tun.apply (t : Tun) (v : ShadowVal) : Tun :=
  let k := v.id % 16
  if v.id = 0x0001 then { t with powerCap := v.value }
  else if v.id / 16 = 0x10 then { t with weight := t.weight.set k v.value }
  else if 0x20 ≤ v.id / 16 && decide (v.id / 16 ≤ 0x22) then
    { t with limit := t.limit.modify k fun l => l.set (v.id / 16 - 0x20) v.value }
  else if v.id / 16 = 0x30 then { t with enable := t.enable.set k (v.value != 0) }
  else if v.id = 0x0400 then { t with counterWindow := v.value }
  else { t with snapInterval := v.value }

/-- Apply every value posted before the boundary, all together; a change moves the generation, marks the admitted requests, and a new
COUNTER_WINDOW starts the bandwidth windows again. -/
def State.applyTunables (s : State) (boundary : Nat) : State :=
  let due := s.tun.shadow.filter fun v => decide (v.posted < boundary)
  let left := s.tun.shadow.filter fun v => !decide (v.posted < boundary)
  let new := due.foldl Tun.apply s.tun
  let changed := new != s.tun
  let len := s.tun.counterWindow
  let s := s.modTun fun t => { new with shadow := left, gen := if changed then t.gen + 1 else t.gen }
  let s := if changed then s.modReqs fun q => { q with table := q.table.map fun r => { r with tunChanged := r.tunChanged || r.admitted } } else s
  if s.tun.counterWindow = len then s else s.restartWindows s.tun.counterWindow boundary 0

/-! ## Scheduler epoch boundaries -/

/-- One SUPPRESSED record for each triple with a withheld count, and the counts start again (R446). -/
def State.flushSuppressed (s : State) : State :=
  let held := s.err.coalesce.filter fun c => c.withheld != 0
  let s := s.each held fun s c =>
    s.modErr fun l => l.push
      (s.errRecord { cls := 0, source := c.source, inst := c.inst, code := c.code, info := bytesLE 4 c.withheld } true)
  s.modErr fun l => { l with coalesce := [] }

/-- Resident tails that have been idle for KV_IDLE_MS are parked (R231): hub movers do it (R249). -/
def State.kvIdleSweep (s : State) : State :=
  let limit := s.cfg.pers.kvIdleMs
  if limit = 0 then s else
  s.each s.kv.residents fun s x =>
    if s.tailFree x && decide (limit ≤ s.tailAge x) then s.askPark x else s

/-- Requests that wait at check 13, in ascending ASN: that of a disabled tenant fails, any other tries again (R20, R256). -/
def State.retryAdmissions (s : State) : State :=
  let waiting := (s.req.table.filter fun r => r.phase == .waiting13 && !r.awaitSettle).map (·.asn)
  s.each (sortBy id waiting) fun s asn =>
    match s.reqOf asn with
    | none => s
    | some r => if s.tenantEnabled r.f then s.admitFrom11 asn else s.failAdmission asn stTenantDisabled 0x0101

/-- Requests still asking for tokens whose tenant has been disabled fail too: they are not admitted (R89). -/
def State.dropDisabled (s : State) : State :=
  let lost := s.req.table.filter fun r => (r.phase == .tokens || (r.phase == .waiting13 && r.awaitSettle)) && !(s.tenantEnabled r.f)
  s.each lost fun s r => s.failAdmission r.asn stTenantDisabled 0x0101

end Sys2Proof.Machine
end

