-- ==== Sys2Proof/Machine/Truss.lean ====
section
/-! DEFINITION. Meanings of the port commands: training, flits sent and received, replay, recovery, lane health and the leader's
actions, silence and drain (12, R291 to R318). -/
namespace Sys2Proof.Machine
open Sys2Proof

/-! ## Training (R301 to R303, R312, R313) -/

/-- CAPS of this end. -/
def capsByte (c : PortCfg) : Nat := c.minRate % 4 + 4 * b2n c.farLoopAllow + 8 * b2n (c.mode == 3)

/-- PROPOSAL of the leader. -/
def Port.proposal (p : Port) : Nat :=
  if p.leader then p.rate % 4 + 4 * (p.width % 4) + 16 * (if p.spareUse = 0x1F then 0xF else p.spareUse % 16) else 0

/-- Receive lanes with margin at or above WEAK_MARGIN. -/
def Port.okLanes (p : Port) : BitVec 17 := ~~~ (p.weak ||| p.failedLanes)

/-- The training set a lane sends; the transmit preset it asks for is the equaliser's (a free value, log entry 40). -/
def State.trainSet (s : State) (n : Fin 12) (lane preset : Nat) : TrainSet :=
  let p := s.port n
  let body := [0x54, 0x52, 0x53, 0x53] ++ bytesLE 1 lane ++ bytesLE 1 n.val ++ bytesLE 1 p.state.code
    ++ bytesLE 1 (capsByte (s.portCfg n)) ++ bytesLE 8 p.nonce.toNat ++ bytesLE 8 s.net.chipNonce.toNat ++ bytesLE 4 p.okLanes.toNat
    ++ bytesLE 1 (preset % 8) ++ bytesLE 1 p.proposal
  body ++ bytesLE 2 (crc16 body).toNat

/-- A lane sends a training frame: its set, and 224 bytes of its scrambler sequence (R301). -/
def State.sendFrame (s : State) (n : Fin 12) (lane : Nat) : State :=
  let (v, s) := s.draw
  let set := s.trainSet n lane v.toNat
  s.modPort n fun p =>
    let x := prbsBits 1792 (p.txPrbs.getD lane 0)
    { p with frames := p.frames ++ [(lane, set ++ bytesBE 224 x.1)], txPrbs := p.txPrbs.set lane x.2 }

/-- Each of some lanes sends a training frame. -/
def State.sendFrames (s : State) (n : Fin 12) (lanes : List Nat) : State := s.each lanes fun s l => s.sendFrame n l

/-- A burst of frames in DETECT. -/
def State.sendBurst (s : State) (n : Fin 12) (lanes : List Nat) : State :=
  (s.sendFrames n lanes).modPort n fun p => { p with bursts := p.bursts + 1 }

/-- The 100 µs burst of a port in DETECT; a PARKED port sends one on lane 0 to wake its peer, and enters DETECT (R301, R315). -/
def doDetectBurst (port : Fin 12) (s : State) : State :=
  if !s.linkRuns then s
  else if (s.port port).state == .parked then
    (s.sendBurst port [0]).modPort port fun p => { p with state := .detect }
  else if (s.port port).state == .detect && !(s.port port).continuous then s.sendBurst port (List.range 17)
  else s
def execDetectBurst (port : Fin 12) (s : State) : Host.Outcome State Fault Refusal := .next (doDetectBurst port s)

/-- A number from the entropy source. -/
def State.entropy (s : State) : BitVec 64 × State := (Config.entropy s.freeCtr, { s with freeCtr := s.freeCtr + 1 })

/-- Signal on lane 0: a training attempt begins, at rate code 0 with a new PORT_NONCE. -/
def doPeerSignalDetect (port : Fin 12) (at_ : Nat) (s : State) : State :=
  let s := s.advance at_
  if s.linkRuns && ((s.port port).state == .detect || (s.port port).state == .parked) then
    let (v, s) := s.entropy
    s.modPort port fun p =>
      { p.clearLink with state := .eq, nonce := v, peerCaps := 3, continuous := true, trainStart := some s.clk.devTime }
  else s
def execPeerSignalDetect (port : Fin 12) (at_ : Nat) (s : State) : Host.Outcome State Fault Refusal := .next (doPeerSignalDetect port at_ s)

/-- What every set of the peer tells. -/
def Port.note (p : Port) (t : TrainSet) : Port :=
  { p with peerCaps := BitVec.ofNat 8 t.caps, peerLaneOk := t.laneOk, peerWeak := ~~~ t.laneOk, peerPort := t.port, peerChip := t.chip }

/-- The lane's transmitter takes the preset the peer asks for, in EQ and RECOVERY (R304). -/
def Port.takePreset (p : Port) (lane : Fin 17) (t : TrainSet) : Port := { p with presets := p.presets.set lane.val t.preset }

/-- The lane's polarity, as its training sets show it (R287). -/
def Port.takePolarity (p : Port) (lane : Fin 17) (inverted : Bool) : Port :=
  { p with polarity := (p.polarity &&& ~~~(1#17 <<< lane.val)) ||| (if inverted then 1#17 <<< lane.val else 0) }

/-- The port becomes ACTIVE: counts at 0, link up to the network layer. -/
def State.becomeActive (s : State) (n : Fin 12) : State :=
  s.modPort n fun p =>
    { p.restart with state := .active, trainStart := none, degraded := [], degradedAt := s.clk.devTime, lastProgress := s.clk.devTime }

/-- The leader takes the widest configuration of the lanes that both ends report healthy (R303, R310). -/
def State.leadNegotiate (s : State) (n : Fin 12) : State :=
  let p := s.port n
  let c := s.portCfg n
  match widest p.unhealthy (c.spareEnable && !p.noSpare) c.minWidth 0 with
  | some (w, g, sp) => s.modPort n fun p => { p with state := .credit, width := w, group := g, spareUse := sp }
  | none => s.modPort n fun p => { p.clearLink with state := .detect }

/-- The configuration of a PROPOSAL: rate, width, group and spared lane; none where it names no rate or width of Table 12.1. -/
def State.proposed (s : State) (n : Fin 12) (t : TrainSet) : Option (Nat × Nat × Nat × Nat) :=
  let p := s.port n
  let c := s.portCfg n
  let r := bits t.proposal 0 2
  let w := bits t.proposal 2 2
  let sp := bits t.proposal 4 4
  if r = 3 || w = 3 then none else
  let g := ((usableGroup p.unhealthy (c.spareEnable && !p.noSpare) w).map (·.1)).getD 0
  some (r, w, g, if sp = 0xF then 0x1F else sp)

/-- The follower takes the leader's PROPOSAL. -/
def State.followNegotiate (s : State) (n : Fin 12) (t : TrainSet) : State :=
  if t.tstate < 5 then s else
  match s.proposed n t with
  | some (r, w, g, sp) => s.modPort n fun p => { p with state := .credit, rate := r, width := w, group := g, spareUse := sp }
  | none => s

/-- A rate change ends once both ends have measured their lanes at the new rate: the leader takes the widest configuration and the follower
its PROPOSAL; with none the port is reset (R308). -/
def State.endRateChange (s : State) (n : Fin 12) (t : TrainSet) : State :=
  let p := s.port n
  let c := s.portCfg n
  if p.marginCount = 0 then s
  else if p.leader then
    if t.laneOk = 0 then s else
    match widest p.unhealthy (c.spareEnable && !p.noSpare) c.minWidth 0 with
    | some (w, g, sp) => (s.modPort n fun p => { p with width := w, group := g, spareUse := sp }.recovered).costChanged n p
    | none => s.portReset n true
  else if t.tstate ≠ 6 then s
  else
    match s.proposed n t with
    | some (_, w, g, sp) => (s.modPort n fun p => { p with width := w, group := g, spareUse := sp }.recovered).costChanged n p
    | none => s

/-- NEGOTIATE: loopback, a plug or a self-cabled pair, the tie-break, then the configuration (R302, R312, R313). -/
def State.negotiate (s : State) (n : Fin 12) (t : TrainSet) : State :=
  let s := s.modPort n fun p => p.note t
  let p := s.port n
  let c := s.portCfg n
  let ownChip := t.chip == s.net.chipNonce
  if ownChip && t.port = n.val then
    (s.modPort n fun p => { p with loopPlug := true, leader := true }).leadNegotiate n
  else
    let s := if ownChip then s.modPort n fun p => { p with pairSelf := true } else s
    if t.nonce = p.nonce then
      let (v, s) := s.entropy
      s.modPort n fun p => { p with nonce := v }
    else if bitOf t.caps 3 && c.farLoopAllow then s.modPort n fun p => { p with state := .loopback, loop := 3 }
    else if c.mode = 3 then
      (if bitOf t.caps 2 then s.modPort n fun p => { p with state := .loopback, loop := 2 } else s)
    else if t.nonce.toNat < p.nonce.toNat then
      (let s := s.modPort n fun p => { p with leader := true }
       if 4 ≤ t.tstate then s.leadNegotiate n else s)
    else (s.modPort n fun p => { p with leader := false }).followNegotiate n t

/-- Lanes 0 to 15 that are healthy here have all delivered sets. -/
def Port.allTrained (p : Port) : Bool := (List.range 16).all fun l => !(p.okLanes.getLsbD l) || p.trainedLanes.getLsbD l

/-- A set that names another lane than the one it arrives on shows permuted lanes: ALIGN fails, and training starts again (R287). -/
def doTrainingSet (port : Fin 12) (set : LaneSet) (s : State) : State :=
  let (t, inverted) := TrainSet.upright set.bytes
  let lane := set.lane
  if !s.linkRuns || !t.ok then s
  else if t.lane ≠ lane.val then
    (if (s.port port).state == .align then s.modPort port fun p => { p.clearLink with state := .detect } else s)
  else
  match (s.port port).state with
  | .eq => s.modPort port fun p => ((p.note t).takePreset lane t).takePolarity lane inverted
  | .align =>
    if t.tstate < 3 then s else
    s.modPort port fun p =>
      let q := { (p.note t).takePolarity lane inverted with trainedLanes := p.trainedLanes ||| (1#17 <<< lane.val) }
      if q.allTrained then { q with state := .negotiate } else q
  | .negotiate => s.negotiate port t
  | .credit => if 5 ≤ t.tstate then s.becomeActive port else s
  | .active => if t.tstate = 7 then s.enterRecovery port .replay else s
  | .recovery =>
    let s := s.modPort port fun p => (p.takePreset lane t).takePolarity lane inverted
    if !(t.tstate = 6 || t.tstate = 7) then s
    else if (s.port port).recovery == some .rate then (s.modPort port fun p => p.note t).endRateChange port t
    else s.modPort port Port.recovered
  | .disabled => s
  | .detect => s
  | .drain => s
  | .parked => s
  | .listen => s
  | .loopback => s
def execTrainingSet (port : Fin 12) (set : LaneSet) (s : State) : Host.Outcome State Fault Refusal := .next (doTrainingSet port set s)

/-- ALIGN starts; the evaluation windows of an ACTIVE port begin with no margin taken. -/
def Port.startAlign (p : Port) : Port := { p with state := .align, marginCount := 0, marginSum := List.replicate 17 0 }.realign

/-- EQ has not converged within 8 ms: with a usable group of MIN_WIDTH the port goes on, else the next slower permitted rate, else
DETECT (R303). -/
def doEqTimeout (port : Fin 12) (s : State) : State :=
  let p := s.port port
  let c := s.portCfg port
  if !s.linkRuns || !(p.state == .eq) then s
  else if (widest (fun l => p.weak.getLsbD l || p.failedLanes.getLsbD l) c.spareEnable c.minWidth 0).isSome && 0 < p.marginCount then
    s.modPort port Port.startAlign
  else if p.rate < p.maxRate c then
    s.modPort port fun p => { p with rate := p.rate + 1, weak := 0, failedLanes := 0, marginCount := 0 }
  else s.modPort port fun p => { p.clearLink with state := .detect }
def execEqTimeout (port : Fin 12) (s : State) : Host.Outcome State Fault Refusal := .next (doEqTimeout port s)

def PortState.training : PortState → Bool
  | .eq => true | .align => true | .negotiate => true | .credit => true
  | .disabled => false | .detect => false | .active => false | .recovery => false | .drain => false | .parked => false
  | .listen => false | .loopback => false

def doTrainingTimeout (port : Fin 12) (s : State) : State :=
  if s.linkRuns && (s.port port).state.training then s.modPort port fun p => { p.clearLink with state := .detect } else s
def execTrainingTimeout (port : Fin 12) (s : State) : Host.Outcome State Fault Refusal := .next (doTrainingTimeout port s)

/-! ## Receiving flits (R290 to R299) -/

/-- Count a discarded flit (Table 12.10, Table 17.1 event 16). -/
def State.countDiscard (s : State) (n : Fin 12) : State :=
  (s.modPort n fun p => { p with crcFail := sat64 (p.crcFail + 1) }).countPort n 16 1

/-- A flit whose CRC or TYPE fails, or that has a bit in an uncorrectable codeword: counted, and answered by a NAK (R290, R298). -/
def State.discardFlit (s : State) (n : Fin 12) : State := (s.countDiscard n).modPort n fun p => { p with nakDue := true, discarding := true }

/-- A SEQ beyond the expected one: a NAK, unless the port waits for the expected flit already. -/
def Port.gap (p : Port) : Port := if p.discarding then p else { p with nakDue := true, discarding := true }

/-- Whether a SEQ is one already accepted. -/
def oldSeq (seq expected : Nat) : Bool := decide (1 ≤ (expected + 4096 - seq) % 4096) && decide ((expected + 4096 - seq) % 4096 ≤ 2048)

/-- Whether a port takes flits: not while it retrains at a new rate (R309); a far-end loop's initiator takes its own back (R312). -/
def Port.takesFlits (p : Port) : Bool :=
  p.state == .active || p.state == .drain || p.state == .credit || (p.state == .recovery && p.recovery != some .rate)
    || (p.state == .loopback && p.loop == 2)

/-- A good flit takes effect: what every header carries, then for a sequenced flit its order. -/
def State.takeFlit (s : State) (n : Fin 12) (f : Flit) (run : State → FlitHead → List Byte → State) : State :=
  let st := (s.port n).state
  let s := if st == .credit then s.becomeActive n else if st == .recovery then s.modPort n Port.recovered else s
  let s := s.modPort n fun p => p.hear s.clk.devTime f.head
  let p := s.port n
  if f.head.type = flitData || f.head.type = flitLctl then
    if f.head.seq = p.rxSeq then
      run (s.modPort n fun p => { p with rxSeq := (p.rxSeq + 1) % 4096, discarding := false, nakDue := false }) f.head f.payload
    else if oldSeq f.head.seq p.rxSeq then s.countDiscard n
    else (s.modPort n Port.gap).countDiscard n
  else run s f.head f.payload

/-- Receive the flit that a command names: the codewords up to the one that completes it are corrected, then the flit's CRC and TYPE are
checked. A flit of another kind is another command's, and nothing happens. A port that loops for its peer returns the symbols (R312). -/
def State.rxFlit (s : State) (n : Fin 12) (words : List LaneLevels) (mine : FlitHead → List Byte → Bool)
    (run : State → FlitHead → List Byte → State) : State :=
  let p := s.port n
  if !s.linkRuns then s
  else if p.state == .loopback && p.loop == 3 then s.modPort n fun p => { p with wire := p.wire ++ words }
  else if !p.takesFlits then s
  else
    let x := s.readWords n words
    match (x.port n).nextFlit with
    | none => x
    | some (f, whole, q) =>
      let x := x.modPort n fun _ => q
      if !whole || !f.good then x.discardFlit n
      else if !(mine f.head f.payload) then s
      else x.takeFlit n f run

/-- The message types of Table 13.3, and their responses. -/
def listedType (mtype : Nat) : Bool := decide (1 ≤ mtype % 128) && decide (mtype % 128 ≤ 8)

/-- A message that has arrived whole: one for another node goes on along its own route, unless that is no member (R338); one for this
node, or for all, is the command of its own kind, or is counted where its type is none of Table 13.3 (R340). -/
def State.msgArrived (s : State) (n : Fin 12) (vc : Nat) (raw : List Byte) : State :=
  let msg := raw.take (32 + fieldLE raw 0x14 4)
  let s := s.countPort n 30 (msgCodedUnits msg)
  let src := fieldLE msg 1 1
  let dst := fieldLE msg 2 1
  let otag := fieldLE msg 3 1 % 16
  if !((s.port n).linkUp) then s
  else if dst = 0xFF || dst = s.net.nodeId then
    (if listedType (fieldLE msg 0 1) then s else s.modNet fun x => { x with discarded := sat64 (x.discarded + 1) })
  else
    match if s.memberSet.contains dst then s.net.pickPort src dst otag 0 else none with
    | some p => s.putMsg (portIx p) vc msg
    | none => s.modNet fun x => { x with transitDrop := sat64 (x.transitDrop + 1) }

/-- A DATA flit enters the receive buffer of its VC. The buffer is freed when the message is whole, or when it is full (DESIGN CHOICE, log
entry 77). -/
def Port.buffer (p : Port) (h : FlitHead) (pl : List Byte) : Port :=
  let held := p.rxHeld.getD h.vc 0 + 1
  let frees := h.eom || decide (vcBuffer h.vc ≤ held)
  { p with rxMsg := p.rxMsg.set h.vc (if h.eom then [] else p.rxMsg.getD h.vc [] ++ pl), rxHeld := p.rxHeld.set h.vc (if frees then 0 else held),
           vcFreed := p.vcFreed.modify h.vc fun k => if frees then (k + held) % 4096 else k }

def State.takeData (s : State) (n : Fin 12) (h : FlitHead) (pl : List Byte) : State :=
  let raw := (s.port n).rxMsg.getD h.vc [] ++ pl
  let s := s.modPort n fun p => p.buffer h pl
  let s := (s.countPort n 3 1).countPort n 1 (16 * h.valid16)
  if h.eom then s.msgArrived n h.vc raw else s

def doDataFlit (port : Fin 12) (words : List LaneLevels) (s : State) : State :=
  s.rxFlit port words (fun h _ => h.type == flitData) fun s h pl => s.takeData port h pl
def execDataFlit (port : Fin 12) (words : List LaneLevels) (s : State) : Host.Outcome State Fault Refusal := .next (doDataFlit port words s)

/-- IDLE carries the next number to be sent: one beyond the expected number shows a lost tail. -/
def doIdle (port : Fin 12) (words : List LaneLevels) (s : State) : State :=
  s.rxFlit port words (fun h _ => h.type == flitIdle) fun s h _ =>
    s.modPort port fun p => if h.seq = p.rxSeq || oldSeq h.seq p.rxSeq then p else p.gap
def execIdle (port : Fin 12) (words : List LaneLevels) (s : State) : Host.Outcome State Fault Refusal := .next (doIdle port words s)

def doNak (port : Fin 12) (words : List LaneLevels) (s : State) : State :=
  s.rxFlit port words (fun h _ => h.type == flitNak) fun s _ _ => (s.countPort port 15 1).replay port
def execNak (port : Fin 12) (words : List LaneLevels) (s : State) : Host.Outcome State Fault Refusal := .next (doNak port words s)

/-- The peer goes silent (Table 12.9). -/
def doSilent (port : Fin 12) (words : List LaneLevels) (s : State) : State :=
  s.rxFlit port words (fun h _ => h.type == flitSilent) fun s _ pl =>
    let s := s.countPort port 31 1
    if fieldLE pl 0 1 = 2 then
      let s := (s.modPort port fun p => { p with closed := true }).linkDown port
      s.modPort port fun p => { p.clearLink with state := .parked }
    else s.portReset port false
def execSilent (port : Fin 12) (words : List LaneLevels) (s : State) : Host.Outcome State Fault Refusal := .next (doSilent port words s)

/-- An LCTL flit of a kind. -/
def isLctl (k : Nat) (h : FlitHead) (pl : List Byte) : Bool := h.type == flitLctl && fieldLE pl 0 1 == k

def doHealth (port : Fin 12) (words : List LaneLevels) (s : State) : State :=
  s.rxFlit port words (isLctl 1) fun s _ pl =>
    let failed := BitVec.ofNat 17 (fieldLE pl 8 4)
    let s := s.modPort port fun p => { p with peerWeak := BitVec.ofNat 17 (fieldLE pl 4 4), peerFailed := failed }
    if failed ≠ 0 then s.judgeLanes port else s
def execHealth (port : Fin 12) (words : List LaneLevels) (s : State) : Host.Outcome State Fault Refusal := .next (doHealth port words s)

/-- Each end writes the record of an action it carries out (R309, R311). -/
def State.restoreRecord (s : State) (n : Fin 12) : State :=
  (s.error { cls := 0, source := 0x10, inst := n.val, code := 0x0C05 }).countPort n 23 1

def doSpare (port : Fin 12) (words : List LaneLevels) (s : State) : State :=
  s.rxFlit port words (isLctl 2) fun s _ pl =>
    (s.modPort port fun p => { p with spareNext := some (fieldLE pl 1 1, fieldLE pl 12 4, true) }).degradedRecord port 0x0C01 20
def execSpare (port : Fin 12) (words : List LaneLevels) (s : State) : Host.Outcome State Fault Refusal := .next (doSpare port words s)

def doUnspare (port : Fin 12) (words : List LaneLevels) (s : State) : State :=
  s.rxFlit port words (isLctl 3) fun s _ pl =>
    (s.modPort port fun p => { p with spareNext := some (fieldLE pl 1 1, fieldLE pl 12 4, false) }).restoreRecord port
def execUnspare (port : Fin 12) (words : List LaneLevels) (s : State) : Host.Outcome State Fault Refusal := .next (doUnspare port words s)

/-- RECONFIG names one of the rates and widths of Table 12.1. -/
def doReconfig (port : Fin 12) (words : List LaneLevels) (s : State) : State :=
  s.rxFlit port words (isLctl 4) fun s _ pl =>
    let r := fieldLE pl 1 1
    let w := fieldLE pl 2 1
    let g := fieldLE pl 3 1
    if !(r ≤ 2 && w ≤ 2 && g < 2 ^ w) then s else
    let p := s.port port
    let s :=
      if p.rate < r then s.degradedRecord port 0x0C03 22
      else if p.width < w then s.degradedRecord port 0x0C02 21
      else if r < p.rate || w < p.width then s.restoreRecord port
      else s
    s.reconfigure port r w g
def execReconfig (port : Fin 12) (words : List LaneLevels) (s : State) : Host.Outcome State Fault Refusal := .next (doReconfig port words s)

/-- An end that has not sent RESYNC answers with its own; one that drains sends its own when the drain ends (R318). -/
def doResync (port : Fin 12) (words : List LaneLevels) (s : State) : State :=
  s.rxFlit port words (isLctl 5) fun s _ _ =>
    s.modPort port fun p =>
      if p.resyncSent then p.resync
      else if p.closed then { p with resyncSeen := true }
      else { p.queueLctl (lctlMsg 5 0 0 0 0 0 0) with resyncSeen := true }
def execResync (port : Fin 12) (words : List LaneLevels) (s : State) : Host.Outcome State Fault Refusal := .next (doResync port words s)

/-! ## Sending (R296 to R300, R314) -/

/-- A replayed flit goes with a fresh header and CRC. -/
def Port.resendOne (p : Port) : Port :=
  match p.resend with
  | [] => p
  | f :: rest =>
    let h := Flit.head f.bytes
    { (p.emit h.type f.seq h.vc h.valid16 h.eom (slice f.bytes 8 240)).1 with resend := rest }

/-- After the last of four SILENT flits the link is down and the transmitters are off. -/
def State.sendSilent (s : State) (n : Fin 12) : State :=
  let s := s.modPort n fun p => { (p.emit flitSilent 0 0 1 false (bytesLE 16 p.silentReason)).1 with silentLeft := p.silentLeft - 1 }
  if (s.port n).silentLeft = 0 then
    let c := s.portCfg n
    (s.linkDown n).modPort n fun p => p.afterSilent c
  else s

/-- Send the LCTL at the head: RECONFIG takes the port into RECOVERY, RESYNC restarts it once the peer's has come. -/
def State.sendLctl (s : State) (n : Fin 12) : State :=
  match (s.port n).lctl with
  | [] => s
  | m :: rest =>
    let s := s.modPort n fun p => { p.emitSeq s.clk.devTime flitLctl 0 1 false m with lctl := rest }
    if fieldLE m 0 1 = 4 then s.reconfigure n (fieldLE m 1 1) (fieldLE m 2 1) (fieldLE m 3 1)
    else if fieldLE m 0 1 = 5 then
      s.modPort n fun p => if p.resyncSeen then p.resync else { p with resyncSent := true }
    else s

/-- One flit slot of a port that carries flits (R296). An uncorrectable error in the flit it reads for a replay resets the port (R317). -/
def State.flitSlot (s : State) (port : Fin 12) (replayUe : Bool) : State :=
  let p := s.port port
  let ready := (List.range 4).map p.vcReady
  let room := decide (p.replayBuf.length < 512)
  let wait := fun (s : State) (v : Option Nat) => s.modPort port fun p => p.waited ready v
  if !p.resend.isEmpty then
    if replayUe then s.portReset port true else wait ((s.modPort port Port.resendOne).countPort port 13 1) none
  else if 0 < p.silentLeft then s.sendSilent port
  else if p.nakDue then
    wait ((s.modPort port fun p => { (p.emit flitNak 0 0 0 false []).1 with nakDue := false }).countPort port 14 1) none
  else if !p.lctl.isEmpty && room then wait (s.sendLctl port) none
  else
    match if room then p.pickVc else none with
    | some v =>
      let (q, valid) := p.sendData s.clk.devTime v
      let s := s.modPort port fun _ => q
      let coded := ((p.vcq.getD v []).head?.map fun m => if m.bytes.length ≤ 240 * (m.sent + 1) then msgCodedUnits m.bytes else 0).getD 0
      let s := s.countPort port 29 coded
      wait (((s.countPort port 2 1).countPort port (4 + v) 1).countPort port 0 (16 * valid)) (some v)
    | none => wait ((s.modPort port fun p => (p.emit flitIdle p.txSeq 0 0 false []).1).countPort port 26 1) none
/-- Transmit lanes that carry no logical lane (R304). -/
def Port.unusedLanes (p : Port) : List Nat := (List.range 17).filter fun l => !(p.activeLanes.contains l)

/-- With MODE 2 the transmitter's codewords reach the own receiver, and their flits are heard (R312). -/
def Port.hearSelf (now : Nat) : Nat → Port → Port
  | 0, p => p
  | fuel + 1, p =>
    match p.nextFlit with
    | some (f, true, q) => Port.hearSelf now fuel (q.hear now f.head)
    | some (_, false, q) => Port.hearSelf now fuel q
    | none => p

/-- A port in LOOPBACK that is no mirror sends IDLE. -/
def State.loopSlot (s : State) (n : Fin 12) : State :=
  let before := (s.port n).wire.length
  let s := (s.modPort n fun p => (p.emit flitIdle p.txSeq 0 0 false []).1).countPort n 26 1
  if (s.port n).loop ≠ 1 then s else
  (s.readWords n ((s.port n).wire.drop before)).modPort n (Port.hearSelf s.clk.devTime 3)

/-- One slot of a port's sender: a flit and training frames on the unused lanes, or in training and RECOVERY a frame on every lane (R296, R301,
R304). -/
def doFlitSlot (slot : SendSlot) (s : State) : State :=
  let port := slot.port
  let p := s.port port
  if !s.linkRuns then s
  else if p.state == .active || p.state == .drain then
    let s := s.flitSlot port slot.replayUe
    if (s.port port).state == .active || (s.port port).state == .drain then s.sendFrames port (s.port port).unusedLanes else s
  else if p.state.training || p.state == .recovery then s.sendFrames port (List.range 17)
  else if p.state == .loopback && p.loop != 3 then s.loopSlot port
  else s
def execFlitSlot (slot : SendSlot) (s : State) : Host.Outcome State Fault Refusal := .next (doFlitSlot slot s)

/-- The NAK again, while the expected flit has not come. -/
def doNakRepeat (port : Fin 12) (s : State) : State :=
  if s.linkRuns && (s.port port).discarding then s.modPort port fun p => { p with nakDue := true } else s
def execNakRepeat (port : Fin 12) (s : State) : Host.Outcome State Fault Refusal := .next (doNakRepeat port s)

def doReplayTimeout (port : Fin 12) (at_ : Nat) (s : State) : State :=
  let s := s.advance at_
  let p := s.port port
  if s.linkRuns && (p.state == .active || p.state == .drain) && !p.replayBuf.isEmpty
      && decide (p.lastProgress + 1000 ≤ s.clk.devTime) then
    (s.modPort port fun p => { p with lastProgress := s.clk.devTime }).replay port
  else s
def execReplayTimeout (port : Fin 12) (at_ : Nat) (s : State) : Host.Outcome State Fault Refusal := .next (doReplayTimeout port at_ s)

def doRecoveryTimeout (port : Fin 12) (s : State) : State :=
  if s.linkRuns && (s.port port).state == .recovery then s.portReset port true else s
def execRecoveryTimeout (port : Fin 12) (s : State) : Host.Outcome State Fault Refusal := .next (doRecoveryTimeout port s)

/-! ## Lane health (R305 to R311) -/

/-- Lanes below a threshold. -/
def lowLanes (ms : List Int) (limit : Nat) : BitVec 17 :=
  BitVec.ofNat 17 ((List.range 17).foldl (fun acc l => if ms.getD l 0 < (limit : Int) then acc + 2 ^ l else acc) 0)

/-- Lanes that have been below CRIT_MARGIN at two updates in a row, 1 ms apart, have failed; what is new is reported and judged at once (R307,
R308). -/
def State.critLanes (s : State) (n : Fin 12) (ms : List Int) : State :=
  let low := lowLanes ms (s.portCfg n).critMargin
  let p := s.port n
  let failed := p.failedLanes ||| (low &&& p.critLow)
  let s := s.modPort n fun p => { p with critLow := low, failedLanes := failed }
  if failed = p.failedLanes then s else (s.modPort n Port.sendHealth).judgeLanes n

/-- The margin of every lane, each 1 ms: in EQ it says which lanes are good enough; later it enters the evaluation window. -/
def doMarginUpdate (port : Fin 12) (margins : List Int) (s : State) : State :=
  let p := s.port port
  let c := s.portCfg port
  let ms := (List.range 17).map fun l => margins.getD l 0
  let low := lowLanes ms c.weakMargin
  if !s.linkRuns then s
  else if p.state == .eq then
    s.modPort port fun p =>
      let q := { p with weak := low, marginCount := p.marginCount + 1 }
      if (List.range 16).all fun l => !(low.getLsbD l) then q.startAlign else q
  else if p.state == .recovery && p.recovery == some .rate then s.modPort port fun p => { p with weak := low, marginCount := p.marginCount + 1 }
  else if p.up then
    (s.modPort port fun p =>
      { p with marginSum := (List.range 17).map (fun l => p.marginSum.getD l 0 + ms.getD l 0), marginCount := p.marginCount + 1,
               marginMin := (List.range 17).map fun l =>
                 if p.marginCount = 0 then ms.getD l 0 else min (p.marginMin.getD l 0) (ms.getD l 0) }).critLanes port ms
  else s
def execMarginUpdate (port : Fin 12) (margins : List Int) (s : State) : Host.Outcome State Fault Refusal :=
  .next (doMarginUpdate port margins s)

/-- The end of a 16 ms window: the averages, and the lanes judged weak; a failed lane that was good all through the window is back. -/
def Port.closeWindow (p : Port) (c : PortCfg) : Port :=
  if p.marginCount = 0 then { p with healthyWindow := false } else
  let avg := (List.range 17).map fun l => p.marginSum.getD l 0 / (p.marginCount : Int)
  let weak := lowLanes avg c.weakMargin
  let failed := (List.range 17).foldl (fun acc l =>
    if p.failedLanes.getLsbD l && decide (p.marginMin.getD l 0 < (c.weakMargin : Int)) then acc + 2 ^ l else acc) 0
  { p with margins := avg, weak := weak, failedLanes := BitVec.ofNat 17 failed, winMin := p.marginMin,
           marginSum := List.replicate 17 0, marginCount := 0, healthyWindow := true }

def doEvaluationWindowEnd (port : Fin 12) (at_ : Nat) (s : State) : State :=
  let s := s.advance at_
  let p := s.port port
  if !s.linkRuns || !p.up then s else
  let s := s.modPort port fun p =>
    let q := p.closeWindow (s.portCfg port)
    if q.weak = p.weak && q.failedLanes = p.failedLanes then q else q.sendHealth
  s.judgeLanes port
def execEvaluationWindowEnd (port : Fin 12) (at_ : Nat) (s : State) : Host.Outcome State Fault Refusal :=
  .next (doEvaluationWindowEnd port at_ s)

def doLaneFailure (port : Fin 12) (lane : Fin 17) (s : State) : State :=
  let p := s.port port
  if !s.linkRuns || !(p.up || p.state.training) then s else
  let s := s.modPort port fun p => { p with failedLanes := p.failedLanes ||| (1#17 <<< lane.val) }
  if p.up then (s.modPort port Port.sendHealth).judgeLanes port else s
def execLaneFailure (port : Fin 12) (lane : Fin 17) (s : State) : Host.Outcome State Fault Refusal := .next (doLaneFailure port lane s)

/-- At the codeword index named, both ends move the lane pair. -/
def doSpareSwitchEffective (port : Fin 12) (s : State) : State :=
  match (s.port port).spareNext with
  | none => s
  | some (l, ix, on) =>
    if s.linkRuns && (s.port port).up && (s.port port).reached ix then
      s.modPort port fun p => { p with spareUse := if on then l else 0x1F, spareNext := none }
    else s
def execSpareSwitchEffective (port : Fin 12) (s : State) : Host.Outcome State Fault Refusal := .next (doSpareSwitchEffective port s)

/-- A lane has shown a margin at or above WEAK_MARGIN + HYST for a whole window, and the peer does not report it unhealthy. -/
def Port.restored (p : Port) (c : PortCfg) (l : Nat) : Bool :=
  decide ((c.weakMargin + c.hyst : Nat) ≤ p.winMin.getD l 0) && !(p.unhealthy l)

/-- Physical lanes that an undone configuration needs. -/
def Port.undoLanes (p : Port) : Degrade → List Nat
  | .spare l => [p.group * widthLanes p.width + l]
  | .narrow w g sp => (List.range (widthLanes w)).map (physLane w g sp)
  | .rateDown _ w g sp => (List.range (widthLanes w)).map (physLane w g sp)

def State.undo (s : State) (n : Fin 12) (d : Degrade) : State :=
  match d with
  | .spare l =>
    let (ix, s) := s.freeIndex n
    s.modPort n fun p => { p.queueLctl (lctlMsg 3 l 0 0 0 0 ix) with spareNext := some (l, ix, false) }
  | .narrow w g _ => s.modPort n fun p => p.queueLctl (lctlMsg 4 p.rate w g 0 0 0)
  | .rateDown r w g _ => s.modPort n fun p => p.queueLctl (lctlMsg 4 r w g 0 0 0)

/-- Undo the latest degradation (R311). -/
def doPortRestore (port : Fin 12) (at_ : Nat) (s : State) : State :=
  let s := s.advance at_
  let p := s.port port
  let c := s.portCfg port
  match p.degraded with
  | [] => s
  | d :: rest =>
    if s.linkRuns && p.state == .active && p.leader && !p.closed && c.restoreS ≠ 0 && p.healthyWindow && p.spareNext.isNone
        && p.lctl.isEmpty && decide (p.degradedAt + 1000000000 * c.restoreS ≤ s.clk.devTime) && (p.undoLanes d).all (p.restored c) then
      let s := (s.undo port d).modPort port fun p => { p with degraded := rest, degradedAt := s.clk.devTime }
      s.restoreRecord port
    else s
def execPortRestore (port : Fin 12) (at_ : Nat) (s : State) : Host.Outcome State Fault Refusal := .next (doPortRestore port at_ s)

/-! ## The end of a drain (R315, R316, R318), and loss of lock (R317) -/

/-- Everything is acknowledged, or 100 µs have passed: what remains goes back to the transport; then SILENT, or on a warm reset
RESYNC. -/
def doDrainEnd (port : Fin 12) (s : State) : State :=
  let p := s.port port
  if !s.linkRuns then s
  else if p.state == .drain && p.silentLeft = 0 then
    (s.linkDown port).modPort port fun p => { p with replayBuf := [], resend := [], silentLeft := 4 }
  else if p.state == .active && p.closed && p.silentLeft = 0 && !p.resyncSent then
    (s.returnMsgs port).modPort port fun p => { p.queueLctl (lctlMsg 5 0 0 0 0 0 0) with replayBuf := [], resend := [] }
  else s
def execDrainEnd (port : Fin 12) (s : State) : Host.Outcome State Fault Refusal := .next (doDrainEnd port s)

def doCodewordLockLoss (port : Fin 12) (s : State) : State :=
  if s.linkRuns && ((s.port port).up || (s.port port).state == .drain) then s.portReset port true else s
def execCodewordLockLoss (port : Fin 12) (s : State) : Host.Outcome State Fault Refusal := .next (doCodewordLockLoss port s)

end Sys2Proof.Machine
end

