-- ==== Sys2Proof/Machine/BootOps.lean ====
section
/-! DEFINITION. The cold power-up: its start, the CXL enumeration, the apply of the configuration, the resumption of the audit chain
(02, R62, Table 2.10; 03, R73 to R85; 10, R507; 14, R384, R385; 15, R402; 19, R470, R485). -/
namespace Sys2Proof.Machine
open Sys2Proof

/-! ## CXL ports and devices (R236, R384, R385) -/

/-- How many downstream ports a strap value uses, and their lanes (Table 19.3). -/
def cxlPortsOf (strap : BitVec 2) : Nat := [1, 2, 4, 0].getD strap.toNat 0
def cxlLanes (strap : BitVec 2) : Nat := [16, 8, 4, 0].getD strap.toNat 0

/-- One port: at its full or half width it is used; below that it is not, with a corrected-class record. -/
def State.trainCxl (s : State) (strap : BitVec 2) (p : Nat) (t : Option CxlTrain) : State :=
  let full := cxlLanes strap
  let put (s : State) (x : CxlPort) : State := s.modCxl fun c => { c with ports := c.ports.set p x }
  if cxlPortsOf strap ≤ p then put s CxlPort.unused else
  match t with
  | none => put s { CxlPort.unused with used := true }
  | some t =>
    if !t.trained then put s { CxlPort.unused with used := true }
    else if t.width = full || 2 * t.width = full then
      put s { used := true, trained := true, rate := b2n t.rate32, width := t.width }
    else put (s.error { cls := 0, source := 0x0C, inst := p, code := 0x0E20 }) { CxlPort.unused with used := true }

/-- Enumeration order: port, then switch port; a device attached directly has none. -/
def CxlFound.order (d : CxlFound) : Nat := 256 * d.port.val + (d.switchPort.map (·.toNat)).getD 0

def CxlFound.accepted (d : CxlFound) : Bool :=
  d.memCapable && !d.cacheCapable && d.singleLogical && d.memActive && !d.deep

/-- The next free base: above everything mapped. -/
def Cxl.top (c : Cxl) : Nat := c.devs.foldl (fun m d => max m (d.base + d.gib * gib)) t2Base

/-- Map an accepted device: capacity in whole GiB, none beyond 4 TiB. -/
def Cxl.map (c : Cxl) (d : CxlFound) : Cxl :=
  let room := 4096 - (c.top - t2Base) / gib
  let g := min (d.capacityBytes / gib) room
  let x : CxlDev := { base := c.top, gib := g, port := d.port.val, switchPort := (d.switchPort.map (·.toNat)).getD 0xFF, lost := false }
  { c with devs := c.devs ++ [x] }

/-- CXL_DEV_MAP has four entries; the ports lead to no more devices than that (log entry 3). A device behind a port that fell back counts one
fallback (Table 17.1). -/
def State.enumerate (s : State) (d : CxlFound) : State :=
  if !((s.cxl.ports.getD d.port.val CxlPort.unused).trained) then s
  else if !(CxlFound.accepted d) || 4 ≤ s.cxl.devs.length then s.error { cls := 0, source := 0x0C, inst := d.port.val, code := 0x0E21 }
  else
    let p := s.cxl.ports.getD d.port.val CxlPort.unused
    let fell := p.rate != 0 || p.width != cxlLanes s.pins.straps.cxlBif
    (s.modCxl fun c => c.map d).countT2 s.cxl.devs.length 13 (b2n fell)

def State.cxlBoot (s : State) (strap : BitVec 2) (ports : List CxlTrain) (devs : List CxlFound) : State :=
  let s := s.each (List.range 4) fun (s : State) p => s.trainCxl strap p ports[p]?
  s.each (sortBy CxlFound.order devs) State.enumerate

/-! ## Cold start (Table 2.6, Table 2.10) -/

/-- The clock monitor over a cold reset: a reference that is lost stays so until it is qualified again, the AON clock stays on the RC
oscillator, and device time, which restarts at 0, is degraded from its start (R39, R43, R63). A button that is ignored stays ignored (R55). -/
def Clk.keepMonitor (c old : Clk) : Clk :=
  { c with refLost := old.refLost, aonOnRc := old.refLost, timeDegraded := old.refLost, btnDown := old.btnDown, btnIgnored := old.btnIgnored }

/-- What a cold reset and a loss of power leave: the flash, the fuses, the clock monitor, the levels of the input pins, and what was sent
before. The queue and the count of free values are the model's own. -/
def State.clearCold (s : State) : State :=
  let r := State.reset
  { r with
    clk := r.clk.keepMonitor s.clk,
    boot := { r.boot with flash := s.boot.flash, fuseFloor := s.boot.fuseFloor },
    pins := { r.pins with muteSwN := s.pins.muteSwN, muteLed := !s.pins.muteSwN, perstN := s.pins.perstN, tapIr := s.pins.tapIr,
                          tapOut := s.pins.tapOut },
    host := { r.host with out := s.host.out }, pending := s.pending, freeCtr := s.freeCtr,
    truss := s.truss.map fun p => { Port.reset with out := p.out, wire := p.wire, frames := p.frames, bursts := p.bursts } }

/-- A cold reset that the device starts goes with SILENT LEAVING on every port that is up (Table 12.9). -/
def State.leaveCold (s : State) : State := if s.linkRuns then s.each allPorts fun s n => if (s.port n).up then s.silenceNow n 1 else s else s

/-- THERMTRIP_N stays low until PWR_OK falls, and the tiles stay power-gated (R50). -/
def State.keepTrip (s old : State) : State :=
  (s.modClk fun c =>
    { c with thermtrip := old.clk.thermtrip, tiles := c.tiles.map fun t => { t with powered := t.powered && !old.clk.thermtrip } }).modPins
      fun p => { p with thermtripN := old.pins.thermtripN }

/-- BTN_STUCK: logged, and the button is ignored (R54). -/
def State.btnStuck (s : State) : State :=
  (s.error { cls := 0, source := 0x01, code := 0x0204 }).modClk fun c => { c with btnStuck := true, btnIgnored := true }

/-- The cold power-up starts: straps and button sampled, the identity key derived, the CXL devices enumerated. In boundary-scan mode the
device does not boot (Table 19.3). The button that started a cold reset is ignored until it has read high for 100 ms (R55). -/
def State.coldStart (s : State) (straps : Straps) (btnLow : Bool) (ports : List CxlTrain) (devs : List CxlFound) (cause : Nat) : State :=
  let x := (if 2 ≤ cause then s.leaveCold else s).clearCold.keepTrip s
  let x := x.modBoot fun b => { b with phase := if straps.tapEn then .scan else .refWait, keyReady := !straps.tapEn }
  let x := (x.modPins fun p => { p with straps := straps }).modClk fun c =>
    { c with resetCause := cause, btnDown := btnLow, btnIgnored := c.btnIgnored || cause == 2 || cause == 3 }
  let x := if straps.tapEn then x else x.cxlBoot straps.cxlBif ports devs
  if cause = 0 && btnLow then x.btnStuck else x

/-- SYS_RST_N low holds the device in cold reset (Table 2.5). -/
def State.holdReset (s : State) : State :=
  ((s.clearCold.keepTrip s).modBoot fun b => { b with phase := .held, keyReady := false }).modClk fun c =>
    { c with heldInReset := true, resetCause := 1 }

/-- PWR_OK low: P4 (R65, Table 2.8). -/
def State.powerOff (s : State) : State :=
  let x := (s.clearCold.modBoot fun b => { b with phase := .off, keyReady := false }).modPins fun p => { p with muteLed := false }
  x.modClk fun _ => { Clk.reset with pwrOk := false, pstate := .p4 }

/-- Whether a cold power-up is under way. -/
def BootPhase.booting : BootPhase → Bool
  | .refWait => true
  | .pllWait => true
  | .bist => true
  | .verify => true
  | .hbm => true
  | .weights => true
  | .off => false
  | .held => false
  | .ready => false
  | .safe => false
  | .scan => false

/-- REF_LOST cut a cold boot short: it starts again, with the straps and the far memory it found (R48, R64). It is no cold reset: device time
runs on and keeps TIME_DEGRADED (R39), and the error log, the glitch count and the event counters stay (DESIGN CHOICE, log entry 65: R48
does not say what the restart clears). -/
def State.restartBoot (s : State) : State :=
  let x := s.clearCold.keepTrip s
  let x := { x with cxl := s.cxl, err := s.err, cnt := s.cnt }
  (x.modPins fun p => { p with straps := s.pins.straps }).modClk fun c =>
    { c with devTime := s.clk.devTime, frac := s.clk.frac, timeDegraded := s.clk.timeDegraded, glitches := s.clk.glitches,
             glitchTimes := s.clk.glitchTimes, resetCause := s.clk.resetCause, btnStuck := s.clk.btnStuck }

/-- A reset's cause goes into the error log (R49; log entry 52). -/
def State.causeRecord (s : State) : State :=
  let (v, s) := s.draw
  s.error { cls := 0, source := 0x01, code := v.toNat % 65536, info := [BitVec.ofNat 8 s.clk.resetCause] }

/-! ## SAFE mode (R76) -/

/-- A button that started the reset and is low when its boot ends is stuck (R54). -/
def State.checkButton (s : State) : State := if s.clk.resetCause = 2 && s.clk.btnDown then s.btnStuck else s

/-- The device runs from ROM: the PF only, every port off, microphone power off. The boot ends here. -/
def State.enterSafe (s : State) : State :=
  let s := (s.modBoot fun b => { b with phase := .safe }).modPins fun p => { p with micPwrEn := false, pdmClk := false }
  (s.modHost fun h => { h with pages := h.pages.map fun p => { p with vfEnabled := false } }).checkButton

/-! ## The apply step (R85, R502, R507) -/

/-- The programs region of T1: each PROGRAMS section, then the MANIFEST section (R502). -/
def State.placeImage (s : State) (x : ImageBytes) : State :=
  let placed := placeProgs x.progs t1Base
  let s := s.each placed.1 fun (s : State) (p : List Byte × Nat) => s.memWrite p.2 p.1
  s.memWrite placed.2 (x.section_ 8)

/-- Where the next fixed allocation of a tier goes. -/
def State.fixedNext (s : State) (tier : Nat) : Nat :=
  let start := if tier = 2 then t2Base else roundUp s.tenantBase block64
  (s.quota.fixed.filter fun f => f.tier == tier).foldl (fun m f => max m (roundUp (f.base + f.size) block64)) start

def State.placeFixed (s : State) (t : Fin 16) (e : Nat × FixedKind × Nat) : State :=
  let f : Fixed := { tenant := t, tier := e.1, kind := e.2.1, base := s.fixedNext e.1, size := e.2.2 }
  (s.modQuota fun q =>
    { q with fixed := q.fixed ++ [f], used := q.used.modify t.val fun l => l.modify e.1 (· + e.2.2) }).modMem fun m =>
      m.markFresh f.base f.size

/-- The fixed allocations of every present tenant, in ascending tenant order. -/
def State.placeAllFixed (s : State) : State :=
  s.each allFns fun (s : State) t =>
    if (s.cfg.tenants.getD t.val TenantCfg.zero).present then s.each (s.cfg.fixedOf t.val) fun (s : State) e => s.placeFixed t e else s

/-- The live tunables at their image values; generation 0 (Table 3.8, R90). -/
def Cfg.tunables (c : Cfg) : Tun :=
  { Tun.reset with powerCap := c.policy.capW, weight := c.tenants.map (·.weight), limit := c.tenants.map (·.lim),
                   enable := c.tenants.map (·.enabled) }

/-- The sentinel starts where the image has a SENTINEL section: muted by MUTE_SW_N, or with its microphones powered (R408, R428). -/
def State.startSentinel (s : State) : State :=
  let on := s.cfg.sentinel.isSome
  let s := (s.modSent fun x => { x with enabled := on, muted := !s.pins.muteSwN }).modPins fun p => { p with muteLed := !p.muteSwN }
  if on && s.pins.muteSwN then
    (s.modPins fun p => { p with micPwrEn := true }).modSent fun x => { x with unmuteAt := some (s.clk.devTime + 50000000) }
  else s

/-- The scribe resumes the chain from the latest valid anchor (R402, Table 15.5). -/
def State.resumeChain (s : State) : State :=
  match s.boot.latestAnchor with
  | none => s.modAud fun a => { a with nextRecno := 0, prevHash := 0, nextFlags := 8, deliverNext := 0 }
  | some (_, x) =>
    let gap := x.reason == 1
    let n := if gap then (x.recno / 65536 + 2) * 65536 else x.recno + 1
    (s.modAud fun a =>
      { a with nextRecno := n, prevHash := x.recHash, nextFlags := if gap then 16 else 0, gapFrom := if gap then some x.recno else none,
               deliverNext := n, lastAnchor := some x }).modBoot fun b => { b with anchorRecno := x.recno }

/-- Every port under its FABRIC entry (Table 2.10); a new CHIP_NONCE for this cold reset (12, Reset and power). -/
def State.startPorts (s : State) : State :=
  let (v, s) := s.entropy
  let s := s.modNet fun n => { n with chipNonce := v }
  s.each allPorts fun (s : State) n => s.modPort n fun p => p.start (s.portCfg n)

/-- Bays take their carve-outs: landing slots of 32 KiB (R219, R237). -/
def State.carveBays (s : State) : State :=
  let n := s.cfg.pers.landingKib / 32
  { s with bays := s.bays.map fun (y : Bay) => { y with landing := if y.fenced then [] else List.replicate n Landing.free } }

/-- The configuration is applied and locked (R85): programs and manifest in T1, allocations placed, tunables at image values, ports
and sentinel started, the chain resumed, the weight fetch begun. -/
def State.applyConfig (s : State) (c : Cfg) : State :=
  let s : State := { s with cfg := c, tun := c.tunables }
  let s := s.modBoot fun b => { b with locked := true, verified := none, phase := .weights }
  let s := (s.placeImage (s.boot.slotImage s.boot.activeSlot)).placeAllFixed.carveBays
  let s := if s.mappedGib < c.pers.t2ExpectGib then s.error { cls := 2, source := 0x0C, code := 0x0A24 } else s
  let s := (s.restartWindows 1000 0 (s.clk.devTime / 1000000)).startSentinel.resumeChain.startPorts
  let s := s.modBoot fun b => { b with weights := c.manifest.map fun _ => WeightState.pending }
  (s.each (List.range c.manifest.length) fun (s : State) i => s.startWeight i).checkWeights

/-! ## Tiles at a start (R123) -/

/-- After a warm reset or a P3 exit a tile starts at the slowest of ÷4, TILE_MAX_DIV and any other limit in force (R123). The reset and the
exit take their time for the regulator to reach that divider's voltage; no step is left to wait for (DESIGN CHOICE, log entry 66). -/
def State.bootTile (s : State) (t : Nat) : State :=
  let d := s.wantedDiv t
  let v := s.targetMv t d
  s.modTile t fun x => { x with div := d, gated := false, powered := true, avsTarget := v, confirmed := v, step := none }

def State.bootTiles (s : State) : State := s.each (List.range 4) State.bootTile

/-! ## The anti-rollback fuses (R75) -/

/-- Anti-rollback fuses are blown one bit at a time once READY is set, until the floor equals the active image's SVN. The spec gives no time
for a bit: one is blown in each idle cycle of the Steward's clock (DESIGN CHOICE, log entry 67). -/
def State.blowFuse (s : State) : State :=
  if s.running && decide (s.boot.fuseFloor < s.cfg.header.svn) then s.modBoot fun b => { b with fuseFloor := b.fuseFloor + 1 } else s

/-- One cycle with no command waiting: device time advances (R39), and a fuse bit that is due is blown. -/
def State.idleCycle (s : State) : State := s.tick.blowFuse

end Sys2Proof.Machine
end

