-- ==== Sys2Proof/Machine/Boot.lean ====
section
/-! DEFINITION. Meanings of the commands of the cold power-up: PWR_OK, cold reset, the reference and the PLL, power-on BIST, slot
verification, HBM training, weights, and READY (02, R37, R62; 03, R73 to R84; 18, R458). -/
namespace Sys2Proof.Machine
open Sys2Proof

/-! ## Power and cold reset -/

def doPwrOkRise (straps : Straps) (btnLow : Bool) (ports : List CxlTrain) (devs : List CxlFound) (s : State) : State :=
  if s.clk.pwrOk then s else s.coldStart straps btnLow ports devs 0
def execPwrOkRise (straps : Straps) (btnLow : Bool) (cxlPorts : List CxlTrain) (cxlDevs : List CxlFound) (s : State) :
    Host.Outcome State Fault Refusal := .next (doPwrOkRise straps btnLow cxlPorts cxlDevs s)

def doPwrOkFall (s : State) : State := if s.clk.pwrOk then s.powerOff else s
def execPwrOkFall (s : State) : Host.Outcome State Fault Refusal := .next (doPwrOkFall s)

/-- The cold reset that is due waits for the anchor that precedes it (R91); a stopped NVM clock writes none. -/
def State.coldDue (s : State) : Option Nat :=
  match s.clk.pendingReset with
  | .cold c => if s.clk.pwrOk && !s.clk.heldInReset && !(s.clk.pllLocked && s.boot.flashOps.any FlashOp.isAnchor) then some c else none
  | .warm _ => none
  | .none => none

def doColdResetPerform (straps : Straps) (btnLow : Bool) (ports : List CxlTrain) (devs : List CxlFound) (s : State) : State :=
  match s.coldDue with
  | some c => s.coldStart straps btnLow ports devs c
  | none => s
def execColdResetPerform (straps : Straps) (btnLow : Bool) (cxlPorts : List CxlTrain) (cxlDevs : List CxlFound) (s : State) :
    Host.Outcome State Fault Refusal := .next (doColdResetPerform straps btnLow cxlPorts cxlDevs s)

/-- SYS_RST_N low for 10 µs: the device is in cold reset while it stays low. -/
def doSysRstNLow (s : State) : State := if s.clk.pwrOk && !s.clk.heldInReset then s.holdReset else s
def execSysRstNLow (s : State) : Host.Outcome State Fault Refusal := .next (doSysRstNLow s)

def doSysRstNRelease (straps : Straps) (btnLow : Bool) (ports : List CxlTrain) (devs : List CxlFound) (s : State) : State :=
  if s.clk.pwrOk && s.clk.heldInReset then s.coldStart straps btnLow ports devs 1 else s
def execSysRstNRelease (straps : Straps) (btnLow : Bool) (cxlPorts : List CxlTrain) (cxlDevs : List CxlFound) (s : State) :
    Host.Outcome State Fault Refusal := .next (doSysRstNRelease straps btnLow cxlPorts cxlDevs s)

/-! ## Reference and PLL (R37, R48) -/

/-- The reference is qualified; the PLL is enabled on it, but not after a thermal trip (R50). -/
def Clk.qualify (c : Clk) : Clk := { c with refQualified := true, refLost := false, pllEnabled := !c.thermtrip }

/-- What a reference that is qualified again starts: in P3 and in boundary-scan mode only the AON clock and a latched wake, a cold boot from
its beginning, else the relock that a warm reset follows (R48, R64). -/
def State.regain (s : State) : State :=
  if s.clk.pstate == .p3 || s.boot.phase == .scan then
    let s := s.modClk fun c => { c with refQualified := true, refLost := false, aonOnRc := false }
    if s.clk.wakeLatched && s.clk.railLowUntil.isNone then s.modPins fun p => { p with swRailEn := true } else s
  else if s.boot.phase.booting then s.restartBoot.modClk Clk.qualify |>.modBoot fun b => { b with phase := .pllWait }
  else s.modClk Clk.qualify

def doRefQualified (at_ : Nat) (s : State) : State :=
  let s := s.advance at_
  if !s.clk.pwrOk then s
  else if s.clk.heldInReset then s.modClk fun c => { c with refLost := false, aonOnRc := false }
  else if s.clk.refLost then s.regain
  else if s.boot.phase == .refWait then (s.modClk Clk.qualify).modBoot fun b => { b with phase := .pllWait }
  else s
def execRefQualified (at_ : Nat) (s : State) : Host.Outcome State Fault Refusal := .next (doRefQualified at_ s)

/-- The PLL locks; the AON clock is back on the reference. After a REF_LOST a warm reset is due (R48). -/
def doPllLock (at_ : Nat) (s : State) : State :=
  let s := s.advance at_
  if !s.clk.pwrOk || !s.clk.pllEnabled || s.clk.pllLocked || s.clk.refLost then s else
  let s := s.modClk fun c => { c with pllLocked := true, aonOnRc := false }
  let s := if s.boot.phase == .pllWait then s.modBoot fun b => { b with phase := .bist } else s
  if s.clk.clockLoss then s.askReset (.warm 6) else s
def execPllLock (at_ : Nat) (s : State) : Host.Outcome State Fault Refusal := .next (doPllLock at_ s)

/-! ## BIST and slot verification -/

/-- A bay that fails BIST is fenced (R458). -/
def State.bistBay (s : State) (b : Fin 80) : State :=
  if s.bayFenced b then s else
  (s.error { cls := 2, source := 0x20, inst := b.val, code := 0x1218, fence := true }).modBay b fun y => { y with fenced := true }

/-- CXL_PERST_N of the ports in use is released 150 ms after the reset (Table 19.10, R485). -/
def State.releaseCxl (s : State) : State :=
  s.modPins fun p => { p with cxlPerstN := (List.range 4).map fun i => decide (i < cxlPortsOf p.straps.cxlBif) }

def doPowerOnBist (failBays : List (Fin 80)) (hubFail rcDead : Bool) (s : State) : State :=
  if s.boot.phase != .bist || !s.clk.pllLocked then s else
  let s := (s.each failBays State.bistBay).causeRecord.releaseCxl
  if hubFail || rcDead then (s.fatal 0x1236 0xFFFF none).enterSafe
  else
    let s := if s.unfencedBays = 0 then s.fatal 0x1235 0xFFFF (some 0x20) else s
    s.modBoot fun b => { b with phase := .verify }
def execPowerOnBist (failBays : List (Fin 80)) (hubFail rcDead : Bool) (s : State) : Host.Outcome State Fault Refusal :=
  .next (doPowerOnBist failBays hubFail rcDead s)

/-- The first slot that passes is active; once the first in order has failed, FALLBACK sets and a record is written, whatever becomes of the
other slot (R74; log entry 50). -/
def doSlotVerify (timeoutA timeoutB : Option Nat) (s : State) : State :=
  if s.boot.phase != .verify || !s.clk.pllLocked then s else
  let r := s.boot.verify timeoutA timeoutB
  let second := r.2.2 != some s.boot.firstSlot
  let s := s.modBoot fun b => { b with failA := r.1, failB := r.2.1, fallback := second }
  let s := if second then s.error { cls := 0, source := 0x02, code := 0x0302 } else s
  match r.2.2 with
  | none => s.enterSafe
  | some slot => s.modBoot fun b => { b with activeSlot := slot, phase := .hbm, verified := some (b.slotImage slot).cfg }
def execSlotVerify (timeoutA timeoutB : Option Nat) (s : State) : Host.Outcome State Fault Refusal :=
  .next (doSlotVerify timeoutA timeoutB s)

def doHbmTrainingDone (s : State) : State :=
  match s.boot.verified with
  | some c => if s.boot.phase == .hbm && s.clk.pllLocked then s.applyConfig c else s
  | none => s
def execHbmTrainingDone (s : State) : Host.Outcome State Fault Refusal := .next (doHbmTrainingDone s)

/-! ## Weights (R83, R84, R274) -/

/-- The coded-weight entries of an object. -/
def Cfg.listed (c : Cfg) (id : Nat) : List CodedWeight := c.codedWeights.filter fun w => w.objectId == id

def State.weightAddr (s : State) (e : ManifestEntry) : Nat := s.cfg.programsEnd + e.t1Offset

/-- A source has delivered an object's bytes, or failed. What arrived is in T1, raw (R271); the hash decides. -/
def State.weightArrived (s : State) (i : Nat) (e : ManifestEntry) (peer delivered : Bool) (data : List Byte) : State :=
  let s := s.writeTagged false false (s.weightAddr e) (data.take e.bytes)
  if delivered && data.length == e.bytes && sha384Val data == e.hash then
    if (s.cfg.listed e.objectId).isEmpty then (s.setWeight i .verified).checkWeights else s.setWeight i .coding
  else if peer then s.peerFailed i
  else s.weightFailed i

def doWeightFetchDone (entry : Nat) (peer delivered : Bool) (data : List Byte) (s : State) : State :=
  let expect := if peer then WeightState.pending else WeightState.hostNext
  match s.cfg.manifest[entry]? with
  | some e =>
    if s.boot.locked && !s.boot.weightsDone && s.clk.pllLocked && s.boot.weights[entry]? == some expect then
      s.weightArrived entry e peer delivered data
    else s
  | none => s
def execWeightFetchDone (entry : Nat) (peer delivered : Bool) (data : List Byte) (s : State) : Host.Outcome State Fault Refusal :=
  .next (doWeightFetchDone entry peer delivered data s)

/-- The units of one list entry are coded in place. -/
def State.codeListed (s : State) (e : ManifestEntry) (w : CodedWeight) : State :=
  s.each (List.range w.units) fun (s : State) k =>
    let a := s.weightAddr e + unitBytes * (w.firstUnit + k)
    s.writeUnit true w.wide a (s.mem.read a unitBytes)

def doWeightCodingDone (entry : Nat) (s : State) : State :=
  match s.cfg.manifest[entry]? with
  | some e =>
    if s.boot.weights[entry]? == some WeightState.coding && s.clk.pllLocked then
      ((s.each (s.cfg.listed e.objectId) fun (s : State) w => s.codeListed e w).setWeight entry .verified).checkWeights
    else s
  | none => s
def execWeightCodingDone (entry : Nat) (s : State) : Host.Outcome State Fault Refusal := .next (doWeightCodingDone entry s)

/-! ## READY (R62, R75, R321) -/

/-- READY. The tiles leave ÷16 by ordinary steps (R40): each sends its voltage, and its divider switches when the regulator reports it, or
stays and is limited (R42). Table 2.10 sets READY beside those steps; it does not wait for them here (DESIGN CHOICE, log entry 66). -/
def doBootReady (s : State) : State :=
  if s.boot.phase != .weights || !s.boot.weightsDone || !s.clk.pllLocked then s else
  let s := (s.each (List.range 4) State.pursue).modBoot fun b => { b with phase := .ready }
  let s := s.modStew fun t => { t with lastRecal := s.clk.devTime }
  (((s.modClk fun c => { c with pstate := .p0 }).setRunState.assignId []).checkButton).noteIdle
def execBootReady (s : State) : Host.Outcome State Fault Refusal := .next (doBootReady s)

end Sys2Proof.Machine
end

