-- ==== Sys2Proof/Machine/Fabric.lean ====
section
/-! DEFINITION. Meanings of the fabric commands: hellos, records, epochs and settles, reservation tokens, Steward messages, remote
accesses, pushes, leases, barriers, time sync, and the transport's responses and timeouts (13). -/
namespace Sys2Proof.Machine
open Sys2Proof

/-! ## Hellos (R325, R326) -/

def helloBytes (h : Hello) : List Byte :=
  bytesLE 1 h.port.toNat ++ [h.node] ++ bytesLE 1 (b2n h.isolated + 2 * b2n h.timeDegraded + 4 * b2n h.timeMasterOk) ++ [h.proto]
    ++ bytesLE 4 h.epoch.toNat ++ bytesLE 8 h.chipNonce.toNat ++ bytesLE 8 h.fabricId.toNat ++ bytesLE 4 h.lsaSeq.toNat
    ++ bytesLE 4 h.claimEpoch.toNat ++ bytesLE 8 h.time.toNat

def State.ownHello (s : State) (port : Fin 12) : Hello :=
  { port := BitVec.ofNat 4 port.val, node := BitVec.ofNat 8 s.net.nodeId, isolated := s.net.isolated,
    timeDegraded := s.clk.timeDegraded, timeMasterOk := s.cfg.fabric.timeMasterOk, proto := 1,
    epoch := BitVec.ofNat 32 s.net.epochCur, chipNonce := s.net.chipNonce, fabricId := BitVec.ofNat 64 s.cfg.fabric.fabricId,
    lsaSeq := BitVec.ofNat 32 s.net.lsaSeq, claimEpoch := BitVec.ofNat 32 s.net.claimEpoch,
    time := BitVec.ofNat 64 s.clk.devTime }

/-- No HELLO in RECOVERY, in loopback, or on a self-cabled pair or a loop plug. -/
def doHelloSend (port : Fin 12) (s : State) : State :=
  let p := s.port port
  if s.linkRuns && p.state == .active && p.linkUp && !p.closed && !s.net.leftFabric then
    (s.putMsg port 3 (s.localMsg 0x01 (helloBytes (s.ownHello port)))).countPort port 27 1
  else s
def execHelloSend (port : Fin 12) (s : State) : Host.Outcome State Fault Refusal := .next (doHelloSend port s)

/-- A HELLO of a peer of this fabric that is not isolated. -/
def State.helloPeer (s : State) (h : Hello) : Bool :=
  h.proto == 1 && h.fabricId.toNat == s.cfg.fabric.fabricId && h.chipNonce != s.net.chipNonce && !h.isolated

/-- A HELLO that lets an adjacency stand (R325, R341). -/
def State.helloOk (s : State) (h : Hello) : Bool := s.helloPeer h && h.node != 0xFF

def Net.setFlags (n : Net) (h : Hello) : Net :=
  { n with peerFlags := n.peerFlags.filter (fun f => f.1 != h.node.toNat) ++ [(h.node.toNat, h.timeDegraded, h.timeMasterOk)] }

def doHello (port : Fin 12) (h : Hello) (at_ : Nat) (s : State) : State :=
  let s := s.advance at_
  if !(s.hears port) then s else
  let s := (s.countPort port 28 1).modNet fun n => n.setFlags h
  match s.net.adjOf port.val with
  | none =>
    if s.helloOk h then s.adjUp port h
    else if s.helloPeer h && s.net.originates then s.feedJoiner port h.chipNonce
    else s
  | some a =>
    if s.helloOk h && a.peer == h.node.toNat && a.peerNonce == h.chipNonce then
      let s := s.modNet fun n => { n with adjs := n.adjs.map fun a =>
        if a.port = port.val then { a with lastHello := s.clk.devTime, epoch := h.epoch.toNat } else a }
      s.assignId []
    else
      let s := s.adjDown port
      if s.helloOk h then s.adjUp port h else s
def execHello (port : Fin 12) (h : Hello) (at_ : Nat) (s : State) : Host.Outcome State Fault Refusal := .next (doHello port h at_ s)

/-- Three intervals without a HELLO while the port is ACTIVE. -/
def doHelloTimeout (port : Fin 12) (s : State) : State :=
  if s.linkRuns && (s.port port).state == .active then s.adjDown port else s
def execHelloTimeout (port : Fin 12) (s : State) : Host.Outcome State Fault Refusal := .next (doHelloTimeout port s)

/-! ## Flooded records (R327 to R330, R346) -/

/-- Whether an LSA is accepted (R330). -/
def State.lsaAccepted (s : State) (r : Lsa) : Bool :=
  match s.net.lsaOf r.origin.toNat with
  | none => true
  | some l => l.chipNonce != r.chipNonce || newer32 r.seq.toNat l.seq.toNat

/-- What a changed CHIP_NONCE ends: the originator's CAPS and the sequences its old records had. -/
def Net.forgetOrigin (n : Net) (origin : Nat) : Net :=
  { n with caps := n.caps.filter (fun c => c.origin.toNat != origin), freshFlood := n.freshFlood.filter fun x => x.2.1 != origin }

/-- An accepted record is held, unless the copy it contests keeps the ID (R322, R330). -/
def State.holdLsa (s : State) (r : Lsa) : State :=
  let keep := match s.net.lsaOf r.origin.toNat with
    | some l => l.chipNonce != r.chipNonce && claimWins l r
    | none => false
  if keep then s else
  let changed := match s.net.lsaOf r.origin.toNat with
    | some l => l.chipNonce != r.chipNonce
    | none => false
  s.modNet fun n =>
    let n := if changed then n.forgetOrigin r.origin.toNat else n
    { n.setLsa r s.clk.devTime with left := n.left.filter (· != r.origin.toNat) }

def doLsa (port : Fin 12) (r : Lsa) (at_ : Nat) (s : State) : State :=
  let s := s.advance at_
  if !(s.hears port) then s else
  let body := s.recordMsg r.origin.toNat 0x02 (lsaBytes r)
  if s.net.nodeId ≠ 0xFF && r.origin.toNat = s.net.nodeId then
    (if r.chipNonce = s.net.chipNonce then s else ((s.flood (some port.val) body).idConflict r).checkMembers)
  else if !(s.lsaAccepted r) then s
  else (((s.flood (some port.val) body).holdLsa r).assignId []).checkMembers
def execLsa (port : Fin 12) (r : Lsa) (at_ : Nat) (s : State) : Host.Outcome State Fault Refusal := .next (doLsa port r at_ s)

def doLsaRefresh (at_ : Nat) (s : State) : State :=
  let s := s.advance at_
  if s.linkRuns then s.originate else s
def execLsaRefresh (at_ : Nat) (s : State) : Host.Outcome State Fault Refusal := .next (doLsaRefresh at_ s)

def doLsaAgeOut (origin : BitVec 8) (s : State) : State :=
  if !s.linkRuns || origin.toNat = s.net.nodeId || (s.net.lsaOf origin.toNat).isNone then s else
  (s.modNet fun n => { n with lsdb := n.lsdb.filter (fun e => e.lsa.origin != origin), routesDirty := true }).checkMembers
def execLsaAgeOut (origin : BitVec 8) (s : State) : Host.Outcome State Fault Refusal := .next (doLsaAgeOut origin s)

/-- Routes to every member; the other destinations have none (R332). -/
def State.computeRoutes (s : State) : List Route :=
  let mem := s.memberSet
  let links := s.net.links.filter fun e => mem.contains e.1 && mem.contains e.2.2.1
  (List.range 254).map fun d => if mem.contains d then routeFrom links s.net.nodeId d else Route.none

def doRouteCompute (s : State) : State :=
  if s.linkRuns && s.net.routesDirty then
    let r := s.computeRoutes
    s.modNet fun n => { n with routes := r, routesDirty := false }
  else s
def execRouteCompute (s : State) : Host.Outcome State Fault Refusal := .next (doRouteCompute s)

/-- Whether a node adopts an EPOCH record: newer, or equal from a lower originator (R328). -/
def Net.adopts (n : Net) (r : EpochRec) : Bool :=
  newer32 r.epoch.toNat n.epochCur || (r.epoch.toNat == n.epochCur && decide (r.origin.toNat < n.epochOrigin))

def State.adopt (s : State) (r : EpochRec) : State :=
  if !(s.net.adopts r) then s else
  s.modNet fun n =>
    { n with epochCur := r.epoch.toNat, epochOrigin := r.origin.toNat,
             epochMembers := r.members.foldl (fun acc m => insertNat acc m.toNat) [], adoptedAt := s.clk.devTime }

def doEpoch (port : Fin 12) (r : EpochRec) (at_ : Nat) (s : State) : State :=
  let s := s.advance at_
  if !(s.hears port) then s else
  match s.judgeNew 3 r.origin.toNat r.epoch.toNat with
  | none => s
  | some s =>
    let s := s.flood (some port.val) (s.recordMsg r.origin.toNat 0x03 (epochBytes r))
    let lead := s.clockLead r.time.toNat
    (((s.modNet fun n => n.setTime r.origin.toNat lead).adopt r).assignId []).checkMembers
def execEpoch (port : Fin 12) (r : EpochRec) (at_ : Nat) (s : State) : Host.Outcome State Fault Refusal := .next (doEpoch port r at_ s)

/-- The epoch settles once SETTLE_US has passed since the last adoption (R329). -/
def State.settleDue (s : State) : Bool :=
  s.net.nodeId != 0xFF && (s.net.epochCur != s.net.settled || s.net.epochMembers != s.net.members)
    && decide (s.net.adoptedAt + 1000 * s.cfg.fabric.settleUs ≤ s.clk.devTime)

def doEpochSettle (at_ : Nat) (s : State) : State :=
  let s := s.advance at_
  if s.linkRuns && s.settleDue then s.settleNow else s
def execEpochSettle (at_ : Nat) (s : State) : Host.Outcome State Fault Refusal := .next (doEpochSettle at_ s)

def capsLists (c : Caps) (p : Nat) : Bool := c.entries.any fun e => e.program.toNat == p

/-- A CAPS record; a program it no longer lists loses its stages there (R346, R451). -/
def doCaps (port : Fin 12) (r : Caps) (s : State) : State :=
  if !(s.hears port) then s else
  match s.judgeNew 4 r.origin.toNat r.seq.toNat with
  | none => s
  | some s =>
    let s := s.flood (some port.val) (s.recordMsg r.origin.toNat 0x04 (capsBytes r))
    let old := s.net.caps.find? fun c => c.origin == r.origin
    let s := s.modNet fun n => { n with caps := n.caps.filter (fun c => c.origin != r.origin) ++ [r] }
    let hit := s.req.table.filter fun q =>
      q.admitted && (match old with
        | some c => capsLists c q.d.program && !(capsLists r q.d.program)
        | none => false)
    s.each hit fun s q => s.rePlace q.asn fun n => n != r.origin.toNat
def execCaps (port : Fin 12) (r : Caps) (s : State) : Host.Outcome State Fault Refusal := .next (doCaps port r s)

/-- LEAVE takes its node out of the member set until it originates a new record (R327). -/
def doLeave (port : Fin 12) (r : LeaveRec) (s : State) : State :=
  if !(s.hears port) then s else
  match s.judgeNew 5 r.origin.toNat r.epoch.toNat with
  | none => s
  | some s =>
    let s := s.flood (some port.val) (s.recordMsg r.origin.toNat 0x05 (leaveBytes r))
    (s.modNet fun n => { n with left := insertNat n.left r.origin.toNat, routesDirty := true }).checkMembers
def execLeave (port : Fin 12) (r : LeaveRec) (s : State) : Host.Outcome State Fault Refusal := .next (doLeave port r s)

/-! ## The transport's answers (R335, R337) -/

/-- The outstanding request that a response answers leaves the table, and the next one kept back goes. -/
def State.takeTxn (s : State) (dst vc tseq : Nat) : Option (Txn × State) :=
  match s.net.txns.find? fun x => x.dst == dst && x.vc == vc && x.tseq == tseq with
  | none => none
  | some x => some (x, (s.modNet fun n => { n with txns := n.txns.erase x }).sendNext dst vc)

/-- Answer a Steward message. -/
def State.okMsg (s : State) (h : Header) : State := s.respond h 3 5 0 []

/-! ## Reservation tokens (R255 to R257, R348) -/

/-- TOKEN_REFUSE as the answer. -/
def State.refuseMsg (s : State) (h : Header) (asn reason : Nat) : State :=
  s.respond h 3 5 0 ([0x12] ++ bytesLE 8 asn ++ bytesLE 1 reason)

/-- The slots of a stream request on the node of its cell stage, which follow the items' bases in TOKEN (log entry 72). -/
def State.stateSlots (s : State) (home asn : Nat) (d : Desc) : List (Nat × Nat) :=
  if !d.isStream then [] else
  ((s.ownSlots home asn).take 3).map fun g => (s.slotAddr g.cls g.bay g.slot, (s.streamClass g.cls).slotSize)

/-- A request has one token on a node: a later one, for re-placed stages or for a new formation, takes the place of the first and keeps the
stream's version. -/
def State.mergeTokens (s : State) (home asn : Nat) : State :=
  let mine (k : TokenHeld) : Bool := k.home == home && k.asn == asn
  match s.quota.tokens.find? mine, (s.quota.tokens.filter mine).getLast? with
  | some old, some new =>
    s.modQuota fun q => { q with tokens := q.tokens.filter (fun k => !(mine k)) ++ [{ new with version := old.version }] }
  | _, _ => s

/-- Evaluate a token request here. -/
def State.judgeToken (s : State) (h : Header) (b : TokenReq) : State :=
  let asn := b.asn.toNat
  let home := b.home.toNat
  if b.formation.epoch.toNat ≠ s.net.settled then s.refuseMsg h asn 2
  else
    match s.program b.formation.program.toNat with
    | none => s.refuseMsg h asn 3
    | some p =>
      if !(s.selfEligible p) then s.refuseMsg h asn 3
      else
        match s.grantToken home asn b.tenant b.formation (fit 128 b.desc) b.items b.gallery with
        | none =>
          (s.countFn b.tenant 13 1).refuseMsg h asn (if s.everGrants b.tenant b.items b.gallery then 1 else 0x81)
        | some (s1, ps) =>
          let l : LeaseRec := { key := .token b.asn, peer := home, side := .granted, epoch := s1.net.settled }
          let s1 := (s1.mergeTokens home asn).modNet fun n =>
            { n with leases := n.leases.filter (fun x => !(x.key == l.key && x.peer == home && x.side == .granted)) ++ [l] }
          let s1 := s1.resendMoved home asn
          s1.respond h 3 5 0 ([0x11] ++ bytesLE 8 asn ++ bytesLE 8 (s1.quota.nextToken - 1)
            ++ (ps.map (fun i => (i.base, i.size)) ++ s1.stateSlots home asn (fit 128 b.desc)).flatMap fun i =>
              bytesLE 8 i.1 ++ bytesLE 8 i.2)

/-- Whether a request waits for the answer of a node: in its admission, or for a replay. -/
def Req.asks (r : Req) (node : Nat) : Bool :=
  (r.phase == .tokens && r.askNodes.head? == some node) ||
    (r.phase != .tokens && r.phase != .complete && !r.failed &&
      r.lost.any fun k => match r.formation with
        | some m => nodeOf m k == node
        | none => false)

/-- The items asked of a node. -/
def State.askedItems (s : State) (r : Req) (node : Nat) : List DemandItem :=
  match r.formation, s.program r.d.program with
  | some m, some p =>
    let nodes := m.nodes.map (·.toNat)
    if r.phase == .tokens then demandItems p r.d nodes node else replayItems p r.d nodes node r.lost
  | _, _ => []

/-- The bases of a TOKEN, in the order of the items asked for. -/
def State.placedFrom (s : State) (r : Req) (node : Nat) (bases : List (Nat × Nat)) : List PlacedItem :=
  ((s.askedItems r node).zip bases).map fun x => { node := node, kind := x.1.kind, base := x.2.1, size := x.2.2 }

def doToken (h : Header) (asn number : BitVec 64) (bases : List (Nat × Nat)) (s : State) : State :=
  let node := h.src.toNat
  if !s.running then s else
  match s.takeTxn node 3 h.tseq.toNat with
  | none => s
  | some (_, s) =>
    match s.reqOf asn.toNat with
    | none => s.sendMsgTo node 0x13 (bytesLE 8 asn.toNat) .other
    | some r =>
      if !(r.asks node) then
        (if r.heldTokens.contains node && r.phase != .complete then s else s.sendMsgTo node 0x13 (bytesLE 8 asn.toNat) .other)
      else
        let ps := s.placedFrom r node bases
        let l : LeaseRec := { key := .token asn, peer := node, side := .held, epoch := h.epoch.toNat }
        let s := s.modNet fun n => { n with leases := n.leases ++ [l] }
        let slots := (bases.drop (s.askedItems r node).length).map (·.1)
        let s := s.modReq r.asn fun r =>
          { r with heldTokens := insertNat r.heldTokens node, bases := r.bases ++ ps,
                   cellSlots := if slots.isEmpty then r.cellSlots else slots }
        if r.phase == .tokens then
          State.askNodes r.asn 255 (s.modReq r.asn fun r => { r with askNodes := r.askNodes.drop 1 })
        else s.replayGranted r.asn node
def execToken (h : Header) (asn number : BitVec 64) (bases : List (Nat × Nat)) (s : State) : Host.Outcome State Fault Refusal :=
  .next (doToken h asn number bases s)

/-- An attempt that a grantor at another epoch refuses waits for this node's next settle (R348). -/
def State.waitSettle (s : State) (asn : Nat) : State :=
  match s.reqOf asn with
  | none => s
  | some r =>
    (((s.releaseTokens asn).returnBacking asn).modReq asn fun r => { r with phase := .waiting13, awaitSettle := true }).countFn r.f 4 1

def doTokenRefuse (h : Header) (asn : BitVec 64) (reason : BitVec 8) (s : State) : State :=
  let node := h.src.toNat
  if !s.running then s else
  match s.takeTxn node 3 h.tseq.toNat with
  | none => s
  | some (_, s) =>
    match s.reqOf asn.toNat with
    | none => s
    | some r =>
      if !(r.asks node) then s
      else if r.phase == .tokens then
        (if reason == 2 then s.waitSettle r.asn
         else if reason == 0x81 then s.failAdmission r.asn stQuota 0x010D
         else s.refuseAttempt r.asn)
      else s.failReq r.asn stFabricLost 0x0D02
def execTokenRefuse (h : Header) (asn : BitVec 64) (reason : BitVec 8) (s : State) : Host.Outcome State Fault Refusal :=
  .next (doTokenRefuse h asn reason s)

/-- The reservations of a request are released. While work units of a request that its deadline ended still run here, they run on, and the
release takes effect with the end of the last (R29; log entry 70). -/
def State.runTokenRelease (s : State) (h : Header) (asn : BitVec 64) : State :=
  let home := h.src.toNat
  let late := s.stillRuns home asn.toNat &&
    s.quota.tokens.any fun k => k.home == home && k.asn == asn.toNat && s.pastDeadline k.desc
  let s := if late then
      s.modQuota fun q => { q with tokens := q.tokens.map fun k => if k.home == home && k.asn == asn.toNat then
        { k with released := true } else k }
    else s.dropHome home asn.toNat
  s.modNet fun n => { n with leases := n.leases.filter fun l => !(l.key == .token asn && l.peer == h.src.toNat && l.side == .granted) }

/-! ## Stage acknowledgement and ABORT (R349, R350, R341) -/

/-- A STEP_ACK: the push it answers is acknowledged; one from the last stage's node tells the home node that the work unit's output
is in staging (log entry 36). -/
def State.runStepAck (s : State) (h : Header) (wu : WuKey) : State :=
  let hit := s.net.pushTx.filter fun x => x.key == wu && x.dst == h.src.toNat
  let s := s.modNet fun n =>
    { n with pushTx := n.pushTx.map fun x => if x.key = wu && x.dst = h.src.toNat then { x with stepAcked := true } else x }
  let s := s.each hit fun s x => s.ackInputs x.home wu.asn
  match s.reqOf wu.asn with
  | none => s
  | some r =>
    match r.formation with
    | none => s
    | some m =>
      if wu.stage + 1 = m.nodes.length && nodeOf m wu.stage = h.src.toNat && !(s.req.doneWu.contains (s.net.nodeId, wu)) then
        let s := s.modReqs fun q => { q with doneWu := q.doneWu ++ [(s.net.nodeId, wu)] }
        let s := if wu.step == .context then
            s.modReq wu.asn fun r => { r with phase := if r.phase == .context then .rolling else r.phase }
          else s
        s.settleReq wu.asn
      else s

/-- ABORT: from the home node it drops the request's work units here; from a stage node it ends the request, whose DETAIL the
message does not carry (log entry 37). -/
def State.runAbort (s : State) (h : Header) (asn : BitVec 64) (status : BitVec 8) : State :=
  let home := h.src.toNat
  let held := s.quota.tokens.any fun k => k.home == home && k.asn == asn.toNat
  let s := if held then
      let s := s.each (s.req.running.filter fun w => w.home == home && w.key.asn == asn.toNat) fun s w => s.abandonWu home w.key
      s.modNet fun n => { n with pushRx := n.pushRx.filter fun x => !(x.home == home && x.key.asn == asn.toNat) }
    else s
  match s.reqOf asn.toNat with
  | none => s
  | some r =>
    match r.formation with
    | none => s
    | some m => if m.nodes.any fun n => n.toNat == home then s.failReqAt r.asn status.toNat 0 0x1C 0xFFFF 0 [] else s

/-! ## Weights of peers (R353) -/

def State.runWeightQuery (s : State) (h : Header) (object : BitVec 32) (hash : BitVec 384) : State :=
  let holds := (List.range s.cfg.manifest.length).any fun i =>
    (match s.cfg.manifest[i]? with
     | some e => e.objectId == object.toNat && e.hash == hash
     | none => false) && s.boot.weights.getD i .pending == .verified
  s.sendMsgTo h.src.toNat 0x31 (bytesLE 4 object.toNat ++ bytesLE 1 (b2n holds)) .other

/-- A holder's bytes follow with WEIGHT_FETCH_DONE; a member that does not hold the object is passed over. -/
def State.runWeightHave (s : State) (h : Header) (object : BitVec 32) (holds : Bool) : State :=
  if holds then s else
  match (List.range s.cfg.manifest.length).find? fun i =>
      ((s.cfg.manifest[i]?).map (·.objectId)) == some object.toNat && s.boot.weights.getD i .failed == .pending with
  | some i => s.askPeer i (h.src.toNat + 1)
  | none => s

/-! ## Remote accesses at their home (R135, R340) -/

/-- Whether a node may reach a range here: bytes granted to a request it is the home of or runs a stage of (DEDUCED, log entry 25: the
message does not name its request). -/
def State.grantedTo (s : State) (src a n : Nat) : Bool :=
  let mine := s.quota.grants.filter fun g =>
    g.home == src || (match s.formationOf g.home g.asn with
      | some m => m.nodes.any fun x => x.toNat == src
      | none => false)
  inRanges (mine.map fun g => (g.base, g.base + g.size)) a n

/-- Whether a range lies in weight objects. -/
def State.inWeights (s : State) (a n : Nat) : Bool :=
  inRanges (s.cfg.manifest.map fun e => (s.cfg.programsEnd + e.t1Offset, s.cfg.programsEnd + e.t1Offset + e.bytes)) a n

/-- Whether a range lies in a gallery slot that a request homed on the sending node owns: its swap-ins and commits reach it (R201, R205; log
entry 72). -/
def State.homeSlot (s : State) (src a n : Nat) : Bool :=
  s.str.slots.any fun g =>
    (match g.owner with
     | .reserved _ home => home == src
     | .resident _ _ => false) &&
      decide (s.slotAddr g.cls g.bay g.slot ≤ a) && decide (a + n ≤ s.slotAddr g.cls g.bay g.slot + (s.streamClass g.cls).slotSize)

/-- STATUS of an access from another node (Table 13.2, R135, R136): 1 ADDRESS, 3 LOCKED. -/
def State.remoteStatus (s : State) (src a n : Nat) (k : AccKind) : Nat :=
  match s.region a with
  | .t1 =>
    if a < s.tenantBase then
      match k with
      | .store => 3
      | .atomic => 1
      | .load => if s.inWeights a n then 0 else 1
    else if s.grantedTo src a n then 0 else 1
  | .t2 => if s.grantedTo src a n then 0 else 1
  | .csr =>
    match k with
    | .store => 3
    | .atomic => 1
    | .load => 0
  | .t0 => if k != .atomic && s.homeSlot src a n then 0 else 1
  | .host => 1
  | .none => 1

def readLen (arg : BitVec 64) : Nat := bits arg.toNat 48 16
def readAddr (arg : BitVec 64) : Nat := bits arg.toNat 0 48

/-- What the answer of a READ says of the unit's tag: the tag in ARG[15:0], and ARG[32] where it cannot be read (log entry 57). -/
def State.tagArg (s : State) (a : Nat) : Nat :=
  if s.region a == .csr || !(tagged a) then 0
  else (s.mem.tagOf (a / unitBytes)).toNat + 2 ^ 32 * b2n (s.tagEnd (a / unitBytes) != .ok)

def State.runRead (s : State) (h : Header) : State :=
  let a := readAddr h.arg
  let n := readLen h.arg
  let st := if 1 ≤ n && n ≤ 4096 then s.remoteStatus h.src.toNat a n .load else 1
  if st ≠ 0 then s.respond h 0 1 st []
  else
    let (e, bs) := s.homeRead a n
    let tag := s.tagArg a
    let s1 := s.homeMeet a n
    match e with
    | .ok => s1.respondRead h 0 tag bs
    | .poison => s1.respondRead h 2 (tag + 0x0505 * 2 ^ 16) (bs.take (s.goodBytes a n))
    | .absent => s1.respondRead h 2 (tag + 0x0A10 * 2 ^ 16) (bs.take (s.goodBytes a n))

/-- A write lands before its response is sent (R141); a locked target is recorded (R86). -/
def State.runWrite (s : State) (h : Header) (data : List Byte) : State :=
  let a := readAddr h.arg
  let st := if 1 ≤ data.length && data.length ≤ 4096 then s.remoteStatus h.src.toNat a data.length .store else 1
  let s := if st = 3 then s.lockViolation 0x1C h.src.toNat a none else s
  if st ≠ 0 then s.respond h 0 2 st []
  else ((s.memWrite a data).markTags a data.length (readLen h.arg)).respond h 0 2 0 []

def State.runAtomic (s : State) (h : Header) (xf : BitVec 8) (operand compare : BitVec 64) : State :=
  let a := readAddr h.arg
  let n := if bits xf.toNat 6 2 = 1 then 8 else 4
  match AtomOp.ofCode (bits xf.toNat 0 6) with
  | none => s.respond h 0 3 1 []
  | some op =>
    let st := if a % n = 0 then s.remoteStatus h.src.toNat a n .atomic else 1
    if st ≠ 0 then s.respond h 0 3 st []
    else
      match s.readEnd a n with
      | .ok =>
        let r := s.atomHome op n a operand.toNat compare.toNat
        r.2.respond h 0 3 0 (bytesLE 8 r.1)
      | .poison => (s.meet a n).respond h 0 3 2 []
      | .absent => (s.meet a n).respond h 0 3 2 []

/-! ## Pushes (R342) -/

def pushWu (p : PushHeader) : WuKey :=
  { asn := p.asn.toNat, stage := p.stage.toNat, wave := p.wave.toNat,
    step := if p.step.toNat = max32 then .context else .step p.step.toNat }

/-- Raw bytes that the body of a message stands for. -/
def pushRaw (p : PushHeader) (data : List Byte) : Nat :=
  if p.coded then unitBytes * (codedBody 4 data).length else data.length

/-- A unit of a coded push arrives: with its lines and tag, or expanded where the destination is T0 (R275). -/
def State.landUnit (s : State) (a : Nat) (tag : BitVec 16) (bytes : List Byte) : State :=
  if !(tagged a) then s.memWrite a (expandStored (tagWide tag) tag bytes)
  else if tagCoded tag then s.writeCoded a tag bytes
  else (s.memWrite a bytes).modMem fun m => { m.setTag (a / unitBytes) 0 with unitsRaw := m.unitsRaw + 1 }

/-- The bytes of a push land at ARG + OFFSET (log entry 23): raw, or unit by unit with the tag (R275). -/
def State.landPush (s : State) (arg : BitVec 64) (p : PushHeader) (data : List Byte) : State :=
  let a := readAddr arg + p.offset.toNat
  if !(s.pushPlace p.home.toNat p.asn.toNat a (pushRaw p data)) then s
  else if p.coded then
    (codedBody 4 data).foldl (fun (x : State × Nat) u =>
      (x.1.landUnit x.2 u.1 u.2, x.2 + unitBytes)) (s, a) |>.1
  else s.writeTagged false false a data

/-- Messages of a push arrive in order of their offset; the last completes the input of its work unit. -/
def State.takePush (s : State) (src : Nat) (arg : BitVec 64) (p : PushHeader) (data : List Byte) : State :=
  let k := pushWu p
  let home := p.home.toNat
  let held := s.net.pushRx.find? fun x => x.home == home && x.key == k
  if (held.map (·.complete)).getD false || s.req.doneWu.contains (home, k) then s
  else
    let got := ((held.map (·.received)).getD 0) + pushRaw p data
    let x : PushRx := { key := k, home := home, received := got, complete := p.last, acked := false, src := src }
    (s.landPush arg p data).modNet fun n =>
      { n with pushRx := n.pushRx.filter (fun y => !(y.home == home && y.key == k)) ++ [x] }


/-! ## Leases (R343) -/

/-- Whether the sender holds the lease at the epoch it names. -/
def State.leaseHeldBy (s : State) (key : LeaseKey) (peer epoch : Nat) : Bool :=
  s.net.leases.any fun l => l.side == .granted && l.key == key && l.peer == peer && l.epoch == epoch

/-- Whether this node can grant a lease: a stream's, when no request here holds it; a barrier slot's, of a request homed here. -/
def State.leaseGrantable (s : State) (key : LeaseKey) (peer : Nat) : Bool :=
  match key with
  | .stream t id => s.leaseFree t id.toNat &&
      !(s.net.leases.any fun l => l.side == .granted && l.key == key && l.peer != peer)
  | .token _ => false
  | .barrierSlot asn _ => (s.reqOf asn.toNat).isSome

def leaseResult (granted : Bool) (epoch lost : Nat) : List Byte :=
  bytesLE 4 (b2n granted) ++ bytesLE 4 epoch ++ bytesLE 2 lost ++ List.replicate 6 0

/-- The request of a token lease. -/
def tokenAsn : LeaseKey → Option Nat
  | .token a => some a.toNat
  | .stream _ _ => none
  | .barrierSlot _ _ => none

/-- An operation under a lease that is held. ARG of a use of a reservation token names what the KVPM does with the stream's KV (log entry 21);
a full pool refuses phase 1. -/
def State.useLease (s : State) (h : Header) (key : LeaseKey) : State :=
  match tokenAsn key with
  | none => s.respond h 0 6 0 (leaseResult true s.net.settled 0)
  | some asn =>
    let home := h.src.toNat
    let op := h.arg.toNat % 4
    if op = 2 && !(s.listRoom home asn) then s.respond h 0 6 5 (leaseResult false s.net.settled 0)
    else
      let s := s.kvOp home asn op (h.arg.toNat / 4)
      s.respond h 0 6 0 (leaseResult true s.net.settled (s.kvLostFor home asn))

/-- A lease operation: performed only under a lease that is still held at its epoch, else STALE_LEASE and nothing changes. -/
def State.runLease (s : State) (h : Header) (op : LeaseOp) (key : LeaseKey) (leaseEpoch : BitVec 32) : State :=
  let peer := h.src.toNat
  match op with
  | .acquire =>
    if s.leaseGrantable key peer then
      let l : LeaseRec := { key := key, peer := peer, side := .granted, epoch := s.net.settled }
      let s := s.modNet fun n =>
        { n with leases := n.leases.filter (fun x => !(x.key == key && x.peer == peer && x.side == .granted)) ++ [l] }
      s.respond h 0 6 0 (leaseResult true s.net.settled 0)
    else s.respond h 0 6 0 (leaseResult false s.net.settled 0)
  | .release =>
    if s.leaseHeldBy key peer leaseEpoch.toNat then
      let s := s.modNet fun n => { n with leases := n.leases.filter fun x => !(x.key == key && x.peer == peer && x.side == .granted) }
      s.respond h 0 6 0 (leaseResult true s.net.settled 0)
    else s.respond h 0 6 5 (leaseResult false s.net.settled 0)
  | .use =>
    if s.leaseHeldBy key peer leaseEpoch.toNat then s.useLease h key
    else s.respond h 0 6 5 (leaseResult false s.net.settled 0)

/-! ## Fabric barriers (R145, R345) -/

/-- A batch of arrivals reaches the home, or a release reaches a node that arrived: `arrived` is how many of its arrivals it covers (log
entry 26). A node that was in none of the generations since may still name an earlier one; its arrivals belong to the generation in
progress (R145). Arrivals with another count end the request with BAR_COUNT (R146). -/
def State.runBarrier (s : State) (h : Header) (asn : BitVec 64) (slot : Fin 16) (generation arrived count : BitVec 32) (isRelease : Bool) : State :=
  let ok := fun (s : State) => s.respond h 3 7 0 []
  if isRelease then
    let f := s.fabricBar h.src.toNat asn.toNat slot.val
    let ahead := tseqAhead generation.toNat f.generation
    ok (if ahead < 2147483648 then s.releaseFabric { f with generation := f.generation + ahead } arrived.toNat [] else s)
  else
    match s.reqOf asn.toNat with
    | none => ok s
    | some _ =>
      let f := s.fabricBar s.net.nodeId asn.toNat slot.val
      if 0 < f.bar.count && f.bar.count ≠ count.toNat then ok (s.failReqAt asn.toNat stContained 0x0509 0x1C 0xFFFF 0 [])
      else
        let f := { f with bar := { f.bar with count := count.toNat } }
        ok (s.settleFabric (f.addArrivals h.src.toNat arrived.toNat) h.src.toNat (arrived.toNat + 1))

/-- Send the arrivals gathered for slots whose lease this node holds, one message for each slot at most every 1 µs (R345). -/
def doBarrierBatchSend (at_ : Nat) (s : State) : State :=
  let s := s.advance at_
  if !s.running then s else
  let due := s.bars.fabric.filter fun f =>
    f.home != s.net.nodeId && decide (0 < f.unsent) && s.net.holdsSlot f.home f.asn f.slot
      && ((f.sentAt.map fun t => decide (t + 1000 ≤ s.clk.devTime)).getD true)
  s.each due fun s f =>
    let s := s.sendReq { dst := f.home, vc := 3, mtype := 0x07, otag := 0, arg := 2 * f.unsent,
                         body := barrierBody f.asn f.slot f.generation f.bar.count, purpose := .steward f.asn }
    s.setFabricBar { f with unsent := 0, sentAt := some s.clk.devTime }
def execBarrierBatchSend (at_ : Nat) (s : State) : Host.Outcome State Fault Refusal := .next (doBarrierBatchSend at_ s)

/-! ## Time sync (R356, R357); stamps are in units of 0.25 ns -/

/-- Correct the clock by the offset from the parent: a step forward when it is behind by more than 2 µs, else a rate within ±200 ppm,
whose value the spec does not give (a free value, log entry 38). TIME_DEGRADED clears within ±20 ns. -/
def State.correctTime (s : State) (offset : Int) : State :=
  let s := s.modNet fun n => { n with timeOffset := offset }
  let s := if 8000 < offset then s.modClk fun c => { c with devTime := c.devTime + offset.toNat / 4 }
    else
      let (v, s) := s.draw
      s.modNet fun n => { n with rateAdj := (if offset < 0 then -1 else 1) * (v.toNat % 201 : Nat) }
  if -80 ≤ offset && offset ≤ 80 then s.modClk fun c => { c with timeDegraded := false } else s

/-- The answer of a TIME; NOT_MEMBER counts as none (R339). -/
def State.timeAnswered (s : State) (h : Header) (t1 t2 t3 t4 : Int) : State :=
  if h.status = 4 then s else
  match s.takeTxn h.src.toNat 3 h.tseq.toNat with
  | none => s
  | some (_, s) => if h.status = 0 then s.correctTime (((t2 - t1) - (t4 - t3)) / 2) else s

def doTimeSyncSend (at_ : Nat) (s : State) : State :=
  let s := s.advance at_
  if !s.running then s else
  match s.net.timeParent.bind s.net.adjOf with
  | none => s
  | some a => s.sendReq { dst := a.peer, vc := 3, mtype := 0x08, otag := 0, arg := 0,
                          body := bytesLE 8 (4 * s.clk.devTime) ++ List.replicate 24 0, purpose := .other }
def execTimeSyncSend (at_ : Nat) (s : State) : Host.Outcome State Fault Refusal := .next (doTimeSyncSend at_ s)

/-! ## Requests at their receiver (R335, R336, R339) -/

/-- What a request does here, with its answer. -/
def State.runMsg (s : State) (h : Header) : Message → State
  | .read => s.runRead h
  | .write data => s.runWrite h data
  | .atomic xf operand compare => s.runAtomic h xf operand compare
  | .actPush p data => (s.takePush h.src.toNat h.arg p data).respond h 2 4 0 []
  | .tokenReq body => s.judgeToken h body
  | .tokenRelease asn => (s.runTokenRelease h asn).okMsg h
  | .stepAck wu => (s.runStepAck h wu).okMsg h
  | .abort asn status => (s.runAbort h asn status).okMsg h
  | .weightQuery object hash => (s.runWeightQuery h object hash).okMsg h
  | .weightHave object holds => (s.runWeightHave h object holds).okMsg h
  | .lease op key leaseEpoch => s.runLease h op key leaseEpoch
  | .barrier asn slot generation arrived count isRelease => s.runBarrier h asn slot generation arrived count isRelease
  | .time t2 t3 => s.respond h 3 8 0 (bytesLE 8 (ofSigned 64 t2) ++ bytesLE 8 (ofSigned 64 t3))

/-- A request in its turn: its numbers are marked, and it runs. -/
def State.accept (s : State) (h : Header) (m : Message) : State :=
  (s.modNet fun n => n.setRx ((n.rx h.src.toNat m.vc).done h)).runMsg h m

/-- Held messages whose turn has come are delivered one after the other (R336); `fuel` bounds how many, and at most 64 are held. -/
def State.deliver (s : State) (src vc : Nat) : Nat → State
  | 0 => s
  | fuel + 1 =>
    match (s.net.rx src vc).nextHeld with
    | none => s
    | some (h, m) => (s.accept h m).deliver src vc fuel

/-- A request's life at the receiver: executed once and in order, a duplicate answered from the cache, a request of a node
outside the member set answered NOT_MEMBER (R335, R336, R339). -/
def State.receive (s : State) (h : Header) (m : Message) : State :=
  if !s.running then s else
  match s.rxVerdict h m.vc with
  | .notMember => s.route h.src.toNat 1 0 0 (s.response h m.mtype 4 [])
  | .again b => s.route h.src.toNat 1 0 0 b
  | .drop => s
  | .hold => s.modNet fun n => n.setRx ((n.rx h.src.toNat m.vc).hold h m)
  | .run => (s.accept h m).deliver h.src.toNat m.vc 64

def doRead (h : Header) (s : State) : State := s.receive h .read
def execRead (h : Header) (s : State) : Host.Outcome State Fault Refusal := .next (doRead h s)
def doWrite (h : Header) (data : List Byte) (s : State) : State := s.receive h (.write data)
def execWrite (h : Header) (data : List Byte) (s : State) : Host.Outcome State Fault Refusal := .next (doWrite h data s)
def doAtomic (h : Header) (ord : BitVec 4) (xf : BitVec 8) (operand compare : BitVec 64) (s : State) : State :=
  s.receive h (.atomic xf operand compare)
def execAtomic (h : Header) (ord : BitVec 4) (xf : BitVec 8) (operand compare : BitVec 64) (s : State) :
    Host.Outcome State Fault Refusal := .next (doAtomic h ord xf operand compare s)
def doActPush (h : Header) (p : PushHeader) (data : List Byte) (s : State) : State := s.receive h (.actPush p data)
def execActPush (h : Header) (p : PushHeader) (data : List Byte) (s : State) : Host.Outcome State Fault Refusal :=
  .next (doActPush h p data s)
def doTokenReq (h : Header) (body : TokenReq) (s : State) : State := s.receive h (.tokenReq body)
def execTokenReq (h : Header) (body : TokenReq) (s : State) : Host.Outcome State Fault Refusal := .next (doTokenReq h body s)
def doTokenRelease (h : Header) (asn : BitVec 64) (s : State) : State := s.receive h (.tokenRelease asn)
def execTokenRelease (h : Header) (asn : BitVec 64) (s : State) : Host.Outcome State Fault Refusal := .next (doTokenRelease h asn s)
def doStepAck (h : Header) (wu : WuKey) (s : State) : State := s.receive h (.stepAck wu)
def execStepAck (h : Header) (wu : WuKey) (s : State) : Host.Outcome State Fault Refusal := .next (doStepAck h wu s)
def doAbort (h : Header) (asn : BitVec 64) (status : BitVec 8) (s : State) : State := s.receive h (.abort asn status)
def execAbort (h : Header) (asn : BitVec 64) (status : BitVec 8) (s : State) : Host.Outcome State Fault Refusal :=
  .next (doAbort h asn status s)
def doWeightQuery (h : Header) (object : BitVec 32) (hash : BitVec 384) (s : State) : State := s.receive h (.weightQuery object hash)
def execWeightQuery (h : Header) (object : BitVec 32) (hash : BitVec 384) (s : State) : Host.Outcome State Fault Refusal :=
  .next (doWeightQuery h object hash s)
def doWeightHave (h : Header) (object : BitVec 32) (holds : Bool) (s : State) : State := s.receive h (.weightHave object holds)
def execWeightHave (h : Header) (object : BitVec 32) (holds : Bool) (s : State) : Host.Outcome State Fault Refusal :=
  .next (doWeightHave h object holds s)
def doLease (h : Header) (op : LeaseOp) (key : LeaseKey) (leaseEpoch : BitVec 32) (s : State) : State :=
  s.receive h (.lease op key leaseEpoch)
def execLease (h : Header) (op : LeaseOp) (key : LeaseKey) (leaseEpoch : BitVec 32) (s : State) : Host.Outcome State Fault Refusal :=
  .next (doLease h op key leaseEpoch s)
def doBarrier (h : Header) (asn : BitVec 64) (slot : Fin 16) (generation arrived count : BitVec 32) (isRelease : Bool) (s : State) : State :=
  s.receive h (.barrier asn slot generation arrived count isRelease)
def execBarrier (h : Header) (asn : BitVec 64) (slot : Fin 16) (generation arrived count : BitVec 32) (isRelease : Bool) (s : State) :
    Host.Outcome State Fault Refusal := .next (doBarrier h asn slot generation arrived count isRelease s)
def doTime (h : Header) (isResponse : Bool) (t1 t2 t3 t4 : Int) (s : State) : State :=
  if !isResponse then s.receive h (.time t2 t3) else if s.running then s.timeAnswered h t1 t2 t3 t4 else s
def execTime (h : Header) (isResponse : Bool) (t1 t2 t3 t4 : Int) (s : State) : Host.Outcome State Fault Refusal :=
  .next (doTime h isResponse t1 t2 t3 t4 s)

/-! ## Responses (R335, R337, R339) -/

/-- The exception of an access that its home refuses, for the instruction at `pc` (Table 13.2, Table 5.9). -/
def State.accessFault (s : State) (b : Fin 80) (t : Fin 128) (pc : Word) (status addr : Nat) : State :=
  if status = 2 then s.exceptAt b t pc stPoison excPoison addr
  else if status = 3 then s.exceptAt b t pc stContained excLocked addr
  else s.exceptAt b t pc stContained excAddress addr

/-- A store to another node's CSR space is dropped there, with its record, and raises nothing (R136). -/
def inCsr (a : Nat) : Bool := decide (csrBase ≤ a) && decide (a < csrBase + 0x1000000)

/-- The address an outstanding request names, with its node. -/
def Txn.addr (x : Txn) : Nat := globalAddr x.dst (fieldLE x.bytes 0x18 8 % 2 ^ 48)
def Txn.mtype (x : Txn) : Nat := fieldLE x.bytes 0 1

/-- A loaded value arrives; one whose register has been written since is dropped. -/
def State.loadArrives (s : State) (b : Fin 80) (t : Fin 128) (reg n : Nat) (sg vec : Bool) (data : List Byte) : State :=
  if 32 ≤ reg then s else
  s.modThr b t fun th =>
    let th := th.loaded vec sg (BitVec.ofNat 5 reg) n (fit n data)
    { th with pend := th.pend.erase (vec, reg) }

/-- What the answer to a READ of a mover brings. -/
def readPiece (addr status : Nat) (arg : BitVec 64) (data : List Byte) : RemotePiece :=
  { addr := addr, status := status, detail := bits arg.toNat 16 16, tag := BitVec.ofNat 16 arg.toNat, tagBad := bitOf arg.toNat 32,
    data := data }

/-- The lease an acquire asked for, as its message names it. -/
def Txn.slotKey (x : Txn) : Option LeaseKey :=
  let b := x.bytes.drop 32
  if fieldLE b 0 1 = 0 && fieldLE b 1 1 = 2 then
    some (.barrierSlot (BitVec.ofNat 64 (fieldLE b 8 8)) ⟨fieldLE b 16 8 % 16, Nat.mod_lt _ (by decide)⟩)
  else none

/-- What a response does to what its request served. -/
def State.answered (s : State) (x : Txn) (status epoch : Nat) (arg : BitVec 64) (data : List Byte) : State :=
  match x.purpose with
  | .load b t reg n sg vec pc => if status = 0 then s.loadArrives b t reg n sg vec data else s.accessFault b t pc status x.addr
  | .store b t pc => if status = 0 || inCsr (localAddr x.addr) then s else s.accessFault b t pc status x.addr
  | .atomic b t reg returns _ =>
    if status ≠ 0 then s.accessFault b t (s.thr b t).pc status x.addr
    else s.modThr b t fun th =>
      { (if returns then th.setG (BitVec.ofNat 5 reg) (BitVec.ofNat 64 (natLE data)) else th).next with wait := .ready }
  | .mover b m =>
    if x.mtype = 1 then s.modMover b m fun q => { q with remote := q.remote ++ [readPiece x.addr status arg data] }
    else if status ≠ 0 then s.modMover b m fun q => { q with ran := some (some (readPiece x.addr status arg []).fault) }
    else s
  | .steward _ =>
    if x.mtype ≠ 6 then s else
    match x.slotKey with
    | none => s
    | some k =>
      if status = 0 && fieldLE data 0 4 = 1 then
        let l : LeaseRec := { key := k, peer := x.dst, side := .held, epoch := fieldLE data 4 4 }
        s.modNet fun n => { n with leases := n.leases ++ [l] }
      else s
  | .push home k =>
    if s.net.txns.any (fun y => y.purpose == .push home k) || s.net.unsent.any (fun y => y.purpose == .push home k) then s else
    let s := s.modNet fun n =>
      { n with pushTx := n.pushTx.map fun p => if p.home = home && p.key = k then { p with responded := true } else p }
    s.ackInputs home k.asn
  | .weight _ => s
  | .kv asn op =>
    if op = 3 then s.finishCommit asn
    else if status ≠ 0 then s.failReqAt asn stFabricLost 0x0909 0x48 0xFFFF 0 []
    else if op = 1 then (s.modReq asn fun r => { r with kvLost := max r.kvLost (fieldLE data 8 2) }).tryContext asn
    else s
  | .other => s

/-- A response; NOT_MEMBER counts as none (R339). -/
def doTransportResponse (h : Header) (vc : BitVec 2) (data : List Byte) (s : State) : State :=
  if !s.running || h.status = 4 then s else
  match s.takeTxn h.src.toNat vc.toNat h.tseq.toNat with
  | none => s
  | some (x, s) => s.answered x h.status.toNat h.epoch.toNat h.arg data
def execTransportResponse (h : Header) (vc : BitVec 2) (data : List Byte) (s : State) : Host.Outcome State Fault Refusal :=
  .next (doTransportResponse h vc data s)

/-! ## Timeouts (R337) -/

/-- The transaction fails after its fourth attempt. -/
def State.txnFails (s : State) (x : Txn) : State :=
  let s := s.modNet fun n => { n with txFail := sat64 (n.txFail + 1) }
  match x.purpose with
  | .load b t _ _ _ _ pc => s.exceptAt b t pc stFabricLost excRemote x.addr
  | .store b t pc => s.exceptAt b t pc stFabricLost excRemote x.addr
  | .atomic b t _ _ _ => s.except b t stFabricLost excRemote x.addr
  | .mover b m =>
    s.modMover b m fun q => { q with ran := some (some { exc := 0x06, status := stFabricLost, detail := 0x0506 }) }
  | .steward asn => s.failReq asn stFabricLost 0x0D01
  | .push home k =>
    if home = s.net.nodeId then s.failReq k.asn stFabricLost 0x0D01
    else s.sendMsgTo home 0x21 (bytesLE 8 k.asn ++ bytesLE 1 stFabricLost) .other
  | .weight i => s.askPeer i (x.dst + 1)
  | .kv asn op => if op = 3 then s.finishCommit asn else s.failReq asn stFabricLost 0x0D01
  | .other => s

/-- A request to a node that had left before it was sent serves nothing: the work unit it served is abandoned and runs again (R150). -/
def State.txnLeft (s : State) (x : Txn) : State :=
  match s.req.running.find? fun w => w.bays.any fun b => x.purpose.ofBay b.2 with
  | some w => s.abandonLeft w.home w.key
  | none =>
    match s.req.table.find? fun r => x.purpose == .kv r.asn 3 with
    | some r => s.finishCommit r.asn
    | none => s

/-- The message with its ATTEMPT set. -/
def setAttempt (bytes : List Byte) (a : Nat) : List Byte :=
  let tfl := fieldLE bytes 3 1
  overlay bytes 3 (bytesLE 1 (tfl % 16 + 16 * (a % 4)))

/-- No response 100 µs after a transmission: the next attempt, or after the fourth the failure, while the destination is a member; a
request to a node that has left waits for the settle that abandons it. -/
def doRequestTimeout (dst : BitVec 8) (vc : BitVec 2) (tseq : BitVec 32) (at_ : Nat) (s : State) : State :=
  let s := s.advance at_
  match s.net.txns.find? fun x => x.dst == dst.toNat && x.vc == vc.toNat && x.tseq == tseq.toNat with
  | none => s
  | some x =>
    if !s.running || s.clk.devTime < x.sentAt + 100000 then s
    else if x.attempt < 3 then
      let y : Txn := { x with attempt := x.attempt + 1, sentAt := s.clk.devTime, bytes := setAttempt x.bytes (x.attempt + 1) }
      let s := s.modNet fun n => { n with txns := n.txns.map (fun z => if z = x then y else z), retx := sat64 (n.retx + 1) }
      s.route x.dst x.vc (fieldLE x.bytes 3 1 % 16) y.attempt y.bytes
    else if s.memberSet.contains x.dst then
      ((s.modNet fun n => { n with txns := n.txns.erase x }).txnFails x).sendNext x.dst x.vc
    else if s.net.members.contains x.dst then s
    else (s.modNet fun n => { n with txns := n.txns.erase x }).txnLeft x
def execRequestTimeout (dst : BitVec 8) (vc : BitVec 2) (tseq : BitVec 32) (at_ : Nat) (s : State) :
    Host.Outcome State Fault Refusal := .next (doRequestTimeout dst vc tseq at_ s)

/-- A transit message stalled for 20 µs at the head of a virtual channel is discarded and counted (R338). -/
def doTransitDrop (port : Fin 12) (vc : BitVec 2) (s : State) : State :=
  if !s.linkRuns then s else
  match ((s.port port).vcq.getD vc.toNat []) with
  | m :: rest =>
    let src := fieldLE m.bytes 1 1
    let dst := fieldLE m.bytes 2 1
    if m.sent = 0 && src ≠ s.net.nodeId && dst ≠ 0xFF then
      (s.modPort port fun p => { p with vcq := p.vcq.set vc.toNat rest }).modNet fun n => { n with transitDrop := sat64 (n.transitDrop + 1) }
    else s
  | [] => s
def execTransitDrop (port : Fin 12) (vc : BitVec 2) (s : State) : Host.Outcome State Fault Refusal := .next (doTransitDrop port vc s)

end Sys2Proof.Machine
end

