-- ==== Sys2Proof/Machine/Spdm.lean ====
section
/-! DEFINITION. The DOE mailbox and the SPDM responder (14, R382, Table 14.6). The spec names the requests and the measurement blocks;
the bytes of the messages are those of DSP0274, SPDM 1.3 (PRESUMED, log entry 46). -/
namespace Sys2Proof.Machine
open Sys2Proof

/-- An SPDM message: version 1.3, code and the two parameters, then the body. -/
def spdmMsg (code p1 p2 : Nat) (body : List Byte) : List Byte := [0x13] ++ bytesLE 1 code ++ bytesLE 1 p1 ++ bytesLE 1 p2 ++ body

/-- ERROR with a code and its data byte. -/
def spdmError (code data : Nat) : List Byte := spdmMsg 0x7F code data []
def errInvalid : Nat := 0x01
def errUnexpected : Nat := 0x04
def errUnsupported : Nat := 0x07

/-- The request code of a request; none for DOE Discovery. -/
def DoeReq.code : DoeReq → Option Nat
  | .discovery _ => none
  | .version => some 0x84
  | .capabilities => some 0xE1
  | .algorithms _ _ => some 0xE3
  | .digests => some 0x81
  | .certificate _ _ _ => some 0x82
  | .challenge _ _ => some 0x83
  | .measurements _ _ _ => some 0xE0
  | .other c => some c.toNat

/-- The certificate chain of slot 0: length, root hash, the certificates leaf first (R404). -/
def spdmChain : List Byte :=
  bytesLE 2 (52 + Config.certChain.length) ++ [0, 0] ++ bytesLE 48 Config.rootHash.toNat ++ Config.certChain

/-- DOE Discovery: protocol 0 is discovery itself, 1 is SPDM. -/
def discoveryBytes (index : Nat) : List Byte :=
  if index = 0 then [1, 0, 0, 1] else if index = 1 then [1, 0, 1, 0] else [0xFF, 0xFF, 0, 0]

/-- One measurement block: index, DMTF form, value type and value. -/
def measBlock (index type : Nat) (value : List Byte) : List Byte :=
  bytesLE 1 index ++ [1] ++ bytesLE 2 (3 + value.length) ++ bytesLE 1 type ++ bytesLE 2 value.length ++ value

/-- The blocks of Table 14.6: digests of 1 to 4, raw values of 5 and 6. -/
def State.measurement (s : State) (i : Nat) : List Byte :=
  if i = 1 then measBlock 1 0x01 (bytesLE 48 (s.cfg.sectionHash 0x01).toNat)
  else if i = 2 then measBlock 2 0x03 (bytesLE 48 (s.cfg.sectionHash 0x02).toNat)
  else if i = 3 then measBlock 3 0x01 (bytesLE 48 s.cfg.header.imageHash.toNat)
  else if i = 4 then measBlock 4 0x03 (bytesLE 48 (s.cfg.sectionHash 0x08).toNat)
  else if i = 5 then measBlock 5 0x82 (bytesLE 1 s.boot.fuseFloor ++ bytesLE 48 Config.customerKeyHash.toNat)
  else measBlock 6 0x82 ([0xB0, 1] ++ bytesLE 4 Config.romVersion.toNat)

/-- The blocks an index asks for: all at 0xFF, one at 1 to 6. -/
def measIndices (index : Nat) : List Nat :=
  if index = 0xFF then [1, 2, 3, 4, 5, 6] else if within 1 index 6 then [index] else []

/-- A responder nonce, from the entropy source. -/
def State.drawNonce (s : State) : List Byte × State :=
  ((List.range 4).flatMap fun i => bytesLE 8 (Config.entropy (s.freeCtr + i)).toNat, { s with freeCtr := s.freeCtr + 4 })

/-- The signature with the identity key over the exchange, whose bytes the commands do not carry: a free value stands for them. -/
def State.drawSignature (s : State) : List Byte × State :=
  let (m, s) := s.drawBytes 48
  (ecdsaSign identityKey m, s)

def State.sendDoe (s : State) (bytes : List Byte) : State := s.emit (.doe bytes)

/-- GET_VERSION starts the exchange again. -/
def State.doeVersion (s : State) : State :=
  (s.modHost fun h => { h with doe := { version := true, capabilities := false, negotiated := false } }).sendDoe
    ([0x10, 0x04, 0, 0] ++ [0, 1] ++ bytesLE 2 0x1300)

/-- CERT_CAP, CHAL_CAP and MEAS_CAP with signature; CTExponent and the sizes are the part's own. -/
def State.doeCapabilities (s : State) : State :=
  let (e, s) := s.drawBytes 1
  let (z, s) := s.drawBytes 8
  (s.modHost fun h => { h with doe := { h.doe with capabilities := true } }).sendDoe
    (spdmMsg 0x61 0 0 ([0] ++ e ++ [0, 0] ++ bytesLE 4 0x16 ++ z))

/-- ECDSA P-384 and SHA-384, each where the requester offers it. -/
def State.doeAlgorithms (s : State) (p384 sha : Bool) : State :=
  (s.modHost fun h => { h with doe := { h.doe with negotiated := p384 && sha } }).sendDoe
    (spdmMsg 0x63 0 0 (bytesLE 2 36 ++ [1, 0] ++ bytesLE 4 4 ++ bytesLE 4 (0x80 * b2n p384) ++ bytesLE 4 (2 * b2n sha)
      ++ List.replicate 16 0))

def State.doeCertificate (s : State) (slot offset length : Nat) : State :=
  if slot ≠ 0 || spdmChain.length ≤ offset then s.sendDoe (spdmError errInvalid 0)
  else
    let part := slice spdmChain offset length
    s.sendDoe (spdmMsg 0x02 0 0 (bytesLE 2 part.length ++ bytesLE 2 (spdmChain.length - offset - part.length) ++ part))

def State.doeChallenge (s : State) (slot : Nat) : State :=
  if slot ≠ 0 then s.sendDoe (spdmError errInvalid 0)
  else
    let (nonce, s) := s.drawNonce
    let (sig, s) := s.drawSignature
    s.sendDoe (spdmMsg 0x03 0 1 (sha384 spdmChain ++ nonce ++ [0, 0] ++ List.replicate 8 0 ++ sig))

/-- GET_MEASUREMENTS: index 0 asks for the count. -/
def State.doeMeasurements (s : State) (index : Nat) (sign : Bool) : State :=
  if index ≠ 0 && (measIndices index).isEmpty then s.sendDoe (spdmError errInvalid 0)
  else
    let blocks := measIndices index
    let record := blocks.flatMap s.measurement
    let (nonce, s) := s.drawNonce
    let body := bytesLE 1 blocks.length ++ bytesLE 3 record.length ++ record ++ nonce ++ [0, 0] ++ List.replicate 8 0
    let (sig, s) := if sign then s.drawSignature else ([], s)
    s.sendDoe (spdmMsg 0x60 (if index = 0 then 6 else 0) 0 (body ++ sig))

/-- Answer a request. In SAFE mode only three of the SPDM requests are answered; a request out of its order is unexpected; any other
request code is unsupported (R4). -/
def State.doeAnswer (s : State) (r : DoeReq) : State :=
  let d := s.host.doe
  match r with
  | .discovery i => s.sendDoe (discoveryBytes i.toNat)
  | .version => s.doeVersion
  | .capabilities => if d.version then s.doeCapabilities else s.sendDoe (spdmError errUnexpected 0)
  | .algorithms p h => if d.capabilities then s.doeAlgorithms p h else s.sendDoe (spdmError errUnexpected 0)
  | .digests =>
    if s.isSafe then s.sendDoe (spdmError errUnsupported 0x81)
    else if d.negotiated then s.sendDoe (spdmMsg 0x01 1 1 (sha384 spdmChain)) else s.sendDoe (spdmError errUnexpected 0)
  | .certificate slot o n =>
    if s.isSafe then s.sendDoe (spdmError errUnsupported 0x82)
    else if d.negotiated then s.doeCertificate slot.toNat o.toNat n.toNat else s.sendDoe (spdmError errUnexpected 0)
  | .challenge slot _ =>
    if s.isSafe then s.sendDoe (spdmError errUnsupported 0x83)
    else if d.negotiated then s.doeChallenge slot.toNat else s.sendDoe (spdmError errUnexpected 0)
  | .measurements i sign _ =>
    if s.isSafe then s.sendDoe (spdmError errUnsupported 0xE0)
    else if d.negotiated then s.doeMeasurements i.toNat sign else s.sendDoe (spdmError errUnexpected 0)
  | .other c => s.sendDoe (spdmError errUnsupported c.toNat)

/-- A request as it arrives: it needs the link, and in P3 it waits for the exit. -/
def State.doe (s : State) (r : DoeReq) : State :=
  if !(s.host.linkUp && s.clk.pwrOk) then s
  else if s.asleep then s.holdTlp (.doe r) else s.doeAnswer r

end Sys2Proof.Machine
end

