-- ==== Sys2Proof/Machine/Host.lean ====
section
/-! DEFINITION. Meanings of the host's register and function writes, DOE and SPDM requests, SMBus reads, the CXL events and the TAP
(14, R361 to R387; 17, R434; 19, R470, R482; 20, R489). -/
namespace Sys2Proof.Machine
open Sys2Proof

/-! ## Registers (Tables 14.1, 14.2, 17.3) -/

/-- ARM written as 1, with the sizes of the value. -/
def doArm (f : Fin 16) (value : BitVec 32) (s : State) : State := s.hostReg (pageWrite f 0x20 (value ||| 1).toNat)
def execArm (f : Fin 16) (value : BitVec 32) (s : State) : Host.Outcome State Fault Refusal := .next (doArm f value s)

/-- RING_CTRL with its sizes as they stand and without its flags. -/
def State.ringSizes (s : State) (f : Fin 16) : Nat := (s.page f).ringCtrl / 16 * 16

/-- ARM written as 0. -/
def doDisarm (f : Fin 16) (s : State) : State := s.hostReg (pageWrite f 0x20 (s.ringSizes f))
def execDisarm (f : Fin 16) (s : State) : Host.Outcome State Fault Refusal := .next (doDisarm f s)

/-- TAIL_ERR written as 1, ARM as it stands. -/
def doTailErrClear (f : Fin 16) (s : State) : State := s.hostReg (pageWrite f 0x20 (s.ringSizes f + 8 + b2n (s.page f).armBit))
def execTailErrClear (f : Fin 16) (s : State) : Host.Outcome State Fault Refusal := .next (doTailErrClear f s)

def doCplHead (f : Fin 16) (value : BitVec 32) (s : State) : State := s.hostReg (pageWrite f 0x48 value.toNat)
def execCplHead (f : Fin 16) (value : BitVec 32) (s : State) : Host.Outcome State Fault Refusal := .next (doCplHead f value s)

def doAudHead (value : BitVec 32) (s : State) : State := s.hostReg (pageWrite 0 0x50 value.toNat)
def execAudHead (value : BitVec 32) (s : State) : Host.Outcome State Fault Refusal := .next (doAudHead value s)

def doIrqCauseClear (f : Fin 16) (value : BitVec 32) (s : State) : State := s.hostReg (pageWrite f 0x60 value.toNat)
def execIrqCauseClear (f : Fin 16) (value : BitVec 32) (s : State) : Host.Outcome State Fault Refusal := .next (doIrqCauseClear f value s)

/-- A 32-bit write of the PF through the CSR window. -/
def csrWrite (offset value : Nat) : HeldTlp :=
  { f := 0, win := .csr, offset := offset, width := 4, value := BitVec.ofNat 64 value, dma := none }

/-- TAKE, with LOAD_INDEX as it stands. -/
def doTake (s : State) : State := s.hostReg (csrWrite 0x61C000 (1 + 65536 * s.cnt.loadIndex.toNat))
def execTake (s : State) : Host.Outcome State Fault Refusal := .next (doTake s)

def doLoad (index : BitVec 10) (s : State) : State := s.hostReg (csrWrite 0x61C000 (2 + 65536 * index.toNat))
def execLoad (index : BitVec 10) (s : State) : Host.Outcome State Fault Refusal := .next (doLoad index s)

def doRegisterWrite (f : Fin 16) (win : Window) (offset width : Nat) (value : BitVec 64) (dma : Option (List Byte)) (s : State) : State :=
  s.hostReg { f := f, win := win, offset := offset, width := width, value := value, dma := dma }
def execRegisterWrite (f : Fin 16) (win : Window) (offset width : Nat) (value : BitVec 64) (dma : Option (List Byte)) (s : State) :
    Host.Outcome State Fault Refusal := .next (doRegisterWrite f win offset width value dma s)

/-! ## Function and link resets, configuration writes (R52, R361, R371 to R373) -/

/-- The host asks for an FLR with a configuration write, which P3 holds (R60). -/
def doFlr (f : Fin 16) (s : State) : State :=
  if !(s.reachable f) then s else if s.asleep then s.holdTlp (.flr f) else s.clearPage f true
def execFlr (f : Fin 16) (s : State) : Host.Outcome State Fault Refusal := .next (doFlr f s)

/-- Whether a broader reset absorbs a host-link reset: one is pending or in progress (R49). -/
def State.broaderReset (s : State) : Bool := s.clk.heldInReset || s.clk.warmInProgress || s.clk.pendingReset != .none

def doPerstNAssert (s : State) : State :=
  if !s.clk.pwrOk then s else
  let absorbed := s.broaderReset
  let s := s.modPins fun p => { p with perstN := false }
  if absorbed then s else s.hostLinkReset
def execPerstNAssert (s : State) : Host.Outcome State Fault Refusal := .next (doPerstNAssert s)

def doPerstNDeassert (s : State) : State := if s.clk.pwrOk then s.modPins fun p => { p with perstN := true } else s
def execPerstNDeassert (s : State) : Host.Outcome State Fault Refusal := .next (doPerstNDeassert s)

/-- Messages held as pending that nothing masks any more. -/
def State.sendPending (s : State) (f : Fin 16) : State :=
  let ready := if s.canSend f then (s.page f).msixPending.filter fun v => !((s.page f).msixMasked.contains v) else []
  let s := s.modPage f fun p => { p with msixPending := p.msixPending.filter fun v => !(ready.contains v) }
  s.each ready fun s v => s.sendMsix f v

/-- A configuration or MSI-X control write takes effect. TotalVFs reads 0 in SAFE mode (R76), and a VF that is no longer enabled is
reset (PRESUMED, log entry 45). -/
def State.configure (s : State) (w : ConfigWrite) : State :=
  match w with
  | .busMaster f on =>
    let s := s.modPage f fun p => { p with busMaster := on }
    if on then (s.sendPending f).tryDrain else s
  | .numVfs n =>
    if s.isSafe then s else
    s.each (allFns.filter fun f => f != 0) fun s f =>
      if f ≤ n then s.modPage f fun p => { p with vfEnabled := true }
      else if (s.page f).vfEnabled then s.clearPage f false else s
  | .msixMask f v masked =>
    if masked then s.modPage f fun p => { p with msixMasked := insertNat p.msixMasked v }
    else (s.modPage f fun p => { p with msixMasked := p.msixMasked.filter (· != v) }).sendPending f

def doConfigSpaceWrite (w : ConfigWrite) (s : State) : State :=
  if !(s.host.linkUp && s.clk.pwrOk) then s
  else if s.asleep then s.holdTlp (.config w) else s.configure w
def execConfigSpaceWrite (w : ConfigWrite) (s : State) : Host.Outcome State Fault Refusal := .next (doConfigSpaceWrite w s)

/-- The link trains, at 64 GT/s and 16 lanes or at what it falls back to (Table 0.3): one of the six rates and one of the widths 1 to 16, as free
values, since the spec gives no rule for the choice (DESIGN CHOICE, log entry 79). PERST_N is high, and the host port's clocks run or it is P3, where
it comes up in L1 (R58, R64). A wake vector that waited goes out. -/
def doPcieLinkUp (s : State) : State :=
  let clocked := s.clk.pllLocked || s.clk.pstate == .p3
  if !(s.clk.pwrOk && s.pins.perstN && clocked && !s.clk.thermtrip && !s.host.linkUp) then s else
  let (rate, s) := s.draw
  let (width, s) := s.draw
  let s := s.modHost fun h =>
    { h with linkUp := true, linkL1 := s.clk.pstate == .p3, linkRate := rate.toNat % 6, linkWidth := 2 ^ (width.toNat % 5) }
  let s := if s.host.vec6Due && !s.asleep then (s.modHost fun h => { h with vec6Due := false }).raise 0 6 else s
  s.tryDrain
def execPcieLinkUp (s : State) : Host.Outcome State Fault Refusal := .next (doPcieLinkUp s)

/-! ## DOE and SPDM (R4, R382) -/

def doDoeDiscovery (index : BitVec 8) (s : State) : State := s.doe (.discovery index)
def execDoeDiscovery (index : BitVec 8) (s : State) : Host.Outcome State Fault Refusal := .next (doDoeDiscovery index s)
def doGetVersion (s : State) : State := s.doe .version
def execGetVersion (s : State) : Host.Outcome State Fault Refusal := .next (doGetVersion s)
def doGetCapabilities (s : State) : State := s.doe .capabilities
def execGetCapabilities (s : State) : Host.Outcome State Fault Refusal := .next (doGetCapabilities s)
def doNegotiateAlgorithms (ecdsaP384 sha384 : Bool) (s : State) : State := s.doe (.algorithms ecdsaP384 sha384)
def execNegotiateAlgorithms (ecdsaP384 sha384 : Bool) (s : State) : Host.Outcome State Fault Refusal :=
  .next (doNegotiateAlgorithms ecdsaP384 sha384 s)
def doGetDigests (s : State) : State := s.doe .digests
def execGetDigests (s : State) : Host.Outcome State Fault Refusal := .next (doGetDigests s)
def doGetCertificate (slot : BitVec 8) (offset length : BitVec 16) (s : State) : State := s.doe (.certificate slot offset length)
def execGetCertificate (slot : BitVec 8) (offset length : BitVec 16) (s : State) : Host.Outcome State Fault Refusal :=
  .next (doGetCertificate slot offset length s)
def doChallenge (slot : BitVec 8) (nonce : BitVec 256) (s : State) : State := s.doe (.challenge slot nonce)
def execChallenge (slot : BitVec 8) (nonce : BitVec 256) (s : State) : Host.Outcome State Fault Refusal := .next (doChallenge slot nonce s)
def doGetMeasurements (index : BitVec 8) (sign : Bool) (nonce : BitVec 256) (s : State) : State := s.doe (.measurements index sign nonce)
def execGetMeasurements (index : BitVec 8) (sign : Bool) (nonce : BitVec 256) (s : State) : Host.Outcome State Fault Refusal :=
  .next (doGetMeasurements index sign nonce s)
/-- A request that Table 0.3 does not list: ERROR UnsupportedRequest in SPDM, Unsupported Request on PCIe and on CXL.io (R4). -/
def doUnsupportedRequest (r : ForeignReq) (s : State) : State :=
  match r with
  | .spdm code => s.doe (.other code)
  | .pcie f =>
    if !(s.reachable f) then s else if s.asleep then s.holdTlp (.foreign f) else s.emit (.ur f)
  | .cxl p => if s.clk.pwrOk && (s.cxl.ports.getD p.val CxlPort.unused).trained then s.emit (.cxlUr p.val) else s
def execUnsupportedRequest (r : ForeignReq) (s : State) : Host.Outcome State Fault Refusal := .next (doUnsupportedRequest r s)

/-! ## SMBus (R383, Table 14.7) -/

/-- The target answers in every state except P4; it holds SMB_SDA until the read ends (log entry 47). -/
def State.smbAnswer (s : State) (bytes : List Byte) : State :=
  if s.clk.pwrOk then s.modPins fun p => { p with smbOut := bytes, smbSdaHeld := true } else s

/-- A block read: the byte count, then the bytes. -/
def block (bs : List Byte) : List Byte := bytesLE 1 bs.length ++ bs

def doSmbusStatus (s : State) : State :=
  s.smbAnswer (bytesLE 1 (flagsNat [s.isReady, s.isSafe, s.isFatal] + 8 * s.clk.pstate.code))
def execSmbusStatus (s : State) : Host.Outcome State Fault Refusal := .next (doSmbusStatus s)
def doSmbusTmax (s : State) : State := s.smbAnswer (bytesLE 2 (ofSigned 16 s.stew.tmax))
def execSmbusTmax (s : State) : Host.Outcome State Fault Refusal := .next (doSmbusTmax s)
def doSmbusModulePower (s : State) : State := s.smbAnswer (bytesLE 2 s.stew.moduleW)
def execSmbusModulePower (s : State) : Host.Outcome State Fault Refusal := .next (doSmbusModulePower s)
def doSmbusHbmTemp (s : State) : State := s.smbAnswer (bytesLE 1 (s.stew.hbmTemp.foldl max 0))
def execSmbusHbmTemp (s : State) : Host.Outcome State Fault Refusal := .next (doSmbusHbmTemp s)
def doSmbusNodeEpoch (s : State) : State := s.smbAnswer (block (bytesLE 1 s.net.nodeId ++ bytesLE 4 s.net.settled))
def execSmbusNodeEpoch (s : State) : Host.Outcome State Fault Refusal := .next (doSmbusNodeEpoch s)
def doSmbusDegradedCount (s : State) : State := s.smbAnswer (block (bytesLE 4 (s.err.classCount.getD 2 0)))
def execSmbusDegradedCount (s : State) : Host.Outcome State Fault Refusal := .next (doSmbusDegradedCount s)
def doSmbusStepping (s : State) : State := s.smbAnswer (block [0xB0, 1])
def execSmbusStepping (s : State) : Host.Outcome State Fault Refusal := .next (doSmbusStepping s)

/-- The bus timeout releases SMB_SDA (R482). -/
def doSmbusBusTimeout (s : State) : State := s.modPins fun p => { p with smbSdaHeld := false }
def execSmbusBusTimeout (s : State) : Host.Outcome State Fault Refusal := .next (doSmbusBusTimeout s)

/-! ## CXL (R265, R386) -/

def State.devLost (s : State) (d : Fin 4) : Bool := ((s.cxl.devs[d.val]?).map (·.lost)).getD true

/-- Every second each device's event records are read; General Media events become corrected-class records. -/
def doCxlEventPoll (at_ : Nat) (events : List CxlEvent) (s : State) : State :=
  let s := s.advance at_
  if !s.running then s else
  let live := (List.range 4).filter fun d => ((s.cxl.devs[d]?).map fun x => !x.lost).getD false
  let s := s.each live fun s d => s.countT2 d 14 1
  s.each (events.filter fun (e : CxlEvent) => e.generalMedia && live.contains e.dev.val) fun s e =>
    (s.countT2 e.dev.val 7 1).error { cls := 0, source := 0x0C, inst := e.dev.val, code := 0x0E22 }
def execCxlEventPoll (at_ : Nat) (events : List CxlEvent) (s : State) : Host.Outcome State Fault Refusal :=
  .next (doCxlEventPoll at_ events s)

/-- A device goes down: it is not used for the rest of the boot. -/
def doCxlDeviceLost (dev : Fin 4) (s : State) : State :=
  if !s.clk.pwrOk || s.devLost dev then s else
  (s.modCxl fun c => { c with devs := c.devs.modify dev.val fun (d : CxlDev) => { d with lost := true } }).error
    { cls := 2, source := 0x0C, inst := dev.val, code := 0x0A24 }
def execCxlDeviceLost (dev : Fin 4) (s : State) : Host.Outcome State Fault Refusal := .next (doCxlDeviceLost dev s)

/-! ## The TAP (R470, Table 19.3) -/

/-- Whether the TAP offers an instruction (log entry 48). -/
def tapOffers (tapEn : Bool) : TapInstr → Bool
  | .idcode => true
  | .bypass => true
  | .status => !tapEn
  | .samplePreload => tapEn
  | .extest => tapEn

/-- An instruction that is not offered acts as BYPASS. What STATUS and the boundary register shift out is the part's own. The TAP domain does not
run in P3 (Table 2.1). -/
def doTapInstruction (i : TapInstr) (s : State) : State :=
  if !s.clk.pwrOk || s.clk.pstate == .p3 then s else
  match (if tapOffers s.pins.straps.tapEn i then i else TapInstr.bypass) with
  | .idcode => s.modPins fun p => { p with tapIr := .idcode, tapOut := 0x1410056F }
  | .bypass => s.modPins fun p => { p with tapIr := .bypass, tapOut := 0 }
  | i =>
    { s with freeCtr := s.freeCtr + 1 }.modPins fun p => { p with tapIr := i, tapOut := Config.tapStatus s.freeCtr }
def execTapInstruction (i : TapInstr) (s : State) : Host.Outcome State Fault Refusal := .next (doTapInstruction i s)

end Sys2Proof.Machine
end

