-- ==== Sys2Proof/Machine/Mailbox.lean ====
section
/-! DEFINITION. Meanings of the mailbox commands, of the end of a flash operation and of QUIESCE's completion, and of the counter
events (14, R375 to R380; 03; 17). -/
namespace Sys2Proof.Machine
open Sys2Proof

/-- The host's write of MBX_CMD with a command ID and a sequence number (Table 14.1). -/
def mbxWrite (f : Fin 16) (id : Nat) (seq : BitVec 16) (dma : Option (List Byte)) : HeldTlp :=
  { f := f, win := .doorbell, offset := 0x180, width := 4, value := BitVec.ofNat 64 (65536 * seq.toNat + id), dma := dma }

def doStageImage (f : Fin 16) (seq : BitVec 16) (dma : Option (List Byte)) (s : State) : State := s.hostReg (mbxWrite f idStage seq dma)
def execStageImage (f : Fin 16) (seq : BitVec 16) (dma : Option (List Byte)) (s : State) : Host.Outcome State Fault Refusal :=
  .next (doStageImage f seq dma s)

def doCommitImage (f : Fin 16) (seq : BitVec 16) (s : State) : State := s.hostReg (mbxWrite f idCommit seq none)
def execCommitImage (f : Fin 16) (seq : BitVec 16) (s : State) : Host.Outcome State Fault Refusal := .next (doCommitImage f seq s)

def doGetInfo (f : Fin 16) (seq : BitVec 16) (s : State) : State := s.hostReg (mbxWrite f idGetInfo seq none)
def execGetInfo (f : Fin 16) (seq : BitVec 16) (s : State) : Host.Outcome State Fault Refusal := .next (doGetInfo f seq s)

def doSetTunable (f : Fin 16) (seq : BitVec 16) (s : State) : State := s.hostReg (mbxWrite f idSetTunable seq none)
def execSetTunable (f : Fin 16) (seq : BitVec 16) (s : State) : Host.Outcome State Fault Refusal := .next (doSetTunable f seq s)

def doQuiesce (f : Fin 16) (seq : BitVec 16) (s : State) : State := s.hostReg (mbxWrite f idQuiesce seq none)
def execQuiesce (f : Fin 16) (seq : BitVec 16) (s : State) : Host.Outcome State Fault Refusal := .next (doQuiesce f seq s)

def doResume (f : Fin 16) (seq : BitVec 16) (s : State) : State := s.hostReg (mbxWrite f idResume seq none)
def execResume (f : Fin 16) (seq : BitVec 16) (s : State) : Host.Outcome State Fault Refusal := .next (doResume f seq s)

def doWarmReset (f : Fin 16) (seq : BitVec 16) (s : State) : State := s.hostReg (mbxWrite f idWarmReset seq none)
def execWarmReset (f : Fin 16) (seq : BitVec 16) (s : State) : Host.Outcome State Fault Refusal := .next (doWarmReset f seq s)

def doSnapshot (f : Fin 16) (seq : BitVec 16) (s : State) : State := s.hostReg (mbxWrite f idSnapshot seq none)
def execSnapshot (f : Fin 16) (seq : BitVec 16) (s : State) : Host.Outcome State Fault Refusal := .next (doSnapshot f seq s)

def doPlumbNow (f : Fin 16) (seq : BitVec 16) (s : State) : State := s.hostReg (mbxWrite f idPlumbNow seq none)
def execPlumbNow (f : Fin 16) (seq : BitVec 16) (s : State) : Host.Outcome State Fault Refusal := .next (doPlumbNow f seq s)

def doSentinelRead (f : Fin 16) (seq : BitVec 16) (s : State) : State := s.hostReg (mbxWrite f idSentinelRead seq none)
def execSentinelRead (f : Fin 16) (seq : BitVec 16) (s : State) : Host.Outcome State Fault Refusal := .next (doSentinelRead f seq s)

def doExportPubkey (f : Fin 16) (seq : BitVec 16) (s : State) : State := s.hostReg (mbxWrite f idExportPubkey seq none)
def execExportPubkey (f : Fin 16) (seq : BitVec 16) (s : State) : Host.Outcome State Fault Refusal := .next (doExportPubkey f seq s)

def doSetTimeOffset (f : Fin 16) (seq : BitVec 16) (s : State) : State := s.hostReg (mbxWrite f idSetTimeOffset seq none)
def execSetTimeOffset (f : Fin 16) (seq : BitVec 16) (s : State) : Host.Outcome State Fault Refusal := .next (doSetTimeOffset f seq s)

def doLeaveFabric (f : Fin 16) (seq : BitVec 16) (s : State) : State := s.hostReg (mbxWrite f idLeaveFabric seq none)
def execLeaveFabric (f : Fin 16) (seq : BitVec 16) (s : State) : Host.Outcome State Fault Refusal := .next (doLeaveFabric f seq s)

/-- With WAIT, no request remains admitted: the anchor is written and the result posted (R377). -/
def doQuiesceComplete (s : State) : State :=
  match s.req.quiesceWait, s.host.mbxRunning with
  | some _, some j =>
    if s.running && j.id = idQuiesce && s.admittedCount = 0 && s.req.doneQ.isEmpty then
      ((s.modReqs fun q => { q with quiesceWait := none }).quiescePost j 0).mbxGo
    else s
  | _, _ => s
def execQuiesceComplete (s : State) : Host.Outcome State Fault Refusal := .next (doQuiesceComplete s)

/-- The flash operation in progress ends, and the next one starts (R81); none ends while the NVM domain is stopped (Table 2.1, R46). -/
def doFlashOperationDone (ok : Bool) (at_ : Nat) (s : State) : State :=
  let s := s.advance at_
  if !s.clk.pllLocked then s else
  match s.boot.flashBusy with
  | none => s
  | some o =>
    let s := s.modBoot fun b => { (if ok then b.applyFlash o else b) with flashBusy := none }
    (s.flashEnded o ok).modBoot Boot.startFlash
def execFlashOperationDone (ok : Bool) (at_ : Nat) (s : State) : Host.Outcome State Fault Refusal := .next (doFlashOperationDone ok at_ s)

/-! ## Counters (17) -/

/-- The counters run: powered, the PLL locked, not in P3. -/
def State.countersRun (s : State) : Bool := s.clk.pwrOk && s.clk.pllLocked && !s.clk.refLost && s.clk.pstate != .p3

def doSnapshotPulse (s : State) : State := if s.countersRun then s.pulse else s
def execSnapshotPulse (s : State) : Host.Outcome State Fault Refusal := .next (doSnapshotPulse s)

/-- A periodic pulse falls due at each multiple of SNAPSHOT_INTERVAL, but not in P3 (R437). -/
def doPeriodicSnapshot (at_ : Nat) (s : State) : State :=
  let s := s.advance at_
  if s.countersRun && s.tun.snapInterval != 0 && at_ % (1000 * s.tun.snapInterval) = 0 then
    s.modCnt fun c => { c with due := c.due ++ [2] }
  else s
def execPeriodicSnapshot (at_ : Nat) (s : State) : Host.Outcome State Fault Refusal := .next (doPeriodicSnapshot at_ s)

def doBandwidthWindowEnd (at_ : Nat) (s : State) : State :=
  let s := s.advance at_
  if s.countersRun && s.cnt.winLen != 0 && at_ = s.cnt.winBase + 1000 * s.cnt.winLen * (s.cnt.winSeq + 1) then s.endWindow else s
def execBandwidthWindowEnd (at_ : Nat) (s : State) : Host.Outcome State Fault Refusal := .next (doBandwidthWindowEnd at_ s)

end Sys2Proof.Machine
end

