-- ==== Sys2Proof/Machine/MoverOps.lean ====
section
/-! DEFINITION. Entries of the bay tile movers: the descriptor's fields, the checks of Table 10.5, where an entry may read and write,
and the copying by units (10, R243 to R248; 11, R270 to R273, R285). -/
namespace Sys2Proof.Machine
open Sys2Proof

/-! ## The descriptor (Table 10.4) -/

abbrev MoveDesc := List Byte

def MoveDesc.cop (d : MoveDesc) : Nat := fieldLE d 0x00 1
def MoveDesc.code (d : MoveDesc) : Bool := bitOf (fieldLE d 0x01 1) 0
def MoveDesc.trans (d : MoveDesc) : Bool := bitOf (fieldLE d 0x01 1) 1
def MoveDesc.es (d : MoveDesc) : Nat := fieldLE d 0x02 1 + 1
def MoveDesc.count (d : MoveDesc) : Nat := fieldLE d 0x04 4
def MoveDesc.src (d : MoveDesc) : Nat := fieldLE d 0x08 8
def MoveDesc.dst (d : MoveDesc) : Nat := fieldLE d 0x10 8
def MoveDesc.srcStride (d : MoveDesc) : Nat := fieldLE d 0x18 4
def MoveDesc.dstStride (d : MoveDesc) : Nat := fieldLE d 0x1C 4
def MoveDesc.rows (d : MoveDesc) : Nat := fieldLE d 0x20 2
def MoveDesc.cols (d : MoveDesc) : Nat := fieldLE d 0x22 2

def MoveDesc.isPack (d : MoveDesc) : Bool := d.cop == 3
def MoveDesc.isUnpack (d : MoveDesc) : Bool := d.cop == 4
def MoveDesc.isMove (d : MoveDesc) : Bool := decide (1 ≤ d.cop) && decide (d.cop ≤ 4)

/-- Bytes of an engine-ready tile of the entry. -/
def MoveDesc.tb (d : MoveDesc) : Nat := 16384 * d.es
def MoveDesc.tilesAcross (d : MoveDesc) : Nat := ceilDiv d.cols 128
def MoveDesc.tilesDown (d : MoveDesc) : Nat := ceilDiv d.rows 128
def MoveDesc.tiles (d : MoveDesc) : Nat := d.tilesDown * d.tilesAcross

/-! ## Checks 2 to 4 and 6 -/

/-- Check 2: COP, ES and the fields that must be 0. -/
def moveCheck2 (d : MoveDesc) : Bool :=
  (d.isMove || d.cop == 0x40 || d.cop == 0x50 || d.cop == 0x51)
    && (!d.isMove ||
        (decide (fieldLE d 0x02 1 ≤ 1) && fieldLE d 0x01 1 / 4 == 0 && fieldLE d 0x03 1 == 0 && allZero (slice d 0x24 28)
          && (if d.cop = 1 then fieldLE d 0x02 1 == 0 && d.srcStride == 0 && d.dstStride == 0 else true)
          && (if d.isPack || d.isUnpack then d.count == 0 else d.rows == 0 && d.cols == 0)))

def in1 (n hi : Nat) : Bool := decide (1 ≤ n) && decide (n ≤ hi)

def moveCheck3 (d : MoveDesc) : Bool :=
  if d.cop = 1 then in1 d.count 65536 else if d.cop = 2 then in1 d.count 4096 else in1 d.rows 4096 && in1 d.cols 4096

/-- A stride between tiles. -/
def tileStrideOk (d : MoveDesc) (st n : Nat) : Bool := st % d.tb == 0 && (decide (n ≤ 1) || decide (d.tb ≤ st))
/-- A stride between rows of the matrix. -/
def rowStrideOk (d : MoveDesc) (st : Nat) : Bool := st % 64 == 0 && (decide (d.rows ≤ 1) || decide (d.cols * d.es ≤ st))

def moveCheck4 (d : MoveDesc) : Bool :=
  if d.cop = 1 then d.src % 64 == 0 && d.dst % 64 == 0
  else if d.cop = 2 then
    d.src % d.tb == 0 && d.dst % d.tb == 0 && tileStrideOk d d.srcStride d.count && tileStrideOk d d.dstStride d.count
  else if d.isPack then
    d.src % 64 == 0 && d.dst % d.tb == 0 && rowStrideOk d d.srcStride && tileStrideOk d d.dstStride d.tiles
  else
    d.src % d.tb == 0 && d.dst % 64 == 0 && tileStrideOk d d.srcStride d.tiles && rowStrideOk d d.dstStride

/-- Spans read and written, as offsets from SRC and DST. -/
def tileSpans (d : MoveDesc) (st n : Nat) : List (Nat × Nat) := (List.range n).map fun i => (i * st, d.tb)
def rowSpans (d : MoveDesc) (st : Nat) : List (Nat × Nat) := (List.range d.rows).map fun r => (r * st, d.cols * d.es)

def MoveDesc.srcSpans (d : MoveDesc) : List (Nat × Nat) :=
  if d.cop = 1 then [(0, 64 * d.count)]
  else if d.cop = 2 then tileSpans d d.srcStride d.count
  else if d.isPack then rowSpans d d.srcStride
  else tileSpans d d.srcStride d.tiles

def MoveDesc.dstSpans (d : MoveDesc) : List (Nat × Nat) :=
  if d.cop = 1 then [(0, 64 * d.count)]
  else if d.cop = 2 then tileSpans d d.dstStride d.count
  else if d.isPack then tileSpans d d.dstStride d.tiles
  else rowSpans d d.dstStride

/-- Lowest and one past the highest byte. -/
def extent (base : Nat) (l : List (Nat × Nat)) : Nat × Nat :=
  (base, l.foldl (fun m x => max m (base + x.1 + x.2)) base)

/-- Check 6: the spans do not overlap; node fields that name this node count as equal. -/
def State.moveCheck6 (s : State) (d : MoveDesc) : Bool :=
  let canon := fun a => match s.targetNode a with
    | some n => globalAddr n (localAddr a)
    | none => a
  let x := extent (canon d.src) d.srcSpans
  let y := extent (canon d.dst) d.dstSpans
  decide (x.2 ≤ y.1) || decide (y.2 ≤ x.1)

/-! ## Check 5 (R135, R238, R244) -/

inductive MoveAddr where
  | ok
  | bad
  | locked
deriving DecidableEq, Repr

/-- Whether a mover may read or write a range. -/
def State.moveRange (s : State) (task : Task) (write : Bool) (node a n : Nat) : MoveAddr :=
  let csr := decide (csrBase ≤ a) && decide (a < csrBase + 0x1000000)
  if csr || decide (2 ^ 48 ≤ a) then .bad else
  let t := if node = s.net.nodeId then s.targetHere task (if write then .store else .load) a n
    else s.targetThere task (if write then .store else .load) node a n
  match t with
  | .here _ => .ok
  | .remote _ _ => .ok
  | .locked => .locked
  | .misaligned => .bad
  | .address => .bad
  | .csrStore => .bad
  | .left => .bad

def State.moveSpans (s : State) (task : Task) (write : Bool) (base : Nat) (l : List (Nat × Nat)) : MoveAddr :=
  match s.targetNode base with
  | none => .bad
  | some node =>
    l.foldl (fun acc x => match acc with
      | .ok => s.moveRange task write node (localAddr base + x.1) x.2
      | e => e) .ok

/-- DETAIL of the first check of Table 10.5 that fails, and whether R86 records it. -/
def State.moveCheck (s : State) (task : Task) (d : MoveDesc) : Option (Nat × Bool) :=
  if !(moveCheck2 d) then some (0x0A03, false)
  else if !(moveCheck3 d) then some (0x0A04, false)
  else if !(moveCheck4 d) then some (0x0A05, false)
  else
    match s.moveSpans task false d.src d.srcSpans, s.moveSpans task true d.dst d.dstSpans with
    | .ok, .ok => if s.moveCheck6 d then none else some (0x0A07, false)
    | .ok, .locked => some (0x0A06, true)
    | _, _ => some (0x0A06, false)

/-! ## Reading and writing, here and on another node -/

/-- A coded unit of the other width (R285). -/
def moveWidthFault : FaultInfo := tileFaultOf 0x0B01

/-- Pieces of at most 4,096 bytes (Table 13.3). -/
def pieces4k (a n : Nat) : List (Nat × Nat) :=
  (List.range (ceilDiv n 4096)).map fun i => (a + 4096 * i, min 4096 (n - 4096 * i))

/-- Whether the bytes of a range of this node are read as stored, or through the tags. -/
inductive TagMode where
  | stored
  | tags (wide : Bool)
deriving DecidableEq, Repr

/-- What the READs of a range on another node have brought: its bytes up to the first that could not be read, and the fault there. -/
def remotePrefix (mv : Mover) (node a n : Nat) : List Byte × Option FaultInfo :=
  (pieces4k (globalAddr node a) n).foldl (fun acc p =>
    match acc.2, mv.remote.find? fun q => q.addr == p.1 with
    | some f, _ => (acc.1, some f)
    | none, some q => if q.status = 0 then (acc.1 ++ fit p.2 q.data, none) else (acc.1 ++ q.data, some q.fault)
    | none, none => (acc.1, some poisonFault)) ([], none)

/-- Read a range as stored, for an entry. -/
def State.moveRead (s : State) (mv : Mover) (node a n : Nat) : Except FaultInfo (List Byte) :=
  if node ≠ s.net.nodeId then
    match remotePrefix mv node a n with
    | (bs, none) => .ok bs
    | (_, some f) => .error f
  else
    match s.readEnd a n with
    | .ok => .ok (s.mem.read a n)
    | .poison => .error poisonFault
    | .absent => .error absentFault

/-- Read one unit of a tile, here or on another node, as it is stored under its tag: coded lines of the reader's width, or raw bytes (R270,
R273, R285). -/
def State.moveUnit (s : State) (mv : Mover) (wide : Bool) (node a : Nat) : Except FaultInfo (BitVec 16 × List Byte) :=
  let here := node == s.net.nodeId
  let first := mv.remote.find? fun q => q.addr == globalAddr node a
  let tag := if !(tagged a) then 0 else if here then s.mem.tagOf (a / unitBytes) else (first.map (·.tag)).getD 0
  let bad : Option FaultInfo :=
    if !(tagged a) then none
    else if here then
      match s.tagEnd (a / unitBytes) with
      | .ok => none
      | .poison => some poisonFault
      | .absent => some absentFault
    else if (first.map (·.tagBad)).getD false then some poisonFault else none
  match bad with
  | some f => .error f
  | none =>
    if !(tagCoded tag) then (s.moveRead mv node a unitBytes).map fun bs => (0, bs)
    else if tagWide tag != wide then .error moveWidthFault
    else
      let n := 64 * tagLines tag
      if here then (s.moveRead mv node a n).map fun bs => (tag, bs)
      else
        match remotePrefix mv node a unitBytes with
        | (bs, none) => .ok (tag, bs.take n)
        | (bs, some f) => if n ≤ bs.length then .ok (tag, bs.take n) else .error f

/-- All of several reads, or the first failure. -/
def collectAll {α : Type} : List (Except FaultInfo α) → Except FaultInfo (List α)
  | [] => .ok []
  | .error f :: _ => .error f
  | .ok x :: t => (collectAll t).map fun l => x :: l

/-- The units of a tile. -/
def State.moveTile (s : State) (mv : Mover) (es node a : Nat) : Except FaultInfo (List (BitVec 16 × List Byte)) :=
  collectAll ((List.range es).map fun j => s.moveUnit mv (es == 2) node (a + j * unitBytes))

/-- The bytes of a tile. -/
def unitsBytes (wide : Bool) (us : List (BitVec 16 × List Byte)) : List Byte := us.flatMap fun u => expandStored wide u.1 u.2

/-- Write a range on another node in WRITE messages of at most 4,096 bytes; the last one names the tag to be set (log entry 57). -/
def State.moveSend (s : State) (b : Fin 80) (m : Fin 2) (node a mark : Nat) (bs : List Byte) : State :=
  let ps := pieces4k a bs.length
  s.each ps fun s p =>
    let last := decide (a + bs.length ≤ p.1 + p.2)
    let k := if last || mark = 1 then mark else 0
    s.sendReq { dst := node, vc := 0, mtype := 0x02, otag := addrOtag p.1, arg := k * 2 ^ 48 + p.1, body := slice bs (p.1 - a) p.2,
                purpose := .mover b m }

/-- Write a range for an entry; a lost T2 device fails it. `tag` says whether the tags of its units are set to raw. -/
def State.moveWrite (s : State) (b : Fin 80) (m : Fin 2) (tag : Bool) (node a : Nat) (bs : List Byte) : Except FaultInfo State :=
  if node ≠ s.net.nodeId then .ok ((s.moveSend b m node a (b2n tag) bs).countBay b 26 bs.length)
  else if s.lostIn a bs.length then .error absentFault
  else .ok ((if tag then s.writeTagged false false a bs else s.memWrite a bs).countBay b 26 bs.length)

/-- Write one whole unit of a tile: coded where `code` holds and the raw rule does not apply, a unit that is already coded verbatim (R273,
R280). -/
def State.moveWriteUnit (s : State) (b : Fin 80) (m : Fin 2) (code wide : Bool) (node a : Nat) (tag : BitVec 16) (stored : List Byte) :
    Except FaultInfo State :=
  let code := code && tagged a
  let raw := expandStored wide tag stored
  if node ≠ s.net.nodeId then
    let (mark, bs) : Nat × List Byte :=
      if !code then (1, raw)
      else if tagCoded tag then (tag.toNat, stored)
      else match codeUnit wide raw with
        | some lines => ((codedTag wide lines).toNat, lines)
        | none => (2, raw)
    .ok (((s.moveSend b m node a mark bs).countBay b 26 unitBytes).countBay b 28 (b2n (decide (0x8000 ≤ mark))))
  else if s.lostIn a unitBytes then .error absentFault
  else
    let before := s.mem.unitsCoded
    let s := if code && tagCoded tag then s.writeCoded a tag stored
      else if tagged a then s.writeUnit code wide a raw
      else s.memWrite a raw
    .ok ((s.countBay b 26 unitBytes).countBay b 28 (s.mem.unitsCoded - before))

/-- Write the units of a tile in order. -/
def State.moveWriteTile (s : State) (b : Fin 80) (m : Fin 2) (code wide : Bool) (node a : Nat) (us : List (BitVec 16 × List Byte)) :
    Except FaultInfo State :=
  ((List.range us.length).zip us).foldl (fun acc u => match acc with
    | .error f => .error f
    | .ok s => s.moveWriteUnit b m code wide node (a + u.1 * unitBytes) u.2.1 u.2.2) (.ok s)

/-- Copy units in order until one fails; what was done before it stays (R248). -/
def State.runUnits {α : Type} (step : State → α → Except FaultInfo State) : List α → State → State × Option FaultInfo
  | [], s => (s, none)
  | u :: us, s =>
    match step s u with
    | .ok s1 => State.runUnits step us s1
    | .error f => (s, some f)

/-- Corrected errors, traffic and expanded units of a range read here. -/
def State.meetMove (s : State) (b : Fin 80) (mode : TagMode) (node a n : Nat) : State :=
  if node ≠ s.net.nodeId then s else
  match mode with
  | .stored => s.meet a n
  | .tags _ => (s.meetTagged a n).countBay b 27 (s.codedUnits a n)

/-! ## The four operations (R245) -/

/-- Fill `n` by `m` elements of `es` bytes from a function that is none for +0. -/
def gridBytes (es n m : Nat) (f : Nat → Nat → Option (List Byte)) : List Byte :=
  (List.range n).flatMap fun i => (List.range m).flatMap fun j => fit es ((f i j).getD [])

/-- Lines that a LINEAR entry may write: those before the first that lies on a lost device. -/
def State.roomLines (s : State) (node e n : Nat) : Nat :=
  if node ≠ s.net.nodeId || !(s.lostIn e (64 * n)) then n else ((List.range n).takeWhile fun i => !(s.lostIn (e + 64 * i) 64)).length

/-- LINEAR: 64-byte lines in ascending order, as stored, up to the first that cannot be read or written. -/
def State.runLinear (s : State) (b : Fin 80) (m : Fin 2) (mv : Mover) (d : MoveDesc) (sn dn : Nat) : State × Option FaultInfo :=
  let a := localAddr d.src
  let e := localAddr d.dst
  let n := 64 * d.count
  let (bs, f) : List Byte × Option FaultInfo :=
    if sn ≠ s.net.nodeId then remotePrefix mv sn a n
    else
      let good := s.goodBytes a n
      (s.mem.read a good, if good = n then none else if s.readEnd (a + good) 64 == .absent then some absentFault else some poisonFault)
  let good := bs.length / 64
  let room := s.roomLines dn e good
  let s := s.meetMove b .stored sn a (64 * min d.count (good + 1))
  match s.moveWrite b m false dn e (bs.take (64 * room)) with
  | .error f => (s, some f)
  | .ok s => (s, if room < good then some absentFault else f)

/-- TILE: tile i in ascending order; a coded unit going to a coded destination is copied verbatim (R273). -/
def State.runTileMove (s : State) (b : Fin 80) (m : Fin 2) (mv : Mover) (d : MoveDesc) (sn dn : Nat) (code : Bool) :
    State × Option FaultInfo :=
  let wide := d.es == 2
  State.runUnits (fun (s : State) i =>
    let a := localAddr d.src + i * d.srcStride
    match s.moveTile mv d.es sn a with
    | .error f => .error f
    | .ok us => (s.meetMove b (.tags wide) sn a d.tb).moveWriteTile b m code wide dn (localAddr d.dst + i * d.dstStride) us)
    (List.range d.count) s

/-- PACK: destination tiles in (i, j) order; positions beyond the matrix are +0. -/
def State.runPack (s : State) (b : Fin 80) (m : Fin 2) (mv : Mover) (d : MoveDesc) (sn dn : Nat) (code : Bool) :
    State × Option FaultInfo :=
  let es := d.es
  State.runUnits (fun (s : State) t =>
    let i := t / d.tilesAcross
    let j := t % d.tilesAcross
    let nr := min 128 (d.rows - 128 * i)
    let nc := min 128 (d.cols - 128 * j)
    let row := fun r => localAddr d.src + (128 * i + r) * d.srcStride + 128 * j * es
    let rows : List (Except FaultInfo (List Byte)) := (List.range nr).map fun r =>
      if sn = s.net.nodeId then s.moveRead mv sn (row r) (nc * es)
      else
        match remotePrefix mv sn (localAddr d.src + (128 * i + r) * d.srcStride) (d.cols * es) with
        | (bs, none) => .ok (slice bs (128 * j * es) (nc * es))
        | (bs, some f) => if (128 * j + nc) * es ≤ bs.length then .ok (slice bs (128 * j * es) (nc * es)) else .error f
    match collectAll rows with
    | .error f => .error f
    | .ok l =>
      let s := s.each (List.range nr) fun s r => s.meetMove b .stored sn (row r) (nc * es)
      let elem := fun r c => (l[r]?).bind fun bs => if c < nc then some (slice bs (c * es) es) else none
      let bs := gridBytes es 128 128 fun line lane => if d.trans then elem lane line else elem line lane
      let us := (List.range es).map fun u => ((0 : BitVec 16), slice bs (u * unitBytes) unitBytes)
      s.moveWriteTile b m code (es == 2) dn (localAddr d.dst + t * d.dstStride) us) (List.range d.tiles) s

/-- UNPACK: source tiles in order; each destination row keeps its bytes beyond COLS. -/
def State.runUnpack (s : State) (b : Fin 80) (m : Fin 2) (mv : Mover) (d : MoveDesc) (sn dn : Nat) : State × Option FaultInfo :=
  let es := d.es
  State.runUnits (fun (s : State) t =>
    let i := t / d.tilesAcross
    let j := t % d.tilesAcross
    let nr := min 128 (d.rows - 128 * i)
    let nc := min 128 (d.cols - 128 * j)
    let a := localAddr d.src + t * d.srcStride
    match s.moveTile mv es sn a with
    | .error f => .error f
    | .ok us =>
      let bs := unitsBytes (es == 2) us
      let s := s.meetMove b (.tags (es == 2)) sn a d.tb
      let elem := fun line lane => slice bs ((128 * line + lane) * es) es
      (List.range nr).foldl (fun (acc : Except FaultInfo State) r =>
        match acc with
        | .error f => .error f
        | .ok s =>
          let out := (List.range nc).flatMap fun c => if d.trans then elem c r else elem r c
          let e := localAddr d.dst + (128 * i + r) * d.dstStride + 128 * j * es
          s.moveWrite b m true dn e out) (.ok s)) (List.range d.tiles) s

end Sys2Proof.Machine
end

