-- ==== Sys2Proof/Machine/CellOps.lean ====
section
/-! DEFINITION. Gated recurrent cells: the descriptor and its checks, the gate functions, and one step of the three forms (08, R189
to R196, R202). -/
namespace Sys2Proof.Machine
open Sys2Proof

/-! ## The descriptor (Table 8.1) -/

abbrev CellDesc := List Byte

def CellDesc.form (d : CellDesc) : Nat := fieldLE d 0x01 1
def CellDesc.fmtW (d : CellDesc) : Nat := fieldLE d 0x02 1 % 16
def CellDesc.fmtS (d : CellDesc) : Nat := fieldLE d 0x02 1 / 16
def CellDesc.slots (d : CellDesc) : Bool := bitOf (fieldLE d 0x03 1) 0
def CellDesc.b (d : CellDesc) : Nat := fieldLE d 0x04 1
def CellDesc.bV (d : CellDesc) : Nat := fieldLE d 0x05 1
def CellDesc.xw (d : CellDesc) : Nat := fieldLE d 0x06 2
def CellDesc.h (d : CellDesc) : Nat := fieldLE d 0x08 2
def CellDesc.col0 (d : CellDesc) : Nat := fieldLE d 0x0A 2
def CellDesc.cols (d : CellDesc) : Nat := fieldLE d 0x0C 2
def CellDesc.xAddr (d : CellDesc) : Nat := fieldLE d 0x10 8
def CellDesc.wAddr (d : CellDesc) : Nat := fieldLE d 0x18 8
def CellDesc.sAddr (d : CellDesc) : Nat := fieldLE d 0x20 8
def CellDesc.stage (d : CellDesc) : Nat := fieldLE d 0x28 8
def CellDesc.out (d : CellDesc) : Nat := fieldLE d 0x30 8
def CellDesc.xStride (d : CellDesc) : Nat := fieldLE d 0x38 2
def CellDesc.sStride (d : CellDesc) : Nat := fieldLE d 0x3A 2
def CellDesc.outStride (d : CellDesc) : Nat := fieldLE d 0x3C 2

/-- Parts of a state row: h, and c for the LSTM-form. -/
def CellDesc.parts (d : CellDesc) : Nat := if d.form = 1 then 2 else 1
def CellDesc.ew (d : CellDesc) : Nat := fmtBytes d.fmtW
def CellDesc.esS (d : CellDesc) : Nat := fmtBytes d.fmtS
def CellDesc.rowBytes (d : CellDesc) : Nat := d.parts * d.h * d.esS
def CellDesc.outBytes (d : CellDesc) : Nat := d.parts * d.cols * d.esS

/-- Input and recurrent matrices and biases of a form (Table 8.2). -/
def CellDesc.nIn (d : CellDesc) : Nat := if d.form = 1 then 4 else 3
def CellDesc.nRec (d : CellDesc) : Nat := if d.form = 0 then 3 else if d.form = 1 then 4 else 2
def CellDesc.nBias (d : CellDesc) : Nat := if d.form = 2 then 3 else 4

/-! ## The weight block -/

def CellDesc.tilesN (d : CellDesc) : Nat := ceilDiv d.h 128
def CellDesc.tbW (d : CellDesc) : Nat := tileBytes d.ew
def CellDesc.inBytes (d : CellDesc) : Nat := ceilDiv d.xw 128 * d.tilesN * d.tbW
def CellDesc.recBytes (d : CellDesc) : Nat := d.tilesN * d.tilesN * d.tbW
def CellDesc.inBase (d : CellDesc) (g : Nat) : Nat := d.wAddr + g * d.inBytes
def CellDesc.recBase (d : CellDesc) (g : Nat) : Nat := d.wAddr + d.nIn * d.inBytes + g * d.recBytes
def CellDesc.biasBase (d : CellDesc) (g : Nat) : Nat := d.wAddr + d.nIn * d.inBytes + d.nRec * d.recBytes + 4 * d.h * g
def CellDesc.wBytes (d : CellDesc) : Nat := d.nIn * d.inBytes + d.nRec * d.recBytes + 4 * d.h * d.nBias

/-- The bytes of line k of a matrix that the computed columns use; its tiles lie in the order of PACK (R245; log entry 27). -/
def CellDesc.lineSpans (d : CellDesc) (base k : Nat) : List Span :=
  (List.range (ceilDiv d.cols 128)).map fun j =>
    (base + (k / 128 * d.tilesN + d.col0 / 128 + j) * d.tbW + k % 128 * 128 * d.ew, min 128 (d.cols - 128 * j) * d.ew)

/-- A matrix: by k, the elements of the computed columns. -/
def State.matrix (s : State) (d : CellDesc) (base ks : Nat) : Except FaultInfo (List (List Nat)) :=
  match collectAll ((List.range ks).map fun k =>
    match s.readCodedSpans (d.ew == 2) (d.lineSpans base k) with
    | .ok l => .ok l.flatten
    | .error f => .error f) with
  | .ok rows => .ok (rows.map fun bs => elementsOf d.ew d.cols bs)
  | .error f => .error f

/-! ## Checks (Table 8.3) -/

def cellCheck1 (d : CellDesc) : Bool :=
  decide (d.form ≤ 2) && (d.fmtW == 4 || d.fmtW == 5 || d.fmtW == 7 || d.fmtW == 8) && (d.fmtS == 4 || d.fmtS == 6)
    && fieldLE d 0x03 1 / 2 == 0 && allZero (slice d 0x0E 2) && allZero (slice d 0x3E 2)

/-- Slot size of the class of a program; 0 where it names none. -/
def State.programSlot (s : State) (program : Nat) : Nat :=
  match (s.program program).bind (·.streamClass) with
  | some c => (s.streamClass c).slotSize
  | none => 0

def cellCheck2 (s : State) (task : Task) (d : CellDesc) : Bool :=
  in1 d.b 128 && decide (d.bV ≤ d.b) && in1 d.xw 4096 && in1 d.h 2048 && d.col0 % 128 == 0 && decide (d.col0 < d.h)
    && in1 d.cols (d.h - d.col0) && decide (d.xw + d.h ≤ 4096)
    && (!d.slots || decide (d.rowBytes ≤ s.programSlot task.program))

/-- Bytes of this node that R135 lets a task read. -/
def State.mayRead (s : State) (task : Task) (x : Span) : Bool := s.targetHere task .load x.1 x.2 == .here x.1

def cellCheck3 (s : State) (b : Fin 80) (task : Task) (d : CellDesc) : Bool :=
  d.xAddr % 64 == 0 && d.xStride % 64 == 0 && d.outStride % 64 == 0 && d.wAddr % d.tbW == 0
    && (sramRows d.xAddr d.xStride d.ew d.bV d.xw).all (s.inOwnBay b)
    && s.t1Readable task (d.wAddr, d.wBytes)
    && (if d.slots then (d.bV == 0 || s.mayRead task (d.sAddr, 8 * d.bV)) && s.inOwnBay b (d.stage, d.b * d.rowBytes)
        else (sramRows d.sAddr d.sStride 1 d.bV d.rowBytes).all (s.inOwnBay b))
    && (sramRows d.out d.outStride 1 d.bV d.outBytes).all (s.inOwnBay b)

/-- A slot reference: its two halves (R191). -/
structure SlotRef where
  rd : Nat
  wr : Nat
deriving DecidableEq, Repr

def slotNone (x : Nat) : Bool := bitOf x 31
def slotBay (x : Nat) : Nat := bits x 11 7
def slotIx (x : Nat) : Nat := bits x 0 11

def State.slotRefs (s : State) (d : CellDesc) : List SlotRef :=
  (List.range d.bV).map fun i =>
    let v := s.memLE (d.sAddr + 8 * i) 8
    { rd := v % two32, wr := v / two32 }

/-- Whether the request may use a slot: reserved by it, or the resident slot that its lease covers. -/
def State.slotUsable (s : State) (task : Task) (x : Nat) : Bool :=
  s.str.slots.any fun g => g.bay.val == slotBay x && g.slot == slotIx x
    && some g.cls == ((s.program task.program).bind (·.streamClass)) &&
    (match g.owner with
     | .reserved asn home => asn == task.wu.asn && home == task.home
     | .resident t id =>
        t == task.f && id == (s.descOf task.home task.wu.asn).streamId &&
          (if task.home = s.net.nodeId then ((s.reqOf task.wu.asn).map (·.leaseHeld)).getD false
           else s.net.leases.any fun l => l.side == .held && (match l.key with
             | .stream u i => u == t && i.toNat == id
             | .token _ => false
             | .barrierSlot _ _ => false)))

def noRepeat : List Nat → Bool
  | [] => true
  | x :: t => !(t.contains x) && noRepeat t

/-- The slot of a half, without its reserved bits. -/
def slotKey (x : Nat) : Nat := x % 2 ^ 18

def cellCheck4 (s : State) (task : Task) (refs : List SlotRef) : Bool :=
  refs.all (fun r => !(slotNone r.wr) && s.slotUsable task r.wr && (slotNone r.rd || s.slotUsable task r.rd)
    && (slotNone r.rd || slotKey r.rd != slotKey r.wr)) && noRepeat (refs.map fun r => slotKey r.wr)

/-- Check 5 of Table 6.3 on the instructions that the sequencer issues: with more than one row, X_STRIDE holds an input row (R196). The
other checks of that table hold of every instruction whose cell descriptor has passed Table 8.3. -/
def cellStride (d : CellDesc) : Bool := decide (d.b ≤ 1) || decide (d.xw * d.ew ≤ d.xStride)

/-- DETAIL of the first check that fails. -/
def State.cellCheck (s : State) (b : Fin 80) (task : Task) (d : CellDesc) : Option Nat :=
  if !(cellCheck1 d) then some 0x0801
  else if !(cellCheck2 s task d) then some 0x0802
  else if !(cellCheck3 s b task d) then some 0x0803
  else if d.slots && !(cellCheck4 s task (s.slotRefs d)) then some 0x0804
  else if !(cellStride d) then some 0x0604
  else none

/-! ## Gate functions (R194) -/

/-- −p. -/
def neg32 (x : Nat) : Nat := if x < 2147483648 then x + 2147483648 else x - 2147483648

/-- σ, or tanh: segments of 2^-2 to 16, or of 2^-3 to 8. -/
def gate (isTanh : Bool) (x : Nat) : Nat :=
  let f := Fmt.f32
  match f.decode x with
  | .nan => f.nan
  | v =>
    let one := 0x3F800000
    let k : Int := if isTanh then 3 else 2
    let p := match v with
      | .fin _ m e =>
        let sh := e + k
        let j := if 0 ≤ sh then m * 2 ^ sh.toNat else m / 2 ^ (-sh).toNat
        if 64 ≤ j then one else
        let t := f.round (if 0 ≤ sh then .fin false 0 0 else .fin false (m - j * 2 ^ (-sh).toNat) sh)
        let c := fun i => gateCoef ((if isTanh then 256 else 0) + 4 * j + i)
        let q := f.add (f.mul (f.add (f.mul (f.add (f.mul (c 3) t) (c 2)) t) (c 1)) t) (c 0)
        if (f.decode one).below (f.decode q) then one else q
      | .inf _ => one
      | .nan => one
    if !v.isNegative then p else if isTanh then neg32 p else f.sub one p

def sigma (x : Nat) : Nat := gate false x
def tanh32 (x : Nat) : Nat := gate true x

/-! ## One row (R192, R193) -/

/-- The steps of R193 on the pre-activations of one cell: `a` by gate, and the second accumulation of the GRU-form's n gate. Answers
h′, and c′ for the LSTM-form. -/
def cellForm (form : Nat) (a : Nat → Nat) (anh h c : Nat) : List Nat :=
  let f := Fmt.f32
  if form = 0 then
    let z := sigma (a 0)
    let r := sigma (a 1)
    let n := tanh32 (f.add (a 2) (f.mul r anh))
    [f.add n (f.mul z (f.sub h n))]
  else if form = 1 then
    let i := sigma (a 0)
    let fg := sigma (a 1)
    let g := tanh32 (a 2)
    let o := sigma (a 3)
    let c1 := f.add (f.mul fg c) (f.mul i g)
    [f.mul o (tanh32 c1), c1]
  else
    let u := sigma (a 0)
    let n := tanh32 (a 1)
    let g := sigma (a 2)
    let v := f.mul g n
    [f.add h (f.mul u (f.sub v h))]

/-- Exact conversion of a stored state element to binary32. -/
def toF32 (fmt x : Nat) : Nat := Fmt.f32.round (laneValue fmt x)
/-- Conversion from binary32 to a format (R160). -/
def fromF32 (fmt x : Nat) : Nat := convertOut fmt x

/-- Everything a cell step reads: input rows, state rows, matrices, biases. -/
structure CellData where
  x : List (List Nat)
  state : List (List Nat)
  win : List (List (List Nat))
  wrec : List (List (List Nat))
  bias : List (List Nat)

/-- Gates with recurrent terms in their first accumulation, and the recurrent matrix each uses. -/
def recOf (form g : Nat) : Option Nat :=
  if form = 0 then (if g < 2 then some g else none) else if form = 1 then some g else if g < 2 then some g else none

/-- Bias of a gate's first accumulation: z, r, n_x for the GRU-form. -/
def preact (d : CellDesc) (q : CellData) (g m n : Nat) : Nat :=
  let fw := d.fmtW
  let xs := q.x.getD m []
  let hs := (q.state.getD m []).take d.h
  let w := q.win.getD g []
  let s0 := (q.bias.getD g []).getD n 0
  let s1 := cellAcc fw fw (fun k => xs[k]?) (fun k => cellAt w k n) s0 d.xw
  match recOf d.form g with
  | none => s1
  | some r =>
    let wr := q.wrec.getD r []
    cellAcc fw fw (fun k => (hs[k]?).map fun v => fromF32 fw (toF32 d.fmtS v)) (fun k => cellAt wr k n) s1 d.h

/-- The second accumulation of the GRU-form's n gate. -/
def preactNh (d : CellDesc) (q : CellData) (m n : Nat) : Nat :=
  let fw := d.fmtW
  let hs := (q.state.getD m []).take d.h
  cellAcc fw fw (fun k => (hs[k]?).map fun v => fromF32 fw (toF32 d.fmtS v)) (fun k => cellAt (q.wrec.getD 2 []) k n)
    ((q.bias.getD 3 []).getD n 0) d.h

/-- New state elements of row m, by part and column. -/
def cellRow (d : CellDesc) (q : CellData) (m : Nat) : List (List Nat) :=
  let row := q.state.getD m []
  let cells := (List.range d.cols).map fun n =>
    let h := toF32 d.fmtS (row.getD (d.col0 + n) 0)
    let c := toF32 d.fmtS (row.getD (d.h + d.col0 + n) 0)
    cellForm d.form (fun g => preact d q g m n) (if d.form = 0 then preactNh d q m n else 0) h c
  (List.range d.parts).map fun p => cells.map fun l => fromF32 d.fmtS (l.getD p 0)

/-! ## Reading and writing a step -/

/-- Address of the state row that row m reads; none is the initial state. -/
def State.readRow (s : State) (task : Task) (d : CellDesc) (refs : List SlotRef) (m : Nat) : Option Nat :=
  if !d.slots then some (d.sAddr + m * d.sStride) else
  match refs[m]? with
  | none => none
  | some r =>
    if slotNone r.rd then none
    else some (s.slotAddr (((s.program task.program).bind (·.streamClass)).getD 0) (bayIx (slotBay r.rd)) (slotIx r.rd))

def State.writeRow (s : State) (task : Task) (d : CellDesc) (refs : List SlotRef) (m : Nat) : Nat :=
  if !d.slots then d.sAddr + m * d.sStride else
  match refs[m]? with
  | none => 0
  | some r => s.slotAddr (((s.program task.program).bind (·.streamClass)).getD 0) (bayIx (slotBay r.wr)) (slotIx r.wr)

/-- Everything a step reads, or the fault of the first read that fails; with no valid row it reads nothing (R163). -/
def State.cellData (s : State) (task : Task) (d : CellDesc) (refs : List SlotRef) : Except FaultInfo CellData :=
  if d.bV = 0 then .ok { x := [], state := [], win := [], wrec := [], bias := [] } else
  let rows := fun (es n : Nat) (spans : List Span) => match s.readSpans spans with
    | .ok l => Except.ok (l.map fun bs => elementsOf es n bs)
    | .error f => .error f
  let stateRows := collectAll ((List.range d.bV).map fun m => match s.readRow task d refs m with
    | none => Except.ok (List.replicate (d.parts * d.h) 0)
    | some a => match s.readSpans [(a, d.rowBytes)] with
      | .ok l => .ok (elementsOf d.esS (d.parts * d.h) l.flatten)
      | .error f => .error f)
  match rows d.ew d.xw (sramRows d.xAddr d.xStride d.ew d.bV d.xw), stateRows,
      collectAll ((List.range d.nIn).map fun g => s.matrix d (d.inBase g) d.xw),
      collectAll ((List.range d.nRec).map fun g => s.matrix d (d.recBase g) d.h),
      rows 4 d.cols ((List.range d.nBias).map fun g => (d.biasBase g + 4 * d.col0, 4 * d.cols)) with
  | .ok x, .ok st, .ok wi, .ok wr, .ok bi => .ok { x := x, state := st, win := wi, wrec := wr, bias := bi }
  | .error f, _, _, _, _ => .error f
  | _, .error f, _, _, _ => .error f
  | _, _, .error f, _, _ => .error f
  | _, _, _, .error f, _ => .error f
  | _, _, _, _, .error f => .error f

/-- What the reads of a step leave behind: corrected errors, traffic and expanded units (R150, R281). -/
def State.meetCell (s : State) (b : Fin 80) (task : Task) (d : CellDesc) (refs : List SlotRef) : State :=
  let rows := (List.range d.bV).filterMap fun m => (s.readRow task d refs m).map fun a => (a, d.rowBytes)
  let lists := if d.slots then [(d.sAddr, 8 * d.bV)] else []
  let weights := (List.range d.nIn).flatMap (fun g => (List.range d.xw).flatMap fun k => d.lineSpans (d.inBase g) k)
    ++ (List.range d.nRec).flatMap fun g => (List.range d.h).flatMap fun k => d.lineSpans (d.recBase g) k
  let bias := (List.range d.nBias).map fun g => (d.biasBase g + 4 * d.col0, 4 * d.cols)
  if d.bV = 0 then s.meetOperand b 0 lists else
  (s.meetOperand b 0 (lists ++ sramRows d.xAddr d.xStride d.ew d.bV d.xw ++ rows ++ bias)).meetOperand b 1 weights

/-- Write the new columns of a state row at its address and the row of OUT. -/
def State.putRow (s : State) (d : CellDesc) (addr m : Nat) (parts : List (List Nat)) : State :=
  let enc := fun (l : List Nat) => l.flatMap (bytesLE d.esS)
  let s := s.each (List.range parts.length) fun s p => s.memWrite (addr + (p * d.h + d.col0) * d.esS) (enc (parts.getD p []))
  s.memWrite (d.out + m * d.outStride) (enc parts.flatten)

/-- The gather, the products and the writes of a step that passed its checks. -/
def State.runCell (s : State) (b : Fin 80) (task : Task) (d : CellDesc) : State × Option FaultInfo :=
  let refs := if d.slots then s.slotRefs d else []
  let q := s.cellData task d refs
  let end_ := s.readEnd d.sAddr (8 * d.bV)
  let s := s.meetCell b task d refs
  if d.slots && end_ != .ok then (s, some poisonFault) else
  match q with
  | .error f => (s, some f)
  | .ok q =>
    let dst := (List.range d.bV).map fun m => s.writeRow task d refs m
    let s := if d.slots then s.each (List.range d.bV) fun s m =>
        s.memWrite (d.stage + m * d.rowBytes) ((q.state.getD m []).flatMap (bytesLE d.esS)) else s
    let s := s.each (List.range d.bV) fun s m => s.putRow d (dst.getD m 0) m (cellRow d q m)
    let s := (s.countBay b 20 1).countBay b 9 (ceilDiv d.cols 128 * (if d.form = 2 then 3 else 4))
    -- R202: the last slot a context writes holds the pending state
    let s := match refs.head? with
      | some r =>
        if task.wu.step == .context && task.home == s.net.nodeId then
          s.modReq task.wu.asn fun x => { x with pendingSlot := some (slotBay r.wr, slotIx r.wr) }
        else s
      | none => s
    (s, none)

end Sys2Proof.Machine
end

