-- ==== Sys2Proof/Machine/Mover.lean ====
section
/-! DEFINITION. Entries of the two mover queues of a bay reaching the head, and their tags: the four moves, cell steps and KV
descriptors (08, R189 to R196; 09, R216 to R222; 10, R243 to R248). -/
namespace Sys2Proof.Machine
open Sys2Proof

/-! ## The head of a queue -/

/-- The entry at the head has run, and how it ended; the counts that its failure has. -/
def State.entryRan (s : State) (b : Fin 80) (m : Fin 2) (t2 : Option Nat) (f : Option FaultInfo) : State :=
  let s := s.modMover b m fun q => { q with ran := some f }
  match f with
  | some x =>
    let s := if x.detail = 0x0B01 then s.modMem fun k => { k with widthFaults := satInc k.widthFaults } else s
    if x.detail = 0x0A10 then (t2.map fun d => s.countT2 d 15 1).getD s else s
  | none => s

/-- Run the entry at the head of a queue when it is of the kind asked for and nothing before it failed (R246, R248). -/
def State.headEntry (s : State) (b : Fin 80) (m : Fin 2) (kind : Nat → Bool) (go : State → Task → Mover → QEntry → State) : State :=
  let y := s.bay b
  let mv := y.mover m
  match y.task, mv.queue, mv.ran, mv.halted with
  | some task, e :: _, none, none => if s.running && kind (fieldLE e.desc 0 1) then go s task mv e else s
  | _, _, _, _ => s

/-- Whether an entry's messages to other nodes are still unanswered. -/
def Purpose.ofMover (p : Purpose) (b : Fin 80) (m : Fin 2) : Bool :=
  match p with
  | .mover x y => x == b && y == m
  | .load _ _ _ _ _ _ _ => false
  | .store _ _ _ => false
  | .atomic _ _ _ _ _ => false
  | .steward _ => false
  | .push _ _ => false
  | .weight _ => false
  | .kv _ _ => false
  | .other => false

def State.moverBusy (s : State) (b : Fin 80) (m : Fin 2) : Bool :=
  s.net.txns.any (fun x => x.purpose.ofMover b m) || s.net.unsent.any fun x => x.purpose.ofMover b m

/-- Ask another node for everything an entry reads there. -/
def State.askRemote (s : State) (b : Fin 80) (m : Fin 2) (node : Nat) (d : MoveDesc) : State :=
  let ps := d.srcSpans.flatMap fun x => pieces4k (localAddr d.src + x.1) x.2
  let s := ps.foldl (fun (s : State) p =>
    s.sendReq { dst := node, vc := 0, mtype := 0x01, otag := addrOtag p.1, arg := p.2 * 2 ^ 48 + p.1, body := [],
                purpose := .mover b m }) s
  s.modMover b m fun q => { q with asked := true }

/-- The lost T2 device that an entry meets on this node: the source's, else the destination's. -/
def State.lostDevOf (s : State) (d : MoveDesc) (sn dn : Nat) : Option Nat :=
  let find (node base : Nat) (l : List (Nat × Nat)) : Option Nat :=
    if node ≠ s.net.nodeId then none else
    let x := extent (localAddr base) l
    s.cxl.devs.findIdx? fun v => v.lost && decide (x.1 < v.base + v.gib * gib) && decide (v.base < x.2)
  (find sn d.src d.srcSpans).or (find dn d.dst d.dstSpans)

/-- Whether an entry names a node that has left its request's formation (R150). -/
def State.moveLeft (s : State) (task : Task) (d : MoveDesc) : Bool :=
  [d.src, d.dst].any fun a => match s.targetNode a with
    | some n => n != s.net.nodeId && s.targetThere task .load n (localAddr a) 1 == .left
    | none => false

/-- A mover entry: its checks; what it needs from another node; its units. -/
def State.runMove (s : State) (b : Fin 80) (m : Fin 2) (kind : Nat → Bool) : State :=
  s.headEntry b m kind fun s task mv e =>
    let d : MoveDesc := e.desc
    match s.moveCheck task d with
    | some (detail, locked) =>
      if detail = 0x0A06 && s.moveLeft task d then s.abandonLeft task.home task.wu else
      let s := if locked then s.lockViolation 0x20 b.val d.dst (some task.wu.asn) else s
      s.entryRan b m none (some (tileFaultOf detail))
    | none =>
      match s.targetNode d.src, s.targetNode d.dst with
      | some sn, some dn =>
        if sn ≠ s.net.nodeId && !mv.asked then s.askRemote b m sn d
        else if s.moverBusy b m then s
        else
          let code := d.code && bitOf (((s.program task.program).map (·.codec)).getD 0) 2
          let r := if d.cop = 1 then s.runLinear b m mv d sn dn
            else if d.cop = 2 then s.runTileMove b m mv d sn dn code
            else if d.cop = 3 then s.runPack b m mv d sn dn code
            else s.runUnpack b m mv d sn dn
          r.1.entryRan b m (s.lostDevOf d sn dn) r.2
      | _, _ => s

/-- LINEAR, and an entry whose COP names no operation, which fails check 2. -/
def doLinear (bay : Fin 80) (mover : Fin 2) (s : State) : State :=
  s.runMove bay mover fun c => !(c == 2 || c == 3 || c == 4 || c == 0x40 || c == 0x50 || c == 0x51)
def execLinear (bay : Fin 80) (mover : Fin 2) (s : State) : Host.Outcome State Fault Refusal := .next (doLinear bay mover s)

def doTile (bay : Fin 80) (mover : Fin 2) (s : State) : State := s.runMove bay mover (· == 2)
def execTile (bay : Fin 80) (mover : Fin 2) (s : State) : Host.Outcome State Fault Refusal := .next (doTile bay mover s)

def doPack (bay : Fin 80) (mover : Fin 2) (s : State) : State := s.runMove bay mover (· == 3)
def execPack (bay : Fin 80) (mover : Fin 2) (s : State) : Host.Outcome State Fault Refusal := .next (doPack bay mover s)

def doUnpack (bay : Fin 80) (mover : Fin 2) (s : State) : State := s.runMove bay mover (· == 4)
def execUnpack (bay : Fin 80) (mover : Fin 2) (s : State) : Host.Outcome State Fault Refusal := .next (doUnpack bay mover s)

/-- The entry at the head is complete: its tag completes, or it fails, and with it every later entry of its queue in turn (R246 to
R248). -/
def doMoverTagComplete (bay : Fin 80) (mover : Fin 2) (s : State) : State :=
  let mv := (s.bay bay).mover mover
  match mv.queue with
  | [] => s
  | e :: rest =>
    let pop := fun (s : State) (h : Option FaultInfo) =>
      s.modMover bay mover fun q => { q with queue := rest, ran := none, halted := h, asked := false, remote := [] }
    match mv.halted, mv.ran with
    | some f, _ => ((pop s (some f)).failMove bay e f false).afterExit bay e.thread
    | none, none => s
    | none, some none =>
      if s.moverBusy bay mover then s else ((pop s none).countBay bay 25 1).afterExit bay e.thread
    | none, some (some f) => ((pop s (some f)).failMove bay e f true).afterExit bay e.thread
def execMoverTagComplete (bay : Fin 80) (mover : Fin 2) (s : State) : Host.Outcome State Fault Refusal :=
  .next (doMoverTagComplete bay mover s)

/-! ## Cell steps (R189, R196) -/

/-- A cell step: its run of gate products needs the array free and ready; a producer that waits for its consumer breaks the chain
(R172). -/
def doCellStep (bay : Fin 80) (mover : Fin 2) (s : State) : State :=
  s.headEntry bay mover (· == 0x40) fun s task _ e =>
    let d : CellDesc := e.desc
    match s.cellCheck bay task d with
    | some detail => s.entryRan bay mover none (some (tileFaultOf detail))
    | none =>
      let y := s.bay bay
      if !y.tilesDone then s
      else if y.drain.isSome then
        (s.modBay bay fun y => { y with drain := none }).entryRan bay mover none (some (tileFaultOf 0x0606))
      else
        let (s, ready) := s.readyArray bay
        if !ready then s else
        let r := s.runCell bay task d
        r.1.entryRan bay mover none r.2
def execCellStep (bay : Fin 80) (mover : Fin 2) (s : State) : Host.Outcome State Fault Refusal := .next (doCellStep bay mover s)

/-! ## KV descriptors (R216 to R219) -/

abbrev KvDesc := List Byte

def KvDesc.append (d : KvDesc) : Bool := fieldLE d 0x00 1 == 0x50
def KvDesc.layer (d : KvDesc) : Nat := fieldLE d 0x01 1
def KvDesc.row (d : KvDesc) : Nat := fieldLE d 0x03 1
def KvDesc.first (d : KvDesc) : Nat := fieldLE d 0x04 4
def KvDesc.count (d : KvDesc) : Nat := fieldLE d 0x08 2
def KvDesc.kAddr (d : KvDesc) : Nat := fieldLE d 0x10 8
def KvDesc.vAddr (d : KvDesc) : Nat := fieldLE d 0x18 8
def KvDesc.kStride (d : KvDesc) : Nat := fieldLE d 0x20 4
def KvDesc.vStride (d : KvDesc) : Nat := fieldLE d 0x24 4

/-- Positions appended to (ROW, LAYER) in this work unit. -/
def State.kvAppended (s : State) (task : Task) (d : KvDesc) : Nat :=
  ((s.workOf task d.row d.layer).map (·.appended)).getD 0

/-- DETAIL of the first of checks 1 to 5 of Table 9.3 that fails. A gather's COUNT out of range fails check 5 (DEDUCED, log entry
28). -/
def State.kvCheck (s : State) (b : Fin 80) (task : Task) (g : StageCfg) (r : Option KvRec) (d : KvDesc) : Option Nat :=
  let ctx := task.wu.step == .context
  let done := s.kvAppended task d
  let len := ((r.map (·.length)).getD 0) + done
  let lim := if ctx then (s.descOf task.home task.wu.asn).contextCount * g.ctxPerEvent else g.appendMax
  if fieldLE d 0x02 1 ≠ g.kvFmt || !(allZero (slice d 0x0A 6)) || !(allZero (slice d 0x28 24)) || (d.append && d.first ≠ 0) then
    some 0x0901
  else if g.layersKv ≤ d.layer || decide ((if ctx then 1 else task.waveN) ≤ d.row) || r.isNone then some 0x0902
  else if d.kAddr % 64 ≠ 0 || d.vAddr % 64 ≠ 0 || d.kStride % 64 ≠ 0 || d.vStride % 64 ≠ 0 || decide (d.kStride < g.d)
      || decide (d.vStride < g.d) || !((sramRows d.kAddr d.kStride 1 d.count g.d).all (s.inOwnBay b))
      || !((sramRows d.vAddr d.vStride 1 d.count g.d).all (s.inOwnBay b)) then some 0x0903
  else if d.append && (decide (lim < done + d.count) || decide (32768 < len + d.count)) then some 0x0904
  else if !d.append && (d.count = 0 || decide (1024 < d.count) || decide (len < d.first + d.count)) then some 0x0905
  else none

/-- Whether the pages that an append flushes have room: always in the request's own grant (R225); in a tenant's pool the entry
waits for it (DESIGN CHOICE, log entry 28). -/
def State.kvRoom (s : State) (r : KvRec) (g : StageCfg) (fill count : Nat) : Bool :=
  match r.stream with
  | none => true
  | some (t, _, program, _) =>
    match s.kvPool t program r.stage with
    | none => false
    | some f =>
      let free := s.kv.poolFree.countP fun p => p.1 == f.base
      decide ((fill + count) / 16 ≤ free + (f.size / g.pageBytes - keyGet s.kv.poolNext f.base))

/-- Append rows one position after another; a slot that reaches 16 is flushed (R220). -/
def State.appendRows (s : State) (b : Fin 80) (task : Task) (rid row layer : Nat) (g : StageCfg) :
    List (List Byte × List Byte) → State
  | [] => s
  | (k, v) :: t =>
    match s.workOf task row layer, s.kvRecId rid with
    | some w, some r => State.appendRows (s.appendOne b task w r g k v) b task rid row layer g t
    | _, _ => s

/-- The bytes of position p of a bound sequence: its K row or V row. -/
def State.readPosition (s : State) (w : KvWork) (r : KvRec) (g : StageCfg) (vPart : Bool) (p : Nat) :
    Except FaultInfo (List Byte) :=
  match s.positionAt w r p with
  | none => .ok (List.replicate g.d 0)
  | some (a, row, slot) =>
    let at_ := a + (if vPart then 16 * g.d else 0) + row * g.d
    if slot then
      match s.readEnd at_ g.d with
      | .ok => .ok (s.mem.read at_ g.d)
      | .poison => .error poisonFault
      | .absent => .error poisonFault
    else
      match s.readTagged (g.kvFmt == 4 || g.kvFmt == 5) at_ g.d with
      | .ok bs => .ok bs
      | .poison => .error poisonFault
      | .absent => .error absentFault
      | .width => .error moveWidthFault

/-- The traffic and corrected errors of reading a position. -/
def State.meetPosition (s : State) (w : KvWork) (r : KvRec) (g : StageCfg) (vPart : Bool) (p : Nat) : State :=
  match s.positionAt w r p with
  | none => s
  | some (a, row, slot) =>
    let at_ := a + (if vPart then 16 * g.d else 0) + row * g.d
    if slot then s.meet at_ g.d else s.meetTagged at_ g.d

/-- A KV descriptor: checks 1 to 5, the binding with checks 6 and 7, then the rows. -/
def State.runKv (s : State) (b : Fin 80) (m : Fin 2) (append : Bool) : State :=
  s.headEntry b m (· == if append then 0x50 else 0x51) fun s task _ e =>
    let d : KvDesc := e.desc
    let desc := s.descOf task.home task.wu.asn
    match s.stageCfg task.program task.wu.stage with
    | none => s.entryRan b m none (some (tileFaultOf 0x0902))
    | some g =>
      let rec0 := s.kvRecOf task.home task.wu.asn task.wu.stage (rowKey desc task.wu d.row)
      match s.kvCheck b task g rec0 d, rec0 with
      | some detail, _ => s.entryRan b m none (some (tileFaultOf detail))
      | none, none => s.entryRan b m none (some (tileFaultOf 0x0902))
      | none, some r0 =>
        match s.bind b task r0 d.row d.layer g with
        | .fails detail => s.entryRan b m none (some (tileFaultOf detail))
        | .waits s1 => s1
        | .ok s1 =>
          match s1.workOf task d.row d.layer, s1.kvRecId r0.id with
          | some w, some r =>
            let ks := sramRows d.kAddr d.kStride 1 d.count g.d
            let vs := sramRows d.vAddr d.vStride 1 d.count g.d
            if append then
              if !(s1.kvRoom r g (s1.landing b w.slot).fill d.count) then s else
              match s1.readSpans ks, s1.readSpans vs with
              | .ok kr, .ok vr =>
                let s2 := s1.each (ks ++ vs) fun s x => s.meet x.1 x.2
                ((s2.appendRows b task r.id d.row d.layer g (kr.zip vr)).countBay b 21 1).entryRan b m none none
              | .error f, _ => s1.entryRan b m none (some f)
              | _, .error f => s1.entryRan b m none (some f)
            else
              match collectAll ((List.range d.count).map fun i => s1.readPosition w r g false (d.first + i)),
                  collectAll ((List.range d.count).map fun i => s1.readPosition w r g true (d.first + i)) with
              | .ok kr, .ok vr =>
                let met := s1.each (List.range d.count) fun s i => (s.meetPosition w r g false (d.first + i)).meetPosition w r g true (d.first + i)
                let s2 := met.each (ks.zip kr ++ vs.zip vr) fun s p => s.memWrite p.1.1 p.2
                (s2.countBay b 22 1).entryRan b m none none
              | .error f, _ => s1.entryRan b m none (some f)
              | _, .error f => s1.entryRan b m none (some f)
          | _, _ => s

def doKvAppend (bay : Fin 80) (mover : Fin 2) (s : State) : State := s.runKv bay mover true
def execKvAppend (bay : Fin 80) (mover : Fin 2) (s : State) : Host.Outcome State Fault Refusal := .next (doKvAppend bay mover s)

def doKvGather (bay : Fin 80) (mover : Fin 2) (s : State) : State := s.runKv bay mover false
def execKvGather (bay : Fin 80) (mover : Fin 2) (s : State) : Host.Outcome State Fault Refusal := .next (doKvGather bay mover s)

/-- Whether every bay of a work unit has all its threads exited and its movers empty. -/
def State.wuQuiet (s : State) (w : RunWu) : Bool :=
  w.bays.all fun p => (s.bay p.2).allExited && (s.bay p.2).moversDone && (s.bay p.2).tilesDone

/-- Every flush and park of a work unit is acknowledged: its records commit and its slots are free (R221). -/
def doKvRecordCommit (wu : WuKey) (s : State) : State :=
  match s.req.running.find? fun r => r.key == wu && !r.kvDone with
  | none => s
  | some w =>
    if !s.running || !(s.wuQuiet w) then s else
    let s := s.each w.bays fun s p =>
      match (s.bay p.2).task with
      | some t => s.parkBay p.2 t
      | none => s
    if !(s.allParked w.home wu) then s
    else (s.commitKv w.home wu).modRun w.home wu fun r => { r with kvDone := true }
def execKvRecordCommit (wu : WuKey) (s : State) : Host.Outcome State Fault Refusal := .next (doKvRecordCommit wu s)

end Sys2Proof.Machine
end

