-- ==== Sys2Proof/Machine/Plumb.lean ====
section
/-! DEFINITION. Meanings of the plumb test's events, patrol scrub, bay fences, bay-task timeouts and fatal faults (18). -/
namespace Sys2Proof.Machine
open Sys2Proof

/-- A run's trigger: READY, PLUMB_INTERVAL_S after the last start, or an advanced bay (R460; PLUMB_NOW is a mailbox command). -/
def doPlumbRunStart (trigger : PlumbTrigger) (at_ : Nat) (s : State) : State :=
  let s := s.advance at_
  if !s.running || s.isFatal then s else
  match trigger with
  | .ready => s.triggerRun
  | .interval =>
    if s.cfg.pers.plumbIntervalS ≠ 0 && decide (s.plumb.lastStart + 1000000000 * s.cfg.pers.plumbIntervalS ≤ s.clk.devTime) then s.triggerRun
    else s
  | .advance b =>
    let s := s.plumbAdvance b
    if s.plumb.queued && !s.plumb.running then s.startRun else s
def execPlumbRunStart (trigger : PlumbTrigger) (at_ : Nat) (s : State) : Host.Outcome State Fault Refusal :=
  .next (doPlumbRunStart trigger at_ s)

/-- The round's bay is free: it is held, and its steps begin, or the interrupted step begins again (R461, R462). -/
def doPlumbRoundStart (tile : Fin 4) (s : State) : State :=
  let x := s.plumbTile tile
  match x.bay with
  | none => s
  | some b =>
    if s.running && s.plumb.running && x.waitingBay && (s.bay b).task.isNone then
      (s.modBay b fun y => { y with plumbHeld := true }).modPlumbTile tile fun x =>
        { x with step := max 1 x.step, segment := 0, waitingBay := false }
    else s
def execPlumbRoundStart (tile : Fin 4) (s : State) : Host.Outcome State Fault Refusal := .next (doPlumbRoundStart tile s)

/-- At a segment boundary the bay is released to work that waits only for it, once a round (R462). -/
def doPlumbSegmentEnd (tile : Fin 4) (starved : Bool) (s : State) : State :=
  let x := s.plumbTile tile
  match x.bay with
  | none => s
  | some b =>
    if !(s.running && s.plumb.running) || x.waitingBay || x.step = 0 then s
    else if starved && !x.yielded then
      (s.modBay b fun y => { y with plumbHeld := false }).modPlumbTile tile fun x =>
        { x with waitingBay := true, yielded := true, segment := 0 }
    else s.modPlumbTile tile fun x => { x with segment := x.segment + 1 }
def execPlumbSegmentEnd (tile : Fin 4) (starved : Bool) (s : State) : Host.Outcome State Fault Refusal :=
  .next (doPlumbSegmentEnd tile starved s)

def doPlumbStepDone (tile : Fin 4) (passed : Bool) (group : BitVec 16) (hubFail : BitVec 32) (s : State) : State :=
  let x := s.plumbTile tile
  match x.bay with
  | none => s
  | some b =>
    if !(s.running && s.plumb.running) || x.waitingBay || x.step = 0 then s else
    let s := if tile = 0 && x.step = 3 then s.checkEngines x.round hubFail else s
    s.stepEnd tile b passed group.toNat
def execPlumbStepDone (tile : Fin 4) (passed : Bool) (group : BitVec 16) (hubFail : BitVec 32) (s : State) :
    Host.Outcome State Fault Refusal := .next (doPlumbStepDone tile passed group hubFail s)

/-- Patrol scrub of one line of T1: a corrected line is written back, an uncorrectable one poisoned, a poisoned one passed over; the
last line ends a pass (R465). -/
def doPatrolScrub (addr : Nat) (result : ScrubResult) (s : State) : State :=
  let line := addr / 64 * 64
  if !s.running || line < t1Base || t1Top ≤ line then s else
  let s := s.countHbm (stackOf line) 12 1
  let s := if line + 64 = t1Top then s.modPlumb fun p => { p with scrubPasses := p.scrubPasses + 1 } else s
  let s := s.modPlumb fun p => { p with scrubNext := line + 64 }
  if s.mem.poison.contains line then s else
  match result with
  | .clean => s
  | .corrected => s.hbmCorrected line
  | .uncorrectable => s.hbmPoison line
def execPatrolScrub (addr : Nat) (result : ScrubResult) (s : State) : Host.Outcome State Fault Refusal :=
  .next (doPatrolScrub addr result s)

/-- A fault of a bay's logic or SRAM: the bay is fenced; in a plumb step it counts as the step's failure (R448, Collisions). -/
def doBayFence (bay : Fin 80) (s : State) : State :=
  if !s.running then s else
  let x := s.plumbTile (tileOf bay)
  if s.plumb.running && x.bay == some bay && !x.waitingBay && x.step != 0 then s.stepEnd (tileOf bay) bay false 0
  else
    let s := s.bayFault bay
    if s.plumb.running && x.bay == some bay then s.endRound (tileOf bay) else s
def execBayFence (bay : Fin 80) (s : State) : Host.Outcome State Fault Refusal := .next (doBayFence bay s)

/-- A bay task longer than the greater of 10 ms and 64 times its corrected duration ends its request; the bay takes the next
rotation slot (R452). -/
def doWuTimeout (bay : Fin 80) (at_ : Nat) (s : State) : State :=
  let s := s.advance at_
  match (s.bay bay).task with
  | none => s
  | some t =>
    if s.running && !s.isFatal && decide (t.started + t.limit < s.clk.devTime) then
      (s.wuFault bay [] stContained 0x1201 0).plumbAdvance bay
    else s
def execWuTimeout (bay : Fin 80) (at_ : Nat) (s : State) : Host.Outcome State Fault Refusal := .next (doWuTimeout bay at_ s)

/-- A cause of Table 18.6 (R455, R456); a plumb run in progress is abandoned. The command does not say which stack lost its training:
a free value (log entry 20). -/
def doFatalFault (code : BitVec 16) (s : State) : State :=
  if s.clk.pwrOk && !s.clk.heldInReset && decide (0x1230 ≤ code.toNat) && decide (code.toNat ≤ 0x1236) then
    let (v, s) := s.draw
    (s.fatal code.toNat (if code = 0x1233 then v.toNat % 8 else 0xFFFF) none).abandonRun
  else s
def execFatalFault (code : BitVec 16) (s : State) : Host.Outcome State Fault Refusal := .next (doFatalFault code s)

end Sys2Proof.Machine
end

