-- ==== Sys2Proof/Machine/ResetOps.lean ====
section
/-! DEFINITION. What a warm reset, the loss of the reference and P3 entry do to each part of the device (01, R34; 02, R46, R51, R58,
R61, Table 2.4, Table 2.6, Table 2.9; 04, R123; 05, R151; 08, R210; 09, R231, R232; 12, R314 to R318; 13, R354; 18, R457). -/
namespace Sys2Proof.Machine
open Sys2Proof

/-! ## Work (R34, R151) -/

/-- Every work unit stops; its buffers are discarded. Every array takes the fault ramp, one between bay tasks too (R170). -/
def State.stopAll (s : State) : State :=
  let s := s.each s.req.running fun (s : State) (w : RunWu) => s.stopWu w.home w.key false
  s.each allBays State.faultRamp

/-- What this node holds for requests of other homes. -/
def State.foreign (s : State) : List (Nat × Nat) :=
  ((s.quota.tokens.map fun t => (t.home, t.asn)) ++ (s.quota.grants.map fun g => (g.home, g.asn))).foldl
    (fun (l : List (Nat × Nat)) x => if x.1 == s.net.nodeId || l.contains x then l else l ++ [x]) []

/-- The token this node granted is revoked, and all it held is dropped (R344). -/
def State.dropForeign (s : State) : State :=
  let s := s.each s.foreign fun (s : State) (x : Nat × Nat) => s.dropHome x.1 x.2
  s.modQuota fun q => { q with tokens := q.tokens.filter fun t => t.home == s.net.nodeId }

/-- A request that is not complete ends with the reset's status; one that had already failed keeps its own (log entry 51). -/
def State.failReset (s : State) (status : Nat) (r : Req) : State :=
  if r.failed then s.finish r.asn r.status r.detail
  else
    let s := if r.admitted then s.openRecord r.asn status 0 none else s
    s.finish r.asn status 0

def State.failAll (s : State) (status : Nat) : State :=
  let live := s.req.table.filter fun r => r.phase != .complete
  s.each (sortBy Req.asn live) fun (s : State) r => s.failReset status r

/-! ## Bays and bay SRAM (R238, Table 2.6) -/

/-- A bay after its threads, arrays and movers are cleared; fences stay. -/
def Bay.cleared (y : Bay) (last : LastTenant) : Bay :=
  { Bay.reset with fenced := y.fenced, lastTenant := last, landing := y.landing.map fun _ => Landing.free }

def State.clearBays (s : State) (last : LastTenant) : State :=
  let s : State := { s with bays := s.bays.map fun (y : Bay) => y.cleared last, bars := Bars.reset }
  s.modStew fun t => { t with tokenWait := List.replicate 4 [], tokensOut := List.replicate 4 0, tokens := List.replicate 4 10 }

/-- Bay SRAM is zero. -/
def Mem.clearT0 (m : Mem) : Mem :=
  { m with cells := m.cells.filter fun c => decide (t1Base ≤ c.1), poison := m.poison.filter fun a => decide (t1Base ≤ a),
           ceLines := m.ceLines.filter (fun a => decide (t1Base ≤ a)), bayCe := [] }

/-- A slot reserved for a request of a home node. -/
def GalSlot.reservedBy (g : GalSlot) (home : Nat) : Bool :=
  match g.owner with
  | .resident _ _ => false
  | .reserved _ h => h == home

/-- Resident streams and tails are lost with the SRAM: RES is cleared, tails roll back (R210, R232). -/
def State.loseResidents (s : State) : State :=
  let s := (s.each s.kv.residents fun (s : State) x => s.rollback x).dropResidents
  s.modStr fun t => { t with slots := t.slots.filter (fun (g : GalSlot) => g.reservedBy s.net.nodeId), swaps := [], phase1 := [] }

/-! ## Host, hub and fabric -/

/-- Rings and pointers are cleared, the PCIe configuration and the interrupt state kept; commands waiting or running are dropped
(Table 2.6; log entry 53). -/
def FnPage.warm (p : FnPage) : FnPage :=
  { FnPage.reset with busMaster := p.busMaster, vfEnabled := p.vfEnabled, msixMasked := p.msixMasked, msixPending := p.msixPending,
                      irqCause := p.irqCause, irqMask := p.irqMask, mbxArgs := p.mbxArgs, mbxResult := p.mbxResult,
                      mbxCode := p.mbxCode, mbxSeq := p.mbxSeq, mbxCmd := p.mbxCmd, mbxOverrun := p.mbxOverrun }

def State.clearRings (s : State) : State :=
  let s := s.ringSlotsToHold
  let s := s.modHost fun h => { h with pages := h.pages.map FnPage.warm, mbxRunning := none, mbxWaiting := [] }
  let s := (s.modReqs fun q => { q with quiesceWait := none }).modCnt fun c => { c with mbxDue := [] }
  (s.modBoot Boot.dropStaging).modHub fun h => { h with jobs := [] }

/-- The node leaves the fabric with its links kept; what was outstanding is gone, sequence state stays (R318, R335, R354). -/
def State.leaveWarm (s : State) : State :=
  let s := s.floodLeave 3
  let s := s.modNet fun n =>
    { n with leftFabric := false, isolated := false, awaited := none, joiners := [], adjs := [], txns := [], unsent := [], pushRx := [], pushTx := [], leases := [], routesDirty := true }
  s.each allPorts fun (s : State) n => s.modPort n fun p =>
    if p.state == .disabled || p.state == .drain || 0 < p.silentLeft then p.start (s.portCfg n)
    else if p.state == .active || p.state == .recovery then { p with closed := true }
    else p

/-! ## The Steward (R123) -/

def Stew.restart (t : Stew) : Stew :=
  { t with overdraft := 0, carries := [], pressured := false, pressCount := 0, relaxCount := 0, pressureDiv := 0,
           cur := List.replicate 16 0, bEff := 0, remain := 0, used := [0, 0, 0, 0] }

/-- Failed objects are fetched again; an object whose coding was cut short counts as failed (R84, R274). -/
def State.retryWeights (s : State) : State :=
  let again := (List.range s.boot.weights.length).filter fun i =>
    s.boot.weights[i]? == some WeightState.failed || s.boot.weights[i]? == some WeightState.coding
  if again.isEmpty then s else
  let s := s.modBoot fun b => { b with weightsDone := false, retrying := true }
  (s.each again fun (s : State) i => s.startWeight i).checkWeights

/-- The fatal causes a warm reset leaves (Table 18.6). -/
def warmLeaves (code : Nat) : Bool := code == 0x1231 || code == 0x1232

/-- A warm reset (R34, R51, Table 2.6). -/
def State.warmReset (s : State) (cause : Nat) : State :=
  let status := if s.clk.clockLoss then stClockLoss else stResetAborted
  let s := s.modClk fun c =>
    { c with pendingReset := .none, warmAt := none, warmInProgress := true, clockLoss := false, warmCount := satInc c.warmCount,
             resetCause := cause, resetWarm := true, pstate := s.runState, p2Since := none, idleSince := none, p3Entering := false,
             btnIgnored := c.btnIgnored || cause == 3 }
  let s := (s.modErr fun l => { l with fatal := [] }).modPins fun p => { p with fatalN := true }
  let s := (s.stopAll.dropForeign.loseResidents).clearRings.leaveWarm
  let s := ((s.failAll status).clearBays .none).modMem Mem.clearT0
  let s := s.abandonRun.modStew Stew.restart
  let s := s.modReqs fun q => { q with wakePending := q.wakePending && s.sent.windowEnd.isSome }
  s.bootTiles.retryWeights.causeRecord

/-! ## Ports at a sleep (R315, R316) -/

/-- One port at P3 entry: an ACTIVE port enters DRAIN, and sends SILENT SLEEP at its end; of the others those with LISTEN listen, and the rest are
off. -/
def State.sleepPort (s : State) (n : Fin 12) : State :=
  let p := s.port n
  if (s.portCfg n).mode = 0 || p.state == .disabled || p.state == .drain then s
  else if p.state == .active then s.modPort n fun p => p.drain 2
  else s.silenceNow n 2

end Sys2Proof.Machine
end

