-- ==== Sys2Proof/Machine/Power.lean ====
section
/-! DEFINITION. Meanings of the clock monitor's, button's, reset's and power states' commands (02, R43 to R61; 03, R77; 04, R96; 19,
R473; 20, R494). -/
namespace Sys2Proof.Machine
open Sys2Proof


/-- Powered, and not held by SYS_RST_N. -/
def State.alive (s : State) : Bool := s.clk.pwrOk && !s.clk.heldInReset

/-! ## The button (R54 to R56) -/

/-- A press: in SAFE mode an error record, whose CODE the spec does not give (log entry 52); in P3 a wake source. -/
def doResetBtnPress (s : State) : State :=
  if !s.clk.pwrOk then s else
  let ignored := s.clk.btnIgnored || s.clk.heldInReset
  let s := s.modClk fun c => { c with btnDown := true }
  if ignored then s
  else if s.isSafe then
    let (v, s) := s.draw
    s.error { cls := 0, source := 0x01, code := v.toNat % 65536 }
  else s.latchWake 4
def execResetBtnPress (s : State) : Host.Outcome State Fault Refusal := .next (doResetBtnPress s)

/-- A release after 20 ms to 4 s: a warm reset, in P3 after the exit. -/
def doResetBtnRelease (s : State) : State :=
  if !s.clk.pwrOk || !s.clk.btnDown then s else
  let ignored := s.clk.btnIgnored || s.clk.heldInReset
  let s := s.modClk fun c => { c with btnDown := false }
  if ignored || s.isSafe then s
  else if s.clk.pstate == .p3 then s.modClk fun c => { c with warmAfterP3 := true }
  else s.askWarm 3
def execResetBtnRelease (s : State) : Host.Outcome State Fault Refusal := .next (doResetBtnRelease s)

/-- Low for 4 s: a cold reset, after its anchor (R91); the button is then ignored (R55). -/
def doResetBtnHold (s : State) : State :=
  if !s.alive || !s.clk.btnDown || s.clk.btnIgnored then s else
  ((s.writeAnchor 4).askReset (.cold 2)).modClk fun c => { c with btnIgnored := true, warmAfterP3 := false }
def execResetBtnHold (s : State) : Host.Outcome State Fault Refusal := .next (doResetBtnHold s)

/-- High for 100 ms: the button is honoured again (R55). It is sampled in every state but P4. -/
def doButtonRearm (s : State) : State :=
  if s.clk.pwrOk && !s.clk.btnDown then s.modClk fun c => { c with btnIgnored := false } else s
def execButtonRearm (s : State) : Host.Outcome State Fault Refusal := .next (doButtonRearm s)

/-! ## Resets -/

/-- 100 ms without service; suspended while FATAL_N is low (R96, R456). -/
def doWatchdogExpiry (_core : Fin 4) (s : State) : State :=
  if s.alive && s.clk.pllLocked && s.clk.pstate != .p3 && !s.isFatal then s.askWarm 5 else s
def execWatchdogExpiry (core : Fin 4) (s : State) : Host.Outcome State Fault Refusal := .next (doWatchdogExpiry core s)

/-- The warm reset that is due; with a fatal cause that only a cold reset leaves, the cold reset in its place (R457). -/
def doWarmResetPerform (s : State) : State :=
  match s.clk.pendingReset with
  | .warm c =>
    if !s.alive || !s.clk.pllLocked || s.clk.refLost || s.clk.pstate == .p3 || s.clk.thermtrip then s
    else
      let s := s.advance (s.clk.warmAt.getD 0)
      if s.err.fatal.all warmLeaves then s.warmReset c
      else s.modClk fun k => { k with pendingReset := .cold 8, warmAt := none }
  | .cold _ => s
  | .none => s
def execWarmResetPerform (s : State) : Host.Outcome State Fault Refusal := .next (doWarmResetPerform s)

/-- The host driver may re-arm the rings (R53); the node rejoins the fabric (R354), and a wake request that waits is submitted. -/
def doWarmResetComplete (s : State) : State :=
  if !s.clk.warmInProgress then s else
  let s := s.modClk fun c => { c with warmInProgress := false }
  ((s.originate.checkMembers.assignId []).tryWake).noteIdle
def execWarmResetComplete (s : State) : Host.Outcome State Fault Refusal := .next (doWarmResetComplete s)

/-- 10 ms after a SAFE-mode commit: the cold reset, after its anchor (R77, R91). -/
def doSafeCommitReset (at_ : Nat) (s : State) : State :=
  let s := s.advance at_
  match s.boot.commitResetAt with
  | none => s
  | some t =>
    if s.clk.devTime < t then s
    else ((s.modBoot fun b => { b with commitResetAt := none }).writeAnchor 4).askReset (.cold 7)
def execSafeCommitReset (at_ : Nat) (s : State) : Host.Outcome State Fault Refusal := .next (doSafeCommitReset at_ s)

/-- THERMTRIP_N, by a comparator that needs no reset sequencer: the PLL stops, the tiles are power-gated, the PHYs lose their clock (R50). -/
def doThermtrip (_sensor : Fin 96) (s : State) : State :=
  if !s.clk.pwrOk then s else
  let s := s.modClk fun c =>
    { c with thermtrip := true, pllEnabled := false, pllLocked := false, p3Entering := false,
             tiles := c.tiles.map fun t => { t with powered := false, step := none } }
  (s.modPins fun p => { p with thermtripN := false }).modHost HostSt.linkDown
def execThermtrip (sensor : Fin 96) (s : State) : Host.Outcome State Fault Refusal := .next (doThermtrip sensor s)

/-! ## The clock monitor (R43 to R48) -/

/-- TIME_DEGRADED sets, and marks the requests under way (R39, Table 15.4). -/
def State.degradeTime (s : State) : State :=
  (s.modClk fun c => { c with aonOnRc := true, timeDegraded := true }).modReqs fun q =>
    { q with table := q.table.map fun r => if r.phase == .complete then r else { r with clockDegraded := true } }

/-- A tile whose step is abandoned comes back at ÷16 (R64). -/
def TileClk.cut (t : TileClk) : TileClk := if t.step.isSome then { t with step := none, div := 4 } else t

/-- Every stack enters self-refresh (Table 2.4, Table 2.9), which is counted (Table 17.1 event 11). -/
def State.selfRefresh (s : State) : State :=
  let s := s.each (List.range 8) fun (s : State) k => if s.stew.hbmSelfRef.getD k false then s else s.countHbm k 11 1
  s.modStew fun t => { t with hbmSelfRef := List.replicate 8 true }

/-- The response to REF_LOST outside P3 (Table 2.4). The clock-held condition that follows is none of the power states of Table 2.8: the model
lets it count as P0 (DESIGN CHOICE, log entry 15). -/
def State.clockStop (s : State) : State :=
  let s := s.each allPorts fun (s : State) n =>
    if (s.port n).state == .active || (s.port n).state == .recovery || (s.port n).state == .drain then s.silenceNow n 1 else s
  let s := (s.stopAll.error { cls := 2, source := 0x01, code := 0x0203 }).raise 0 3
  let s := if s.boot.locked then s.selfRefresh else s
  let s := s.modClk fun c =>
    { c with pllEnabled := false, pllLocked := false, warmInProgress := false, clockLoss := !(s.boot.phase.booting), pstate := .p0,
             p2Since := none, idleSince := none, p3Entering := false, tiles := c.tiles.map TileClk.cut }
  s.degradeTime.modHost HostSt.linkDown

/-- REF_LOST, in every state but P4 (R43). In P3 only the AON clock changes (R64); while SYS_RST_N holds the device, and in boundary-scan
mode, there is nothing else to stop. -/
def State.loseRef (s : State) : State :=
  if !s.clk.pwrOk || s.clk.refLost then s else
  let s := s.modClk fun c => { c with refLost := true, refQualified := false, refDrift := false, refFast := false }
  if s.clk.pstate == .p3 || s.clk.heldInReset || s.boot.phase == .scan then s.degradeTime else s.clockStop

/-- A glitch is counted and recorded; the sixteenth within 1 ms is REF_LOST (R43, R44). -/
def doRefGlitch (at_ : Nat) (s : State) : State :=
  let s := s.advance at_
  if !s.clk.pwrOk then s else
  let now := s.clk.devTime
  let times := (s.clk.glitchTimes.filter fun t => decide (now < t + 1000000)) ++ [now]
  let s := s.modClk fun c => { c with glitches := satInc c.glitches, glitchTimes := times }
  let s := (s.error { cls := 0, source := 0x01, code := 0x0201 }).countDev 21 1
  if 16 ≤ times.length then (s.modClk fun c => { c with glitchTimes := [] }).loseRef else s
def execRefGlitch (at_ : Nat) (s : State) : Host.Outcome State Fault Refusal := .next (doRefGlitch at_ s)

/-- Tiles follow the limits in force once the device runs. -/
def State.pursueAll (s : State) : State := if s.running then s.each (List.range 4) State.pursue else s

def doRefDrift (fast : Bool) (s : State) : State :=
  if !s.clk.pwrOk || !s.clk.pllLocked || s.clk.refDrift then s else
  let s := s.modClk fun c => { c with refDrift := true, refFast := fast }
  ((s.error { cls := 0, source := 0x01, code := 0x0202 }).raise 0 3).pursueAll
def execRefDrift (fast : Bool) (s : State) : Host.Outcome State Fault Refusal := .next (doRefDrift fast s)

def doRefDriftClear (s : State) : State :=
  if s.clk.refDrift then (s.modClk fun c => { c with refDrift := false, refFast := false }).pursueAll else s
def execRefDriftClear (s : State) : Host.Outcome State Fault Refusal := .next (doRefDriftClear s)

def doRefLost (s : State) : State := s.loseRef
def execRefLost (s : State) : Host.Outcome State Fault Refusal := .next (doRefLost s)

/-! ## P2 and P3 (R57 to R61) -/

/-- No work unit ready or running. -/
def State.idle (s : State) : Bool := s.candidates.isEmpty && s.req.running.isEmpty

/-- After the idle dwell the tiles are clock-gated; their arrays are off (06, Reset and power). -/
def doP2Entry (at_ : Nat) (s : State) : State :=
  let s := s.advance at_
  match s.clk.idleSince with
  | none => s
  | some t =>
    if s.running && (s.clk.pstate == .p0 || s.clk.pstate == .p1) && s.idle && s.bays.all (fun y => y.ramp == .off)
        && decide (t + 1000 * s.cfg.policy.idleDwellUs ≤ s.clk.devTime) then
      s.modClk fun c => { c with pstate := .p2, p2Since := some c.devTime, tiles := c.tiles.map fun t => { t with gated := true } }
    else s
def execP2Entry (at_ : Nat) (s : State) : Host.Outcome State Fault Refusal := .next (doP2Entry at_ s)

/-- The conditions of R58, that no wake window is open and no wake request waits (R423), and that no token is granted to another node (R354). -/
def State.mayP3 (s : State) : Bool :=
  s.running && !s.isFatal && s.clk.pstate == .p2 && s.cfg.policy.p3Enable && s.req.table.isEmpty && s.idle
    && s.sent.windowEnd.isNone && !s.req.wakePending
    && s.host.pages.all (fun p => p.reqTail == p.reqHead) && s.quota.tokens.all (fun t => t.home == s.net.nodeId)
    && (match s.clk.p2Since with
        | some t => decide (t + 1000000 * s.cfg.policy.p3DwellMs ≤ s.clk.devTime)
        | none => false)

/-- Clocks and rails of P3 (R58, R473, R494). The tiles' power-gate entries are counted (Table 17.1). -/
def State.enterP3 (s : State) : State :=
  let now := s.clk.devTime
  let timer := s.cfg.policy.aonTimerS
  let s := s.modClk fun c =>
    { c with pstate := .p3, pllEnabled := false, pllLocked := false, p2Since := none, idleSince := none, p3Entering := false,
             p3Count := satInc c.p3Count, railLowUntil := some (now + 1000000),
             aonTimerAt := if timer = 0 then none else some (now + 1000000000 * timer),
             tiles := c.tiles.map fun t => { t with powered := false, step := none } }
  let s := s.each (List.range 4) fun (s : State) t => s.countTile t 13 1
  (s.modPins fun p => { p with swRailEn := false }).selfRefresh

/-- P3 entry begins: POWER_WAKE_CAUSE is cleared, tails are parked, the anchor is written, the fabric is left, the PCIe link goes to ASPM L1 and the
ports drain (R58, R91, R315, R354, R494). Host TLPs are held from here on, and wake sources latched. -/
def State.beginP3 (s : State) : State :=
  let s := s.modClk fun c => { c with p3Entering := true, wakeCause := 0, wakePorts := 0, wakeLatched := false }
  let s := s.each s.kv.residents State.askPark
  (((s.writeAnchor 2).floodLeave 2).each allPorts State.sleepPort).modHost fun h => { h with linkL1 := h.linkUp }

/-- Whether the entry can end: the flash is at rest with the anchor in it, and every port is off, listens or waits as its peer asked. -/
def State.p3Ready (s : State) : Bool :=
  s.clk.p3Entering && s.running && s.boot.flashOps.isEmpty && !s.parking && s.truss.all fun p =>
    p.silentLeft == 0 && (p.state == .disabled || p.state == .listen || p.state == .parked)

/-- The entry ends: residents are dropped, a tail that found no room in its pool is rolled back (R232; DESIGN CHOICE, log entry 28), the plumb run is abandoned, bays lose their power, clocks and rails stop. -/
def State.endP3 (s : State) : State := ((s.each s.kv.residents State.rollback).dropResidents.abandonRun.clearBays .unknown).enterP3

/-- P3 entry: its conditions start it, and it ends once the ports have drained and the anchor is in the flash, at once or at a later P3_ENTRY
(DESIGN CHOICE, log entry 15: the table has one row for both). -/
def doP3Entry (at_ : Nat) (s : State) : State :=
  let s := s.advance at_
  let s := if !s.clk.p3Entering && s.mayP3 then s.beginP3 else s
  if s.p3Ready then s.endP3 else s
def execP3Entry (at_ : Nat) (s : State) : Host.Outcome State Fault Refusal := .next (doP3Entry at_ s)

def doAonTimerExpiry (at_ : Nat) (s : State) : State :=
  let s := s.advance at_
  if s.clk.pstate == .p3 && s.due s.clk.aonTimerAt then (s.modClk fun c => { c with aonTimerAt := none }).latchWake 3 else s
def execAonTimerExpiry (at_ : Nat) (s : State) : Host.Outcome State Fault Refusal := .next (doAonTimerExpiry at_ s)

/-- A host TLP in P3 is a wake source (R59). -/
def doPcieWake (s : State) : State := if s.host.linkUp then s.latchWake 1 else s
def execPcieWake (s : State) : Host.Outcome State Fault Refusal := .next (doPcieWake s)

/-- 10 µs of signal on lane 0 of a listening port (R315). -/
def doTrussListenWake (port : Fin 12) (s : State) : State :=
  if s.clk.pstate == .p3 && (s.port port).state == .listen then
    (s.latchWake 2).modClk fun c => { c with wakePorts := c.wakePorts ||| (1#12 <<< port.val) }
  else s
def execTrussListenWake (port : Fin 12) (s : State) : Host.Outcome State Fault Refusal := .next (doTrussListenWake port s)

/-- A host TLP held in P3 is served (R60). -/
def State.serve (s : State) (h : Held) : State :=
  match h with
  | .tlp t => s.hostReg t
  | .doe r => s.doeAnswer r
  | .config w => s.configure w
  | .foreign f => s.emit (.ur f)
  | .flr f => s.clearPage f true

/-- Ports leave their sleep; a node that left the fabric keeps its ports DISABLED (R354, Table 2.9). -/
def State.wakePorts (s : State) : State :=
  if s.net.leftFabric then s else
  s.each allPorts fun (s : State) n => s.modPort n fun p => p.start (s.portCfg n)

/-- P0 at the end of Table 2.9: clocks, memory, tiles, ports and the CXL links back, held TLPs served, wake-done raised. -/
def State.leaveP3 (s : State) : State :=
  let s := s.modClk fun c => { c with pstate := .p0, pllEnabled := true, pllLocked := true, wakeLatched := false, aonTimerAt := none }
  let s := s.modHost fun h => { h with linkL1 := false }
  let s := (s.modStew fun t => { t.restart with hbmSelfRef := List.replicate 8 false, lastRecal := s.clk.devTime }).bootTiles
  let s := s.wakePorts.restartWindows s.tun.counterWindow s.clk.devTime 0
  let s := s.each (List.range s.cxl.devs.length) fun s d => if ((s.cxl.devs[d]?).map (·.lost)).getD true then s else s.countT2 d 12 1
  let held := s.clk.held
  let s := (s.modClk fun c => { c with held := [] }).setRunState
  let s := (s.each held State.serve).raise 0 4
  let s := if s.host.vec6Due then (s.modHost fun h => { h with vec6Due := false }).raise 0 6 else s
  let late := s.clk.warmAfterP3
  let s := s.modClk fun c => { c with warmAfterP3 := false }
  (if late then s.askWarm 3 else s.tryWake).noteIdle

def doP3ExitComplete (at_ : Nat) (s : State) : State :=
  let s := s.advance at_
  if s.alive && s.clk.pstate == .p3 && s.clk.wakeLatched && s.pins.swRailEn && !s.clk.refLost && !s.clk.thermtrip then s.leaveP3 else s
def execP3ExitComplete (at_ : Nat) (s : State) : Host.Outcome State Fault Refusal := .next (doP3ExitComplete at_ s)

/-- SW_RAIL_EN may rise again: at once where a wake is latched (R473). -/
def doSwRailMinLowEnd (at_ : Nat) (s : State) : State :=
  let s := s.advance at_
  if !(s.due s.clk.railLowUntil) then s else
  let s := s.modClk fun c => { c with railLowUntil := none }
  if s.clk.pstate == .p3 && s.clk.wakeLatched && !s.clk.refLost then s.modPins fun p => { p with swRailEn := true } else s
def execSwRailMinLowEnd (at_ : Nat) (s : State) : Host.Outcome State Fault Refusal := .next (doSwRailMinLowEnd at_ s)

end Sys2Proof.Machine
end

