-- ==== Sys2Proof/Machine/Steward.lean ====
section
/-! DEFINITION. Meanings of the Steward's periodic events and of the regulator's reports (02, R40 to R42; 04). -/
namespace Sys2Proof.Machine
open Sys2Proof

/-- The regulator reports the voltage of the pending step: a rise now switches the divider (R40). -/
def doAvsTargetReached (tile : Fin 4) (s : State) : State :=
  let t := tile.val
  match (s.tile t).step with
  | none => s
  | some d =>
    let rise := (s.tile t).rising
    let s := s.modTile t fun x => { x with confirmed := d.mv, div := d.target, step := none }
    (s.countTile t 6 (b2n rise)).pursue t
def execAvsTargetReached (tile : Fin 4) (s : State) : Host.Outcome State Fault Refusal := .next (doAvsTargetReached tile s)

/-- 1 ms without the report: a rise is given up, with a degraded-class record, and the tile is limited to its present divider until
the next cold reset (R42). A step to a lower frequency ends. -/
def doAvsTimeout (tile : Fin 4) (s : State) : State :=
  let t := tile.val
  match (s.tile t).step with
  | none => s
  | some _ =>
    if (s.tile t).rising then
      let s := s.modTile t fun x => { x with step := none, avsTarget := x.confirmed, limit := max x.limit x.div }
      ((s.countTile t 9 1).error { cls := 2, source := 0x01, inst := t, code := 0x0205 }).pursue t
    else (s.modTile t fun x => { x with step := none }).pursue t
def execAvsTimeout (tile : Fin 4) (s : State) : Host.Outcome State Fault Refusal := .next (doAvsTimeout tile s)

/-- Readings of every rail with the gains in force (R102). -/
def State.gainedSum (s : State) (raw : List Nat) : Nat := ((List.range railCount).map fun i => s.gained i (raw.getD i 0)).sum

/-- A budget window starts: the energy of the one that ends, the steps of R121, then SC0's dispatch opportunity, with R111 first. `rails`
and `base` are the rails' readings since the window started or was last recalibrated: in all, and of no work unit. -/
def doBudgetWindowStart (at_ : Nat) (sensors : List (Option Int)) (rails base : List Nat) (s : State) : State :=
  let s := s.advance at_
  if !(s.running && at_ % 100000 == 0) then s else
  let measured := s.stew.winEnergy + s.gainedSum rails
  let baseline := s.stew.winBase + s.gainedSum base
  let s := s.closeWindow measured
  let s := if at_ % 1000000 = 0 then s.applyTunables at_ else s
  let s := (s.readSensors sensors).holds.pressureStep
  let s := s.each (List.range 4) State.pursue
  let s := (s.openWindow baseline).setRunState
  if !s.canDispatch then s else
  let s := if s.candidates.isEmpty then s else s.leaveP2
  s.dispatchHuge.dispatch
def execBudgetWindowStart (at_ : Nat) (sensors : List (Option Int)) (rails base : List Nat) (s : State) :
    Host.Outcome State Fault Refusal := .next (doBudgetWindowStart at_ sensors rails base s)

/-- A scheduler epoch boundary: tunables, the withheld error records, the sweeps, and the requests that wait. -/
def doSchedulerEpochBoundary (at_ : Nat) (s : State) : State :=
  let s := s.advance at_
  if !(s.running && at_ % 1000000 == 0) then s else
  let s := (s.applyTunables at_).flushSuppressed.setRunState
  let s := s.modStr fun x => { x with epochCount := (x.epochCount + 1) % two32 }
  let s := s.idleSweep.kvIdleSweep
  let s := if s.isFatal then s else s.dropDisabled.retryAdmissions.tryWake
  s.dispatch
def execSchedulerEpochBoundary (at_ : Nat) (s : State) : Host.Outcome State Fault Refusal := .next (doSchedulerEpochBoundary at_ s)

/-- A rail's new gain in Q4.12: VRM energy over estimator energy, within 0x0800 to 0x2000. R102 does not say how the quotient rounds to
Q4.12: it is rounded down (DESIGN CHOICE, log entry 49). With no estimator energy the spec states no quotient, and the gain is a free value
within the clamp. -/
def State.newGain (s : State) (vrm est : Nat) : Nat × State :=
  if est = 0 then
    let (v, s) := s.draw
    (0x0800 + v.toNat % 0x1801, s)
  else (max 0x0800 (min 0x2000 (4096 * vrm / est)), s)

/-- The readings up to now count with the gains in force, before new ones apply "from the next microsecond onward" (R102). -/
def State.takeReadings (s : State) (part : Readings) : State :=
  let s := s.modStew fun x =>
    { x with winEnergy := x.winEnergy + s.gainedSum part.rails, winBase := x.winBase + s.gainedSum part.base }
  s.each allBays fun s b => s.modBay b fun y =>
    { y with task := y.task.map fun t => { t with energy := t.energy + s.gained (tileOf b).val (part.bays.getD b.val 0) } }

/-- Every 10 ms each rail's estimator is recalibrated; a rail without telemetry keeps its gain and is recorded (R102, R122). -/
def doEstimatorRecalibration (at_ : Nat) (vrm : List (Option Nat)) (est : List Nat) (part : Readings) (s : State) : State :=
  let s := s.advance at_
  if !s.running then s else
  let s := (s.takeReadings part).modStew fun x => { x with moduleW := part.moduleW % 65536 }
  let s := s.each (List.range railCount) fun s i =>
    match vrm.getD i none with
    | none => s.error { cls := 0, source := 0x03, inst := i, code := 0x0402 }
    | some e =>
      let (g, s) := s.newGain e (est.getD i 0)
      s.modStew fun x => { x with gain := x.gain.set i g }
  if (List.range railCount).any fun i => (vrm.getD i none).isSome then
    s.modStew fun x => { x with lastRecal := s.clk.devTime, vrmStale := false }
  else s
def execEstimatorRecalibration (at_ : Nat) (vrm : List (Option Nat)) (est : List Nat) (part : Readings) (s : State) :
    Host.Outcome State Fault Refusal := .next (doEstimatorRecalibration at_ vrm est part s)

/-- 100 ms without a successful recalibration of any rail (R122). -/
def doVrmTelemetryStale (at_ : Nat) (s : State) : State :=
  let s := s.advance at_
  if s.running && decide (s.stew.lastRecal + 100000000 ≤ s.clk.devTime) then s.modStew fun x => { x with vrmStale := true } else s
def execVrmTelemetryStale (at_ : Nat) (s : State) : Host.Outcome State Fault Refusal := .next (doVrmTelemetryStale at_ s)

/-- The step of Table 4.3 for a temperature. -/
def hbmEntry (hbmC temp : Nat) : Nat := if temp < hbmC then 0 else if temp < hbmC + 5 then 1 else if temp < hbmC + 10 then 2 else 3

/-- The step a stack falls back to: it leaves a step 2 °C below that step's entry temperature. -/
def hbmLeave (hbmC temp : Nat) : Nat → Nat
  | 0 => 0
  | k + 1 => if temp + 2 ≤ hbmC + 5 * k then hbmLeave hbmC temp k else k + 1

/-- One stack's temperature (R116). -/
def State.hbmReading (s : State) (k temp : Nat) : State :=
  let c := s.cfg.policy.hbmC
  let s := s.modStew fun x =>
    { x with hbmTemp := x.hbmTemp.set k (temp % 256), hbm2x := x.hbm2x.set k (decide (85 < temp)),
             hbmStep := x.hbmStep.set k (max (hbmEntry c temp) (hbmLeave c temp (x.hbmStep.getD k 0))) }
  if c ≤ temp then s.count (6112 + k) 1 else s

/-- Every 1 ms SC1 reads the stacks' temperatures. -/
def doHbmTempPoll (at_ : Nat) (temps : List (Option Nat)) (s : State) : State :=
  let s := s.advance at_
  if !s.running then s else
  s.each (List.range 8) fun s k =>
    match temps.getD k none with
    | none => s
    | some t => s.hbmReading k t
def execHbmTempPoll (at_ : Nat) (temps : List (Option Nat)) (s : State) : Host.Outcome State Fault Refusal :=
  .next (doHbmTempPoll at_ temps s)

/-- A stack that has not reported for 10 ms is held at 25 % (R122). -/
def doHbmTempTimeout (stack : Fin 8) (at_ : Nat) (s : State) : State :=
  let s := s.advance at_
  if s.running then s.modStew fun x => { x with hbmStep := x.hbmStep.set stack.val 3 } else s
def execHbmTempTimeout (stack : Fin 8) (at_ : Nat) (s : State) : Host.Outcome State Fault Refusal := .next (doHbmTempTimeout stack at_ s)

end Sys2Proof.Machine
end

