-- ==== Sys2Proof/Machine/ThreadAlu.lean ====
section
/-! DEFINITION. Thread instructions on registers: integer, comparison, immediate, vector, branch, context and Philox instructions,
and the words that spell no instruction (05, Tables 5.2, 5.3 and 5.5). -/
namespace Sys2Proof.Machine
open Sys2Proof

/-! ## Integer arithmetic (R131) -/

def doAluAdd (w : Issue) (rd ra rb : BitVec 5) (s : State) : State := s.issueAlu w rd ra rb fun a b => a + b
def execAluAdd (w : Issue) (rd ra rb : BitVec 5) (s : State) : Host.Outcome State Fault Refusal := .next (doAluAdd w rd ra rb s)

def doAluSub (w : Issue) (rd ra rb : BitVec 5) (s : State) : State := s.issueAlu w rd ra rb fun a b => a - b
def execAluSub (w : Issue) (rd ra rb : BitVec 5) (s : State) : Host.Outcome State Fault Refusal := .next (doAluSub w rd ra rb s)

def doAluAnd (w : Issue) (rd ra rb : BitVec 5) (s : State) : State := s.issueAlu w rd ra rb fun a b => a &&& b
def execAluAnd (w : Issue) (rd ra rb : BitVec 5) (s : State) : Host.Outcome State Fault Refusal := .next (doAluAnd w rd ra rb s)

def doAluOr (w : Issue) (rd ra rb : BitVec 5) (s : State) : State := s.issueAlu w rd ra rb fun a b => a ||| b
def execAluOr (w : Issue) (rd ra rb : BitVec 5) (s : State) : Host.Outcome State Fault Refusal := .next (doAluOr w rd ra rb s)

def doAluXor (w : Issue) (rd ra rb : BitVec 5) (s : State) : State := s.issueAlu w rd ra rb fun a b => a ^^^ b
def execAluXor (w : Issue) (rd ra rb : BitVec 5) (s : State) : Host.Outcome State Fault Refusal := .next (doAluXor w rd ra rb s)

def doAluMul (w : Issue) (rd ra rb : BitVec 5) (s : State) : State := s.issueAlu w rd ra rb fun a b => a * b
def execAluMul (w : Issue) (rd ra rb : BitVec 5) (s : State) : Host.Outcome State Fault Refusal := .next (doAluMul w rd ra rb s)

def doAluSll (w : Issue) (rd ra rb : BitVec 5) (s : State) : State := s.issueAlu w rd ra rb sll
def execAluSll (w : Issue) (rd ra rb : BitVec 5) (s : State) : Host.Outcome State Fault Refusal := .next (doAluSll w rd ra rb s)

def doAluSrl (w : Issue) (rd ra rb : BitVec 5) (s : State) : State := s.issueAlu w rd ra rb srl
def execAluSrl (w : Issue) (rd ra rb : BitVec 5) (s : State) : Host.Outcome State Fault Refusal := .next (doAluSrl w rd ra rb s)

def doAluSra (w : Issue) (rd ra rb : BitVec 5) (s : State) : State := s.issueAlu w rd ra rb sra
def execAluSra (w : Issue) (rd ra rb : BitVec 5) (s : State) : Host.Outcome State Fault Refusal := .next (doAluSra w rd ra rb s)

def doAluMulhu (w : Issue) (rd ra rb : BitVec 5) (s : State) : State := s.issueAlu w rd ra rb mulhu
def execAluMulhu (w : Issue) (rd ra rb : BitVec 5) (s : State) : Host.Outcome State Fault Refusal := .next (doAluMulhu w rd ra rb s)

def doAluDivu (w : Issue) (rd ra rb : BitVec 5) (s : State) : State := s.issueAlu w rd ra rb divu
def execAluDivu (w : Issue) (rd ra rb : BitVec 5) (s : State) : Host.Outcome State Fault Refusal := .next (doAluDivu w rd ra rb s)

def doAluRemu (w : Issue) (rd ra rb : BitVec 5) (s : State) : State := s.issueAlu w rd ra rb remu
def execAluRemu (w : Issue) (rd ra rb : BitVec 5) (s : State) : Host.Outcome State Fault Refusal := .next (doAluRemu w rd ra rb s)

def doAluMinu (w : Issue) (rd ra rb : BitVec 5) (s : State) : State := s.issueAlu w rd ra rb minu
def execAluMinu (w : Issue) (rd ra rb : BitVec 5) (s : State) : Host.Outcome State Fault Refusal := .next (doAluMinu w rd ra rb s)

def doAluMaxu (w : Issue) (rd ra rb : BitVec 5) (s : State) : State := s.issueAlu w rd ra rb maxu
def execAluMaxu (w : Issue) (rd ra rb : BitVec 5) (s : State) : Host.Outcome State Fault Refusal := .next (doAluMaxu w rd ra rb s)

def doAluMin (w : Issue) (rd ra rb : BitVec 5) (s : State) : State := s.issueAlu w rd ra rb mins
def execAluMin (w : Issue) (rd ra rb : BitVec 5) (s : State) : Host.Outcome State Fault Refusal := .next (doAluMin w rd ra rb s)

def doAluMax (w : Issue) (rd ra rb : BitVec 5) (s : State) : State := s.issueAlu w rd ra rb maxs
def execAluMax (w : Issue) (rd ra rb : BitVec 5) (s : State) : Host.Outcome State Fault Refusal := .next (doAluMax w rd ra rb s)

/-! ## Comparisons -/

def doPcmpEq (w : Issue) (rd ra rb : BitVec 5) (s : State) : State := s.issueCmp w rd ra rb cmpEq
def execPcmpEq (w : Issue) (rd ra rb : BitVec 5) (s : State) : Host.Outcome State Fault Refusal := .next (doPcmpEq w rd ra rb s)

def doPcmpNe (w : Issue) (rd ra rb : BitVec 5) (s : State) : State := s.issueCmp w rd ra rb cmpNe
def execPcmpNe (w : Issue) (rd ra rb : BitVec 5) (s : State) : Host.Outcome State Fault Refusal := .next (doPcmpNe w rd ra rb s)

def doPcmpLt (w : Issue) (rd ra rb : BitVec 5) (s : State) : State := s.issueCmp w rd ra rb cmpLt
def execPcmpLt (w : Issue) (rd ra rb : BitVec 5) (s : State) : Host.Outcome State Fault Refusal := .next (doPcmpLt w rd ra rb s)

def doPcmpGe (w : Issue) (rd ra rb : BitVec 5) (s : State) : State := s.issueCmp w rd ra rb cmpGe
def execPcmpGe (w : Issue) (rd ra rb : BitVec 5) (s : State) : Host.Outcome State Fault Refusal := .next (doPcmpGe w rd ra rb s)

def doPcmpLtu (w : Issue) (rd ra rb : BitVec 5) (s : State) : State := s.issueCmp w rd ra rb cmpLtu
def execPcmpLtu (w : Issue) (rd ra rb : BitVec 5) (s : State) : Host.Outcome State Fault Refusal := .next (doPcmpLtu w rd ra rb s)

def doPcmpGeu (w : Issue) (rd ra rb : BitVec 5) (s : State) : State := s.issueCmp w rd ra rb cmpGeu
def execPcmpGeu (w : Issue) (rd ra rb : BitVec 5) (s : State) : Host.Outcome State Fault Refusal := .next (doPcmpGeu w rd ra rb s)

/-! ## Immediates -/

/-- g[RA] + IMM12, sign-extended. -/
def doAddi (w : Issue) (rd ra : BitVec 5) (imm : BitVec 12) (s : State) : State := 
  s.issueThr w true [.g ra] (some (.g rd)) fun t => (t.setG rd (t.gr ra + imm.signExtend 64)).next
def execAddi (w : Issue) (rd ra : BitVec 5) (imm : BitVec 12) (s : State) : Host.Outcome State Fault Refusal := .next (doAddi w rd ra imm s)

/-- g[RA] AND IMM12, zero-extended. -/
def doAndi (w : Issue) (rd ra : BitVec 5) (imm : BitVec 12) (s : State) : State := 
  s.issueThr w true [.g ra] (some (.g rd)) fun t => (t.setG rd (t.gr ra &&& imm.setWidth 64)).next
def execAndi (w : Issue) (rd ra : BitVec 5) (imm : BitVec 12) (s : State) : Host.Outcome State Fault Refusal := .next (doAndi w rd ra imm s)

/-- g[RA] OR IMM12, zero-extended. -/
def doOri (w : Issue) (rd ra : BitVec 5) (imm : BitVec 12) (s : State) : State := 
  s.issueThr w true [.g ra] (some (.g rd)) fun t => (t.setG rd (t.gr ra ||| imm.setWidth 64)).next
def execOri (w : Issue) (rd ra : BitVec 5) (imm : BitVec 12) (s : State) : Host.Outcome State Fault Refusal := .next (doOri w rd ra imm s)

/-- g[RD] shifted left by 12, OR IMM12; RA must be 0. -/
def doLih (w : Issue) (rd ra : BitVec 5) (imm : BitVec 12) (s : State) : State := 
  s.issueThr w (ra == 0#5) [.g rd] (some (.g rd)) fun t => (t.setG rd (t.gr rd <<< 12 ||| imm.setWidth 64)).next
def execLih (w : Issue) (rd ra : BitVec 5) (imm : BitVec 12) (s : State) : Host.Outcome State Fault Refusal := .next (doLih w rd ra imm s)

/-! ## Vector operations (R132, R133, R504, R505) -/

def doVopAdd (w : Issue) (ty : BitVec 3) (rd ra rb : BitVec 5) (s : State) : State := s.issueVop w (vopAnyTy ty) ty 0x0 rd ra rb
def execVopAdd (w : Issue) (ty : BitVec 3) (rd ra rb : BitVec 5) (s : State) : Host.Outcome State Fault Refusal := .next (doVopAdd w ty rd ra rb s)

def doVopSub (w : Issue) (ty : BitVec 3) (rd ra rb : BitVec 5) (s : State) : State := s.issueVop w (vopAnyTy ty) ty 0x1 rd ra rb
def execVopSub (w : Issue) (ty : BitVec 3) (rd ra rb : BitVec 5) (s : State) : Host.Outcome State Fault Refusal := .next (doVopSub w ty rd ra rb s)

def doVopMul (w : Issue) (ty : BitVec 3) (rd ra rb : BitVec 5) (s : State) : State := s.issueVop w (vopAnyTy ty) ty 0x2 rd ra rb
def execVopMul (w : Issue) (ty : BitVec 3) (rd ra rb : BitVec 5) (s : State) : Host.Outcome State Fault Refusal := .next (doVopMul w ty rd ra rb s)

def doVopMin (w : Issue) (ty : BitVec 3) (rd ra rb : BitVec 5) (s : State) : State := s.issueVop w (vopAnyTy ty) ty 0x3 rd ra rb
def execVopMin (w : Issue) (ty : BitVec 3) (rd ra rb : BitVec 5) (s : State) : Host.Outcome State Fault Refusal := .next (doVopMin w ty rd ra rb s)

def doVopMax (w : Issue) (ty : BitVec 3) (rd ra rb : BitVec 5) (s : State) : State := s.issueVop w (vopAnyTy ty) ty 0x4 rd ra rb
def execVopMax (w : Issue) (ty : BitVec 3) (rd ra rb : BitVec 5) (s : State) : Host.Outcome State Fault Refusal := .next (doVopMax w ty rd ra rb s)

def doVopFma (w : Issue) (ty : BitVec 3) (rd ra rb : BitVec 5) (s : State) : State := s.issueVop w (vopFloatTy ty) ty 0x5 rd ra rb
def execVopFma (w : Issue) (ty : BitVec 3) (rd ra rb : BitVec 5) (s : State) : Host.Outcome State Fault Refusal := .next (doVopFma w ty rd ra rb s)

def doVopAnd (w : Issue) (ty : BitVec 3) (rd ra rb : BitVec 5) (s : State) : State := s.issueVop w (vopIntTy ty) ty 0x6 rd ra rb
def execVopAnd (w : Issue) (ty : BitVec 3) (rd ra rb : BitVec 5) (s : State) : Host.Outcome State Fault Refusal := .next (doVopAnd w ty rd ra rb s)

def doVopOr (w : Issue) (ty : BitVec 3) (rd ra rb : BitVec 5) (s : State) : State := s.issueVop w (vopIntTy ty) ty 0x7 rd ra rb
def execVopOr (w : Issue) (ty : BitVec 3) (rd ra rb : BitVec 5) (s : State) : Host.Outcome State Fault Refusal := .next (doVopOr w ty rd ra rb s)

def doVopXor (w : Issue) (ty : BitVec 3) (rd ra rb : BitVec 5) (s : State) : State := s.issueVop w (vopIntTy ty) ty 0x8 rd ra rb
def execVopXor (w : Issue) (ty : BitVec 3) (rd ra rb : BitVec 5) (s : State) : Host.Outcome State Fault Refusal := .next (doVopXor w ty rd ra rb s)

def doVopShl (w : Issue) (ty : BitVec 3) (rd ra rb : BitVec 5) (s : State) : State := s.issueVop w (vopIntTy ty) ty 0x9 rd ra rb
def execVopShl (w : Issue) (ty : BitVec 3) (rd ra rb : BitVec 5) (s : State) : Host.Outcome State Fault Refusal := .next (doVopShl w ty rd ra rb s)

def doVopShr (w : Issue) (ty : BitVec 3) (rd ra rb : BitVec 5) (s : State) : State := s.issueVop w (vopIntTy ty) ty 0xA rd ra rb
def execVopShr (w : Issue) (ty : BitVec 3) (rd ra rb : BitVec 5) (s : State) : Host.Outcome State Fault Refusal := .next (doVopShr w ty rd ra rb s)

def doVopExp (w : Issue) (ty : BitVec 3) (rd ra rb : BitVec 5) (s : State) : State := s.issueVop w (ty == 6#3 && rb == 0#5) ty 0xB rd ra rb
def execVopExp (w : Issue) (ty : BitVec 3) (rd ra rb : BitVec 5) (s : State) : Host.Outcome State Fault Refusal := .next (doVopExp w ty rd ra rb s)

/-- FN[3:0] is the source type, RB[3:0] the destination type. -/
def doVcvt (w : Issue) (fn : BitVec 7) (rd ra rb : BitVec 5) (s : State) : State := 
  s.issueThr w (Instr.threadLegal (.vcvt w fn rd ra rb)) [.v ra] (some (.v rd)) fun t =>
    (t.setV rd (vcvtLanes (fn.extractLsb' 0 4).toNat (rb.extractLsb' 0 4).toNat (t.vr ra))).next
def execVcvt (w : Issue) (fn : BitVec 7) (rd ra rb : BitVec 5) (s : State) : Host.Outcome State Fault Refusal := .next (doVcvt w fn rd ra rb s)

def doVredSum (w : Issue) (ty : BitVec 3) (rd ra rb : BitVec 5) (s : State) : State := 
  s.issueThr w (vopAnyTy ty && rb == 0#5) [.v ra] (some (.g rd)) fun t => (t.setG rd (vred ty.toNat 0 (t.vr ra))).next
def execVredSum (w : Issue) (ty : BitVec 3) (rd ra rb : BitVec 5) (s : State) : Host.Outcome State Fault Refusal := .next (doVredSum w ty rd ra rb s)

def doVredMax (w : Issue) (ty : BitVec 3) (rd ra rb : BitVec 5) (s : State) : State := 
  s.issueThr w (vopAnyTy ty && rb == 0#5) [.v ra] (some (.g rd)) fun t => (t.setG rd (vred ty.toNat 1 (t.vr ra))).next
def execVredMax (w : Issue) (ty : BitVec 3) (rd ra rb : BitVec 5) (s : State) : Host.Outcome State Fault Refusal := .next (doVredMax w ty rd ra rb s)

def doVredMin (w : Issue) (ty : BitVec 3) (rd ra rb : BitVec 5) (s : State) : State := 
  s.issueThr w (vopAnyTy ty && rb == 0#5) [.v ra] (some (.g rd)) fun t => (t.setG rd (vred ty.toNat 2 (t.vr ra))).next
def execVredMin (w : Issue) (ty : BitVec 3) (rd ra rb : BitVec 5) (s : State) : Host.Outcome State Fault Refusal := .next (doVredMin w ty rd ra rb s)

/-- 64-bit lane g[RB][2:0] of v[RA]. -/
def doVget (w : Issue) (rd ra rb : BitVec 5) (s : State) : State := 
  s.issueThr w true [.v ra, .g rb] (some (.g rd)) fun t => (t.setG rd (vgetLane (t.vr ra) (t.gr rb))).next
def execVget (w : Issue) (rd ra rb : BitVec 5) (s : State) : Host.Outcome State Fault Refusal := .next (doVget w rd ra rb s)

/-- That lane of v[RD] becomes g[RA]. -/
def doVput (w : Issue) (rd ra rb : BitVec 5) (s : State) : State := 
  s.issueThr w true [.g ra, .g rb, .v rd] (some (.v rd)) fun t =>
    (t.setV rd (vputLane (t.vr rd) (t.gr rb) (t.gr ra))).next
def execVput (w : Issue) (rd ra rb : BitVec 5) (s : State) : Host.Outcome State Fault Refusal := .next (doVput w rd ra rb s)

def doVbcast (w : Issue) (rd ra rb : BitVec 5) (s : State) : State := 
  s.issueThr w true [.g ra] (some (.v rd)) fun t => (t.setV rd (vbcastLanes (t.gr ra))).next
def execVbcast (w : Issue) (rd ra rb : BitVec 5) (s : State) : Host.Outcome State Fault Refusal := .next (doVbcast w rd ra rb s)

/-! ## Branches -/

def doBr (w : Issue) (off : BitVec 22) (s : State) : State := s.issueThr w true [] none fun t => { t with pc := branchTarget t.pc off }
def execBr (w : Issue) (off : BitVec 22) (s : State) : Host.Outcome State Fault Refusal := .next (doBr w off s)

def doCall (w : Issue) (off : BitVec 22) (s : State) : State := 
  s.issueThr w true [] (some (.g 31)) fun t => { t.setG 31 (t.pc + 4) with pc := branchTarget t.pc off }
def execCall (w : Issue) (off : BitVec 22) (s : State) : Host.Outcome State Fault Refusal := .next (doCall w off s)

def doJr (w : Issue) (rd ra rb : BitVec 5) (fn : BitVec 7) (s : State) : State := 
  s.issueThr w (rb == 0#5 && fn == 0#7) [.g ra] (some (.g rd)) fun t => { t.setG rd (t.pc + 4) with pc := t.gr ra }
def execJr (w : Issue) (rd ra rb : BitVec 5) (fn : BitVec 7) (s : State) : Host.Outcome State Fault Refusal := .next (doJr w rd ra rb fn s)

/-! ## Context values and draws -/

/-- CTX value XF (Table 5.5). -/
def State.ctxValue (s : State) (b : Fin 80) (t : Fin 128) (k : Task) (xf : Nat) : Nat :=
  match xf with
  | 0x00 => t.val
  | 0x01 => k.idx
  | 0x02 => k.tasks
  | 0x03 => k.wu.stage
  | 0x04 => match k.wu.step with | .context => 2 ^ 64 - 1 | .step n => n
  | 0x05 => k.waveFirst
  | 0x06 => k.waveN
  | 0x07 => k.args
  | 0x08 => b.val
  | 0x09 => s.net.nodeId
  | 0x0A => s.clk.devTime
  | 0x0B => s.net.settled
  | _ => 0

def doCtx (w : Issue) (rd ra : BitVec 5) (ord : BitVec 4) (xf : BitVec 8) (s : State) : State := 
  s.issue w (Instr.threadLegal (.ctx w rd ra ord xf)) [] (some (.g rd)) fun s =>
    match (s.bay w.bay).task with
    | none => .done s
    | some k => .done (s.modThr w.bay w.thread fun t =>
        (t.setG rd (BitVec.ofNat 64 (s.ctxValue w.bay w.thread k xf.toNat))).next)
def execCtx (w : Issue) (rd ra : BitVec 5) (ord : BitVec 4) (xf : BitVec 8) (s : State) : Host.Outcome State Fault Refusal := .next (doCtx w rd ra ord xf s)

/-- Four Philox blocks (R148, R392); an illegal lane base raises ILLEGAL_INSTR. -/
def doPhilox (w : Issue) (rd ra : BitVec 5) (ord : BitVec 4) (xf : BitVec 8) (s : State) : State := 
  s.issue w true [.g ra] (some (.v rd)) fun s =>
    let x := (s.thr w.bay w.thread).gr ra
    if !(philoxLegal x) then .done (s.except w.bay w.thread stContained excIllegal 0) else
    match (s.bay w.bay).task with
    | none => .done s
    | some k =>
      let step := match k.wu.step with | .context => max32 | .step n => n
      let seed := (s.descOf k.home k.wu.asn).seed
      .done (s.modThr w.bay w.thread fun t => (t.setV rd (philoxVec seed step k.wu.stage x)).next)
def execPhilox (w : Issue) (rd ra : BitVec 5) (ord : BitVec 4) (xf : BitVec 8) (s : State) : Host.Outcome State Fault Refusal := .next (doPhilox w rd ra ord xf s)

/-! ## Words that spell no instruction (R130) -/

/-- A word that Table 5.2 gives no meaning, at the guard that it carries; a word that spells an instruction is not this command. -/
def doIllegalInstr (w : Issue) (word : BitVec 32) (s : State) : State := 
  if (decodeThreadWord w.bay w.thread word).isSome then s else
  s.issue { w with pg := word.extractLsb' 23 3, pn := word.extractLsb' 22 1 } false [] none fun s => .done s
def execIllegalInstr (w : Issue) (word : BitVec 32) (s : State) : Host.Outcome State Fault Refusal := .next (doIllegalInstr w word s)

/-! ## SYS: YIELD and TRAP -/

/-- One issue slot and no other effect (R126). -/
def doYield (w : Issue) (rd ra : BitVec 5) (ord : BitVec 4) (s : State) : State := 
  s.issueThr w (rd == 0#5 && ra == 0#5) [] none Thread.next
def execYield (w : Issue) (rd ra : BitVec 5) (ord : BitVec 4) (s : State) : Host.Outcome State Fault Refusal := .next (doYield w rd ra ord s)

/-- The trap code is in ORD. -/
def doTrap (w : Issue) (rd ra : BitVec 5) (ord : BitVec 4) (s : State) : State := 
  s.issue w (rd == 0#5 && ra == 0#5) [] none fun s =>
    .done (s.except w.bay w.thread stContained (excTrap + ord.toNat) 0)
def execTrap (w : Issue) (rd ra : BitVec 5) (ord : BitVec 4) (s : State) : Host.Outcome State Fault Refusal := .next (doTrap w rd ra ord s)

end Sys2Proof.Machine
end

