-- ==== Sys2Proof/Machine/ThreadSync.lean ====
section
/-! DEFINITION. Thread instructions that meet the rest of the bay and the work unit: EXIT, barriers, tile and mover issue and
waits, mailboxes (05, R125, R141, R145 to R147; 06, R153, R156, R157; 10, R243, R247). -/
namespace Sys2Proof.Machine
open Sys2Proof

/-! ## EXIT -/

/-- A fault pending for the thread is raised at its EXIT; otherwise the thread stops and its messages are discarded (R125, R147,
R156, R247). -/
def doExit (w : Issue) (rd ra : BitVec 5) (_ord : BitVec 4) (s : State) : State :=
  s.issue w (rd == 0#5 && ra == 0#5) [] none fun s =>
    let t := s.thr w.bay w.thread
    match t.tileFault, t.moveFault with
    | some f, _ => .done (s.raiseFault w.bay w.thread f)
    | none, some f => .done (s.raiseFault w.bay w.thread f)
    | none, none =>
      .done ((s.modThr w.bay w.thread fun t => { t.next with exited := true, mbox := [] }).afterExit w.bay w.thread)
def execExit (w : Issue) (rd ra : BitVec 5) (ord : BitVec 4) (s : State) : Host.Outcome State Fault Refusal :=
  .next (doExit w rd ra ord s)

/-! ## Barriers (Table 5.8) -/

def doBarBay (w : Issue) (rd ra : BitVec 5) (ord : BitVec 4) (s : State) : State :=
  s.issueBar w .bay rd ra ord 16 128 (fun s _ k => ((s.bay w.bay).barriers.getD k none).map (·.count))
    fun s _ k n => s.arriveBay w.bay w.thread k n
def execBarBay (w : Issue) (rd ra : BitVec 5) (ord : BitVec 4) (s : State) : Host.Outcome State Fault Refusal :=
  .next (doBarBay w rd ra ord s)

def doBarNode (w : Issue) (rd ra : BitVec 5) (ord : BitVec 4) (s : State) : State :=
  s.issueBar w .node rd ra ord 64 10240 (fun s task k => (s.nodeBar task k).map (·.count))
    fun s task k n => s.arriveNode task w.bay w.thread k n
def execBarNode (w : Issue) (rd ra : BitVec 5) (ord : BitVec 4) (s : State) : Host.Outcome State Fault Refusal :=
  .next (doBarNode w rd ra ord s)

def doBarFabric (w : Issue) (rd ra : BitVec 5) (ord : BitVec 4) (s : State) : State :=
  s.issueBar w .fabric rd ra ord 16 4194304
    (fun s task k =>
      let c := (s.fabricBar task.home task.wu.asn k).bar.count
      if c = 0 then none else some c)
    fun s task k n => s.arriveFabric task w.bay w.thread k n
def execBarFabric (w : Issue) (rd ra : BitVec 5) (ord : BitVec 4) (s : State) : Host.Outcome State Fault Refusal :=
  .next (doBarFabric w rd ra ord s)

/-! ## Tile and mover issue (R153, R243) -/

/-- A descriptor address: 64-byte aligned, in the bay's own working area. -/
def State.descTarget (s : State) (b : Fin 80) (addr : Word) : Target :=
  match s.target b .load addr 64 with
  | .here a => if a / 0x800000 = b.val then .here a else .address
  | .remote _ _ => .address
  | .misaligned => .misaligned
  | .address => .address
  | .locked => .address
  | .csrStore => .address
  | .left => .address

/-- Copy the 64 bytes of a descriptor; poison raises POISON. -/
def State.takeDesc (s : State) (w : Issue) (addr : Word) (a : Nat) (go : State → List Byte → State) : State :=
  match s.readEnd a 64 with
  | .ok => go (s.meet a 64) (s.mem.read a 64)
  | .poison => (s.meet a 64).except w.bay w.thread stPoison excPoison addr.toNat
  | .absent => (s.meet a 64).except w.bay w.thread stPoison excPoison addr.toNat

def doTissue (w : Issue) (rd ra : BitVec 5) (_ord : BitVec 4) (s : State) : State :=
  s.issue w true [.g ra] (some (.g rd)) fun s =>
    let addr := (s.thr w.bay w.thread).gr ra
    s.onTarget w addr (s.descTarget w.bay addr) fun _ a =>
      if 4 ≤ (s.bay w.bay).tileOut w.thread then .done (s.raiseFault w.bay w.thread (tileFaultOf 0x0607))
      else s.release w .bay fun s => .done (s.takeDesc w addr a fun s bs =>
        let tag := (s.bay w.bay).tileIssued + 1
        let e : QEntry := { tag := tag, thread := w.thread, desc := bs }
        let s := s.modBay w.bay fun y => { y with tileQueue := y.tileQueue ++ [e], tileIssued := tag }
        s.modThr w.bay w.thread fun t => (t.setG rd (BitVec.ofNat 64 tag)).next)
def execTissue (w : Issue) (rd ra : BitVec 5) (ord : BitVec 4) (s : State) : Host.Outcome State Fault Refusal :=
  .next (doTissue w rd ra ord s)

def doMq (w : Issue) (rd ra : BitVec 5) (ord : BitVec 4) (s : State) : State :=
  let m : Fin 2 := if ord.getLsbD 0 then 1 else 0
  s.issue w true [.g ra] (some (.g rd)) fun s =>
    let addr := (s.thr w.bay w.thread).gr ra
    s.onTarget w addr (s.descTarget w.bay addr) fun _ a =>
      if 4 ≤ ((s.bay w.bay).mover m).outOf w.thread then .done (s.raiseFault w.bay w.thread (tileFaultOf 0x0A01))
      else s.release w .node fun s => .done (s.takeDesc w addr a fun s bs =>
        let tag := (s.bay w.bay).moveIssued + 1
        let e : QEntry := { tag := tag, thread := w.thread, desc := bs }
        let s := (s.modMover w.bay m fun q => { q with queue := q.queue ++ [e] }).modBay w.bay fun y =>
          { y with moveIssued := tag }
        s.modThr w.bay w.thread fun t => (t.setG rd (BitVec.ofNat 64 tag)).next)
def execMq (w : Issue) (rd ra : BitVec 5) (ord : BitVec 4) (s : State) : Host.Outcome State Fault Refusal :=
  .next (doMq w rd ra ord s)

/-! ## Waits (R157, R243, R247) -/

/-- A wait for a tag: a pending fault first, then tag 0, a tag never issued, a failed tag, a completed one. -/
def State.waitTag (s : State) (w : Issue) (tag : Nat) (pending : Option FaultInfo) (issued beyond : Nat)
    (failed : List (Nat × FaultInfo)) (open_ : Bool) (on : WaitOn) : Ran :=
  match pending with
  | some f => .done (s.raiseFault w.bay w.thread f)
  | none =>
    if tag = 0 then .done (s.modThr w.bay w.thread Thread.next)
    else if issued < tag then .done (s.raiseFault w.bay w.thread (tileFaultOf beyond))
    else
      match failed.find? fun p => p.1 == tag with
      | some p => .done (s.raiseFault w.bay w.thread p.2)
      | none => if open_ then .wait s on else .done (s.modThr w.bay w.thread Thread.next)

def doTwait (w : Issue) (_rd ra : BitVec 5) (_ord : BitVec 4) (s : State) : State :=
  s.issue w true [.g ra] none fun s =>
    let y := s.bay w.bay
    let t := s.thr w.bay w.thread
    let tag := (t.gr ra).toNat
    s.waitTag w tag t.tileFault y.tileIssued 0x0608 y.tileFailed (y.tileOpen tag) (.tile tag)
def execTwait (w : Issue) (rd ra : BitVec 5) (ord : BitVec 4) (s : State) : Host.Outcome State Fault Refusal :=
  .next (doTwait w rd ra ord s)

def doMwait (w : Issue) (_rd ra : BitVec 5) (_ord : BitVec 4) (s : State) : State :=
  s.issue w true [.g ra] none fun s =>
    let y := s.bay w.bay
    let t := s.thr w.bay w.thread
    let tag := (t.gr ra).toNat
    s.waitTag w tag t.moveFault y.moveIssued 0x0A02 y.moveFailed (y.moveOpen tag) (.move tag)
def execMwait (w : Issue) (rd ra : BitVec 5) (ord : BitVec 4) (s : State) : Host.Outcome State Fault Refusal :=
  .next (doMwait w rd ra ord s)

/-! ## Mailboxes (R147) -/

/-- The bay of a bay task of the sender's work unit on this node; the inner option is none where that task has ended. -/
def State.mboxBay (s : State) (task : Task) (idx : Nat) : Option (Option (Fin 80)) :=
  match s.runOf task.home task.wu with
  | none => none
  | some r => (r.bays.find? fun p => p.1 == idx).map fun p => if r.ended.contains idx then none else some p.2

def doSend (w : Issue) (rd ra : BitVec 5) (_ord : BitVec 4) (s : State) : State :=
  s.issue w true [.g ra, .v rd] none fun s =>
    match (s.bay w.bay).task with
    | none => .done s
    | some task =>
      let me := s.thr w.bay w.thread
      let n := (me.gr ra).toNat
      let dst : Fin 128 := ⟨n % 128, Nat.mod_lt _ (by decide)⟩
      match s.mboxBay task (n / 128) with
      | none => .done (s.except w.bay w.thread stContained excMbox 0)
      | some none => .done (s.modThr w.bay w.thread Thread.next)
      | some (some b) =>
        let t := s.thr b dst
        if t.exited then .done (s.modThr w.bay w.thread Thread.next)
        else if 4 ≤ t.mbox.length then .wait s (.mailbox b dst)
        else
          let s := s.modThr b dst fun t => { t with mbox := t.mbox ++ [me.vr rd] }
          .done (s.modThr w.bay w.thread Thread.next)
def execSend (w : Issue) (rd ra : BitVec 5) (ord : BitVec 4) (s : State) : Host.Outcome State Fault Refusal :=
  .next (doSend w rd ra ord s)

def doRecv (w : Issue) (rd _ra : BitVec 5) (_ord : BitVec 4) (s : State) : State :=
  s.issue w true [] (some (.v rd)) fun s =>
    match (s.thr w.bay w.thread).mbox with
    | [] => .wait s .message
    | m :: rest => .done (s.modThr w.bay w.thread fun t => ({ t with mbox := rest }.setV rd m).next)
def execRecv (w : Issue) (rd ra : BitVec 5) (ord : BitVec 4) (s : State) : Host.Outcome State Fault Refusal :=
  .next (doRecv w rd ra ord s)

end Sys2Proof.Machine
end

