-- ==== Sys2Proof/Machine/Dispatch.lean ====
section
/-! DEFINITION. The dispatch: one arm per command. -/
namespace Sys2Proof.Machine
open Sys2Proof

def exec (i : Instr) (s : State) : Host.Outcome State Fault Refusal :=
  match i with
  | .reqTail f value => Sys2Proof.Machine.execReqTail f value s
  | .descriptorFetch desc => Sys2Proof.Machine.execDescriptorFetch desc s
  | .deadlinePassed asn at_ => Sys2Proof.Machine.execDeadlinePassed asn at_ s
  | .dispatchOpportunity => Sys2Proof.Machine.execDispatchOpportunity s
  | .bayTaskEnd bay at_ energy => Sys2Proof.Machine.execBayTaskEnd bay at_ energy s
  | .hubMoverJob => Sys2Proof.Machine.execHubMoverJob s
  | .hubMoverJobDone job result data => Sys2Proof.Machine.execHubMoverJobDone job result data s
  | .streamCommitPhase2 asn => Sys2Proof.Machine.execStreamCommitPhase2 asn s
  | .auditRecordCommit => Sys2Proof.Machine.execAuditRecordCommit s
  | .anchorRetry at_ => Sys2Proof.Machine.execAnchorRetry at_ s
  | .auditRecordDelivery => Sys2Proof.Machine.execAuditRecordDelivery s
  | .holdQueueDrain => Sys2Proof.Machine.execHoldQueueDrain s
  | .streamLeaseGrant asn => Sys2Proof.Machine.execStreamLeaseGrant asn s
  | .streamSwapInDone asn poisoned => Sys2Proof.Machine.execStreamSwapInDone asn poisoned s
  | .kvAppend bay mover => Sys2Proof.Machine.execKvAppend bay mover s
  | .kvGather bay mover => Sys2Proof.Machine.execKvGather bay mover s
  | .kvRecordCommit wu => Sys2Proof.Machine.execKvRecordCommit wu s
  | .mmul bay => Sys2Proof.Machine.execMmul bay s
  | .conv bay => Sys2Proof.Machine.execConv bay s
  | .tileTagComplete bay => Sys2Proof.Machine.execTileTagComplete bay s
  | .arrayRampDown bay => Sys2Proof.Machine.execArrayRampDown bay s
  | .rampTokenReturn tile => Sys2Proof.Machine.execRampTokenReturn tile s
  | .linear bay mover => Sys2Proof.Machine.execLinear bay mover s
  | .tile bay mover => Sys2Proof.Machine.execTile bay mover s
  | .pack bay mover => Sys2Proof.Machine.execPack bay mover s
  | .unpack bay mover => Sys2Proof.Machine.execUnpack bay mover s
  | .cellStep bay mover => Sys2Proof.Machine.execCellStep bay mover s
  | .moverTagComplete bay mover => Sys2Proof.Machine.execMoverTagComplete bay mover s
  | .exit_ w rd ra ord => Sys2Proof.Machine.execExit w rd ra ord s
  | .yield_ w rd ra ord => Sys2Proof.Machine.execYield w rd ra ord s
  | .trap w rd ra ord => Sys2Proof.Machine.execTrap w rd ra ord s
  | .aluAdd w rd ra rb => Sys2Proof.Machine.execAluAdd w rd ra rb s
  | .aluSub w rd ra rb => Sys2Proof.Machine.execAluSub w rd ra rb s
  | .aluAnd w rd ra rb => Sys2Proof.Machine.execAluAnd w rd ra rb s
  | .aluOr w rd ra rb => Sys2Proof.Machine.execAluOr w rd ra rb s
  | .aluXor w rd ra rb => Sys2Proof.Machine.execAluXor w rd ra rb s
  | .aluSll w rd ra rb => Sys2Proof.Machine.execAluSll w rd ra rb s
  | .aluSrl w rd ra rb => Sys2Proof.Machine.execAluSrl w rd ra rb s
  | .aluSra w rd ra rb => Sys2Proof.Machine.execAluSra w rd ra rb s
  | .aluMul w rd ra rb => Sys2Proof.Machine.execAluMul w rd ra rb s
  | .aluMulhu w rd ra rb => Sys2Proof.Machine.execAluMulhu w rd ra rb s
  | .aluDivu w rd ra rb => Sys2Proof.Machine.execAluDivu w rd ra rb s
  | .aluRemu w rd ra rb => Sys2Proof.Machine.execAluRemu w rd ra rb s
  | .aluMinu w rd ra rb => Sys2Proof.Machine.execAluMinu w rd ra rb s
  | .aluMaxu w rd ra rb => Sys2Proof.Machine.execAluMaxu w rd ra rb s
  | .aluMin w rd ra rb => Sys2Proof.Machine.execAluMin w rd ra rb s
  | .aluMax w rd ra rb => Sys2Proof.Machine.execAluMax w rd ra rb s
  | .pcmpEq w rd ra rb => Sys2Proof.Machine.execPcmpEq w rd ra rb s
  | .pcmpNe w rd ra rb => Sys2Proof.Machine.execPcmpNe w rd ra rb s
  | .pcmpLt w rd ra rb => Sys2Proof.Machine.execPcmpLt w rd ra rb s
  | .pcmpGe w rd ra rb => Sys2Proof.Machine.execPcmpGe w rd ra rb s
  | .pcmpLtu w rd ra rb => Sys2Proof.Machine.execPcmpLtu w rd ra rb s
  | .pcmpGeu w rd ra rb => Sys2Proof.Machine.execPcmpGeu w rd ra rb s
  | .addi w rd ra imm => Sys2Proof.Machine.execAddi w rd ra imm s
  | .andi w rd ra imm => Sys2Proof.Machine.execAndi w rd ra imm s
  | .ori w rd ra imm => Sys2Proof.Machine.execOri w rd ra imm s
  | .lih w rd ra imm => Sys2Proof.Machine.execLih w rd ra imm s
  | .vopAdd w ty rd ra rb => Sys2Proof.Machine.execVopAdd w ty rd ra rb s
  | .vopSub w ty rd ra rb => Sys2Proof.Machine.execVopSub w ty rd ra rb s
  | .vopMul w ty rd ra rb => Sys2Proof.Machine.execVopMul w ty rd ra rb s
  | .vopMin w ty rd ra rb => Sys2Proof.Machine.execVopMin w ty rd ra rb s
  | .vopMax w ty rd ra rb => Sys2Proof.Machine.execVopMax w ty rd ra rb s
  | .vopFma w ty rd ra rb => Sys2Proof.Machine.execVopFma w ty rd ra rb s
  | .vopAnd w ty rd ra rb => Sys2Proof.Machine.execVopAnd w ty rd ra rb s
  | .vopOr w ty rd ra rb => Sys2Proof.Machine.execVopOr w ty rd ra rb s
  | .vopXor w ty rd ra rb => Sys2Proof.Machine.execVopXor w ty rd ra rb s
  | .vopShl w ty rd ra rb => Sys2Proof.Machine.execVopShl w ty rd ra rb s
  | .vopShr w ty rd ra rb => Sys2Proof.Machine.execVopShr w ty rd ra rb s
  | .vopExp w ty rd ra rb => Sys2Proof.Machine.execVopExp w ty rd ra rb s
  | .vcvt w fn rd ra rb => Sys2Proof.Machine.execVcvt w fn rd ra rb s
  | .vredSum w ty rd ra rb => Sys2Proof.Machine.execVredSum w ty rd ra rb s
  | .vredMax w ty rd ra rb => Sys2Proof.Machine.execVredMax w ty rd ra rb s
  | .vredMin w ty rd ra rb => Sys2Proof.Machine.execVredMin w ty rd ra rb s
  | .vget w rd ra rb => Sys2Proof.Machine.execVget w rd ra rb s
  | .vput w rd ra rb => Sys2Proof.Machine.execVput w rd ra rb s
  | .vbcast w rd ra rb => Sys2Proof.Machine.execVbcast w rd ra rb s
  | .ld w rt ra sz off => Sys2Proof.Machine.execLd w rt ra sz off s
  | .lds w rt ra sz off => Sys2Proof.Machine.execLds w rt ra sz off s
  | .st w rt ra sz off => Sys2Proof.Machine.execSt w rt ra sz off s
  | .vld w rt ra sz off => Sys2Proof.Machine.execVld w rt ra sz off s
  | .vst w rt ra sz off => Sys2Proof.Machine.execVst w rt ra sz off s
  | .storeLineDrain bay thread line => Sys2Proof.Machine.execStoreLineDrain bay thread line s
  | .br w off => Sys2Proof.Machine.execBr w off s
  | .call w off => Sys2Proof.Machine.execCall w off s
  | .jr w rd ra rb fn => Sys2Proof.Machine.execJr w rd ra rb fn s
  | .atomLd w rd ra ord width => Sys2Proof.Machine.execAtomLd w rd ra ord width s
  | .atomSt w rd ra ord width => Sys2Proof.Machine.execAtomSt w rd ra ord width s
  | .atomSwap w rd ra ord width => Sys2Proof.Machine.execAtomSwap w rd ra ord width s
  | .atomCas w rd ra ord width => Sys2Proof.Machine.execAtomCas w rd ra ord width s
  | .atomAdd w rd ra ord width => Sys2Proof.Machine.execAtomAdd w rd ra ord width s
  | .atomAnd w rd ra ord width => Sys2Proof.Machine.execAtomAnd w rd ra ord width s
  | .atomOr w rd ra ord width => Sys2Proof.Machine.execAtomOr w rd ra ord width s
  | .atomXor w rd ra ord width => Sys2Proof.Machine.execAtomXor w rd ra ord width s
  | .atomMin w rd ra ord width => Sys2Proof.Machine.execAtomMin w rd ra ord width s
  | .atomMax w rd ra ord width => Sys2Proof.Machine.execAtomMax w rd ra ord width s
  | .atomMinu w rd ra ord width => Sys2Proof.Machine.execAtomMinu w rd ra ord width s
  | .atomMaxu w rd ra ord width => Sys2Proof.Machine.execAtomMaxu w rd ra ord width s
  | .fenceB w rd ra ord => Sys2Proof.Machine.execFenceB w rd ra ord s
  | .fenceN w rd ra ord => Sys2Proof.Machine.execFenceN w rd ra ord s
  | .fenceG w rd ra ord => Sys2Proof.Machine.execFenceG w rd ra ord s
  | .barBay w rd ra ord => Sys2Proof.Machine.execBarBay w rd ra ord s
  | .barNode w rd ra ord => Sys2Proof.Machine.execBarNode w rd ra ord s
  | .barFabric w rd ra ord => Sys2Proof.Machine.execBarFabric w rd ra ord s
  | .tissue w rd ra ord => Sys2Proof.Machine.execTissue w rd ra ord s
  | .twait w rd ra ord => Sys2Proof.Machine.execTwait w rd ra ord s
  | .mq w rd ra ord => Sys2Proof.Machine.execMq w rd ra ord s
  | .mwait w rd ra ord => Sys2Proof.Machine.execMwait w rd ra ord s
  | .send w rd ra ord => Sys2Proof.Machine.execSend w rd ra ord s
  | .recv w rd ra ord => Sys2Proof.Machine.execRecv w rd ra ord s
  | .philox w rd ra ord xf => Sys2Proof.Machine.execPhilox w rd ra ord xf s
  | .ctx w rd ra ord xf => Sys2Proof.Machine.execCtx w rd ra ord xf s
  | .pwrOkRise straps btnLow cxlPorts cxlDevs => Sys2Proof.Machine.execPwrOkRise straps btnLow cxlPorts cxlDevs s
  | .pwrOkFall => Sys2Proof.Machine.execPwrOkFall s
  | .coldResetPerform straps btnLow cxlPorts cxlDevs => Sys2Proof.Machine.execColdResetPerform straps btnLow cxlPorts cxlDevs s
  | .refQualified at_ => Sys2Proof.Machine.execRefQualified at_ s
  | .pllLock at_ => Sys2Proof.Machine.execPllLock at_ s
  | .powerOnBist failBays hubFail rcDead => Sys2Proof.Machine.execPowerOnBist failBays hubFail rcDead s
  | .slotVerify timeoutA timeoutB => Sys2Proof.Machine.execSlotVerify timeoutA timeoutB s
  | .hbmTrainingDone => Sys2Proof.Machine.execHbmTrainingDone s
  | .weightFetchDone entry peer delivered data => Sys2Proof.Machine.execWeightFetchDone entry peer delivered data s
  | .weightCodingDone entry => Sys2Proof.Machine.execWeightCodingDone entry s
  | .bootReady => Sys2Proof.Machine.execBootReady s
  | .sysRstNLow => Sys2Proof.Machine.execSysRstNLow s
  | .resetBtnPress => Sys2Proof.Machine.execResetBtnPress s
  | .resetBtnRelease => Sys2Proof.Machine.execResetBtnRelease s
  | .resetBtnHold => Sys2Proof.Machine.execResetBtnHold s
  | .buttonRearm => Sys2Proof.Machine.execButtonRearm s
  | .watchdogExpiry core => Sys2Proof.Machine.execWatchdogExpiry core s
  | .warmResetPerform => Sys2Proof.Machine.execWarmResetPerform s
  | .warmResetComplete => Sys2Proof.Machine.execWarmResetComplete s
  | .safeCommitReset at_ => Sys2Proof.Machine.execSafeCommitReset at_ s
  | .thermtrip sensor => Sys2Proof.Machine.execThermtrip sensor s
  | .fatalFault code => Sys2Proof.Machine.execFatalFault code s
  | .refGlitch at_ => Sys2Proof.Machine.execRefGlitch at_ s
  | .refDrift fast => Sys2Proof.Machine.execRefDrift fast s
  | .refDriftClear => Sys2Proof.Machine.execRefDriftClear s
  | .refLost => Sys2Proof.Machine.execRefLost s
  | .avsTargetReached tile => Sys2Proof.Machine.execAvsTargetReached tile s
  | .avsTimeout tile => Sys2Proof.Machine.execAvsTimeout tile s
  | .p2Entry at_ => Sys2Proof.Machine.execP2Entry at_ s
  | .p3Entry at_ => Sys2Proof.Machine.execP3Entry at_ s
  | .aonTimerExpiry at_ => Sys2Proof.Machine.execAonTimerExpiry at_ s
  | .pcieWake => Sys2Proof.Machine.execPcieWake s
  | .trussListenWake port => Sys2Proof.Machine.execTrussListenWake port s
  | .p3ExitComplete at_ => Sys2Proof.Machine.execP3ExitComplete at_ s
  | .swRailMinLowEnd at_ => Sys2Proof.Machine.execSwRailMinLowEnd at_ s
  | .budgetWindowStart at_ sensors rails base => Sys2Proof.Machine.execBudgetWindowStart at_ sensors rails base s
  | .schedulerEpochBoundary at_ => Sys2Proof.Machine.execSchedulerEpochBoundary at_ s
  | .estimatorRecalibration at_ vrm est part => Sys2Proof.Machine.execEstimatorRecalibration at_ vrm est part s
  | .vrmTelemetryStale at_ => Sys2Proof.Machine.execVrmTelemetryStale at_ s
  | .hbmTempPoll at_ temps => Sys2Proof.Machine.execHbmTempPoll at_ temps s
  | .hbmTempTimeout stack at_ => Sys2Proof.Machine.execHbmTempTimeout stack at_ s
  | .wuTimeout bay at_ => Sys2Proof.Machine.execWuTimeout bay at_ s
  | .bayFence bay => Sys2Proof.Machine.execBayFence bay s
  | .stageImage f seq dma => Sys2Proof.Machine.execStageImage f seq dma s
  | .commitImage f seq => Sys2Proof.Machine.execCommitImage f seq s
  | .flashOperationDone ok at_ => Sys2Proof.Machine.execFlashOperationDone ok at_ s
  | .getInfo f seq => Sys2Proof.Machine.execGetInfo f seq s
  | .setTunable f seq => Sys2Proof.Machine.execSetTunable f seq s
  | .quiesce f seq => Sys2Proof.Machine.execQuiesce f seq s
  | .quiesceComplete => Sys2Proof.Machine.execQuiesceComplete s
  | .resume f seq => Sys2Proof.Machine.execResume f seq s
  | .warmReset f seq => Sys2Proof.Machine.execWarmReset f seq s
  | .snapshot f seq => Sys2Proof.Machine.execSnapshot f seq s
  | .plumbNow f seq => Sys2Proof.Machine.execPlumbNow f seq s
  | .sentinelRead f seq => Sys2Proof.Machine.execSentinelRead f seq s
  | .exportPubkey f seq => Sys2Proof.Machine.execExportPubkey f seq s
  | .setTimeOffset f seq => Sys2Proof.Machine.execSetTimeOffset f seq s
  | .leaveFabric f seq => Sys2Proof.Machine.execLeaveFabric f seq s
  | .arm f value => Sys2Proof.Machine.execArm f value s
  | .disarm f => Sys2Proof.Machine.execDisarm f s
  | .tailErrClear f => Sys2Proof.Machine.execTailErrClear f s
  | .cplHead f value => Sys2Proof.Machine.execCplHead f value s
  | .audHead value => Sys2Proof.Machine.execAudHead value s
  | .irqCauseClear f value => Sys2Proof.Machine.execIrqCauseClear f value s
  | .take => Sys2Proof.Machine.execTake s
  | .load index => Sys2Proof.Machine.execLoad index s
  | .registerWrite f win offset width value dma => Sys2Proof.Machine.execRegisterWrite f win offset width value dma s
  | .flr f => Sys2Proof.Machine.execFlr f s
  | .perstNAssert => Sys2Proof.Machine.execPerstNAssert s
  | .perstNDeassert => Sys2Proof.Machine.execPerstNDeassert s
  | .doeDiscovery index => Sys2Proof.Machine.execDoeDiscovery index s
  | .getVersion => Sys2Proof.Machine.execGetVersion s
  | .getCapabilities => Sys2Proof.Machine.execGetCapabilities s
  | .negotiateAlgorithms ecdsaP384 sha384 => Sys2Proof.Machine.execNegotiateAlgorithms ecdsaP384 sha384 s
  | .getDigests => Sys2Proof.Machine.execGetDigests s
  | .getCertificate slot offset length => Sys2Proof.Machine.execGetCertificate slot offset length s
  | .challenge slot nonce => Sys2Proof.Machine.execChallenge slot nonce s
  | .getMeasurements index sign nonce => Sys2Proof.Machine.execGetMeasurements index sign nonce s
  | .smbusStatus => Sys2Proof.Machine.execSmbusStatus s
  | .smbusTmax => Sys2Proof.Machine.execSmbusTmax s
  | .smbusModulePower => Sys2Proof.Machine.execSmbusModulePower s
  | .smbusHbmTemp => Sys2Proof.Machine.execSmbusHbmTemp s
  | .smbusNodeEpoch => Sys2Proof.Machine.execSmbusNodeEpoch s
  | .smbusDegradedCount => Sys2Proof.Machine.execSmbusDegradedCount s
  | .smbusStepping => Sys2Proof.Machine.execSmbusStepping s
  | .cxlEventPoll at_ events => Sys2Proof.Machine.execCxlEventPoll at_ events s
  | .cxlDeviceLost dev => Sys2Proof.Machine.execCxlDeviceLost dev s
  | .detectBurst port => Sys2Proof.Machine.execDetectBurst port s
  | .peerSignalDetect port at_ => Sys2Proof.Machine.execPeerSignalDetect port at_ s
  | .trainingSet port set => Sys2Proof.Machine.execTrainingSet port set s
  | .eqTimeout port => Sys2Proof.Machine.execEqTimeout port s
  | .trainingTimeout port => Sys2Proof.Machine.execTrainingTimeout port s
  | .dataFlit port words => Sys2Proof.Machine.execDataFlit port words s
  | .idle port words => Sys2Proof.Machine.execIdle port words s
  | .nak port words => Sys2Proof.Machine.execNak port words s
  | .silent port words => Sys2Proof.Machine.execSilent port words s
  | .health port words => Sys2Proof.Machine.execHealth port words s
  | .spare port words => Sys2Proof.Machine.execSpare port words s
  | .unspare port words => Sys2Proof.Machine.execUnspare port words s
  | .reconfig port words => Sys2Proof.Machine.execReconfig port words s
  | .resync port words => Sys2Proof.Machine.execResync port words s
  | .nakRepeat port => Sys2Proof.Machine.execNakRepeat port s
  | .replayTimeout port at_ => Sys2Proof.Machine.execReplayTimeout port at_ s
  | .recoveryTimeout port => Sys2Proof.Machine.execRecoveryTimeout port s
  | .evaluationWindowEnd port at_ => Sys2Proof.Machine.execEvaluationWindowEnd port at_ s
  | .laneFailure port lane => Sys2Proof.Machine.execLaneFailure port lane s
  | .marginUpdate port margins => Sys2Proof.Machine.execMarginUpdate port margins s
  | .spareSwitchEffective port => Sys2Proof.Machine.execSpareSwitchEffective port s
  | .portRestore port at_ => Sys2Proof.Machine.execPortRestore port at_ s
  | .drainEnd port => Sys2Proof.Machine.execDrainEnd port s
  | .codewordLockLoss port => Sys2Proof.Machine.execCodewordLockLoss port s
  | .helloSend port => Sys2Proof.Machine.execHelloSend port s
  | .hello port h at_ => Sys2Proof.Machine.execHello port h at_ s
  | .helloTimeout port => Sys2Proof.Machine.execHelloTimeout port s
  | .lsa port r at_ => Sys2Proof.Machine.execLsa port r at_ s
  | .lsaRefresh at_ => Sys2Proof.Machine.execLsaRefresh at_ s
  | .lsaAgeOut origin => Sys2Proof.Machine.execLsaAgeOut origin s
  | .routeCompute => Sys2Proof.Machine.execRouteCompute s
  | .epoch port r at_ => Sys2Proof.Machine.execEpoch port r at_ s
  | .epochSettle at_ => Sys2Proof.Machine.execEpochSettle at_ s
  | .caps port r => Sys2Proof.Machine.execCaps port r s
  | .leave port r => Sys2Proof.Machine.execLeave port r s
  | .tokenReq h body => Sys2Proof.Machine.execTokenReq h body s
  | .token h asn number bases => Sys2Proof.Machine.execToken h asn number bases s
  | .tokenRefuse h asn reason => Sys2Proof.Machine.execTokenRefuse h asn reason s
  | .tokenRelease h asn => Sys2Proof.Machine.execTokenRelease h asn s
  | .stepAck h wu => Sys2Proof.Machine.execStepAck h wu s
  | .abort h asn status => Sys2Proof.Machine.execAbort h asn status s
  | .weightQuery h object hash => Sys2Proof.Machine.execWeightQuery h object hash s
  | .weightHave h object holds => Sys2Proof.Machine.execWeightHave h object holds s
  | .read h => Sys2Proof.Machine.execRead h s
  | .write h data => Sys2Proof.Machine.execWrite h data s
  | .atomic h ord xf operand compare => Sys2Proof.Machine.execAtomic h ord xf operand compare s
  | .actPush h p data => Sys2Proof.Machine.execActPush h p data s
  | .lease h op key leaseEpoch => Sys2Proof.Machine.execLease h op key leaseEpoch s
  | .barrier h asn slot generation arrived count isRelease => Sys2Proof.Machine.execBarrier h asn slot generation arrived count isRelease s
  | .barrierBatchSend at_ => Sys2Proof.Machine.execBarrierBatchSend at_ s
  | .time h isResponse t1 t2 t3 t4 => Sys2Proof.Machine.execTime h isResponse t1 t2 t3 t4 s
  | .timeSyncSend at_ => Sys2Proof.Machine.execTimeSyncSend at_ s
  | .transportResponse h vc data => Sys2Proof.Machine.execTransportResponse h vc data s
  | .requestTimeout dst vc tseq at_ => Sys2Proof.Machine.execRequestTimeout dst vc tseq at_ s
  | .transitDrop port vc => Sys2Proof.Machine.execTransitDrop port vc s
  | .sentinelFrameEnd at_ pdm => Sys2Proof.Machine.execSentinelFrameEnd at_ pdm s
  | .wakePulseEnd at_ => Sys2Proof.Machine.execWakePulseEnd at_ s
  | .prerollFreeze at_ => Sys2Proof.Machine.execPrerollFreeze at_ s
  | .wakeWindowClose at_ => Sys2Proof.Machine.execWakeWindowClose at_ s
  | .mute => Sys2Proof.Machine.execMute s
  | .muteEraseDone => Sys2Proof.Machine.execMuteEraseDone s
  | .unmute at_ => Sys2Proof.Machine.execUnmute at_ s
  | .pdmClkStart at_ => Sys2Proof.Machine.execPdmClkStart at_ s
  | .micSelfCheck at_ chans => Sys2Proof.Machine.execMicSelfCheck at_ chans s
  | .snapshotPulse => Sys2Proof.Machine.execSnapshotPulse s
  | .periodicSnapshot at_ => Sys2Proof.Machine.execPeriodicSnapshot at_ s
  | .bandwidthWindowEnd at_ => Sys2Proof.Machine.execBandwidthWindowEnd at_ s
  | .plumbRunStart trigger at_ => Sys2Proof.Machine.execPlumbRunStart trigger at_ s
  | .plumbRoundStart tile => Sys2Proof.Machine.execPlumbRoundStart tile s
  | .plumbSegmentEnd tile starved => Sys2Proof.Machine.execPlumbSegmentEnd tile starved s
  | .plumbStepDone tile passed group hubFail => Sys2Proof.Machine.execPlumbStepDone tile passed group hubFail s
  | .patrolScrub addr result => Sys2Proof.Machine.execPatrolScrub addr result s
  | .sysRstNRelease straps btnLow cxlPorts cxlDevs => Sys2Proof.Machine.execSysRstNRelease straps btnLow cxlPorts cxlDevs s
  | .flitSlot slot => Sys2Proof.Machine.execFlitSlot slot s
  | .configSpaceWrite w => Sys2Proof.Machine.execConfigSpaceWrite w s
  | .pcieLinkUp => Sys2Proof.Machine.execPcieLinkUp s
  | .unsupportedRequest r => Sys2Proof.Machine.execUnsupportedRequest r s
  | .smbusBusTimeout => Sys2Proof.Machine.execSmbusBusTimeout s
  | .tapInstruction ins => Sys2Proof.Machine.execTapInstruction ins s
  | .illegalInstr w word => Sys2Proof.Machine.execIllegalInstr w word s
  | .arrayOff bay => Sys2Proof.Machine.execArrayOff bay s

end Sys2Proof.Machine
end

