-- ==== Sys2Proof/Safety.lean ====
section
/-! DEFINITION. What the claims call a sound state, a thread that issues, and a part of the state left as it was, in terms of the
model's own predicates. -/
namespace Sys2Proof
open Sys2Proof.Machine

/-! ## Sound states -/

/-- Every byte store of the state is in its one canonical form: addresses strictly rising, nothing listed that an unlisted address
reads as (0 in device memory, 0xFF in the flash). -/
def Safety.canonical (s : State) : Prop := Memory.wf 0 s.mem.cells = true ∧ Memory.wf 0xFF s.boot.flash = true

/-- The parts have the numbers the spec gives them: 80 bays of 128 threads with 32 general and 32 vector registers each, 16 bay
barrier slots and two movers; a store buffer of at most eight 64-byte lines and a mailbox of at most four messages; twelve ports of
four virtual channels; sixteen function pages; four tiles, with as many plumb records and ramp-token pools; thirteen rails; eight stacks. -/
def Safety.shaped (s : State) : Prop :=
  s.bays.length = 80 ∧ s.truss.length = 12 ∧ s.host.pages.length = 16 ∧ s.clk.tiles.length = 4 ∧
  (∀ y ∈ s.bays, y.threads.length = 128 ∧ y.movers.length = 2 ∧ y.barriers.length = 16 ∧
    ∀ t ∈ y.threads, t.g.length = 32 ∧ t.v.length = 32 ∧ t.buf.length ≤ 8 ∧ t.mbox.length ≤ 4 ∧
      ∀ l ∈ t.buf, l.bytes.length = 64) ∧
  (∀ p ∈ s.truss, p.vcq.length = 4) ∧ s.plumb.tiles.length = 4 ∧ s.stew.tokens.length = 4 ∧ s.stew.tokensOut.length = 4 ∧
  s.stew.tokenWait.length = 4 ∧ s.stew.gain.length = 13 ∧ s.stew.hbmStep.length = 8

/-- A step that neither faults nor is refused. -/
def Safety.steps (s : State) : Prop := ∃ t, step s = .next t

/-! ## A thread that issues an instruction (05, R126 to R128) -/

/-- The thread is ready, its pc is aligned and lies in the program region, and the guard lets the instruction take effect. -/
def Safety.issues (s : State) (w : Issue) : Prop :=
  s.canIssue w = true ∧ (s.thr w.bay w.thread).pc.toNat % 4 = 0 ∧ s.fetchable (s.thr w.bay w.thread).pc = true ∧
  (s.thr w.bay w.thread).guard w = true

/-- None of these registers awaits the value of a load. -/
def Safety.loaded (s : State) (w : Issue) (rs : List RegName) : Prop :=
  ∀ r ∈ rs, (s.thr w.bay w.thread).pend.contains r.key = false

/-- Entry `e` is at the head of mover queue `m` and may run: nothing before it failed, and it has not run yet. -/
def Safety.headOf (s : State) (b : Fin 80) (m : Fin 2) (task : Task) (e : QEntry) : Prop :=
  s.running = true ∧ (s.bay b).task = some task ∧ (∃ rest, ((s.bay b).mover m).queue = e :: rest) ∧
  ((s.bay b).mover m).ran = none ∧ ((s.bay b).mover m).halted = none

/-- Every byte of a range lies in bay SRAM or T1. -/
def Safety.inT0T1 (s : State) (a n : Nat) : Prop := ∀ j < n, s.region (a + j) = .t0 ∨ s.region (a + j) = .t1

/-- No line of device memory holds a corrected error or poison. -/
def Safety.clean (s : State) : Prop := s.mem.ceLines = [] ∧ s.mem.poison = []

/-- The host reaches function `f` and no mailbox command runs or waits; its write of MBX_CMD starts `j` (R375). -/
def Safety.mailbox (s : State) (f : Fin 16) (id : Nat) (seq : BitVec 16) (dma : Option (List Byte)) (j : MbxJob) : Prop :=
  s.reachable f = true ∧ s.asleep = false ∧ s.host.mbxRunning = none ∧ s.host.mbxWaiting = [] ∧ (s.page f).mbxBusy = false ∧
  (s.page f).mbxDrop = false ∧ j = { f := f, id := id, seq := seq, args := (s.page f).mbxArgs, dma := dma }

/-- The command of function `f` has ended with its code, sequence number and result, and vector 0 is raised. -/
def Safety.posted (t : State) (f : Fin 16) (seq : BitVec 16) (code : Nat) (res : List Byte) : Prop :=
  (t.page f).mbxBusy = false ∧ (t.page f).mbxCode = BitVec.ofNat 8 code ∧ (t.page f).mbxSeq = seq ∧
  (t.page f).mbxResult = fit 64 res ∧ (t.page f).irqCause.getLsbD 0 = true ∧ t.host.mbxRunning = none

/-- The codewords that arrive at an ACTIVE port complete flit `f`, and `p` is the port that has read it; `whole` says that every codeword
with a bit of it was correctable (R289, R290). -/
def Safety.reads (s : State) (n : Fin 12) (words : List LaneLevels) (f : Flit) (whole : Bool) (p : Port) : Prop :=
  s.linkRuns = true ∧ (s.port n).state = .active ∧ ((s.readWords n words).port n).nextFlit = some (f, whole, p)

/-- An ACTIVE port takes flit `f`: its codewords, its CRC and its TYPE are good, and a sequenced one has the expected SEQ (R292, R297,
R298). -/
def Safety.receives (s : State) (n : Fin 12) (words : List LaneLevels) (f : Flit) (p : Port) (type : Nat) : Prop :=
  Safety.reads s n words f true p ∧ f.good = true ∧ f.head.type = type ∧ (type = flitData ∨ type = flitLctl → f.head.seq = p.rxSeq)

/-- What the header of a good flit has done to its port, and for a sequenced flit its number. -/
def Safety.heard (s : State) (p : Port) (f : Flit) (type : Nat) : Port :=
  let q := p.hear s.clk.devTime f.head
  if type = flitData ∨ type = flitLctl then { q with rxSeq := (q.rxSeq + 1) % 4096, discarding := false, nakDue := false } else q

/-- A request command of the fabric: its header, and its message (Tables 13.1 and 13.3). -/
def Safety.messageOf : Instr → Option (Header × Message)
  | .tokenReq h b => some (h, .tokenReq b)
  | .tokenRelease h asn => some (h, .tokenRelease asn)
  | .stepAck h wu => some (h, .stepAck wu)
  | .abort h asn status => some (h, .abort asn status)
  | .weightQuery h o hash => some (h, .weightQuery o hash)
  | .weightHave h o holds => some (h, .weightHave o holds)
  | .read h => some (h, .read)
  | .write h data => some (h, .write data)
  | .atomic h _ xf operand cmp => some (h, .atomic xf operand cmp)
  | .actPush h p data => some (h, .actPush p data)
  | .lease h op key e => some (h, .lease op key e)
  | .barrier h asn slot gen arrived count rel => some (h, .barrier asn slot gen arrived count rel)
  | .time h false _ t2 t3 _ => some (h, .time t2 t3)
  | _ => none

/-- The state once a request has been marked as executed at its receiver (R335, R336). -/
def Safety.accepted (s : State) (h : Header) (vc : Nat) : State := s.modNet fun n => n.setRx ((n.rx h.src.toNat vc).done h)

/-- A request runs at once, and no message that is held for its order follows it (R336). -/
def Safety.runs (s : State) (h : Header) (vc : Nat) : Prop :=
  s.rxVerdict h vc = .run ∧ ((s.net.rx h.src.toNat vc).done h).nextHeld = none

/-- The answer held for a request's duplicates is its response with this STATUS, ARG and data (R335). -/
def Safety.answeredArg (t : State) (h : Header) (vc mtype status arg : Nat) (data : List Byte) : Prop :=
  (h.tseq.toNat, msgBytes (mtype + 0x80) t.net.nodeId h.src.toNat 0 0 h.tseq.toNat 0 0 status t.net.settled arg data) ∈
    (t.net.rx h.src.toNat vc).cached

/-- The same with ARG 0, as in every response but that of a READ (log entry 57). -/
def Safety.answered (t : State) (h : Header) (vc mtype status : Nat) (data : List Byte) : Prop :=
  Safety.answeredArg t h vc mtype status 0 data

/-- A transport request with this MTYPE and this body is outstanding to a node on a channel (R335). -/
def Safety.asked (t : State) (dst vc mtype : Nat) (body : List Byte) : Prop :=
  ∃ x ∈ t.net.txns, x.dst = dst ∧ x.vc = vc ∧ fieldLE x.bytes 0 1 = mtype ∧ x.bytes.drop 32 = body

/-- A ready work unit that may start at once: its bays and its T0 use fit, and neither its class's share of the window's budget nor what
remains of the budget is below its full charge (R107, R108). -/
def Safety.dispatchable (s : State) (c : Cand) : Prop :=
  s.fits c = true ∧ s.usedShare c.d.cls + (s.priceOf c).1 ≤ s.classShare c.d.cls ∧ ((s.priceOf c).1 : Int) ≤ s.stew.remain

/-! ## What stays as it was -/

/-- Only the network state, the ports' queues, counters and device time change. -/
def Frame.net (s t : State) : Prop := t = { s with net := t.net, truss := t.truss, cnt := t.cnt, clk := t.clk }

/-- Beside port `n`, only counters change. -/
def Frame.port (s t : State) (n : Fin 12) : Prop :=
  t = { s with truss := t.truss, cnt := t.cnt } ∧ ∀ q, q ≠ n → t.port q = s.port q

/-- Beside port `n`, only counters and the error log change, and the PF's vector 2 with it. -/
def Frame.portRecord (s t : State) (n : Fin 12) : Prop :=
  t = { s with truss := t.truss, cnt := t.cnt, err := t.err, host := t.host } ∧ ∀ q, q ≠ n → t.port q = s.port q

/-- Of bay `b` only its movers change, and beside it only memory and counters. -/
def Frame.mover (s t : State) (b : Fin 80) : Prop :=
  t = { s with bays := t.bays, mem := t.mem, cnt := t.cnt } ∧ (∀ c, c ≠ b → t.bay c = s.bay c) ∧
  t.bay b = { s.bay b with movers := (t.bay b).movers }

/-- Outside the issuing thread nothing changes but the core's round-robin place, the event counters, and whom the
answers of outstanding loads serve: every other thread, the rest of the bay, every other bay, all memory, and every other part. -/
def Frame.outside (s t : State) (w : Issue) : Prop :=
  t = { s with bays := t.bays, cnt := t.cnt, net := t.net } ∧
  (∀ b, b ≠ w.bay → t.bay b = s.bay b) ∧
  (∀ u, u ≠ w.thread → t.thr w.bay u = s.thr w.bay u) ∧
  t.bay w.bay = { s.bay w.bay with threads := (t.bay w.bay).threads, rr := (t.bay w.bay).rr } ∧
  t.cnt = { s.cnt with values := t.cnt.values } ∧
  t.net = { s.net with txns := t.net.txns, unsent := t.net.unsent } ∧
  t.net.txns.map (fun x => { x with purpose := .other }) = s.net.txns.map (fun x => { x with purpose := .other }) ∧
  t.net.unsent.map (fun x => { x with purpose := .other }) = s.net.unsent.map (fun x => { x with purpose := .other })

/-- Of the thread, only the pc and general register `rd` change (and a value still on its way into `rd` is dropped). -/
def Frame.general (a b : Thread) (rd : BitVec 5) : Prop :=
  b = { a with pc := b.pc, g := b.g, wait := .ready, pend := a.pend.filter (· != RegName.key (.g rd)) } ∧
  ∀ n, n ≠ rd → b.gr n = a.gr n

/-- Of the thread, only the pc and vector register `rd` change. -/
def Frame.vector (a b : Thread) (rd : BitVec 5) : Prop :=
  b = { a with pc := b.pc, v := b.v, wait := .ready, pend := a.pend.filter (· != RegName.key (.v rd)) } ∧
  ∀ n, n ≠ rd → b.vr n = a.vr n

/-- Of the thread, only the pc and predicate `pd` change. -/
def Frame.predicate (a b : Thread) (pd : BitVec 3) : Prop :=
  b = { a with pc := b.pc, p := b.p, wait := .ready } ∧ ∀ n, n ≠ pd → b.pred n = a.pred n

end Sys2Proof
end

