-- ==== Sys2Proof/Certificates/Slice0/Obligations.lean ====
section
/-! DEFINITION. The statements for the provers, chapter by chapter of the spec. -/
open Sys2Proof Sys2Proof.Machine

/-! ## The queue and the encodings -/

/-- Log entry 2: a step takes the command at the front of the queue and runs its meaning with the queue's rest. -/
def Obligations.StepRunsTheFrontCommand : Prop :=
  ∀ (s : State) (c : Instr) (rest : List Instr), s.pending = c :: rest → step s = exec c { s with pending := rest }

/-- R128, R129, Tables 5.1 to 5.4: no field of a thread instruction is dropped, in either direction: the word of a legal
instruction decodes to it, and a word that decodes to an instruction is that instruction's word. -/
def Obligations.ThreadWordsRoundTrip : Prop :=
  (∀ (i : Instr) (x : BitVec 32) (w : Issue), encodeThread i = some x → i.issue = some w → i.threadLegal = true →
    decodeThreadWord w.bay w.thread x = some i) ∧
  (∀ (b : Fin 80) (t : Fin 128) (x : BitVec 32) (i : Instr), decodeThreadWord b t x = some i →
    encodeThread i = some x ∧ i.threadLegal = true ∧ ∃ w, i.issue = some w ∧ w.bay = b ∧ w.thread = t)

/-! ## Thread instructions on registers (05) -/

/-- R131, Table 5.2: the sixteen ALU functions write g[RD] (a write to g0 is discarded), move to the next instruction and change
nothing else. Table 5.2: the immediate instructions; LIH takes RA 0. -/
def Obligations.IntegerResults : Prop :=
  (∀ (s : State) (w : Issue) (rd ra rb : BitVec 5), Safety.shaped s → Safety.issues s w → Safety.loaded s w [.g ra, .g rb] →
     let th := s.thr w.bay w.thread
     let x := th.gr ra
     let y := th.gr rb
     let k := (y &&& 63).toNat
     ∀ c ∈ [(Instr.aluAdd w rd ra rb, x + y), (.aluSub w rd ra rb, x - y), (.aluAnd w rd ra rb, x &&& y),
         (.aluOr w rd ra rb, x ||| y), (.aluXor w rd ra rb, x ^^^ y), (.aluSll w rd ra rb, x <<< k), (.aluSrl w rd ra rb, x >>> k),
         (.aluSra w rd ra rb, x.sshiftRight k), (.aluMul w rd ra rb, x * y),
         (.aluMulhu w rd ra rb, ((x.setWidth 128) * (y.setWidth 128)).extractLsb' 64 64),
         (.aluDivu w rd ra rb, if y = 0 then 0xFFFFFFFFFFFFFFFF else x / y), (.aluRemu w rd ra rb, if y = 0 then x else x % y),
         (.aluMinu w rd ra rb, if x.toNat ≤ y.toNat then x else y), (.aluMaxu w rd ra rb, if x.toNat ≤ y.toNat then y else x),
         (.aluMin w rd ra rb, if x.toInt ≤ y.toInt then x else y), (.aluMax w rd ra rb, if x.toInt ≤ y.toInt then y else x)],
       ∃ t, exec c.1 s = .next t ∧ (t.thr w.bay w.thread).gr rd = (if rd = 0 then 0 else c.2) ∧
         (t.thr w.bay w.thread).pc = th.pc + 4 ∧ Frame.general th (t.thr w.bay w.thread) rd ∧ Frame.outside s t w) ∧
  (∀ (s : State) (w : Issue) (rd ra : BitVec 5) (imm : BitVec 12), Safety.shaped s → Safety.issues s w →
     Safety.loaded s w [.g ra, .g rd] →
     let th := s.thr w.bay w.thread
     ∀ c ∈ [(Instr.addi w rd ra imm, th.gr ra + imm.signExtend 64), (.andi w rd ra imm, th.gr ra &&& imm.setWidth 64),
         (.ori w rd ra imm, th.gr ra ||| imm.setWidth 64), (.lih w rd 0 imm, (th.gr rd <<< 12) ||| imm.setWidth 64)],
       ∃ t, exec c.1 s = .next t ∧ (t.thr w.bay w.thread).gr rd = (if rd = 0 then 0 else c.2) ∧
         (t.thr w.bay w.thread).pc = th.pc + 4 ∧ Frame.general th (t.thr w.bay w.thread) rd ∧ Frame.outside s t w)

/-- Table 5.2: PCMP sets pd, or ANDs or ORs into it, the comparison of g[RA] with g[RB]; a write to p0 is discarded. -/
def Obligations.ComparisonResults : Prop :=
  ∀ (s : State) (w : Issue) (pd : BitVec 3) (cb : BitVec 2) (ra rb : BitVec 5), Safety.shaped s → Safety.issues s w →
    Safety.loaded s w [.g ra, .g rb] → cb ≠ 3 →
    let th := s.thr w.bay w.thread
    let x := th.gr ra
    let y := th.gr rb
    let rd := cb ++ pd
    ∀ c ∈ [(Instr.pcmpEq w rd ra rb, decide (x = y)), (.pcmpNe w rd ra rb, decide (x ≠ y)),
        (.pcmpLt w rd ra rb, decide (x.toInt < y.toInt)), (.pcmpGe w rd ra rb, decide (y.toInt ≤ x.toInt)),
        (.pcmpLtu w rd ra rb, decide (x.toNat < y.toNat)), (.pcmpGeu w rd ra rb, decide (y.toNat ≤ x.toNat))],
      ∃ t, exec c.1 s = .next t ∧
        (t.thr w.bay w.thread).pred pd =
          (if pd = 0 then true else if cb = 0 then c.2 else if cb = 1 then th.pred pd && c.2 else th.pred pd || c.2) ∧
        (t.thr w.bay w.thread).pc = th.pc + 4 ∧ Frame.predicate th (t.thr w.bay w.thread) pd ∧ Frame.outside s t w

/-- Tables 5.2 and 5.3: the vector instructions that write a vector register: VOP on the lane types its function allows, VCVT
between the type codes 0 to 6 and the OFP8 codes 7 and 8, VPUT and VBCAST. The value is that of the lane functions, which
`LaneResults` speaks of. R133, R505, Table 5.2: VRED writes g[RD] with the reduction of the lanes of v[RA], an integer result
sign-extended and a floating one zero-extended; VGET writes it with a 64-bit lane of v[RA]. -/
def Obligations.VectorResults : Prop :=
  (∀ (s : State) (w : Issue) (ty : BitVec 3) (rd ra rb : BitVec 5), Safety.shaped s → Safety.issues s w →
     Safety.loaded s w [.v ra, .v rb, .v rd, .g ra, .g rb] →
     let th := s.thr w.bay w.thread
     let op := fun f => vop ty.toNat f (th.vr rd) (th.vr ra) (th.vr rb)
     let done := fun (i : Instr) (v : BitVec 512) =>
       ∃ t, exec i s = .next t ∧ (t.thr w.bay w.thread).vr rd = v ∧ (t.thr w.bay w.thread).pc = th.pc + 4 ∧
         Frame.vector th (t.thr w.bay w.thread) rd ∧ Frame.outside s t w
     (ty ≠ 7 → done (.vopAdd w ty rd ra rb) (op 0x0) ∧ done (.vopSub w ty rd ra rb) (op 0x1) ∧
       done (.vopMul w ty rd ra rb) (op 0x2) ∧ done (.vopMin w ty rd ra rb) (op 0x3) ∧ done (.vopMax w ty rd ra rb) (op 0x4)) ∧
     (4 ≤ ty.toNat → ty.toNat ≤ 6 → done (.vopFma w ty rd ra rb) (op 0x5)) ∧
     (ty.toNat ≤ 3 → done (.vopAnd w ty rd ra rb) (op 0x6) ∧ done (.vopOr w ty rd ra rb) (op 0x7) ∧
       done (.vopXor w ty rd ra rb) (op 0x8) ∧ done (.vopShl w ty rd ra rb) (op 0x9) ∧ done (.vopShr w ty rd ra rb) (op 0xA)) ∧
     done (.vopExp w 6 rd ra 0) (vop 6 0xB (th.vr rd) (th.vr ra) (th.vr 0)) ∧
     (∀ src dst : BitVec 4, src.toNat ≤ 8 → dst.toNat ≤ 8 →
       done (.vcvt w (0#3 ++ src) rd ra (0#1 ++ dst)) (vcvtLanes src.toNat dst.toNat (th.vr ra))) ∧
     done (.vput w rd ra rb) (vputLane (th.vr rd) (th.gr rb) (th.gr ra)) ∧
     done (.vbcast w rd ra rb) (vbcastLanes (th.gr ra))) ∧
  (∀ (s : State) (w : Issue) (ty : BitVec 3) (rd ra rb : BitVec 5), Safety.shaped s → Safety.issues s w →
     Safety.loaded s w [.v ra, .g rb] →
     let th := s.thr w.bay w.thread
     let wide := fun (v : Nat) => if ty.toNat ≤ 3 then BitVec.ofInt 64 (toSigned (laneWidth ty.toNat) v) else BitVec.ofNat 64 v
     let done := fun (i : Instr) (v : Word) =>
       ∃ t, exec i s = .next t ∧ (t.thr w.bay w.thread).gr rd = (if rd = 0 then 0 else v) ∧ (t.thr w.bay w.thread).pc = th.pc + 4 ∧
         Frame.general th (t.thr w.bay w.thread) rd ∧ Frame.outside s t w
     (ty ≠ 7 → ∀ c ∈ [(Instr.vredSum w ty rd ra 0, 0), (.vredMax w ty rd ra 0, 1), (.vredMin w ty rd ra 0, 2)],
       ∀ (T : Nat → Nat → Nat) (k : Nat), laneWidth ty.toNat * 2 ^ k = 512 →
         (∀ i, T 0 i = bits (th.vr ra).toNat (laneWidth ty.toNat * i) (laneWidth ty.toNat)) →
         (∀ j i, T (j + 1) i = redLane ty.toNat c.2 (T j (2 * i)) (T j (2 * i + 1))) → done c.1 (wide (T k 0))) ∧
     done (.vget w rd ra rb) ((th.vr ra).extractLsb' (64 * ((th.gr rb).toNat % 8)) 64))

/-- R131, R505: lane i of an integer VOP: arithmetic wraps at the lane width, MIN and MAX and SHR are signed, and a shift takes
the low bits of its own lane of v[RB]. R132, R505: every floating operation on a NaN gives the canonical quiet NaN of its lane
type; MIN and MAX of zeros of unlike sign do not depend on their order. -/
def Obligations.LaneResults : Prop :=
  (∀ (ty : Nat) (d a b : BitVec 512) (i : Nat), ty ≤ 3 →
     let n := laneWidth ty
     i < 512 / n →
     let x := a.extractLsb' (n * i) n
     let y := b.extractLsb' (n * i) n
     let lane := fun f => (vop ty f d a b).extractLsb' (n * i) n
     lane 0x0 = x + y ∧ lane 0x1 = x - y ∧ lane 0x2 = x * y ∧ lane 0x3 = (if x.toInt < y.toInt then x else y) ∧
     lane 0x4 = (if x.toInt < y.toInt then y else x) ∧ lane 0x6 = x &&& y ∧ lane 0x7 = x ||| y ∧ lane 0x8 = x ^^^ y ∧
     lane 0x9 = x <<< (y.toNat % n) ∧ lane 0xA = x.sshiftRight (y.toNat % n)) ∧
  (∀ f ∈ [(Fmt.bf16, 0x7FC0, 0x8000), (Fmt.f16, 0x7E00, 0x8000), (Fmt.f32, 0x7FC00000, 0x80000000)], ∀ a b c : Nat,
     (f.1.decode a = .nan ∨ f.1.decode b = .nan →
       f.1.add a b = f.2.1 ∧ f.1.sub a b = f.2.1 ∧ f.1.mul a b = f.2.1 ∧ f.1.min a b = f.2.1 ∧ f.1.max a b = f.2.1 ∧
       f.1.fma c a b = f.2.1 ∧ f.1.fma a b c = f.2.1) ∧
     f.1.max 0 f.2.2 = 0 ∧ f.1.max f.2.2 0 = 0 ∧ f.1.min 0 f.2.2 = f.2.2 ∧ f.1.min f.2.2 0 = f.2.2)

/-- Table 5.2, R126: BR, CALL and JR set the pc, CALL and JR keep pc + 4 in g31 and g[RD], and YIELD only moves on. R128: an
instruction whose guard is false does nothing, raises no exception (an illegal encoding included) and moves on. -/
def Obligations.BranchAndGuardResults : Prop :=
  (∀ (s : State) (w : Issue) (rd ra : BitVec 5) (off : BitVec 22) (ord : BitVec 4), Safety.shaped s → Safety.issues s w →
     Safety.loaded s w [.g ra] →
     let th := s.thr w.bay w.thread
     let target := th.pc + 4 * off.signExtend 64
     (∃ t, exec (.br w off) s = .next t ∧ t.thr w.bay w.thread = { th with pc := target, wait := .ready } ∧ Frame.outside s t w) ∧
     (∃ t, exec (.call w off) s = .next t ∧ (t.thr w.bay w.thread).pc = target ∧ (t.thr w.bay w.thread).gr 31 = th.pc + 4 ∧
       Frame.general th (t.thr w.bay w.thread) 31 ∧ Frame.outside s t w) ∧
     (∃ t, exec (.jr w rd ra 0 0) s = .next t ∧ (t.thr w.bay w.thread).pc = th.gr ra ∧
       (t.thr w.bay w.thread).gr rd = (if rd = 0 then 0 else th.pc + 4) ∧ Frame.general th (t.thr w.bay w.thread) rd ∧
       Frame.outside s t w) ∧
     (∃ t, exec (.yield_ w 0 0 ord) s = .next t ∧ t.thr w.bay w.thread = { th with pc := th.pc + 4, wait := .ready } ∧
       Frame.outside s t w)) ∧
  (∀ (s : State) (i : Instr) (w : Issue) (x : BitVec 32), Safety.shaped s → encodeThread i = some x → i.issue = some w →
     s.canIssue w = true → (s.thr w.bay w.thread).pc.toNat % 4 = 0 → s.fetchable (s.thr w.bay w.thread).pc = true →
     (s.thr w.bay w.thread).guard w = false →
     ∃ t, exec i s = .next t ∧
       t.thr w.bay w.thread = { s.thr w.bay w.thread with pc := (s.thr w.bay w.thread).pc + 4, wait := .ready } ∧
       Frame.outside s t w)

/-- R127, R130, R506: a pc that is not 4-byte aligned raises MISALIGNED before any fetch, whatever the instruction; at an aligned
pc an instruction with an illegal field raises ILLEGAL_INSTR. R149, Table 5.9: what an exception does to a request of this node:
the bay is free, the contained record holds the bay, the thread, the pc, the code and the address, and the request has failed with
the exception's status and DETAIL. TRAP raises 0x0520 + code, and a word that spells no instruction raises ILLEGAL_INSTR. -/
def Obligations.ExceptionsEndTheRequest : Prop :=
  (∀ (s : State) (i : Instr) (w : Issue) (x : BitVec 32), encodeThread i = some x → i.issue = some w → s.canIssue w = true →
     let pc := (s.thr w.bay w.thread).pc
     let s1 := (s.modThr w.bay w.thread fun t => { t with wait := .ready }).issued w
     (pc.toNat % 4 ≠ 0 → exec i s = .next (s1.except w.bay w.thread 0x31 0x0502 pc.toNat)) ∧
     (Safety.issues s w → i.threadLegal = false → exec i s = .next (s1.except w.bay w.thread 0x31 0x0501 0))) ∧
  (∀ (s : State) (w : Issue) (task : Task) (r : Req) (run : RunWu) (ord : BitVec 4) (word : BitVec 32), Safety.shaped s →
     (s.bay w.bay).task = some task → task.home = s.net.nodeId → s.reqOf task.wu.asn = some r → r.failed = false →
     r.phase ≠ .complete → s.runOf task.home task.wu = some run → (task.idx, w.bay) ∈ run.bays →
     let ends := fun (i : Instr) (detail : Nat) =>
       ∃ t, exec i s = .next t ∧ (t.bay w.bay).task = none ∧
         (∃ e ∈ t.err.ring, e.cls = 1 ∧ e.source = 0x20 ∧ e.inst = w.bay.val ∧ e.code = detail ∧ e.asn = some task.wu.asn ∧
           e.info = bytesLE 2 w.thread.val ++ List.replicate 6 0 ++ bytesLE 8 (s.thr w.bay w.thread).pc.toNat) ∧
         ∃ q, t.reqOf task.wu.asn = some q ∧ q.failed = true ∧ q.status = 0x31 ∧ q.detail = detail
     (Safety.issues s w → ends (.trap w 0 0 ord) (0x0520 + ord.toNat)) ∧
     (Safety.issues s { w with pg := word.extractLsb' 23 3, pn := word.extractLsb' 22 1 } →
       decodeThreadWord w.bay w.thread word = none → ends (.illegalInstr w word) 0x0501))

/-! ## Memory and order (05) -/

/-- R129, R135, R137, R138, Table 5.2: a load of this node's memory reads its bytes under the stores that its bay holds for its own
observers, and these under the thread's own buffered stores, zero- or sign-extends them, and changes no memory. The access meets no
corrected error and no poison. -/
def Obligations.LoadResults : Prop :=
  ∀ (s : State) (w : Issue) (rt ra : BitVec 5) (sz : BitVec 3) (off : BitVec 9) (a : Nat), Safety.shaped s → Safety.canonical s →
    Safety.issues s w → Safety.loaded s w [.g ra] → sz.toNat ≤ 4 →
    let th := s.thr w.bay w.thread
    let n := if sz.toNat < 4 then 2 ^ sz.toNat else 64
    let addr := th.gr ra + off.signExtend 64 * BitVec.ofNat 64 n
    s.target w.bay .load addr n = .here a → s.region a ≠ .csr → s.readEnd a n = .ok →
    (∀ l ∈ s.mem.ceLines, l + 64 ≤ a ∨ a + n ≤ l) →
    let own := s.seenBytes w (s.lineAddr s.net.nodeId a) (a % 64) n
    let bytes := (List.range n).map fun j => (own.getD j none).getD (s.mem.byte (a + j))
    let done := fun (i : Instr) (v : Word) =>
      ∃ t, exec i s = .next t ∧ (t.thr w.bay w.thread).gr rt = (if rt = 0 then 0 else v) ∧
        (t.thr w.bay w.thread).pc = th.pc + 4 ∧ Frame.general th (t.thr w.bay w.thread) rt ∧ Frame.outside s t w
    (sz.toNat < 4 → done (.ld w rt ra sz off) (BitVec.ofNat 64 (natLE bytes))) ∧
    (sz.toNat < 4 → done (.lds w rt ra sz off) (BitVec.ofInt 64 (toSigned (8 * n) (natLE bytes)))) ∧
    (sz = 4 → ∃ t, exec (.vld w rt ra sz off) s = .next t ∧ (t.thr w.bay w.thread).vr rt = BitVec.ofNat 512 (natLE bytes) ∧
      (t.thr w.bay w.thread).pc = th.pc + 4 ∧ Frame.vector th (t.thr w.bay w.thread) rt ∧ Frame.outside s t w)

/-- R137: a plain store enters the thread's store buffer and no memory changes: its bytes read back from the buffered line, every
other buffered byte stays, and a store that needs a ninth line waits at its pc. R137, R138: a line that leaves the store buffer, or
the lines that its bay holds for its own observers (log entry 71), writes its stored bytes at its own address, and no other byte of
memory changes. -/
def Obligations.StoreBuffer : Prop :=
  (∀ (s : State) (w : Issue) (rt ra : BitVec 5) (sz : BitVec 3) (off : BitVec 9) (node a : Nat), Safety.shaped s →
     Safety.issues s w → Safety.loaded s w [.g ra, .g rt, .v rt] → sz.toNat ≤ 4 →
     let th := s.thr w.bay w.thread
     let n := if sz.toNat < 4 then 2 ^ sz.toNat else 64
     let addr := th.gr ra + off.signExtend 64 * BitVec.ofNat 64 n
     s.target w.bay .store addr n = (if node = s.net.nodeId then .here a else .remote node a) →
     let i : Instr := if sz.toNat < 4 then .st w rt ra sz off else .vst w rt ra sz off
     let bytes := if sz.toNat < 4 then bytesLE n (th.gr rt).toNat else bytesLE 64 (th.vr rt).toNat
     let line := s.lineAddr node a
     ∃ t, exec i s = .next t ∧ Frame.outside s t w ∧
       let u := t.thr w.bay w.thread
       (th.buf.any (·.addr == line) = true ∨ th.buf.length < 8 →
         u = { th with pc := th.pc + 4, buf := u.buf, wait := .ready } ∧
         bufRead u.buf line (a % 64) n = bytes.map some ∧
         (∀ j < 64, j < a % 64 ∨ a % 64 + n ≤ j → bufRead u.buf line j 1 = bufRead th.buf line j 1) ∧
         ∀ l, l ≠ line → ∀ j, bufRead u.buf l j 1 = bufRead th.buf l j 1) ∧
       (th.buf.any (·.addr == line) = false → 8 ≤ th.buf.length → u = { th with wait := .retry (.room line) })) ∧
  (∀ (s : State) (b : Fin 80) (t : Fin 128) (k : Fin 8) (l : BufLine), Safety.shaped s → Safety.canonical s → s.running = true →
     s.targetNode l.addr = some s.net.nodeId → l.bytes.length = 64 →
     let base := localAddr l.addr
     (∀ j < 64, s.region (base + j) = .t0 ∨ s.region (base + j) = .t1) →
     let buf := (s.thr b t).buf
     let shared := (s.bay b).shared
     let lands := fun u : State => (∀ j < 64, u.mem.byte (base + j) = ((l.bytes.getD j none).getD (s.mem.byte (base + j)))) ∧
       (∀ x, x < base ∨ base + 64 ≤ x → u.mem.byte x = s.mem.byte x) ∧
       u = { s with bays := u.bays, mem := u.mem, cnt := u.cnt } ∧ ∀ c, c ≠ b → u.bay c = s.bay c
     (buf[k.val]? = some l → shared = [] → ∃ u, exec (.storeLineDrain b t k) s = .next u ∧
       u.thr b t = { s.thr b t with buf := buf.eraseIdx k.val } ∧ lands u) ∧
     (buf[k.val]? = none → shared = [l] → k.val = buf.length → ∃ u, exec (.storeLineDrain b t k) s = .next u ∧
       u.bay b = { s.bay b with shared := [] } ∧ lands u))

/-- R142, Table 5.4: the twelve atomics at this node: the old value goes zero-extended into g[RD] (ST writes none), the home
stores the value of the operation, and no other byte of memory changes. The store buffer is empty and nothing is outstanding, so
that every order of Table 5.4 lets it go on at once. -/
def Obligations.AtomicResults : Prop :=
  ∀ (s : State) (w : Issue) (rd ra : BitVec 5) (ord : BitVec 4) (wd : BitVec 2) (a : Nat), Safety.shaped s → Safety.canonical s →
    Safety.issues s w → Safety.loaded s w [.g ra, .g rd, .g (rd + 1)] →
    ord.extractLsb' 2 2 ≠ 3 → wd.toNat < 2 →
    let th := s.thr w.bay w.thread
    let n := if wd = 0 then 4 else 8
    th.buf = [] → (s.bay w.bay).shared = [] → s.outstandingAcc .fabric w.bay w.thread = false →
    s.target w.bay .atomic (th.gr ra) n = .here a →
    s.readEnd a n = .ok → (∀ l ∈ s.mem.ceLines, l + 64 ≤ a ∨ a + n ≤ l) →
    let m := 2 ^ (8 * n)
    let old := natLE ((List.range n).map fun j => s.mem.byte (a + j))
    let v := (th.gr rd).toNat % m
    let sg := toSigned (8 * n)
    let done := fun (i : Instr) (writes : Bool) (new : Option Nat) =>
      ∃ t, exec i s = .next t ∧ (t.thr w.bay w.thread).pc = th.pc + 4 ∧
        (t.thr w.bay w.thread).gr rd = (if writes && rd != 0 then BitVec.ofNat 64 old else th.gr rd) ∧
        (∀ k, k ≠ rd → (t.thr w.bay w.thread).gr k = th.gr k) ∧
        (∃ g pend, t.thr w.bay w.thread = { th with pc := th.pc + 4, g := g, wait := .ready, pend := pend }) ∧
        (∀ j < n, t.mem.byte (a + j) = match new with
          | some x => (bytesLE n x).getD j 0
          | none => s.mem.byte (a + j)) ∧
        (∀ x, x < a ∨ a + n ≤ x → t.mem.byte x = s.mem.byte x) ∧ Frame.outside { s with mem := t.mem } t w
    (ord.getLsbD 1 = false → done (.atomLd w rd ra ord wd) true none) ∧
    (ord.getLsbD 0 = false → done (.atomSt w rd ra ord wd) false (some v)) ∧
    (rd.getLsbD 0 = false →
      done (.atomCas w rd ra ord wd) true (if old = v then some ((th.gr (rd + 1)).toNat % m) else none)) ∧
    ∀ c ∈ [(Instr.atomSwap w rd ra ord wd, v), (.atomAdd w rd ra ord wd, (old + v) % m), (.atomAnd w rd ra ord wd, old &&& v),
        (.atomOr w rd ra ord wd, old ||| v), (.atomXor w rd ra ord wd, old ^^^ v),
        (.atomMin w rd ra ord wd, if sg old < sg v then old else v), (.atomMax w rd ra ord wd, if sg old < sg v then v else old),
        (.atomMinu w rd ra ord wd, if old < v then old else v), (.atomMaxu w rd ra ord wd, if old < v then v else old)],
      done c.1 true (some c.2)

/-- R138, R140: with an empty store buffer and nothing outstanding for its scope's observers a fence completes and only moves on;
otherwise it leaves the buffer empty, and with an access still outstanding for them the thread stays at the fence until it has taken
effect. R145, R146, Table 5.8: a barrier at its bay,
node or fabric scope. Count 1 completes at its own arrival; an arrival short of the count waits; a count of 0 or beyond the
scope's range, or a slot beyond it, raises BAR_COUNT. -/
def Obligations.FencesAndBarriers : Prop :=
  (∀ (s : State) (w : Issue), Safety.shaped s → Safety.issues s w →
     let th := s.thr w.bay w.thread
     ∀ i ∈ [(Instr.fenceB w 0 0 0, Scope.bay), (.fenceN w 0 0 0, .node), (.fenceG w 0 0 0, .fabric)], ∃ t, exec i.1 s = .next t ∧
       (t.thr w.bay w.thread).buf = [] ∧
       (th.buf = [] → (s.bay w.bay).shared = [] → s.outstandingAcc i.2 w.bay w.thread = false →
         t.thr w.bay w.thread = { th with pc := th.pc + 4, wait := .ready } ∧ Frame.outside s t w) ∧
       (th.buf = [] → (s.bay w.bay).shared = [] → s.outstandingAcc i.2 w.bay w.thread = true →
         t.thr w.bay w.thread = { th with wait := .retry (.accesses i.2) } ∧ Frame.outside s t w)) ∧
  (∀ (s : State) (w : Issue) (rd ra : BitVec 5) (task : Task), Safety.shaped s → Safety.issues s w →
     Safety.loaded s w [.g ra, .g rd] → (s.bay w.bay).task = some task → task.home = s.net.nodeId →
     let th := s.thr w.bay w.thread
     let slot := (th.gr ra).toNat
     let count := (th.gr rd).toNat
     th.buf = [] → (s.bay w.bay).shared = [] → s.outstandingAcc .fabric w.bay w.thread = false →
     let fab := s.fabricBar task.home task.wu.asn slot
     ∀ c ∈ [(Instr.barBay w rd ra 0, 16, 128, ((s.bay w.bay).barriers.getD slot none).map (·.count), true),
         (.barNode w rd ra 0, 64, 10240, (s.nodeBar task slot).map (·.count), true),
         (.barFabric w rd ra 0, 16, 4194304, if fab.bar.count = 0 then none else some fab.bar.count,
           decide (fab.bar.waiting = [] ∧ fab.bar.arrived = 0 ∧ fab.byNode = []))],
       let idle := c.2.2.2.1 = none ∧ c.2.2.2.2 = true
       (idle → slot < c.2.1 → count = 1 →
         ∃ t, exec c.1 s = .next t ∧ t.thr w.bay w.thread = { th with pc := th.pc + 4, wait := .ready } ∧ t.mem = s.mem) ∧
       (idle → slot < c.2.1 → 1 < count → count ≤ c.2.2.1 →
         ∃ t, exec c.1 s = .next t ∧ t.thr w.bay w.thread = { th with wait := .barrier } ∧ t.mem = s.mem) ∧
       (count = 0 ∨ c.2.2.1 < count ∨ c.2.1 ≤ slot ∨ (∃ k, c.2.2.2.1 = some k ∧ k ≠ count) →
         exec c.1 s = .next (((s.modThr w.bay w.thread fun t => { t with wait := .ready }).except w.bay w.thread 0x31 0x0509 0).issued w)))

/-! ## Tags, mailboxes, draws, context and EXIT (05, 06, 10) -/

/-- R141, R153, R243: TISSUE and MQ copy the 64-byte descriptor at g[RA], put an entry with the bay's next tag at the back of the
array's or the mover's queue, and write the tag to g[RD]. R126, R157, R247: TWAIT and MWAIT go on at once for a tag that has
completed without a fault, and wait at their pc for one that has not completed. No fault is pending for the thread. -/
def Obligations.DescriptorsAndTagWaits : Prop :=
  (∀ (s : State) (w : Issue) (rd ra : BitVec 5) (ord : BitVec 4) (a : Nat), Safety.shaped s → Safety.issues s w →
     Safety.loaded s w [.g ra] →
     let th := s.thr w.bay w.thread
     let y := s.bay w.bay
     let m : Fin 2 := if ord.getLsbD 0 then 1 else 0
     th.buf = [] → (s.bay w.bay).shared = [] → s.outstandingAcc .fabric w.bay w.thread = false →
     s.target w.bay .load (th.gr ra) 64 = .here a →
     a / 0x800000 = w.bay.val → s.readEnd a 64 = .ok → (∀ l ∈ s.mem.ceLines, l + 64 ≤ a ∨ a + 64 ≤ l) →
     let desc := s.mem.read a 64
     (y.tileOut w.thread < 4 →
       ∃ t, exec (.tissue w rd ra ord) s = .next t ∧
         (t.bay w.bay).tileQueue = y.tileQueue ++ [{ tag := y.tileIssued + 1, thread := w.thread, desc := desc }] ∧
         (t.bay w.bay).tileIssued = y.tileIssued + 1 ∧ (t.thr w.bay w.thread).pc = th.pc + 4 ∧
         (t.thr w.bay w.thread).gr rd = (if rd = 0 then 0 else BitVec.ofNat 64 (y.tileIssued + 1)) ∧
         Frame.general th (t.thr w.bay w.thread) rd ∧ t.mem = s.mem) ∧
     ((y.mover m).outOf w.thread < 4 →
       ∃ t, exec (.mq w rd ra ord) s = .next t ∧
         ((t.bay w.bay).mover m).queue = (y.mover m).queue ++ [{ tag := y.moveIssued + 1, thread := w.thread, desc := desc }] ∧
         (t.bay w.bay).moveIssued = y.moveIssued + 1 ∧ (t.thr w.bay w.thread).pc = th.pc + 4 ∧
         (t.thr w.bay w.thread).gr rd = (if rd = 0 then 0 else BitVec.ofNat 64 (y.moveIssued + 1)) ∧
         Frame.general th (t.thr w.bay w.thread) rd ∧ t.mem = s.mem)) ∧
  (∀ (s : State) (w : Issue) (rd ra : BitVec 5) (ord : BitVec 4), Safety.shaped s → Safety.issues s w → Safety.loaded s w [.g ra] →
     let th := s.thr w.bay w.thread
     let y := s.bay w.bay
     let tag := (th.gr ra).toNat
     th.tileFault = none → th.moveFault = none →
     let goesOn := fun i : Instr => ∃ t, exec i s = .next t ∧
       t.thr w.bay w.thread = { th with pc := th.pc + 4, wait := .ready } ∧ Frame.outside s t w
     let waits := fun (i : Instr) (on : WaitOn) =>
       ∃ t, exec i s = .next t ∧ t.thr w.bay w.thread = { th with wait := .retry on } ∧ Frame.outside s t w
     let openTile := (∃ e ∈ y.tileQueue, e.tag = tag) ∨ ∃ r, y.running = some r ∧ r.entry.tag = tag
     let openMove := ∃ m ∈ y.movers, ∃ e ∈ m.queue, e.tag = tag
     (tag ≤ y.tileIssued → (∀ p ∈ y.tileFailed, p.1 ≠ tag) → (tag = 0 ∨ ¬ openTile → goesOn (.twait w rd ra ord)) ∧
       (tag ≠ 0 → openTile → waits (.twait w rd ra ord) (.tile tag))) ∧
     (tag ≤ y.moveIssued → (∀ p ∈ y.moveFailed, p.1 ≠ tag) → (tag = 0 ∨ ¬ openMove → goesOn (.mwait w rd ra ord)) ∧
       (tag ≠ 0 → openMove → waits (.mwait w rd ra ord) (.move tag))) ∧
     let raises := fun (i : Instr) (detail : Nat) => exec i s =
       .next (((s.modThr w.bay w.thread fun t => { t with wait := .ready }).except w.bay w.thread 0x31 detail 0).issued w)
     (y.tileIssued < tag → raises (.twait w rd ra ord) 0x0608) ∧ (y.moveIssued < tag → raises (.mwait w rd ra ord) 0x0A02))

/-- R147: SEND puts v[RD] at the back of the mailbox of thread g[RA] of the work unit, waits while that mailbox holds four
messages, discards the message of a thread that has exited, and raises MBOX_DEST for a number that names no thread; RECV takes the
oldest message and waits while there is none. R125, R147: EXIT ends the thread and discards its messages; the bay's other threads
go on. The last EXIT of a bay leaves no thread to issue. No tag fault is pending and no tile output awaits its consumer. -/
def Obligations.MailboxesAndExit : Prop :=
  (∀ (s : State) (w : Issue) (rd ra : BitVec 5) (ord : BitVec 4) (task : Task), Safety.shaped s → Safety.issues s w →
     Safety.loaded s w [.g ra, .v rd] → (s.bay w.bay).task = some task →
     let th := s.thr w.bay w.thread
     let number := (th.gr ra).toNat
     let dst : Fin 128 := ⟨number % 128, Nat.mod_lt _ (by decide)⟩
     let goesOn := ∃ t, exec (.send w rd ra ord) s = .next t ∧
       t.thr w.bay w.thread = { th with pc := th.pc + 4, wait := .ready } ∧ Frame.outside s t w
     (∀ b, s.mboxBay task (number / 128) = some (some b) →
       ((s.thr b dst).exited = false → (s.thr b dst).mbox.length < 4 → ∃ t, exec (.send w rd ra ord) s = .next t ∧ t.mem = s.mem ∧
         ∀ c u, t.thr c u =
           let z := if c = w.bay ∧ u = w.thread then { th with pc := th.pc + 4, wait := .ready } else s.thr c u
           if c = b ∧ u = dst then { z with mbox := z.mbox ++ [th.vr rd] } else z) ∧
       ((s.thr b dst).exited = false → 4 ≤ (s.thr b dst).mbox.length → ∃ t, exec (.send w rd ra ord) s = .next t ∧
         t.thr w.bay w.thread = { th with wait := .retry (.mailbox b dst) } ∧ Frame.outside s t w) ∧
       ((s.thr b dst).exited = true → goesOn)) ∧
     (s.mboxBay task (number / 128) = some none → goesOn) ∧
     (s.mboxBay task (number / 128) = none → exec (.send w rd ra ord) s =
       .next (((s.modThr w.bay w.thread fun t => { t with wait := .ready }).except w.bay w.thread 0x31 0x0508 0).issued w)) ∧
     (∀ m rest, th.mbox = m :: rest → ∃ t, exec (.recv w rd ra ord) s = .next t ∧ (t.thr w.bay w.thread).mbox = rest ∧
       (t.thr w.bay w.thread).vr rd = m ∧ (t.thr w.bay w.thread).pc = th.pc + 4 ∧
       Frame.vector { th with mbox := rest } (t.thr w.bay w.thread) rd ∧ Frame.outside s t w) ∧
     (th.mbox = [] → ∃ t, exec (.recv w rd ra ord) s = .next t ∧ (t.thr w.bay w.thread).wait = .retry .message ∧
       (t.thr w.bay w.thread).pc = th.pc ∧ Frame.outside s t w)) ∧
  (∀ (s : State) (w : Issue) (ord : BitVec 4), Safety.shaped s → Safety.issues s w →
     let th := s.thr w.bay w.thread
     th.tileFault = none → th.moveFault = none → (s.bay w.bay).drain = none →
     ∃ t, exec (.exit_ w 0 0 ord) s = .next t ∧
       t.thr w.bay w.thread = { th with pc := th.pc + 4, wait := .ready, exited := true, mbox := [] } ∧
       t.canIssue w = false ∧
       ((∃ u, u ≠ w.thread ∧ (s.thr w.bay u).exited = false) → Frame.outside s t w))

/-- R148, Table 5.5: CTX reads the context value numbered XF; PHILOX draws four blocks with the key of the request's SEED, at the
step and stage of the bay task (a context draws at step 0xFFFF_FFFF), and an illegal lane base or a set bit of [47:44] raises
ILLEGAL_INSTR. -/
def Obligations.ContextAndDraws : Prop :=
  ∀ (s : State) (w : Issue) (rd ra : BitVec 5) (ord : BitVec 4) (xf : BitVec 8) (k : Task), Safety.shaped s →
    Safety.issues s w → Safety.loaded s w [.g ra] → (s.bay w.bay).task = some k →
    let th := s.thr w.bay w.thread
    let x := th.gr ra
    let step := match k.wu.step with
      | .context => 2 ^ 64 - 1
      | .step n => n
    let values := [w.thread.val, k.idx, k.tasks, k.wu.stage, step, k.waveFirst, k.waveN, k.args, w.bay.val, s.net.nodeId,
      s.clk.devTime, s.net.settled]
    (∀ v, values[xf.toNat]? = some v → ∃ t, exec (.ctx w rd 0 0 xf) s = .next t ∧
      (t.thr w.bay w.thread).gr rd = (if rd = 0 then 0 else BitVec.ofNat 64 v) ∧ (t.thr w.bay w.thread).pc = th.pc + 4 ∧
      Frame.general th (t.thr w.bay w.thread) rd ∧ Frame.outside s t w) ∧
    (x.extractLsb' 48 16 &&& 3 = 0 → x.extractLsb' 44 4 = 0 → ∃ t, exec (.philox w rd ra ord xf) s = .next t ∧
      (t.thr w.bay w.thread).vr rd = philoxVec (s.descOf k.home k.wu.asn).seed
        (match k.wu.step with | .context => 0xFFFFFFFF | .step n => n) k.wu.stage x ∧
      (t.thr w.bay w.thread).pc = th.pc + 4 ∧ Frame.vector th (t.thr w.bay w.thread) rd ∧ Frame.outside s t w) ∧
    (x.extractLsb' 48 16 &&& 3 ≠ 0 ∨ x.extractLsb' 44 4 ≠ 0 → exec (.philox w rd ra ord xf) s =
      .next (((s.startOf w (some (.v rd))).except w.bay w.thread 0x31 0x0501 0).issued w))

/-! ## Requests, scheduling, streams and the scribe (01, 04, 08, 10, 14, 15) -/

/-- R19, Table 1.2: checks 1 to 10 run in the table's order, and the first that fails gives the status and the DETAIL. -/
def Obligations.AdmissionChecksInOrder : Prop :=
  ∀ (s : State) (f : Fin 16) (d : Desc),
    let p := s.program d.program
    let c := p.bind fun q => q.shape d.shapeClass
    let lim := fun (g : ShapeClass → Nat) => (c.map g).getD 0
    let checks : List (Prop × Nat × Nat) :=
      [(s.tenantEnabled f = false, 0x13, 0x0101), (d.format ≠ 1, 0x11, 0x0102), (p = none, 0x11, 0x0103), (c = none, 0x11, 0x0104),
       (¬ ((d.kind = 0 ∧ ∃ x, c = some x ∧ x.kindFrames = true) ∨ (d.kind = 1 ∧ ∃ x, c = some x ∧ x.kindStream = true)), 0x11, 0x0105),
       (d.futures = 0 ∨ d.steps = 0 ∨ (d.kind = 0 ∧ d.contextCount = 0), 0x01, 0x0106),
       (lim (·.maxContext) < d.contextCount ∨ min (lim (·.maxF0)) 4096 < d.futures ∨ min (lim (·.maxLeaves)) 4096 < d.leaves ∨
          min (lim (·.maxSteps)) 1024 < d.steps ∨ min (lim (·.maxBranch)) 4 < d.branchCount, 0x10, 0x0107),
       (¬ ((∀ b ∈ d.branches, 2 ≤ b.2 ∧ b.2 ≤ 16 ∧ 1 ≤ b.1 ∧ b.1 + 1 ≤ d.steps) ∧ d.branches.Pairwise fun a b => a.1 < b.1), 0x10, 0x0108),
       (d.inputBytes ≠ lim (·.rIn) * d.contextCount ∨ (p.any (·.audioInput) = false ∧ d.inputAddr % 64 ≠ 0), 0x20, 0x0109),
       (d.outputBytes < lim (·.rOut) * d.sumN d.steps ∨ d.outputAddr % 64 ≠ 0, 0x21, 0x010A)]
    (∀ k st dt, k < 10 → (∃ x, checks[k]? = some x ∧ x.1 ∧ x.2 = (st, dt)) → (∀ j < k, ∃ x, checks[j]? = some x ∧ ¬ x.1) →
      s.earlyChecks f d = some (st, dt)) ∧
    ((∀ x ∈ checks, ¬ x.1) → s.earlyChecks f d = none)

/-- R10, R11, R19: a fetch takes the next descriptor of the ring that arbitration chose: its request gets the next ASN, and one
that fails a check of Table 1.2 is complete at once with the check's status and DETAIL, with no input fetched, no lease and no
reservation. -/
def Obligations.FetchAssignsTheNextAsn : Prop :=
  ∀ (s : State) (desc : List Byte) (f : Fin 16) (cur : List Int), Safety.shaped s → s.canFetch = true → s.chooseFn = some (f, cur) →
    s.reqOf s.req.nextAsn = none → s.grantsOf s.net.nodeId s.req.nextAsn = [] →
    ∃ t, exec (.descriptorFetch desc) s = .next t ∧ t.req.nextAsn = s.req.nextAsn + 1 ∧
      (t.page f).reqHead = (s.page f).reqHead + 1 ∧
      ∃ r, t.reqOf s.req.nextAsn = some r ∧ r.f = f ∧ r.desc = fit 128 desc ∧
        ∀ st dt, s.earlyChecks f (fit 128 desc) = some (st, dt) →
          r.phase = .complete ∧ r.status = st ∧ r.detail = dt ∧ r.inputFetched = false ∧ r.tookLease = false ∧ r.bases = [] ∧
          t.quota.grants = s.quota.grants ∧ t.mem = s.mem ∧ t.req.doneQ = s.req.doneQ ++ [s.req.nextAsn]

/-- R29: once an enforced deadline has passed, no work unit of the request is ready for dispatch, on its home node or on another. R125:
a bay task ends when its threads have exited and everything they issued has completed; its bay is then free, its energy, by the gain of
its tile's rail, counts for its work unit, and the last bay task completes the work unit (kept as done, unless the request's token here
has been released). -/
def Obligations.DeadlinesAndTaskEnds : Prop :=
  (∀ (s : State) (asn : BitVec 64) (at_ : Nat) (r : Req), (s.advance at_).reqOf asn.toNat = some r → (s.advance at_).running = true →
     r.admitted = true → r.failed = false → r.deadlinePassed = false → r.streamCommitted = false → r.d.enforce = true →
     r.d.deadline ≠ 0 → r.d.deadline < (s.advance at_).clk.devTime →
     ∃ t, exec (.deadlinePassed asn at_) s = .next t ∧
       (∀ q, t.reqOf asn.toNat = some q → q.deadlinePassed = true) ∧ (t.reqOf asn.toNat).isSome = true ∧
       ∀ c ∈ t.candidates, c.home = t.net.nodeId → c.key.asn ≠ asn.toNat) ∧
  (∀ (s : State), ∀ c ∈ s.candidates, c.d.enforce = true → c.d.deadline ≠ 0 → s.clk.devTime ≤ c.d.deadline) ∧
  (∀ (s : State) (b : Fin 80) (at_ energy : Nat) (task : Task) (w : RunWu), Safety.shaped s →
     let s1 := s.advance at_
     (s1.bay b).task = some task → s1.runOf task.home task.wu = some w → s1.running = true → s1.taskQuiet b = true →
     s1.kvSettled w = true →
     ∃ t, exec (.bayTaskEnd b at_ energy) s = .next t ∧ (t.bay b).task = none ∧
       (w.ended.length + 1 < w.bays.length → ∃ v, t.runOf task.home task.wu = some v ∧ v.ended = w.ended ++ [task.idx] ∧
         v.measured = w.measured + (task.energy + energy * s1.stew.gain.getD (tileOf b).val 0x1000 / 4096)) ∧
       (w.bays.length ≤ w.ended.length + 1 → t.runOf task.home task.wu = none ∧
         ((∀ k ∈ s1.quota.tokens, k.home = task.home → k.asn = task.wu.asn → k.released = false) →
           (task.home, task.wu) ∈ t.req.doneWu)))

/-- R107, R108, R110: a dispatch opportunity leaves the idle state and starts the first candidate of the order whose bays, class share
and full charge all fit (R103, R104, R110, R119, R258), on the bays taken in turn over the tiles, at that charge; with nothing ready it
starts nothing. Each chosen bay is free, no bay is chosen twice, and the dispatch order puts a lower class, then an earlier deadline,
then a lower ASN first. -/
def Obligations.DispatchTakesTheFirstThatFits : Prop :=
  (∀ (s : State), Safety.shaped s → s.running = true → s.isFatal = false →
     let s1 := s.leaveP2
     (∀ pre c post, s1.readyList = pre ++ c :: post → Safety.dispatchable s1 c → (∀ x ∈ pre, ¬ Safety.dispatchable s1 x) →
       ∃ t, exec .dispatchOpportunity s = .next t ∧ t.clk.pstate ≠ .p2 ∧
         ∃ w ∈ t.req.running, w.home = c.home ∧ w.key = c.key ∧ w.charge = (s1.priceOf c).1 ∧
           w.bays.map (·.2) = assignBays s1.freeBays c.tm.bayTasks s1.stew.t0) ∧
     (s.candidates = [] → exec .dispatchOpportunity s = .next s.noteIdle)) ∧
  ((∀ (s : State) (n turn : Nat), (assignBays s.freeBays n turn).Nodup ∧ ∀ b ∈ assignBays s.freeBays n turn, s.bayFree b = true) ∧
   (∀ a b : Cand, a.d.deadline < 2 ^ 64 → b.d.deadline < 2 ^ 64 → a.key.asn < 2 ^ 64 → b.key.asn < 2 ^ 64 → a.home < 256 →
     b.home < 256 → a.key.stage ≤ 65535 → b.key.stage ≤ 65535 → a.key.wave < 2 ^ 16 → b.key.wave < 2 ^ 16 →
     stepCode a.key.step < 2 ^ 20 → stepCode b.key.step < 2 ^ 20 →
     let dl := fun c : Cand => if c.d.deadline = 0 then 2 ^ 64 else c.d.deadline
     (a.d.cls < b.d.cls ∨ (a.d.cls = b.d.cls ∧ (dl a < dl b ∨ (dl a = dl b ∧ a.key.asn < b.key.asn)))) → a.order < b.order))

/-- R249: a free hub mover takes the waiting job whose kind ranks first, of one kind the lowest ASN, with the LINEAR descriptors that its
agent issued; nothing else changes. R18,
R27: a finished output job writes the records of its step at their place in the host's buffer, and they count for OUT_WRITTEN and
the output hash. -/
def Obligations.HubMoversAndOutput : Prop :=
  (∀ (s : State) (j : HubJob), s.running = true → s.hub.jobs.countP (·.running) < 16 → j ∈ s.hub.jobs → j.running = false →
     (∀ k ∈ s.hub.jobs, k.running = false → k = j ∨ j.order < k.order) →
     ∃ t, exec .hubMoverJob s = .next t ∧ t = { s with hub := t.hub } ∧
       t.hub.jobs = s.hub.jobs.map (fun x => if x.id = j.id then { x with running := true, descs := s.jobDescs j.kind } else x)) ∧
  (∀ (s : State) (j : HubJob) (asn step : Nat) (r : Req) (moved : List Byte), Safety.shaped s → s.running = true →
     s.hub.jobs.find? (fun x => x.id == j.id && x.running) = some j → j.kind = .output asn step → s.reqOf asn = some r → r.asn = asn →
     r.failed = false → (s.page r.f).busMaster = true → ∀ bytes, (s.stepOutput r step moved).1 = .ok bytes →
     let rOut := (((s.program r.d.program).bind fun p => p.shape r.d.shapeClass).map (·.rOut)).getD 0
     ∃ t, exec (.hubMoverJobDone j.id .ok moved) s = .next t ∧
       HostMsg.output r.f (r.d.outputAddr + r.d.recordOffset rOut step 0) bytes ∈ t.host.out ∧
       ∃ q, t.reqOf asn = some q ∧ q.outBytes = r.outBytes ++ bytes ∧ q.outWritten = r.outWritten + bytes.length ∧
         q.stepsCopied = r.stepsCopied + 1)

/-- R32, R200, R205: a lease granted makes its request the holder, and, with stage 0 on this node and the sequences where its stages run,
the stream's lease is no longer free; phase 2 of a commit commits the stream and, with no PERSIST stage on another node, ends the
request with OK, or with KV_TAIL_LOST where its tail was lost, its lease given back. R201, R206: a finished swap-in to this node makes
the stream resident in the slot and lets the request go on; one to another node sends the copy there; a poisoned copy fails it with
MEM_POISON. R10, R31, R398: the scribe commits the record of the request that completed first: the next record number, signed and
put in the mirror as the chain's head, and the device forgets the request. R401: 10 ms after a failed anchor write the device
queues the same anchor again. -/
def Obligations.StreamsAndAnchors : Prop :=
  (∀ (s : State) (asn : BitVec 64) (r : Req), Safety.canonical s → s.reqOf asn.toNat = some r → r.asn = asn.toNat → s.running = true →
     (s.canLease r = true → s.kvAway r = false → ¬ (r.usesGallery s = true ∧ s.streamVersion r.f r.d.streamId ≠ 0 ∧
         s.streamCls r.f r.d.streamId ≠ s.reqClass r) → (∀ m, r.formation = some m → nodeOf m 0 = s.net.nodeId) →
       ∃ t, exec (.streamLeaseGrant asn) s = .next t ∧ t.leaseFree r.f r.d.streamId = false ∧
         ∃ q, t.reqOf r.asn = some q ∧ q.leaseHeld = true ∧ q.tookLease = true ∧ q.verIn = s.streamVersion r.f r.d.streamId) ∧
     (r.phase = .commit → r.failed = false → s.str.phase1.contains r.asn = true → s.kvOpen r.asn = false →
       ∃ t, exec (.streamCommitPhase2 asn) s = .next t ∧ r.asn ∉ t.str.phase1 ∧
         ∃ q, t.reqOf r.asn = some q ∧ q.streamCommitted = true ∧
           (s.persistNodes r = [] → q.phase = .complete ∧ q.leaseHeld = false ∧
             q.status = (if r.kvLost = 0 then 0x00 else 0x02) ∧ q.detail = (if r.kvLost = 0 then 0 else 0x0900 + r.kvLost)))) ∧
  (∀ (s : State) (asn : BitVec 64) (x : Swap) (r : Req), s.running = true → s.str.swaps.find? (fun y => y.asn == asn.toNat) = some x →
     x.sent = false → s.reqOf x.asn = some r → r.failed = false → r.phase = .context →
     (∀ m, r.formation = some m → nodeOf m 0 = s.net.nodeId) →
     s.readEnd (s.backingCopy x.tenant x.stream x.cls (s.streamVersion x.tenant x.stream)) (s.streamClass x.cls).slotSize = .ok →
     (x.node = s.net.nodeId → r.lost = [] → ∃ t, exec (.streamSwapInDone asn false) s = .next t ∧ x ∉ t.str.swaps ∧
       (x.tenant, x.stream) ∈ t.str.resident ∧
       ∃ q, t.reqOf x.asn = some q ∧ q.swapWait = false ∧ q.residency = some (x.bay.val, x.slot)) ∧
     (x.node ≠ s.net.nodeId → ∃ t, exec (.streamSwapInDone asn false) s = .next t ∧ { x with sent := true } ∈ t.str.swaps) ∧
     (∃ t, exec (.streamSwapInDone asn true) s = .next t ∧ ∃ q, t.reqOf x.asn = some q ∧ q.failed = true ∧ q.status = 0x30)) ∧
  (∀ (s : State) (asn : Nat) (rest : List Nat) (r : Req), s.req.doneQ = asn :: rest → s.scribeRuns = true → s.gateOpen = true →
     s.reqOf asn = some r → r.asn = asn →
     let n := s.aud.nextRecno
     let bytes := s.auditRecord r n
     ∃ t, exec .auditRecordCommit s = .next t ∧ t.req.doneQ = rest ∧ t.reqOf asn = none ∧ t.aud.nextRecno = n + 1 ∧
       t.aud.head = some n ∧ t.aud.prevHash = sha384Val bytes ∧ (n, bytes) ∈ t.aud.mirror) ∧
  (∀ (s : State) (at_ due : Nat) (a : Anchor) (rest : List (Nat × Anchor)), (s.advance at_).aud.anchorRetry = (due, a) :: rest →
     (s.advance at_).clk.pllLocked = true →
     (due ≤ (s.advance at_).clk.devTime → ∃ t, exec (.anchorRetry at_) s = .next t ∧ t.aud.anchorRetry = rest ∧
       (∃ addr, FlashOp.anchorWrite addr a ∈ t.boot.flashOps) ∧ t.boot.flash = s.boot.flash ∧ t.mem = s.mem) ∧
     ((s.advance at_).clk.devTime < due → exec (.anchorRetry at_) s = .next (s.advance at_)))

/-- R366, R368, R372: the next record goes to the audit ring's slot at AUD_TAIL, AUD_TAIL then counts it and AUD_WB is updated, in
that order; a drain leaves no record (of those that the mirror numbers below the next) and no completion that could still be
delivered. -/
def Obligations.RecordsAndCompletionsAreDelivered : Prop :=
  ∀ (s : State), Safety.shaped s → s.scribeRuns = true →
    (s.canDeliver = true →
      let p := s.page 0
      ∃ t bytes more, exec .auditRecordDelivery s = .next t ∧ (s.aud.deliverNext, bytes) ∈ s.aud.mirror ∧
        t.host.out = s.host.out ++ [.audit (p.audTail.toNat % 2 ^ p.audLog2.toNat) bytes,
          .audWb p.audWb.toNat (p.audTail + 1).toNat] ++ more ∧
        (t.page 0).audTail = p.audTail + 1 ∧ t.aud.deliverNext = s.aud.deliverNext + 1 ∧ t.mem = s.mem) ∧
    ∃ t, exec .holdQueueDrain s = .next t ∧ (∀ e ∈ t.host.holdQ, t.canComplete e = false) ∧ t.mem = s.mem ∧
      ((∀ x ∈ s.aud.mirror, x.1 < s.aud.nextRecno) → t.canDeliver = false) ∧
      ∀ e ∈ s.host.holdQ, s.canComplete e = true → (∀ x ∈ s.host.holdQ, s.canComplete x = true → x = e) → s.canDeliver = false →
        ∃ k phase, HostMsg.completion e.cpl.f k (e.cpl.bytes phase) ∈ t.host.out

/-! ## Matrix arrays, movers, cells and KV (04, 06 to 10) -/

/-- R152, R156, R157, R185: MMUL and CONV at the head of an array's queue. The first check of Tables 6.3 and 7.2 that fails takes
the instruction off the queue with its fault, and nothing is written; one that passes runs, with its output or its fault, and
still writes nothing. R173: the consumer of a producer that failed fails with the producer's fault. The thread has not exited and the
array is active. R157, R163: a tile instruction's tag completes: its
output rows are in memory, nothing else in memory changes, and its producer awaits a consumer. -/
def Obligations.TileInstructions : Prop :=
  (∀ (s : State) (b : Fin 80) (task : Task) (e : QEntry) (rest : List QEntry), Safety.shaped s → s.running = true → Safety.clean s →
     (s.bay b).task = some task → (s.bay b).running = none → (s.bay b).tileQueue = e :: rest → (s.bay b).ramp = .active →
     (s.thr b e.thread).exited = false →
     let d : TileDesc := e.desc
     let w := s.windowOf b d
     let dr := (s.bay b).drain
     let i : Instr := if d.isConv then .conv b else .mmul b
     let keeps := fun t : State => (t.bay b).tileQueue = rest ∧ (t.bay b).drain = none ∧ t.mem.cells = s.mem.cells ∧
       (∀ c, c ≠ b → t.bay c = s.bay c) ∧ ∀ u, u ≠ e.thread → t.thr b u = s.thr b u
     (∀ detail, s.tileCheck b task d w dr = some detail → ∃ t, exec i s = .next t ∧ keeps t ∧ (t.bay b).running = none ∧
       (t.bay b).tileFailed = (s.bay b).tileFailed ++ [(e.tag, tileFaultOf detail)] ∧
       (t.thr b e.thread).tileFault = some ((s.thr b e.thread).tileFault.getD (tileFaultOf detail))) ∧
     (s.tileCheck b task d w dr = none → dr.bind (·.failed) = none →
       ∃ t r, exec i s = .next t ∧ keeps t ∧ (t.bay b).running = some r ∧ r.entry = e ∧
         (t.thr b e.thread) = s.thr b e.thread ∧ (r.producer.isSome = d.chainOut) ∧
         ∀ rows, s.tileResult d w dr (s.chained task) = .ok rows → r.failed = none ∧
           (d.chainOut = false → r.outs = outCells d rows)) ∧
     (∀ f, s.tileCheck b task d w dr = none → dr.bind (·.failed) = some f → ∃ t, exec i s = .next t ∧
       (t.bay b).tileQueue = rest ∧ (t.bay b).running = none ∧ t.mem.cells = s.mem.cells ∧
       (t.bay b).tileFailed = (s.bay b).tileFailed ++ [(e.tag, f)])) ∧
  (∀ (s : State) (b : Fin 80) (r : RunTile), Safety.shaped s → (s.bay b).running = some r → r.failed = none →
     (s.thr b r.entry.thread).exited = false → (∀ p ∈ r.outs, Safety.inT0T1 s p.1 p.2.length) →
     r.outs.Pairwise (fun p q => p.1 + p.2.length ≤ q.1 ∨ q.1 + q.2.length ≤ p.1) →
     ∃ t, exec (.tileTagComplete b) s = .next t ∧ (t.bay b).running = none ∧ (t.bay b).drain = r.producer ∧
       (∀ p ∈ r.outs, ∀ j < p.2.length, t.mem.byte (p.1 + j) = p.2.getD j 0) ∧
       (∀ x, (∀ p ∈ r.outs, x < p.1 ∨ p.1 + p.2.length ≤ x) → t.mem.byte x = s.mem.byte x) ∧
       (t.bay b).tileFailed = (s.bay b).tileFailed ∧ (∀ u, t.thr b u = s.thr b u) ∧ (∀ c, c ≠ b → t.bay c = s.bay c) ∧
       t = { s with bays := t.bays, mem := t.mem, cnt := t.cnt })

/-- R152, R159, R162: an INT8 cell accumulates the exact sum of its products wrapped to 32 bits, whatever the order; a shim zero
on either side leaves any accumulator as it was; a binary32 cell is NaN from its first NaN product on. -/
def Obligations.CellsAccumulate : Prop :=
  (∀ (x y : Nat → Nat) (start k : Nat), start < 2 ^ 32 →
    cellAcc 0 0 (fun i => some (x i)) (fun i => some (y i)) start k =
      ofSigned 32 ((start : Int) + ((List.range k).map fun i => toSigned 8 (x i) * toSigned 8 (y i)).sum)) ∧
  (∀ (fa fb start k : Nat) (a b : Nat → Option Nat), (∀ i < k, a i = none ∨ b i = none) → cellAcc fa fb a b start k = start) ∧
  (∀ (fa fb start k : Nat) (a b : Nat → Option Nat), a k = none ∨ b k = none →
    cellAcc fa fb a b start (k + 1) = cellAcc fa fb a b start k) ∧
  (∀ (p q : Fmt) (fa fb acc k j : Nat) (a b : Nat → Option Nat) (x y : Nat), floatTy fa = some p → floatTy fb = some q → j < k →
    a j = some x → b j = some y → p.decode x = .nan → (∀ i < k, (a i).isSome ∧ (b i).isSome) →
    cellAcc fa fb a b acc k = 0x7FC00000)

/-- R117, R168, R169: an array that its next bay task left idle takes a free ramp token and ramps down; without one it waits, with
nothing else changed. A token that returns is free again where no array waits. An array whose ramp-down ends is off. -/
def Obligations.RampTokens : Prop :=
  ∀ (s : State) (b : Fin 80), Safety.shaped s →
    let k := (tileOf b).val
    ((s.bay b).task = none → (s.bay b).ramp = .active → (s.bay b).running = none → s.stew.tokenWait.getD k [] = [] →
      ∃ t, exec (.arrayRampDown b) s = .next t ∧ t.mem = s.mem ∧
        (0 < s.stew.tokens.getD k 0 → (t.bay b).ramp = .down ∧ (t.bay b).rowGroups = 7 ∧
          t.stew.tokens.getD k 0 + 1 = s.stew.tokens.getD k 0 ∧ t.stew.tokensOut.getD k 0 = s.stew.tokensOut.getD k 0 + 1) ∧
        (s.stew.tokens.getD k 0 = 0 → (t.bay b) = s.bay b ∧ t.stew.tokenWait.getD k [] = [b])) ∧
    (0 < s.stew.tokensOut.getD k 0 → s.stew.tokenWait.getD k [] = [] →
      ∃ t, exec (.rampTokenReturn (tileOf b)) s = .next t ∧ t = { s with stew := t.stew } ∧
        t.stew.tokens.getD k 0 = s.stew.tokens.getD k 0 + 1 ∧ t.stew.tokensOut.getD k 0 + 1 = s.stew.tokensOut.getD k 0) ∧
    ((s.bay b).ramp = .down → (s.bay b).tileQueue = [] →
      ∃ t, exec (.arrayOff b) s = .next t ∧ t = { s with bays := t.bays } ∧ (t.bay b).ramp = .off ∧ (t.bay b).rowGroups = 0 ∧
        ∀ c, c ≠ b → t.bay c = s.bay c)

/-- R244, R245, R270: a move of this node's own T0 and T1 that passes its checks, is not coded and meets no coded unit, byte by
byte: LINEAR and TILE copy, PACK lays a matrix out as engine-ready tiles with +0 beyond it, UNPACK takes them apart, and with
TRANS rows and columns change places. No byte outside the destination changes. R246 to R248: an entry that fails its checks, or
whose COP names no operation, has run with TILE_FAULT and writes nothing; a tag completes in queue order, a failed entry's with
its fault, and every later entry of that queue then fails with it. -/
def Obligations.MoverEntries : Prop :=
  (∀ (s : State) (b : Fin 80) (m : Fin 2) (task : Task) (e : QEntry), Safety.shaped s → Safety.canonical s → Safety.clean s →
     Safety.headOf s b m task e → s.moverBusy b m = false → (∀ u, tagCoded (s.mem.tagOf u) = false) →
     let d : MoveDesc := e.desc
     d.isMove = true → d.code = false → s.moveCheck task d = none →
     s.targetNode d.src = some s.net.nodeId → s.targetNode d.dst = some s.net.nodeId →
     let src := localAddr d.src
     let dst := localAddr d.dst
     (∀ x ∈ d.srcSpans, Safety.inT0T1 s (src + x.1) x.2) → (∀ x ∈ d.dstSpans, Safety.inT0T1 s (dst + x.1) x.2) →
     let i : Instr := if d.cop = 1 then .linear b m else if d.cop = 2 then .tile b m else if d.cop = 3 then .pack b m else .unpack b m
     let across := d.tilesAcross
     ∃ t, exec i s = .next t ∧ ((t.bay b).mover m).ran = some none ∧ Frame.mover s t b ∧
       (∀ x, (∀ p ∈ d.dstSpans, x < dst + p.1 ∨ dst + p.1 + p.2 ≤ x) → t.mem.byte x = s.mem.byte x) ∧
       (d.cop = 1 → ∀ j < 64 * d.count, t.mem.byte (dst + j) = s.mem.byte (src + j)) ∧
       (d.cop = 2 → ∀ k < d.count, ∀ j < d.tb,
         t.mem.byte (dst + k * d.dstStride + j) = s.mem.byte (src + k * d.srcStride + j)) ∧
       (d.cop = 3 → ∀ k < d.tiles, ∀ line < 128, ∀ lane < 128, ∀ j < d.es,
         let r := 128 * (k / across) + (if d.trans then lane else line)
         let c := 128 * (k % across) + (if d.trans then line else lane)
         t.mem.byte (dst + k * d.dstStride + (128 * line + lane) * d.es + j) =
           if r < d.rows ∧ c < d.cols then s.mem.byte (src + r * d.srcStride + c * d.es + j) else 0) ∧
       (d.cop = 4 → ∀ r < d.rows, ∀ c < d.cols, ∀ j < d.es,
         let k := r / 128 * across + c / 128
         let p := if d.trans then 128 * (c % 128) + r % 128 else 128 * (r % 128) + c % 128
         t.mem.byte (dst + r * d.dstStride + c * d.es + j) = s.mem.byte (src + k * d.srcStride + p * d.es + j))) ∧
  (∀ (s : State) (b : Fin 80) (m : Fin 2) (e : QEntry) (rest : List QEntry), Safety.shaped s →
     let d : MoveDesc := e.desc
     (∀ task detail, Safety.headOf s b m task e → ((s.bay b).mover m).queue = e :: rest →
       d.cop ≠ 0x40 → d.cop ≠ 0x50 → d.cop ≠ 0x51 → s.moveCheck task d = some (detail, false) → s.moveLeft task d = false →
       let i : Instr := if d.cop = 2 then .tile b m else if d.cop = 3 then .pack b m else if d.cop = 4 then .unpack b m else .linear b m
       ∃ t, exec i s = .next t ∧ ((t.bay b).mover m).ran = some (some (tileFaultOf detail)) ∧ Frame.mover s t b ∧ t.mem = s.mem) ∧
     (((s.bay b).mover m).queue = e :: rest → (s.thr b e.thread).exited = false →
       let done := fun (f : Option FaultInfo) (failed : List (Nat × FaultInfo)) (th : Thread) =>
         ∃ t, exec (.moverTagComplete b m) s = .next t ∧
           (t.bay b).mover m = { queue := rest, ran := none, halted := f, asked := false, remote := [] } ∧
           (t.bay b).moveFailed = (s.bay b).moveFailed ++ failed ∧ t.thr b e.thread = th ∧
           (∀ u, u ≠ e.thread → t.thr b u = s.thr b u) ∧ t = { s with bays := t.bays, cnt := t.cnt } ∧
           ∀ c, c ≠ b → t.bay c = s.bay c
       let th := s.thr b e.thread
       (((s.bay b).mover m).halted = none → ((s.bay b).mover m).ran = some none → s.moverBusy b m = false → done none [] th) ∧
       (∀ f, ((s.bay b).mover m).halted = none → ((s.bay b).mover m).ran = some (some f) →
         done (some f) [(e.tag, f)] { th with moveFault := some (th.moveFault.getD f) }) ∧
       (∀ f, ((s.bay b).mover m).halted = some f → done (some f) [(e.tag, f)] th)))

/-- R194, R195, R192, R193: the gates answer σ(−0) = 0.5, tanh(−0) = −0, σ(−∞) = +0, tanh(+∞) = 1.0 and the canonical NaN for a
NaN, and tanh is odd; a DENSE cell step that passes its checks writes the new columns of every valid row to OUT and to its state
row and nothing else. R191, R202: a SLOTS step that passes them has run too, and in a context at its home it leaves the pending state in
the first row's write slot. R196: a step that fails a check has run with that fault and writes nothing. -/
def Obligations.CellSteps : Prop :=
  sigma 0x80000000 = 0x3F000000 ∧ tanh32 0x80000000 = 0x80000000 ∧ sigma 0xFF800000 = 0 ∧ tanh32 0x7F800000 = 0x3F800000 ∧
  (∀ x, Fmt.f32.decode x = .nan → sigma x = 0x7FC00000 ∧ tanh32 x = 0x7FC00000) ∧
  (∀ x < 2 ^ 31, Fmt.f32.decode x ≠ .nan → tanh32 (x + 2 ^ 31) = neg32 (tanh32 x)) ∧
  (∀ (s : State) (b : Fin 80) (m : Fin 2) (task : Task) (e : QEntry), Safety.shaped s → Safety.clean s →
    Safety.headOf s b m task e → fieldLE e.desc 0 1 = 0x40 →
    let d : CellDesc := e.desc
    (∀ detail, s.cellCheck b task d = some detail → ∃ t, exec (.cellStep b m) s = .next t ∧
      ((t.bay b).mover m).ran = some (some (tileFaultOf detail)) ∧ Frame.mover s t b ∧ t.mem = s.mem) ∧
    (∀ q, d.slots = true → s.cellCheck b task d = none → (s.bay b).tilesDone = true → (s.bay b).drain = none →
      (s.bay b).ramp = .active → s.cellData task d (s.slotRefs d) = .ok q → s.readEnd d.sAddr (8 * d.bV) = .ok →
      ∃ t, exec (.cellStep b m) s = .next t ∧ ((t.bay b).mover m).ran = some none ∧
        ∀ r x, (s.slotRefs d).head? = some x → task.wu.step = .context → task.home = s.net.nodeId → s.reqOf task.wu.asn = some r →
          ∃ p, t.reqOf task.wu.asn = some p ∧ p.pendingSlot = some (slotBay x.wr, slotIx x.wr))) ∧
  ∀ (s : State) (b : Fin 80) (m : Fin 2) (task : Task) (e : QEntry) (q : CellData), Safety.shaped s → Safety.clean s →
    Safety.headOf s b m task e → fieldLE e.desc 0 1 = 0x40 →
    let d : CellDesc := e.desc
    d.slots = false → s.cellCheck b task d = none → (s.bay b).tilesDone = true → (s.bay b).drain = none →
    (s.bay b).ramp = .active → s.cellData task d [] = .ok q → 0 < d.bV →
    ∃ t, exec (.cellStep b m) s = .next t ∧ ((t.bay b).mover m).ran = some none ∧
      (d.outBytes ≤ d.outStride → d.rowBytes ≤ d.sStride →
        d.sAddr + d.bV * d.sStride ≤ d.out ∨ d.out + d.bV * d.outStride ≤ d.sAddr → ∀ r < d.bV,
        (∀ j < d.outBytes, t.mem.byte (d.out + r * d.outStride + j) = ((cellRow d q r).flatten.flatMap (bytesLE d.esS)).getD j 0) ∧
        ∀ p < d.parts, ∀ j < d.cols * d.esS, t.mem.byte (d.sAddr + r * d.sStride + (p * d.h + d.col0) * d.esS + j) =
          (((cellRow d q r).getD p []).flatMap (bytesLE d.esS)).getD j 0) ∧
      (∀ x, (∀ r < d.bV, (x < d.out + r * d.outStride ∨ d.out + r * d.outStride + d.outBytes ≤ x) ∧ ∀ p < d.parts,
          let c := d.sAddr + r * d.sStride + (p * d.h + d.col0) * d.esS
          x < c ∨ c + d.cols * d.esS ≤ x) → t.mem.byte x = s.mem.byte x) ∧
      t = { s with bays := t.bays, mem := t.mem, cnt := t.cnt, stew := t.stew } ∧ ∀ c, c ≠ b → t.bay c = s.bay c

/-- R217 to R221: an append of one position to a slot that the bay task has bound puts its K and V rows behind the landing slot's rows; a
gather copies positions out to the rows of its descriptor; with every tail of the work unit parked, empty, or a tail block of the
request's own to be parked in, the record commit adds what the work unit appended and frees its slots. -/
def Obligations.KvRowsMove : Prop :=
  (∀ (s : State) (b : Fin 80) (m : Fin 2) (task : Task) (e : QEntry) (g : StageCfg) (r0 r : KvRec) (w : KvWork), Safety.shaped s →
    Safety.canonical s → Safety.clean s → Safety.headOf s b m task e → s.stageCfg task.program task.wu.stage = some g →
    let d : KvDesc := e.desc
    s.kvRecOf task.home task.wu.asn task.wu.stage (rowKey (s.descOf task.home task.wu.asn) task.wu d.row) = some r0 →
    s.kvCheck b task g (some r0) d = none → s.workOf task d.row d.layer = some w → w.bay = b → w.named = true →
    s.kvRecId r0.id = some r →
    (fieldLE e.desc 0 1 = 0x50 → d.count = 1 → 0 < g.d → w.slot < (s.bay b).landing.length → (s.landing b w.slot).fill < 15 →
      s.kvRoom r g (s.landing b w.slot).fill 1 = true →
      let fill := (s.landing b w.slot).fill
      let base := s.landingAddr b w.slot
      (∀ j < 32 * g.d, s.region (base + j) = .t0) →
      ∃ t, exec (.kvAppend b m) s = .next t ∧ ((t.bay b).mover m).ran = some none ∧
        (∀ j < g.d, t.mem.byte (base + fill * g.d + j) = s.mem.byte (d.kAddr + j) ∧
          t.mem.byte (base + 16 * g.d + fill * g.d + j) = s.mem.byte (d.vAddr + j)) ∧
        (∀ x, (x < base + fill * g.d ∨ base + fill * g.d + g.d ≤ x) →
          (x < base + 16 * g.d + fill * g.d ∨ base + 16 * g.d + fill * g.d + g.d ≤ x) → t.mem.byte x = s.mem.byte x) ∧
        t.landing b w.slot = .bound r.id w.row w.layer (fill + 1) ∧ t.kvAppended task d = s.kvAppended task d + 1) ∧
    (fieldLE e.desc 0 1 = 0x51 → ∀ k v : Nat → List Byte,
      (∀ i < d.count, s.readPosition w r g false (d.first + i) = .ok (k i) ∧ (k i).length = g.d) →
      (∀ i < d.count, s.readPosition w r g true (d.first + i) = .ok (v i) ∧ (v i).length = g.d) →
      (d.kAddr + d.count * d.kStride ≤ d.vAddr ∨ d.vAddr + d.count * d.vStride ≤ d.kAddr) →
      ∃ t, exec (.kvGather b m) s = .next t ∧ ((t.bay b).mover m).ran = some none ∧ Frame.mover s t b ∧
        (∀ i < d.count, ∀ j < g.d, t.mem.byte (d.kAddr + i * d.kStride + j) = (k i).getD j 0 ∧
          t.mem.byte (d.vAddr + i * d.vStride + j) = (v i).getD j 0) ∧
        ∀ x, (∀ i < d.count, (x < d.kAddr + i * d.kStride ∨ d.kAddr + i * d.kStride + g.d ≤ x) ∧
          (x < d.vAddr + i * d.vStride ∨ d.vAddr + i * d.vStride + g.d ≤ x)) → t.mem.byte x = s.mem.byte x)) ∧
  ∀ (s : State) (key : WuKey) (u : RunWu), Safety.shaped s → s.running = true →
    (s.req.running.find? fun x => x.key == key && !x.kvDone) = some u → s.wuQuiet u = true →
    (∀ x ∈ s.kv.work, x.home = u.home → x.wu = key → x.parked.isSome = true ∨ (s.landing x.bay x.slot).fill = 0 ∨
      ((∃ q, s.kvRecId x.record = some q ∧ q.stream = none) ∧ (s.stageCfg u.program key.stage).isSome = true ∧
        ∃ p ∈ u.bays, p.2 = x.bay ∧ ∃ k, (s.bay x.bay).task = some k ∧ k.home = u.home ∧ k.wu = key ∧ k.program = u.program)) →
    ∃ t, exec (.kvRecordCommit key) s = .next t ∧ (∀ x ∈ t.kv.work, ¬ (x.home = u.home ∧ x.wu = key)) ∧
      (∀ x ∈ s.kv.work, x.home = u.home → x.wu = key → (∀ q, s.kvRecId x.record = some q → q.held = none) →
        t.landing x.bay x.slot = .free) ∧
      ∀ i q, s.kvRecId i = some q → (∃ x ∈ s.kv.work, x.home = u.home ∧ x.wu = key ∧ x.record = i) →
        ∃ p, t.kvRecId i = some p ∧ p.length = q.length + ((s.kv.work.filter fun x =>
          x.home == u.home && x.wu == key && x.record == i).map (·.appended)).foldl max 0

/-! ## Power-up and boot (02, 03) -/

/-- R62, R65, Tables 2.5, 2.6, 2.10: PWR_OK rising, a cold reset that is due, and the end of SYS_RST_N low each start the cold
power-up: memory, bays, requests and configuration are as at reset, the flash and the fuses stay. SYS_RST_N low holds the device
in cold reset, and PWR_OK low is P4. R37, R62, R73, R74, R76, R458: the steps of a boot up to the slot: the qualified reference
enables the PLL, its lock starts the BIST, bays that fail are fenced, a dead hub or root complex is fatal and leads to SAFE mode,
and the first slot that passes is active. -/
def Obligations.ColdBoot : Prop :=
  (∀ (s : State) (straps : Straps) (low : Bool) (ports : List CxlTrain) (devs : List CxlFound),
     let blank := fun t : State => t.mem = Mem.reset ∧ t.bays = State.reset.bays ∧ t.req = Reqs.reset ∧ t.cfg = Cfg.zero ∧
       t.boot.locked = false ∧ t.boot.flash = s.boot.flash ∧ t.boot.fuseFloor = s.boot.fuseFloor ∧ t.clk.pllLocked = false ∧
       t.pending = s.pending
     let starts := fun (i : Instr) (cause : Nat) => ∃ t, exec i s = .next t ∧ blank t ∧ t.clk.resetCause = cause ∧
       t.clk.pwrOk = true ∧ t.clk.heldInReset = false ∧ t.pins.straps = straps ∧
       t.boot.phase = (if straps.tapEn then .scan else .refWait) ∧
       t.clk.btnIgnored = (s.clk.btnIgnored || cause == 2 || cause == 3 || cause == 0 && low)
     (s.clk.pwrOk = false → starts (.pwrOkRise straps low ports devs) 0) ∧
     (∀ c, s.clk.pendingReset = .cold c → s.clk.pwrOk = true → s.clk.heldInReset = false →
       (s.clk.pllLocked = false ∨ ∀ f ∈ s.boot.flashOps, f.isAnchor = false) → c ≠ 0 →
       starts (.coldResetPerform straps low ports devs) c) ∧
     (s.clk.pwrOk = true → s.clk.heldInReset = true → starts (.sysRstNRelease straps low ports devs) 1) ∧
     (s.clk.pwrOk = true → s.clk.heldInReset = false → ∃ t, exec .sysRstNLow s = .next t ∧ blank t ∧ t.clk.heldInReset = true ∧
       t.boot.phase = .held) ∧
     (s.clk.pwrOk = true → ∃ t, exec .pwrOkFall s = .next t ∧ blank t ∧ t.clk.pwrOk = false ∧ t.clk.pstate = .p4 ∧
       t.boot.phase = .off ∧ t.clk.thermtrip = false)) ∧
  (∀ (s : State), Safety.shaped s →
     (∀ at_, (s.advance at_).alive = true → (s.advance at_).clk.refLost = false → (s.advance at_).boot.phase = .refWait →
       ∃ t, exec (.refQualified at_) s = .next t ∧ t.clk.refQualified = true ∧ t.clk.pllEnabled = !s.clk.thermtrip ∧
         t.boot = { s.boot with phase := .pllWait } ∧ t = { s with clk := t.clk, boot := t.boot }) ∧
     (∀ at_, s.clk.pwrOk = true → s.clk.pllEnabled = true → s.clk.pllLocked = false → s.clk.refLost = false →
       s.clk.clockLoss = false → s.boot.phase = .pllWait →
       ∃ t, exec (.pllLock at_) s = .next t ∧ t.clk.pllLocked = true ∧ t.clk.aonOnRc = false ∧ t.boot = { s.boot with phase := .bist } ∧
         t = { s with clk := t.clk, boot := t.boot }) ∧
     (∀ failBays hubFail rcDead, s.boot.phase = .bist → s.clk.pllLocked = true →
       ∃ t, exec (.powerOnBist failBays hubFail rcDead) s = .next t ∧ t.mem = s.mem ∧
         (∀ b, (t.bay b).fenced = (decide (b ∈ failBays) || (s.bay b).fenced)) ∧
         (hubFail = true ∨ rcDead = true → t.boot.phase = .safe ∧ t.pins.fatalN = false ∧ 0x1236 ∈ t.err.fatal) ∧
         (hubFail = false → rcDead = false → t.boot.phase = .verify)) ∧
     (∀ ta tb, s.boot.phase = .verify → s.clk.pllLocked = true →
       let r := s.boot.verify ta tb
       ∃ t, exec (.slotVerify ta tb) s = .next t ∧ t.boot.failA = r.1 ∧ t.boot.failB = r.2.1 ∧ t.boot.flash = s.boot.flash ∧
         t.boot.fallback = (r.2.2 != some s.boot.firstSlot) ∧
         (r.2.2 = none → t.boot.phase = .safe) ∧
         ∀ k, r.2.2 = some k → t.boot.phase = .hbm ∧ t.boot.activeSlot = k ∧ t.boot.verified = some (s.boot.slotImage k).cfg))

/-- R75, R83, R84, R85, R274: HBM training done applies and locks the verified configuration; a weight object is verified when its
bytes arrive whole with the manifest's hash, else its next source or failure follows; coding verifies it; READY sets, and from then on
the anti-rollback floor rises to the image's SVN bit by bit and never falls (one bit in an idle cycle: the model's choice, log entry
67). -/
def Obligations.BootLoadsWeights : Prop :=
  ∀ (s : State), Safety.canonical s → s.clk.pllLocked = true →
    (∀ c, s.boot.verified = some c → s.boot.phase = .hbm → ∃ t, exec .hbmTrainingDone s = .next t ∧ t.cfg = c ∧ t.boot.locked = true ∧
      t.boot.phase = .weights ∧ t.boot.flash = s.boot.flash ∧ t.boot.weights.length = c.manifest.length) ∧
    (∀ (i : Nat) (e : ManifestEntry) (peer delivered : Bool) (data : List Byte), s.boot.locked = true → s.boot.weightsDone = false →
      s.cfg.manifest[i]? = some e → s.boot.weights[i]? = some (if peer then .pending else .hostNext) →
      s.cfg.listed e.objectId = [] → Safety.inT0T1 s (s.weightAddr e) (max 1 e.bytes) →
      let good := delivered = true ∧ data.length = e.bytes ∧ sha384Val data = e.hash
      ∃ t, exec (.weightFetchDone i peer delivered data) s = .next t ∧
        (∀ x, x < s.weightAddr e ∨ s.weightAddr e + e.bytes ≤ x → t.mem.byte x = s.mem.byte x) ∧
        (∀ k, k ≠ i → t.boot.weights[k]? = s.boot.weights[k]?) ∧
        (good → t.boot.weights[i]? = some .verified ∧ ∀ j < e.bytes, t.mem.byte (s.weightAddr e + j) = data.getD j 0) ∧
        (¬ good → t.boot.weights[i]? = some (if peer = true ∧ e.fromHost = true then .hostNext else .failed))) ∧
    (∀ (i : Nat) (e : ManifestEntry), s.cfg.manifest[i]? = some e → s.boot.weights[i]? = some .coding →
      ∃ t, exec (.weightCodingDone i) s = .next t ∧ t.boot.weights[i]? = some .verified) ∧
    (s.boot.phase = .weights → s.boot.weightsDone = true → ∃ t, exec .bootReady s = .next t ∧ t.boot.phase = .ready ∧
      t.boot.fuseFloor = s.boot.fuseFloor ∧ t.mem = s.mem ∧ t.boot.flash = s.boot.flash) ∧
    (s.pending = [] → ∃ t, step s = .next t ∧ t = { s with clk := t.clk, boot := t.boot } ∧
      t.boot = { s.boot with fuseFloor := if s.running = true ∧ s.boot.fuseFloor < s.cfg.header.svn then s.boot.fuseFloor + 1
                                          else s.boot.fuseFloor })

/-! ## Resets, the clock monitor and the power states (02) -/

/-- R49, R54 to R56, R77, R96: what the button, the watchdog and a SAFE-mode commit ask for. The device is ready, out of P3 and not on its
way into it, and no reset is due or in progress. The cold reset of a commit starts in any phase, 10 ms after its posting and not
before. -/
def Obligations.ResetsAreAsked : Prop :=
  (∀ (s : State), s.alive = true → s.boot.phase = .ready → s.clk.pstate ≠ .p3 → s.clk.p3Entering = false →
    s.clk.pendingReset = .none → s.clk.warmInProgress = false →
    (∃ t, exec .resetBtnPress s = .next t ∧ t = { s with clk := { s.clk with btnDown := true } }) ∧
    (s.clk.btnDown = true → s.clk.btnIgnored = false →
      (∃ t, exec .resetBtnRelease s = .next t ∧ t = { s with clk := { s.clk with btnDown := false, pendingReset := .warm 3 } }) ∧
      ∃ t, exec .resetBtnHold s = .next t ∧ t.clk.pendingReset = .cold 2 ∧ t.clk.btnIgnored = true ∧
        t = { s with clk := t.clk, boot := t.boot } ∧
        ∀ n, s.aud.head = some n → ∃ addr a, FlashOp.anchorWrite addr a ∈ t.boot.flashOps ∧ a.recno = n ∧ a.reason = 4) ∧
    (∃ t, exec .buttonRearm s = .next t ∧
      t = { s with clk := { s.clk with btnIgnored := if s.clk.btnDown then s.clk.btnIgnored else false } }) ∧
    (∀ core, s.clk.pllLocked = true → ∃ t, exec (.watchdogExpiry core) s = .next t ∧
      t = { s with clk := { s.clk with pendingReset := if s.isFatal then .none else .warm 5 } })) ∧
  ∀ (s : State) (at_ due : Nat), s.boot.commitResetAt = some due →
    ((s.advance at_).clk.devTime < due → exec (.safeCommitReset at_) s = .next (s.advance at_)) ∧
    (due ≤ (s.advance at_).clk.devTime → (∀ c, s.clk.pendingReset ≠ .cold c) →
      ∃ t, exec (.safeCommitReset at_) s = .next t ∧ t.boot.commitResetAt = none ∧ t.clk.pendingReset = .cold 7 ∧ t.mem = s.mem ∧
        ∀ a, s.dueAnchor 4 = some a → ∃ addr, FlashOp.anchorWrite addr a ∈ t.boot.flashOps)

/-- R34, R51, R53, R457, Table 2.6: a warm reset completes every request with RESET_ABORTED, or CLOCK_LOSS after a REF_LOST, stops
all work, and clears bay SRAM, the rings and the fatal causes; the configuration, the flash and the fuses stay. A cause that only
a cold reset leaves turns it into a cold reset. Its completion lets work begin again. -/
def Obligations.WarmResetAborts : Prop :=
  ∀ (s : State) (c : Nat), Safety.shaped s → (s.req.table.map (·.asn)).Nodup → s.alive = true →
    (s.clk.pendingReset = .warm c → s.clk.pllLocked = true → s.clk.refLost = false → s.clk.pstate ≠ .p3 → s.clk.thermtrip = false →
      (s.err.fatal.all warmLeaves = false → ∃ t, exec .warmResetPerform s = .next t ∧ t.clk.pendingReset = .cold 8) ∧
      (s.err.fatal.all warmLeaves = true → ∃ t, exec .warmResetPerform s = .next t ∧ t.clk.resetCause = c ∧ t.clk.resetWarm = true ∧
        t.clk.warmInProgress = true ∧ t.clk.pendingReset = .none ∧ t.pins.fatalN = true ∧ t.err.fatal = [] ∧
        t.req.running = [] ∧ (∀ b, (t.bay b).task = none ∧ (t.bay b).fenced = (s.bay b).fenced ∧ (t.bay b).ramp = .off) ∧
        (∀ a < 0x28000000, t.mem.byte a = 0) ∧ t.cfg = s.cfg ∧ t.boot.flash = s.boot.flash ∧ t.boot.fuseFloor = s.boot.fuseFloor ∧
        (∀ f, (t.page f).armed = false ∧ (t.page f).cplTail = 0) ∧
        ∀ r ∈ s.req.table, r.phase ≠ .complete → ∃ q ∈ t.req.table, q.asn = r.asn ∧ q.phase = .complete ∧
          q.status = if r.failed then r.status else if s.clk.clockLoss then 0x33 else 0x34)) ∧
    (s.clk.warmInProgress = true → ∃ t, exec .warmResetComplete s = .next t ∧ t.clk.warmInProgress = false)

/-- R43 to R48, R50: a glitch is counted, and the sixteenth within 1 ms is REF_LOST; drift raises the clock warning; REF_LOST
stops all work and the PLL, and the requests complete with CLOCK_LOSS at the warm reset; a thermal trip stops the PLL and gates
the tiles. -/
def Obligations.ClockEvents : Prop :=
  ∀ (s : State), Safety.shaped s → s.alive = true →
    (∀ at_ : Nat, s.clk.devTime < at_ →
      let near := s.clk.glitchTimes.countP fun x => decide (at_ < x + 1000000)
      ∃ t, exec (.refGlitch at_) s = .next t ∧ t.clk.glitches = satInc s.clk.glitches ∧
        (near < 15 → t.clk.refLost = s.clk.refLost ∧ t.clk.pllLocked = s.clk.pllLocked ∧ at_ ∈ t.clk.glitchTimes) ∧
        (15 ≤ near → t.clk.refLost = true ∧ t.clk.glitchTimes = [])) ∧
    (∀ fast, s.clk.pllLocked = true → s.clk.refDrift = false → ∃ t, exec (.refDrift fast) s = .next t ∧ t.clk.refDrift = true ∧
      t.clk.refFast = fast ∧ (t.page 0).irqCause.getLsbD 3 = true ∧ t.mem = s.mem) ∧
    (s.clk.refDrift = true → ∃ t, exec .refDriftClear s = .next t ∧ t.clk.refDrift = false ∧ t.clk.refFast = false ∧
      t = { s with clk := t.clk, cnt := t.cnt, stew := t.stew }) ∧
    (s.clk.refLost = false → s.clk.pstate ≠ .p3 → s.boot.phase ≠ .scan → ∃ t, exec .refLost s = .next t ∧
      t.clk.refLost = true ∧ t.clk.refQualified = false ∧ t.clk.pllLocked = false ∧ t.clk.timeDegraded = true ∧
      t.clk.clockLoss = !s.boot.phase.booting ∧ t.req.running = [] ∧ t.host.linkUp = false ∧
      (∃ e ∈ t.err.ring, e.cls = 2 ∧ e.source = 0x01 ∧ e.code = 0x0203) ∧ (t.page 0).irqCause.getLsbD 3 = true ∧
      ∀ r ∈ t.req.table, r.phase ≠ .complete → r.clockDegraded = true) ∧
    (∀ sensor, ∃ t, exec (.thermtrip sensor) s = .next t ∧ t.clk.thermtrip = true ∧ t.clk.pllLocked = false ∧ t.clk.pllEnabled = false ∧
      t.pins.thermtripN = false ∧ t.host.linkUp = false ∧ (∀ x ∈ t.clk.tiles, x.powered = false) ∧
      t = { s with clk := t.clk, pins := t.pins, host := t.host })

/-- R57 to R61, R315, R473: an idle device enters P2 after the idle dwell; after the P3 dwell the entry to P3 begins, the PCIe link goes to
L1, and with the ports drained and the flash at rest it ends in P3; each wake source latches its bit; the exit needs the rail and the
reference, returns to P0 or P1 and raises wake-done. -/
def Obligations.PowerStates : Prop :=
  ∀ (s : State) (at_ : Nat), Safety.shaped s →
    let s1 := s.advance at_
    (∀ t0, s1.clk.idleSince = some t0 → s1.running = true → s1.clk.pstate = .p0 ∨ s1.clk.pstate = .p1 → s1.idle = true →
      (∀ y ∈ s1.bays, y.ramp = .off) → t0 + 1000 * s1.cfg.policy.idleDwellUs ≤ s1.clk.devTime →
      ∃ t, exec (.p2Entry at_) s = .next t ∧ t.clk.pstate = .p2 ∧ t.clk.p2Since = some s1.clk.devTime ∧
        (∀ x ∈ t.clk.tiles, x.gated = true) ∧ t = { s1 with clk := t.clk }) ∧
    (s1.mayP3 = true → s1.clk.p3Entering = false → ∃ t, exec (.p3Entry at_) s = .next t ∧
      (t.clk.p3Entering = true ∨ t.clk.pstate = .p3) ∧ t.clk.wakeCause = 0 ∧ t.clk.wakeLatched = false ∧
      t.host.linkL1 = s.host.linkUp ∧ t.cfg = s.cfg ∧ t.boot.flash = s.boot.flash ∧
      ∀ a, s1.dueAnchor 2 = some a → ∃ addr, FlashOp.anchorWrite addr a ∈ t.boot.flashOps) ∧
    (s1.p3Ready = true → ∃ t, exec (.p3Entry at_) s = .next t ∧ t.clk.pstate = .p3 ∧ t.clk.p3Entering = false ∧
      t.clk.pllLocked = false ∧ t.pins.swRailEn = false ∧ t.clk.p3Count = satInc s.clk.p3Count ∧
      t.stew.hbmSelfRef = List.replicate 8 true ∧ t.cfg = s.cfg ∧ t.boot.flash = s.boot.flash ∧ ∀ x ∈ t.clk.tiles, x.powered = false) ∧
    (s1.clk.pstate = .p3 →
      let wakes := fun (i : Instr) (bit : Nat) => ∃ t, exec i s = .next t ∧ t.clk.wakeLatched = true ∧
        t.clk.wakeCause = s1.clk.wakeCause ||| (1#5 <<< bit) ∧
        t.pins.swRailEn = (s1.pins.swRailEn || (s1.clk.railLowUntil.isNone && !s1.clk.refLost)) ∧ t.mem = s.mem
      (s1.due s1.clk.aonTimerAt = true → wakes (.aonTimerExpiry at_) 3) ∧
      (s1 = s → s.host.linkUp = true → wakes .pcieWake 1) ∧
      (s1 = s → ∀ p, (s.port p).state = .listen → wakes (.trussListenWake p) 2) ∧
      (s1 = s → s.alive = true → s.clk.btnIgnored = false → s.boot.phase ≠ .safe → wakes .resetBtnPress 4) ∧
      (s1.due s1.clk.railLowUntil = true → ∃ t, exec (.swRailMinLowEnd at_) s = .next t ∧ t.clk.railLowUntil = none ∧
        t.pins.swRailEn = (s1.pins.swRailEn || (s1.clk.wakeLatched && !s1.clk.refLost)) ∧
        t = { s1 with clk := t.clk, pins := t.pins }) ∧
      (s1.alive = true → s1.clk.wakeLatched = true → s1.pins.swRailEn = true → s1.clk.refLost = false → s1.clk.thermtrip = false →
        s1.clk.held = [] → ∃ t, exec (.p3ExitComplete at_) s = .next t ∧ (t.clk.pstate = .p0 ∨ t.clk.pstate = .p1) ∧
          t.clk.pllLocked = true ∧ t.clk.wakeLatched = false ∧ (t.page 0).irqCause.getLsbD 4 = true ∧
          t.stew.hbmSelfRef = List.replicate 8 false))

/-! ## The Steward, fences and fatal faults (02, 04, 18) -/

/-- R40 to R42, R115: the regulator's report ends a step, and a rise switches its divider then; a rise that is not reported within
1 ms is given up, and the tile is limited to the divider it had. Other tiles are as they were. -/
def Obligations.DividerSteps : Prop :=
  ∀ (s : State) (k : Fin 4) (d : DivStep), Safety.shaped s → (s.tile k.val).step = some d →
    let x := s.tile k.val
    let others := fun t : State => ∀ j : Fin 4, j ≠ k → t.tile j.val = s.tile j.val
    (∃ t, exec (.avsTargetReached k) s = .next t ∧ (t.tile k.val).confirmed = d.mv ∧ d.target ≤ (t.tile k.val).div ∧ others t ∧
      (s.wantedDiv k.val = d.target → (t.tile k.val).div = d.target ∧ (t.tile k.val).step = none)) ∧
    ∃ t, exec (.avsTimeout k) s = .next t ∧ x.div ≤ (t.tile k.val).div ∧ others t ∧
      (x.rising = true → (t.tile k.val).limit = max x.limit x.div ∧
        (∃ e ∈ t.err.ring, e.cls = 2 ∧ e.source = 0x01 ∧ e.inst = k.val ∧ e.code = 0x0205)) ∧
      (x.rising = false → (t.tile k.val).limit = x.limit ∧ t.err = s.err)

/-- R102 to R104, R112, R122: a budget window inside a scheduler epoch: the reduction follows the hottest sensor, the budget is the
cap less t sixteenths, again 7/8 while telemetry is stale, and with nothing dispatched what remains is the budget less baseline,
overdraft and carries, the readings taken by their rails' gains (log entry 49). R88 to R90: a scheduler epoch boundary applies every
value posted before it and keeps those posted later; a change moves the generation by one. -/
def Obligations.BudgetsAndTunables : Prop :=
  (∀ (s : State) (at_ : Nat) (sensors : List (Option Int)) (rails base : List Nat), Safety.shaped s →
     let s1 := s.advance at_
     let sum := fun raw : List Nat => ((List.range 13).map fun i => raw.getD i 0 * s.stew.gain.getD i 0x1000 / 4096).sum
     let measured := s.stew.winEnergy + sum rails
     let baseline := s.stew.winBase + sum base
     s1.running = true → at_ % 100000 = 0 → at_ % 1000000 ≠ 0 →
     ∃ t, exec (.budgetWindowStart at_ sensors rails base) s = .next t ∧ t.stew.windowSeq = s.stew.windowSeq + 1 ∧
       (∀ (i : Nat) (v : Int), i < 96 → sensors.getD i none = some v → v ≤ t.stew.tmax) ∧
       t.stew.bEff = (if s.stew.vrmStale then s.tun.powerCap * 1000 * (16 - t.stew.thermT) * 7 / 128
         else s.tun.powerCap * 1000 * (16 - t.stew.thermT) / 16) ∧
       ((∃ i < 96, (sensors.getD i none).isSome = true) →
         t.stew.thermT = min 12 (ceilDiv (t.stew.tmax - 4 * s.cfg.policy.softC).toNat 4)) ∧
       (s1.isFatal = true ∨ s1.candidates = [] →
         let od := s.stew.overdraft + (if s.stew.bEff = 0 then 0 else measured - s.stew.bEff)
         t.stew.remain = (t.stew.bEff : Int) - baseline - min od t.stew.bEff -
           ((s.stew.carries.map fun c => min c.owed c.perWindow).sum : Nat) ∧
         t.stew.overdraft = od - min od t.stew.bEff)) ∧
  (∀ (s : State) (at_ : Nat), (s.advance at_).running = true → at_ % 1000000 = 0 →
     let due := s.tun.shadow.filter fun v => decide (v.posted < at_)
     let new := due.foldl Tun.apply s.tun
     ∃ t, exec (.schedulerEpochBoundary at_) s = .next t ∧
       t.tun = { new with shadow := s.tun.shadow.filter (fun v => !decide (v.posted < at_)),
                          gen := if new = s.tun then s.tun.gen else s.tun.gen + 1 } ∧
       t.str.epochCount = (s.str.epochCount + 1) % 2 ^ 32)

/-- R102, R116, R122: recalibration sets each reporting rail's gain to VRM over estimator energy within 0x0800 to 0x2000, and
keeps the others; what the estimators read until then counts by the gains before it; 100 ms without it is stale telemetry; an HBM
stack's step follows its temperature with 2 °C of hysteresis, and one that stops reporting is held at 25 %. (The 13 rails: log entry
49.) -/
def Obligations.EstimatorsAndHbm : Prop :=
  ∀ (s : State) (at_ : Nat),
    let s1 := s.advance at_
    s1.running = true → Safety.shaped s →
    (∀ (vrm : List (Option Nat)) (est : List Nat) (part : Readings), ∃ t, exec (.estimatorRecalibration at_ vrm est part) s = .next t ∧
      let old := fun i raw : Nat => raw * s.stew.gain.getD i 0x1000 / 4096
      t.stew.moduleW = part.moduleW % 65536 ∧
      (∀ i < 13, vrm.getD i none = none → t.stew.gain[i]? = s.stew.gain[i]?) ∧
      (∀ i < 13, ∀ v, vrm.getD i none = some v → est.getD i 0 ≠ 0 →
        t.stew.gain[i]? = some (max 0x0800 (min 0x2000 (4096 * v / est.getD i 0)))) ∧
      t.stew.winEnergy = s.stew.winEnergy + ((List.range 13).map fun i => old i (part.rails.getD i 0)).sum ∧
      (∀ (b : Fin 80) (k : Task), (s.bay b).task = some k →
        (t.bay b).task = some { k with energy := k.energy + old (tileOf b).val (part.bays.getD b.val 0) }) ∧
      ((∃ i < 13, (vrm.getD i none).isSome = true) → t.stew.vrmStale = false ∧ t.stew.lastRecal = s1.clk.devTime)) ∧
    (∃ t, exec (.vrmTelemetryStale at_) s = .next t ∧ t = { s1 with stew := t.stew } ∧
      t.stew.vrmStale = (s.stew.vrmStale || decide (s.stew.lastRecal + 100000000 ≤ s1.clk.devTime))) ∧
    (∀ temps : List (Option Nat), ∃ t, exec (.hbmTempPoll at_ temps) s = .next t ∧ ∀ k < 8,
      let c := s.cfg.policy.hbmC
      let old := s.stew.hbmStep.getD k 0
      let new := t.stew.hbmStep.getD k 0
      (temps.getD k none = none → new = old) ∧
      ∀ x, temps.getD k none = some x → (x + 2 ≤ c → new = 0) ∧ (c ≤ x → 1 ≤ new) ∧ (c + 5 ≤ x → 2 ≤ new) ∧ (c + 10 ≤ x → 3 ≤ new) ∧
        new ≤ max old 3 ∧ (x < c → new ≤ old)) ∧
    ∀ k : Fin 8, ∃ t, exec (.hbmTempTimeout k at_) s = .next t ∧ t.stew.hbmStep.getD k.val 0 = 3 ∧ t = { s1 with stew := t.stew } ∧
      ∀ j, j ≠ k.val → t.stew.hbmStep[j]? = s.stew.hbmStep[j]?

/-- R448, R449, R452, R455, R456, R170: a fence takes the bay out of use with its array off, and abandons the work unit that runs
there; a bay task past its limit ends its request with FAULT_CONTAINED; a fatal cause drives FATAL_N low, stops every array and the
plumb run, and ends no request. -/
def Obligations.FencesAndFatalCauses : Prop :=
  ∀ (s : State) (b : Fin 80), Safety.shaped s →
    (s.running = true → s.plumb.running = false → (s.bay b).fenced = false →
      (∀ task, (s.bay b).task = some task →
        ∃ w, s.runOf task.home task.wu = some w ∧ (task.idx, b) ∈ w.bays ∧ w.kvDone = false) →
      ∃ t, exec (.bayFence b) s = .next t ∧
      (t.bay b).fenced = true ∧ (t.bay b).task = none ∧ (t.bay b).ramp = .off ∧ (t.bay b).landing = [] ∧ t.bayFree b = false) ∧
    (∀ (at_ : Nat) (task : Task) (r : Req) (run : RunWu), (s.advance at_).running = true → s.isFatal = false →
      (s.bay b).task = some task → task.started + task.limit < (s.advance at_).clk.devTime → task.home = s.net.nodeId →
      s.reqOf task.wu.asn = some r → r.failed = false → r.phase ≠ .complete →
      s.runOf task.home task.wu = some run → (task.idx, b) ∈ run.bays →
      ∃ t, exec (.wuTimeout b at_) s = .next t ∧ (t.bay b).task = none ∧
        ∃ q, t.reqOf task.wu.asn = some q ∧ q.failed = true ∧ q.status = 0x31 ∧ q.detail = 0x1201) ∧
    (∀ code : BitVec 16, s.alive = true → 0x1230 ≤ code.toNat → code.toNat ≤ 0x1236 → ∃ t, exec (.fatalFault code) s = .next t ∧
      t.pins.fatalN = false ∧ code.toNat ∈ t.err.fatal ∧ (∀ c, (t.bay c).ramp = .off ∧ (t.bay c).running = none ∧ (t.bay c).tileQueue = []) ∧
      (∃ e ∈ t.err.ring, e.cls = 3 ∧ e.code = code.toNat) ∧ t.plumb.running = false ∧ t.req = s.req ∧ t.mem = s.mem ∧
      (∀ x u, t.thr x u = s.thr x u) ∧ t.canFetch = false ∧ t.canDispatch = false)

/-! ## The mailbox (03, 14, 17, 18) -/

/-- R375, R376, R76, R456: MBX_CMD written while BUSY only sets OVERRUN; a command that is unknown, of another function, refused
in the present mode, or with a set byte outside its arguments ends with its code and has no other effect. R87 to R89, R375 to
R377, R380, R435, R460, Table 14.4: what each command that ends or waits without the flash does, once it is not refused. -/
def Obligations.MailboxCommandResults : Prop :=
  (∀ (s : State) (f : Fin 16) (seq : BitVec 16), Safety.shaped s →
     (∀ i ∈ [Instr.getInfo f seq, .setTunable f seq, .quiesce f seq, .resume f seq, .warmReset f seq, .snapshot f seq, .plumbNow f seq,
         .sentinelRead f seq, .exportPubkey f seq, .setTimeOffset f seq, .leaveFabric f seq, .commitImage f seq, .stageImage f seq none],
       s.reachable f = true → s.asleep = false → (s.page f).mbxBusy = true →
       exec i s = .next (s.modPage f fun p => { p with mbxOverrun := true })) ∧
     ∀ p ∈ [(Instr.setTunable f seq, 0x02), (.quiesce f seq, 0x03), (.resume f seq, 0x04), (.stageImage f seq none, 0x10),
         (.commitImage f seq, 0x11), (.warmReset f seq, 0x20), (.snapshot f seq, 0x30), (.plumbNow f seq, 0x31),
         (.sentinelRead f seq, 0x40), (.setTimeOffset f seq, 0x60), (.leaveFabric f seq, 0x70)], ∀ j code,
       Safety.mailbox s f p.2 seq none j → s.mbxDenied j = some code →
       ∃ t, exec p.1 s = .next t ∧ Safety.posted t f seq code [] ∧ t = { s with host := t.host, cnt := t.cnt } ∧
         (f ≠ 0 → code = 0x81)) ∧
  (∀ (s : State) (seq : BitVec 16) (j : MbxJob), Safety.shaped s →
     let starts := fun id => Safety.mailbox s 0 id seq none j ∧ s.mbxDenied j = none
     let waits := fun t : State => (t.page 0).mbxBusy = true ∧ t.host.mbxRunning = some j
     (∀ f, Safety.mailbox s f 0x01 seq none j → s.mbxDenied j = none → ∃ t, exec (.getInfo f seq) s = .next t ∧
       Safety.posted t f seq 0 (s.infoBytes f) ∧ t = { s with host := t.host, cnt := t.cnt }) ∧
     (starts 0x02 →
       let id := fieldLE j.args 0 2
       let v := fieldLE j.args 8 8
       (s.tunableOk id v = false → ∃ t, exec (.setTunable 0 seq) s = .next t ∧ Safety.posted t 0 seq 0x82 [] ∧ t.tun = s.tun) ∧
       (s.tunableOk id v = true → s.tun.gen < 0xFFFFFFFF → ∃ t, exec (.setTunable 0 seq) s = .next t ∧
         Safety.posted t 0 seq 0 (bytesLE 8 s.nextEpoch ++ bytesLE 4 s.tun.gen) ∧
         t.tun = { s.tun with shadow := s.tun.shadow.filter (fun x => x.id != id) ++
           [{ id := id, value := v, posted := s.clk.devTime }] })) ∧
     (starts 0x03 → ∃ t, exec (.quiesce 0 seq) s = .next t ∧ (1 < fieldLE j.args 0 1 → Safety.posted t 0 seq 0x82 [] ∧ t.req = s.req) ∧
       (fieldLE j.args 0 1 ≤ 1 → t.req.quiesced = true ∧ t.canFetch = false) ∧
       (fieldLE j.args 0 1 = 1 → waits t ∧ t.req.quiesceWait = some (0, seq)) ∧
       (fieldLE j.args 0 1 = 0 → (t.page 0).mbxBusy = false ∧ (t.page 0).mbxCode = 0 ∧
         (t.page 0).mbxResult.take 4 = bytesLE 4 s.admittedCount)) ∧
     (∀ k, s.req.quiesceWait.isSome = true → s.host.mbxRunning = some k → k.id = 0x03 → k.f = 0 → s.running = true →
       s.admittedCount = 0 → s.req.doneQ = [] → s.host.mbxWaiting = [] → (s.page 0).mbxDrop = false →
       ∃ t, exec .quiesceComplete s = .next t ∧ t.req.quiesceWait = none ∧ (t.page 0).mbxBusy = false ∧ (t.page 0).mbxCode = 0 ∧
         (t.page 0).mbxSeq = k.seq) ∧
     (starts 0x04 → ∃ t, exec (.resume 0 seq) s = .next t ∧ t.req.quiesced = false ∧ Safety.posted t 0 seq 0 []) ∧
     (starts 0x20 → s.clk.pendingReset = .none → s.clk.warmInProgress = false → ∃ t, exec (.warmReset 0 seq) s = .next t ∧
       Safety.posted t 0 seq 0 [] ∧
       (s.boot.phase = .ready → t.clk = { s.clk with pendingReset := .warm 4, warmAt := some (s.clk.devTime + 100000) }) ∧
       (s.boot.phase ≠ .ready → t.clk = s.clk)) ∧
     (starts 0x30 → ∃ t, exec (.snapshot 0 seq) s = .next t ∧ waits t ∧ t.cnt.due = s.cnt.due ++ [1]) ∧
     (starts 0x31 → s.running = true → ∃ t, exec (.plumbNow 0 seq) s = .next t ∧ Safety.posted t 0 seq 0 (bytesLE 8 (s.plumb.run + 1)) ∧
       (s.plumb.running = false → t.plumb.running = true ∧ t.plumb.run = s.plumb.run + 1) ∧
       (s.plumb.running = true → t.plumb = { s.plumb with queued := true })) ∧
     (starts 0x60 →
       let step := fieldLE j.args 8 8
       (step = 0 → ∃ t, exec (.setTimeOffset 0 seq) s = .next t ∧ t.host.wallOffset = BitVec.ofNat 64 (fieldLE j.args 0 8) ∧
         t.clk = s.clk ∧ Safety.posted t 0 seq 0 (bytesLE 8 s.clk.devTime)) ∧
       (0 < step → step ≤ 1000000000 → s.clk.timeDegraded = false → ∃ t, exec (.setTimeOffset 0 seq) s = .next t ∧ t.clk = s.clk ∧
         t.host.wallOffset = s.host.wallOffset ∧ Safety.posted t 0 seq 0x83 [])))

/-- R78 to R81, R352, R354, R378, R379: STAGE_IMAGE queues its STAGING record and the flash operations of its chunk; COMMIT_IMAGE
reads the staged slot, and its control record follows once the checks have passed; an operation that ends well leaves its bytes in
the flash, a failed one leaves the flash as it was (log entry 42), and none ends while the PLL is off; a SENTINEL_READ outside a window
returns zeros and a refusal; EXPORT_PUBKEY writes its bytes under the PF's requester ID; LEAVE_FABRIC takes every port down. -/
def Obligations.MailboxImagesAndReads : Prop :=
  ∀ (s : State) (seq : BitVec 16) (j : MbxJob), Safety.shaped s →
    let starts := fun id dma => Safety.mailbox s 0 id seq dma j ∧ s.mbxDenied j = none
    (∀ dma, starts 0x10 dma →
      let slot := fieldLE j.args 0 1
      let off := fieldLE j.args 4 4
      let n := fieldLE j.args 8 4
      let good := s.slotAllowed slot = true ∧ off % 4096 = 0 ∧ n % 4096 = 0 ∧ 0 < n ∧ n ≤ 4194304 ∧ off + n ≤ slotBytes ∧
        fieldLE j.args 0x10 8 % 4096 = 0
      (¬ good → ∃ t, exec (.stageImage 0 seq dma) s = .next t ∧ Safety.posted t 0 seq 0x82 [] ∧ t.boot = s.boot) ∧
      (good → ∃ t, exec (.stageImage 0 seq dma) s = .next t ∧ t.boot.flash = s.boot.flash ∧
        (s.boot.planned.slotState slot ≠ slotStaging →
          ∀ o ∈ s.boot.planned.ctlOps slot slotStaging 0 0, o ∈ t.boot.flashOps) ∧
        (dma = none ∨ s.canSend 0 = false → Safety.posted t 0 seq 0x87 []) ∧
        (∀ data, dma = some data → s.canSend 0 = true → t.host.mbxRunning = some j ∧
          ∀ o ∈ s.boot.stageOps slot off (fit n data), o ∈ t.boot.flashOps))) ∧
    (starts 0x11 none →
      let slot := fieldLE j.args 0 1
      (s.slotAllowed slot = false → ∃ t, exec (.commitImage 0 seq) s = .next t ∧ Safety.posted t 0 seq 0x82 [] ∧ t.boot = s.boot) ∧
      (s.slotAllowed slot = true → ∃ t, exec (.commitImage 0 seq) s = .next t ∧ t.host.mbxRunning = some j ∧
        FlashOp.verify slot ∈ t.boot.flashOps ∧ t.boot.flash = s.boot.flash ∧ t.boot.activeSlot = s.boot.activeSlot ∧ t.cfg = s.cfg)) ∧
    (∀ (ok : Bool) (at_ : Nat) (o : FlashOp), s.boot.flashBusy = some o →
      (s.clk.pllLocked = false → exec (.flashOperationDone ok at_) s = .next (s.advance at_)) ∧
      (s.clk.pllLocked = true → ∃ t, exec (.flashOperationDone ok at_) s = .next t ∧
        t.boot.flash = (if ok then (s.boot.applyFlash o).flash else s.boot.flash) ∧ t.cfg = s.cfg ∧
        ∀ slot k, o = .verify slot → s.host.mbxRunning = some k → k.id = 0x11 → k.f = 0 → s.host.mbxWaiting = [] →
          (s.page 0).mbxDrop = false →
          let code := if ok then s.stagedCode slot else 0x0A
          let header := (s.boot.slotImage slot).header
          (code ≠ 0 → Safety.posted t 0 k.seq code []) ∧
          (code = 0 → t.host.mbxRunning = some k ∧
            ∀ x ∈ s.boot.planned.ctlOps slot slotCommitted (readHeader header).sequence (sha384Val header), x ∈ t.boot.flashOps))) ∧
    (starts 0x40 none → s.canSend 0 = true →
      let addr := fieldLE j.args 0 8
      let off := fieldLE j.args 8 4
      let n := fieldLE j.args 0xC 4
      addr % 64 = 0 → off % 8 = 0 → n % 8 = 0 → off + n ≤ 500000 → 0 < n →
      let opened := s.sent.muted = false ∧ s.sent.windowEnd.isSome = true
      ∃ t, exec (.sentinelRead 0 seq) s = .next t ∧
        (opened → HostMsg.dma 0 addr (slice s.sent.ringBytes off n) ∈ t.host.out ∧ t.sent = s.sent ∧
          Safety.posted t 0 seq 0 (bytesLE 4 n ++ [0, 0, 0, 0] ++ bytesLE 8 s.sent.wakeTime)) ∧
        (¬ opened → HostMsg.dma 0 addr (List.replicate n 0) ∈ t.host.out ∧ t.sent.lockedReads = satInc s.sent.lockedReads ∧
          Safety.posted t 0 seq (if s.sent.muted then 0x86 else 0x85) (bytesLE 4 n))) ∧
    (∀ f, Safety.mailbox s f 0x50 seq none j → s.mbxDenied j = none → s.canSend 0 = true →
      let bytes := identityPublic ++ Config.certChain
      let addr := fieldLE j.args 0 8
      addr % 64 = 0 → ∃ t, exec (.exportPubkey f seq) s = .next t ∧
        (bytes.length ≤ fieldLE j.args 8 4 → HostMsg.dma 0 addr bytes ∈ t.host.out ∧ Safety.posted t f seq 0 (bytesLE 4 bytes.length)) ∧
        (fieldLE j.args 8 4 < bytes.length → Safety.posted t f seq 0x82 (bytesLE 4 bytes.length))) ∧
    (starts 0x70 none → ∃ t, exec (.leaveFabric 0 seq) s = .next t ∧ t.net.leftFabric = true ∧ (t.page 0).mbxCode = 0 ∧
      ∀ p, (t.port p).state = (if (s.port p).state = .active ∨ (s.port p).state = .recovery then .drain else .disabled))

/-! ## Host registers, functions and the link (02, 14, 17, 20) -/

/-- R59, R60, R361 to R365, R371, R435, R438, Tables 14.1, 14.2, 17.3: what the host's register writes do out of P3. In P3, or on the
way into it, a write waits for the exit and wakes the device. -/
def Obligations.HostRegisterWrites : Prop :=
  ∀ (s : State) (f : Fin 16) (value : BitVec 32), Safety.shaped s → s.reachable f = true →
    let p := s.page f
    (s.asleep = true → ∀ i ∈ [Instr.reqTail f value, .arm f value, .disarm f, .tailErrClear f, .cplHead f value, .irqCauseClear f value],
      ∃ t, exec i s = .next t ∧ t.clk.wakeLatched = true ∧ t.clk.wakeCause.getLsbD 1 = true ∧
        t.clk.held.length = s.clk.held.length + 1 ∧ t.host = s.host) ∧
    (s.asleep = false →
      (∃ t, exec (.reqTail f value) s = .next t ∧
        (p.armed = true → (value - p.reqHead).toNat ≤ 2 ^ p.reqLog2.toNat → t = s.modPage f fun p => { p with reqTail := value }) ∧
        (p.armed = false ∨ 2 ^ p.reqLog2.toNat < (value - p.reqHead).toNat → (t.page f).tailErr = true ∧ (t.page f).reqTail = p.reqTail)) ∧
      (p.armed = false → p.armBit = false →
        let q := { p with reqLog2 := value.extractLsb' 4 5, cplLog2 := value.extractLsb' 9 5,
                          audLog2 := if f = 0 then value.extractLsb' 14 5 else p.audLog2 }
        ∃ t, exec (.arm f value) s = .next t ∧ (t.page f).armBit = true ∧ (t.page f).armed = q.armOk (f == 0) ∧
          (t.page f).armErr = !q.armOk (f == 0) ∧ (t.page f).reqLog2 = q.reqLog2 ∧ (t.page f).cplLog2 = q.cplLog2 ∧
          (q.armOk (f == 0) = true → (t.page f).reqTail = 0 ∧ (t.page f).reqHead = 0)) ∧
      (∃ t, exec (.disarm f) s = .next t ∧ t.page f = { p with armBit := false, armed := false } ∧ t.mem = s.mem) ∧
      (p.armBit = true → ∃ t, exec (.tailErrClear f) s = .next t ∧ t.page f = { p with tailErr := false } ∧
        t = { s with host := t.host }) ∧
      (∃ t, exec (.cplHead f value) s = .next t ∧ (t.page f).cplHead = (if headOk p.cplHead p.cplTail value then value else p.cplHead) ∧
        t.mem = s.mem) ∧
      (f = 0 → ∃ t, exec (.audHead value) s = .next t ∧
        (t.page 0).audHead = (if headOk p.audHead p.audTail value then value else p.audHead) ∧ t.mem = s.mem) ∧
      exec (.irqCauseClear f value) s = .next (s.modPage f fun p => { p with irqCause := p.irqCause &&& ~~~ value }) ∧
      (f = 0 → (∃ t, exec .take s = .next t ∧ t = { s with cnt := { s.cnt with due := s.cnt.due ++ [0] } }) ∧
        ∀ index : BitVec 10, ∃ t, exec (.load index) s = .next t ∧ t.cnt.loadIndex = index ∧ t.cnt.due = s.cnt.due ∧
          t = { s with cnt := t.cnt } ∧ ∀ r, s.mem.poisoned (snapRingBase + 65536 * index.toNat) 65536 = false →
            s.cnt.ring.find? (fun x => x.index == index.toNat) = some r → t.cnt.shadow = r.values ∧ t.cnt.snapSeq = r.seq) ∧
      (∀ v, exec (.registerWrite f .doorbell 0x64 4 v none) s = .next (s.modPage f fun p => { p with irqMask := v.setWidth 32 })) ∧
      (∀ v, p.armed = false → exec (.registerWrite f .doorbell 0x08 8 v none) s =
        .next (s.modPage f fun p => { p with cplBase := v })) ∧
      (∀ v win off width, ¬ (width = 4 ∧ off % 4 = 0 ∨ width = 8 ∧ off % 8 = 0) →
        exec (.registerWrite f win off width v none) s = .next s))

/-- R49, R52, R60, R361, R371 to R373: an FLR resets its function's page and no other, and one that comes in P3 waits for the exit;
PERST_N low resets every function and takes the link down, unless a broader reset absorbs it; the link comes up with PERST_N high and
the clocks running, or in P3 and then in L1, at one of the six rates and one of the five widths, which the spec gives no rule to
choose (log entry 79); a configuration write sets bus mastering, VF enables and masks (log entry 45). -/
def Obligations.FunctionAndLinkResets : Prop :=
  ∀ (s : State), Safety.shaped s →
    (∀ f, s.reachable f = true → s.asleep = false → ∃ t, exec (.flr f) s = .next t ∧
      t.page f = { FnPage.reset with vfEnabled := (s.page f).vfEnabled, mbxDrop := (s.host.mbxRunning.map (·.f)) == some f } ∧
      (∀ g, g ≠ f → t.page g = s.page g) ∧ t.mem = s.mem ∧ t.host.linkUp = s.host.linkUp) ∧
    (∀ f, s.reachable f = true → s.asleep = true → ∃ t, exec (.flr f) s = .next t ∧ t.clk.wakeLatched = true ∧ t.host = s.host ∧
      t.clk.held = s.clk.held ++ [.flr f]) ∧
    (s.clk.pwrOk = true → s.broaderReset = true →
      exec .perstNAssert s = .next { s with pins := { s.pins with perstN := false } }) ∧
    (s.clk.pwrOk = true → s.broaderReset = false → ∃ t, exec .perstNAssert s = .next t ∧ t.pins.perstN = false ∧
      t.host.linkUp = false ∧ t.mem = s.mem ∧
      ∀ f, (t.page f).armed = false ∧ (t.page f).reqTail = 0 ∧ (t.page f).busMaster = false ∧ (t.page f).vfEnabled = false) ∧
    (s.clk.pwrOk = true → exec .perstNDeassert s = .next { s with pins := { s.pins with perstN := true } }) ∧
    (s.clk.pwrOk = true → s.pins.perstN = true → (s.clk.pllLocked = true ∨ s.clk.pstate = .p3) → s.clk.thermtrip = false →
      s.host.linkUp = false → ∃ t, exec .pcieLinkUp s = .next t ∧ t.host.linkUp = true ∧ t.mem = s.mem ∧
        t.host.linkL1 = (s.clk.pstate == .p3) ∧ t.host.linkRate < 6 ∧ ∃ k ≤ 4, t.host.linkWidth = 2 ^ k) ∧
    (s.host.linkUp = true → s.clk.pwrOk = true → s.asleep = false →
      (∀ f on, ∃ t, exec (.configSpaceWrite (.busMaster f on)) s = .next t ∧ (t.page f).busMaster = on ∧ t.mem = s.mem) ∧
      (∀ n : Fin 16, s.isSafe = false → ∃ t, exec (.configSpaceWrite (.numVfs n)) s = .next t ∧ t.mem = s.mem ∧
        ∀ f, f ≠ 0 → (t.page f).vfEnabled = decide (f ≤ n)) ∧
      ∀ f v, ∃ t, exec (.configSpaceWrite (.msixMask f v true)) s = .next t ∧ v ∈ (t.page f).msixMasked ∧ t = { s with host := t.host })

/-- R4, R382, Table 14.6: the DOE responder answers each request with one message; a request before its place in the exchange, or
of another code, gets an ERROR, and in SAFE mode so do the four that need the image. The bytes are those of DSP0274 (log entry
46). A request that Table 0.3 does not list gets an Unsupported Request on PCIe and on CXL.io. R383, R470, R482, Tables 2.1, 14.7,
19.3: each SMBus read answers its value in every powered state and holds SMB_SDA until the timeout; out of P3 the TAP answers IDCODE,
and an instruction that it does not offer acts as BYPASS (log entries 47, 48). -/
def Obligations.SpdmSmbusAndTap : Prop :=
  (∀ (s : State), s.host.linkUp = true → s.clk.pwrOk = true → s.asleep = false →
     let answers := fun (i : Instr) (good : List Byte → Prop) =>
       ∃ t bytes, exec i s = .next t ∧ t.host.out = s.host.out ++ [.doe bytes] ∧ good bytes ∧
         t = { s with host := t.host, freeCtr := t.freeCtr }
     let err := fun code data => fun b : List Byte => b = [0x13, 0x7F, BitVec.ofNat 8 code, BitVec.ofNat 8 data]
     let starts := fun code => fun b : List Byte => b.take 2 = [0x13, BitVec.ofNat 8 code]
     let d := s.host.doe
     (∀ i : BitVec 8, answers (.doeDiscovery i) fun b =>
       b = if i = 0 then [1, 0, 0, 1] else if i = 1 then [1, 0, 1, 0] else [0xFF, 0xFF, 0, 0]) ∧
     (∃ t, exec .getVersion s = .next t ∧ t.host.doe = { version := true, capabilities := false, negotiated := false } ∧
       ∃ b, t.host.out = s.host.out ++ [.doe b] ∧ b.take 2 = [0x10, 0x04]) ∧
     answers .getCapabilities (if d.version then starts 0x61 else err 0x04 0) ∧
     (∀ p h, answers (.negotiateAlgorithms p h) (if d.capabilities then starts 0x63 else err 0x04 0)) ∧
     answers .getDigests (if s.isSafe then err 0x07 0x81 else if d.negotiated then fun b => b = [0x13, 0x01, 1, 1] ++ sha384 spdmChain
       else err 0x04 0) ∧
     (∀ slot o n, answers (.getCertificate slot o n) (if s.isSafe then err 0x07 0x82
       else if d.negotiated then (if slot ≠ 0 ∨ spdmChain.length ≤ o.toNat then err 0x01 0 else fun b => b.take 4 = [0x13, 0x02, 0, 0] ∧
         b.drop 8 = slice spdmChain o.toNat n.toNat)
       else err 0x04 0)) ∧
     (∀ slot nonce, answers (.challenge slot nonce) (if s.isSafe then err 0x07 0x83
       else if d.negotiated then (if slot ≠ 0 then err 0x01 0 else starts 0x03) else err 0x04 0)) ∧
     (∀ i sign nonce, answers (.getMeasurements i sign nonce) (if s.isSafe then err 0x07 0xE0
       else if d.negotiated then (if 6 < i.toNat ∧ i ≠ 0xFF then err 0x01 0 else starts 0x60) else err 0x04 0)) ∧
     (∀ c : BitVec 8, answers (.unsupportedRequest (.spdm c)) (err 0x07 c.toNat)) ∧
     (∀ f, s.reachable f = true → exec (.unsupportedRequest (.pcie f)) s =
       .next { s with host := { s.host with out := s.host.out ++ [.ur f] } }) ∧
     ∀ (p : Fin 4) (x : CxlPort), s.cxl.ports[p.val]? = some x → x.trained = true → exec (.unsupportedRequest (.cxl p)) s =
       .next { s with host := { s.host with out := s.host.out ++ [.cxlUr p.val] } }) ∧
  (∀ (s : State), s.clk.pwrOk = true →
     (∀ p ∈ [(Instr.smbusStatus, [BitVec.ofNat 8 (b2n s.isReady + 2 * b2n s.isSafe + 4 * b2n s.isFatal + 8 * s.clk.pstate.code)]),
         (.smbusTmax, bytesLE 2 (ofSigned 16 s.stew.tmax)), (.smbusModulePower, bytesLE 2 s.stew.moduleW),
         (.smbusNodeEpoch, [5] ++ bytesLE 1 s.net.nodeId ++ bytesLE 4 s.net.settled),
         (.smbusDegradedCount, [4] ++ bytesLE 4 (s.err.classCount.getD 2 0)), (.smbusStepping, [2, 0xB0, 1])],
       exec p.1 s = .next { s with pins := { s.pins with smbOut := p.2, smbSdaHeld := true } }) ∧
     (∃ n, exec .smbusHbmTemp s = .next { s with pins := { s.pins with smbOut := bytesLE 1 n, smbSdaHeld := true } } ∧
       (∀ x ∈ s.stew.hbmTemp, x ≤ n) ∧ (s.stew.hbmTemp ≠ [] → n ∈ s.stew.hbmTemp)) ∧
     exec .smbusBusTimeout s = .next { s with pins := { s.pins with smbSdaHeld := false } } ∧
     (s.clk.pstate = .p3 → ∀ i, exec (.tapInstruction i) s = .next s) ∧
     (s.clk.pstate ≠ .p3 → exec (.tapInstruction .idcode) s = .next { s with pins := { s.pins with tapIr := .idcode, tapOut := 0x1410056F } }) ∧
     (s.clk.pstate ≠ .p3 → exec (.tapInstruction .bypass) s = .next { s with pins := { s.pins with tapIr := .bypass, tapOut := 0 } }) ∧
     ∀ i ∈ [TapInstr.status, .samplePreload, .extest], s.clk.pstate ≠ .p3 →
       (tapOffers s.pins.straps.tapEn i = true → ∃ out, exec (.tapInstruction i) s =
         .next { s with freeCtr := s.freeCtr + 1, pins := { s.pins with tapIr := i, tapOut := out } }) ∧
       (tapOffers s.pins.straps.tapEn i = false → exec (.tapInstruction i) s = exec (.tapInstruction .bypass) s))

/-! ## Counters, far memory, scrub and the plumb test (10, 14, 17, 18) -/

/-- R435 to R439: a pulse serves everything that waits with one sequence number and copies the counters; with nothing waiting it
does nothing. A periodic pulse falls due at its multiple. A bandwidth window's end keeps each source's rate over the window. -/
def Obligations.CounterEvents : Prop :=
  ∀ (s : State), Safety.shaped s →
    (s.countersRun = true → s.cnt.due = [] → exec .snapshotPulse s = .next s) ∧
    (s.countersRun = true → s.cnt.due ≠ [] → ∃ t, exec .snapshotPulse s = .next t ∧ (s.host.mbxWaiting = [] → t.cnt.due = []) ∧
      t.cnt.snapSeq = s.cnt.snapLast + 1 ∧ t.cnt.snapLast = s.cnt.snapLast + 1 ∧ t.cnt.snapTime = s.clk.devTime ∧
      t.cnt.shadow = s.cnt.values ∧ (∃ r ∈ t.cnt.ring, r.seq = s.cnt.snapLast + 1 ∧ r.values = s.cnt.values ∧
        some r.trigger = s.cnt.due.head?) ∧
      ∀ j, s.host.mbxRunning = some j → j.id = 0x30 → s.host.mbxWaiting = [] → (s.page j.f).mbxDrop = false →
        Safety.posted t j.f j.seq 0 (bytesLE 8 (s.cnt.snapLast + 1))) ∧
    (∀ at_, (s.advance at_).countersRun = true → s.tun.snapInterval ≠ 0 → at_ % (1000 * s.tun.snapInterval) = 0 →
      ∃ t, exec (.periodicSnapshot at_) s = .next t ∧ t.cnt = { s.cnt with due := s.cnt.due ++ [2] } ∧
        t = { s with cnt := t.cnt, clk := t.clk }) ∧
    ∀ at_, (s.advance at_).countersRun = true → s.cnt.winLen ≠ 0 → at_ = s.cnt.winBase + 1000 * s.cnt.winLen * (s.cnt.winSeq + 1) →
      ∃ t, exec (.bandwidthWindowEnd at_) s = .next t ∧ t.cnt.winSeq = s.cnt.winSeq + 1 ∧ t.cnt.values = s.cnt.values ∧
        t.cnt.windows.length = s.cnt.windows.length ∧ ∀ (i : Nat) (w : BwWindow), s.cnt.windows[i]? = some w →
          w.base ≤ s.bwSource i → s.bwSource i < 2 ^ 48 → ∃ v, t.cnt.windows[i]? = some v ∧
            v.last = (s.bwSource i - w.base) / s.cnt.winLen ∧ (s.cnt.winSeq % 64, v.last) ∈ v.hist

/-- R261, R265, R386, R446, R465: a General Media event of a live device is recorded, up to the 16th of an epoch; a lost device is marked
and recorded; patrol scrub moves on past its line, counts a corrected error, and poisons a line it cannot correct. -/
def Obligations.FarMemoryAndScrub : Prop :=
  ∀ (s : State),
    (∀ at_ events, (s.advance at_).running = true → ∃ t, exec (.cxlEventPoll at_ events) s = .next t ∧ t.cxl = s.cxl ∧ t.mem = s.mem ∧
      ((∀ e ∈ events, e.generalMedia = false) → t.err = s.err) ∧
      ∀ (e : CxlEvent) (x : CxlDev), events = [e] → e.generalMedia = true → s.cxl.devs[e.dev.val]? = some x → x.lost = false →
        (s.err.triple { cls := 0, source := 0x0C, inst := e.dev.val, code := 0x0E22 }).written < 16 →
        ∃ r ∈ t.err.ring, r.cls = 0 ∧ r.source = 0x0C ∧ r.inst = e.dev.val ∧ r.code = 0x0E22) ∧
    (∀ (d : Fin 4) (x : CxlDev), s.clk.pwrOk = true → s.cxl.devs[d.val]? = some x → x.lost = false →
      ∃ t, exec (.cxlDeviceLost d) s = .next t ∧ t.cxl.devs[d.val]? = some { x with lost := true } ∧
        (∀ j, j ≠ d.val → t.cxl.devs[j]? = s.cxl.devs[j]?) ∧
        (∃ e ∈ t.err.ring, e.cls = 2 ∧ e.source = 0x0C ∧ e.inst = d.val ∧ e.code = 0x0A24) ∧ t.mem = s.mem) ∧
    ∀ (addr : Nat) (result : ScrubResult),
      let line := addr / 64 * 64
      s.running = true → t1Base ≤ line → line < t1Top → line ∉ s.mem.poison →
      ∃ t, exec (.patrolScrub addr result) s = .next t ∧ t.plumb.scrubNext = line + 64 ∧
        t.plumb.scrubPasses = s.plumb.scrubPasses + (if line + 64 = t1Top then 1 else 0) ∧ t.mem.cells = s.mem.cells ∧
        (result = .clean → t.mem = s.mem ∧ t.err = s.err) ∧
        (result = .corrected → t.mem.stackCe = s.mem.stackCe.modify (stackOf line) satInc) ∧
        (result = .uncorrectable → s.inLocked line = true → line ∈ t.mem.poison ∧
          ∀ i, s.objectAt line = some i → i < s.boot.weights.length → t.boot.weights[i]? = some .failed)

/-- R459 to R463: a trigger starts the next run, or queues one; a round takes its bay when it is free; a starved segment gives the
bay back once; a passed step leads to the next, and a failed one is repeated once before the bay is fenced. -/
def Obligations.PlumbSteps : Prop :=
  ∀ (s : State) (k : Fin 4), Safety.shaped s →
    let x := s.plumbTile k
    (∀ at_, (s.advance at_).running = true → s.isFatal = false → ∃ t, exec (.plumbRunStart .ready at_) s = .next t ∧
      (s.plumb.running = false → t.plumb.running = true ∧ t.plumb.run = s.plumb.run + 1 ∧ t.plumb.lastStart = (s.advance at_).clk.devTime) ∧
      (s.plumb.running = true → t.plumb = { s.plumb with queued := true })) ∧
    (s.running = true → s.plumb.running = true → ∀ b, x.bay = some b →
      (x.waitingBay = true → (s.bay b).task = none → ∃ t, exec (.plumbRoundStart k) s = .next t ∧ (t.bay b).plumbHeld = true ∧
        (t.plumbTile k).step = max 1 x.step ∧ (t.plumbTile k).waitingBay = false ∧ t.bayFree b = false) ∧
      (x.waitingBay = false → x.step ≠ 0 →
        (x.yielded = false → ∃ t, exec (.plumbSegmentEnd k true) s = .next t ∧ (t.bay b).plumbHeld = false ∧
          (t.plumbTile k).waitingBay = true ∧ (t.plumbTile k).yielded = true ∧ (t.plumbTile k).step = x.step) ∧
        (∃ t, exec (.plumbSegmentEnd k false) s = .next t ∧ t = { s with plumb := t.plumb } ∧
          t.plumbTile k = { x with segment := x.segment + 1 }) ∧
        (∀ g, x.step < 4 → k ≠ 0 → ∃ t, exec (.plumbStepDone k true g 0) s = .next t ∧
          t.plumbTile k = { x with step := x.step + 1, segment := 0, retry := false }) ∧
        (∀ g, x.retry = false → k ≠ 0 → ∃ t, exec (.plumbStepDone k false g 0) s = .next t ∧
          t.plumbTile k = { x with retry := true, segment := 0 } ∧ t = { s with plumb := t.plumb }) ∧
        (∀ g, x.retry = true → k ≠ 0 → (s.bay b).fenced = false → ∃ t, exec (.plumbStepDone k false g 0) s = .next t ∧
          (t.bay b).fenced = true)))

/-! ## Truss ports (12) -/

/-- R289 to R292, Table 12.2: a flit carries each field of its header and its payload to the other end, with a CRC that holds; the levels
of a lane, upright or inverted, give back the symbols that were sent, where both scramblers are in step; and what the decoder lets
through is a codeword that differs from what came in at most 15 symbols, those that it names. -/
def Obligations.FlitsRoundTrip : Prop :=
  (∀ (h : FlitHead) (payload : List Byte), h.seq < 4096 → h.ack < 4096 → h.type ≤ 4 → h.vc < 4 → h.crVc < 4 → h.crCum < 4096 →
    h.valid16 ≤ 15 → payload.length = 16 * h.valid16 →
    (flitBytes h payload).length = 256 ∧ Flit.good (flitBytes h payload) = true ∧ Flit.head (flitBytes h payload) = h ∧
    Flit.payload (flitBytes h payload) = payload) ∧
  (∀ (seed : BitVec 31) (syms : List Sym),
    let sent := laneLevels seed syms
    laneRead seed false sent.1 = (syms, sent.2) ∧ laneRead seed true (sent.1.map fun u => ~~~u) = (syms, sent.2)) ∧
  ∀ (r fixed : List Sym) (wrong : List Nat), rsDecode r = some (fixed, wrong) →
    (∀ c ∈ syndromes fixed, c = 0) ∧ wrong.length ≤ 15 ∧ ∀ i, i ∉ wrong → fixed[i]? = r[i]?

/-- R287, R301 to R304, Tables 12.4, 12.5: every training frame that goes out, in a burst or in a slot of a training port, holds a well
formed set of its lane; the peer's signal starts an attempt at rate 0 with a new nonce; a set whose CHECK fails, upright and inverted,
does nothing; one that names another lane fails ALIGN; one in EQ gives the lane its preset and its polarity; one in CREDIT that shows
the peer ready makes the port ACTIVE with its counts at 0; the two timeouts leave EQ or lead back to DETECT. -/
def Obligations.PortTraining : Prop :=
  ∀ (s : State) (n : Fin 12), Safety.shaped s → s.linkRuns = true →
    let p := s.port n
    let sends := fun (t : State) (lanes : List Nat) => (∀ q, q ≠ n → t.port q = s.port q) ∧
      ∃ fs, (t.port n).frames = p.frames ++ fs ∧ fs.map Prod.fst = lanes ∧
        ∀ x ∈ fs, x.2.length = 256 ∧ TrainSet.ok (x.2.take 32) = true ∧ TrainSet.lane (x.2.take 32) = x.1
    (∀ lanes, p.state = .parked ∧ lanes = [0] ∨ p.state = .detect ∧ p.continuous = false ∧ lanes = List.range 17 →
      ∃ t, exec (.detectBurst n) s = .next t ∧ (t.port n).state = .detect ∧ sends t lanes) ∧
    (p.state.training = true ∨ p.state = .recovery → ∀ ue, ∃ t, exec (.flitSlot { port := n, replayUe := ue }) s = .next t ∧
      (t.port n).state = p.state ∧ sends t (List.range 17)) ∧
    (p.state = .detect ∨ p.state = .parked → ∀ at_, s.clk.devTime < at_ → ∃ t, exec (.peerSignalDetect n at_) s = .next t ∧
      (t.port n).state = .eq ∧ (t.port n).rate = 0 ∧ (t.port n).peerCaps = 3 ∧ (t.port n).trainStart = some t.clk.devTime ∧
      t.freeCtr = s.freeCtr + 1 ∧ ∀ q, q ≠ n → t.port q = s.port q) ∧
    (∀ set : LaneSet,
      let x := TrainSet.upright set.bytes
      (x.1.ok = false → exec (.trainingSet n set) s = .next s) ∧
      (x.1.ok = true → x.1.lane ≠ set.lane.val → p.state = .align → ∃ t, exec (.trainingSet n set) s = .next t ∧
        (t.port n).state = .detect ∧ Frame.port s t n) ∧
      (x.1.ok = true → x.1.lane = set.lane.val → p.state = .eq → ∃ t, exec (.trainingSet n set) s = .next t ∧
        (t.port n).presets = p.presets.set set.lane.val x.1.preset ∧ (t.port n).polarity.getLsbD set.lane.val = x.2 ∧
        (t.port n).state = .eq ∧ Frame.port s t n) ∧
      (x.1.ok = true → x.1.lane = set.lane.val → p.state = .credit → 5 ≤ x.1.tstate → ∃ t, exec (.trainingSet n set) s = .next t ∧
        (t.port n).state = .active ∧ (t.port n).txSeq = 0 ∧ (t.port n).rxSeq = 0 ∧ (t.port n).width = p.width ∧ (t.port n).rate = p.rate ∧
        Frame.port s t n)) ∧
    (p.state = .eq → ∃ t, exec (.eqTimeout n) s = .next t ∧ Frame.port s t n ∧
      ((t.port n).state = .align ∨ (t.port n).state = .eq ∧ (t.port n).rate = p.rate + 1 ∨ (t.port n).state = .detect) ∧
      ((t.port n).state = .eq → (t.port n).rate ≤ p.maxRate (s.portCfg n))) ∧
    (p.state.training = true → ∃ t, exec (.trainingTimeout n) s = .next t ∧ (t.port n).state = .detect ∧ (t.port n).rate = 0 ∧
      Frame.port s t n)

/-- R290 to R299: what an ACTIVE port does with the codewords of a flit: those that complete none are kept; a flit that is bad, or has a
bit in an uncorrectable codeword, is counted and asked for again; one already accepted and one beyond the expected SEQ are counted and
change nothing that was received, and the expected one is taken, its buffer freed with its message or, when it is full, at once (log
entry 77); NAK starts a replay, SILENT ends the link. -/
def Obligations.PortReceives : Prop :=
  ∀ (s : State) (n : Fin 12) (words : List LaneLevels), Safety.shaped s → s.linkRuns = true → (s.port n).state = .active →
    let kinds := [Instr.dataFlit n words, .idle n words, .nak n words, .silent n words, .health n words, .spare n words,
      .unspare n words, .reconfig n words, .resync n words]
    (((s.readWords n words).port n).nextFlit = none → ∀ i ∈ kinds, exec i s = .next (s.readWords n words)) ∧
    ∀ (f : Flit) (whole : Bool) (p : Port), Safety.reads s n words f whole p →
      (whole = false ∨ f.good = false → ∀ i ∈ kinds, ∃ t, exec i s = .next t ∧
        t.port n = { p with crcFail := sat64 (p.crcFail + 1), nakDue := true, discarding := true } ∧ Frame.port s t n) ∧
      (whole = true → f.good = true → f.head.type = flitData → f.head.seq ≠ p.rxSeq → ∃ t, exec (.dataFlit n words) s = .next t ∧
        Frame.port s t n ∧ (t.port n).rxSeq = p.rxSeq ∧ (t.port n).rxMsg = p.rxMsg ∧ (t.port n).vcFreed = p.vcFreed ∧
        (t.port n).crcFail = sat64 (p.crcFail + 1) ∧ (oldSeq f.head.seq p.rxSeq = false → (t.port n).discarding = true)) ∧
      (Safety.receives s n words f p flitData → ∃ t, exec (.dataFlit n words) s = .next t ∧ (t.port n).rxSeq = (p.rxSeq + 1) % 4096 ∧
        let vc := f.head.vc
        let held := p.rxHeld.getD vc 0 + 1
        let frees := f.head.eom = true ∨ vcBuffer vc ≤ held
        (f.head.eom = false → Frame.port s t n) ∧
        (t.port n).rxMsg = p.rxMsg.set vc (if f.head.eom then [] else p.rxMsg.getD vc [] ++ f.payload) ∧
        (frees → (t.port n).vcFreed = p.vcFreed.modify vc (fun k => (k + held) % 4096) ∧ (t.port n).rxHeld = p.rxHeld.set vc 0) ∧
        (¬ frees → (t.port n).vcFreed = p.vcFreed ∧ (t.port n).rxHeld = p.rxHeld.set vc held)) ∧
      (Safety.receives s n words f p flitIdle → ∃ t, exec (.idle n words) s = .next t ∧ Frame.port s t n ∧ (t.port n).rxSeq = p.rxSeq ∧
        (f.head.seq = p.rxSeq → t.port n = p.hear s.clk.devTime f.head) ∧
        (f.head.seq ≠ p.rxSeq → oldSeq f.head.seq p.rxSeq = false → (t.port n).discarding = true)) ∧
      (Safety.receives s n words f p flitNak → (p.hear s.clk.devTime f.head).replaysNoAck < 7 → ∃ t, exec (.nak n words) s = .next t ∧
        Frame.port s t n ∧ (t.port n).resend = (p.hear s.clk.devTime f.head).replayBuf ∧ (t.port n).replays = sat64 (p.replays + 1)) ∧
      (Safety.receives s n words f p flitSilent → ∃ t, exec (.silent n words) s = .next t ∧
        (t.port n).state = (if fieldLE f.payload 0 1 = 2 then .parked else .detect) ∧ (t.port n).txSeq = 0 ∧ t.mem = s.mem)

/-- R305 to R311: the LCTL flits a port takes, and its own lane health: HEALTH reports the peer's lanes, SPARE and UNSPARE plan a
switch that takes effect once its codeword has come, RECONFIG takes the port into RECOVERY at the new configuration, RESYNC is answered
with the own and restarts the counts; a follower reports a failed lane, one below CRIT_MARGIN at two updates in a row among them, and
judges nothing. -/
def Obligations.PortLanes : Prop :=
  ∀ (s : State) (n : Fin 12), Safety.shaped s → s.linkRuns = true → (s.port n).state = .active →
    let p := s.port n
    (∀ (words : List LaneLevels) (f : Flit) (q : Port), Safety.receives s n words f q flitLctl →
      let h := Safety.heard s q f flitLctl
      let b := fun off k => fieldLE f.payload off k
      (b 0 1 = 1 → BitVec.ofNat 17 (b 8 4) = 0 → ∃ t, exec (.health n words) s = .next t ∧ Frame.port s t n ∧
        t.port n = { h with peerWeak := BitVec.ofNat 17 (b 4 4), peerFailed := 0 }) ∧
      (b 0 1 = 2 → ∃ t, exec (.spare n words) s = .next t ∧ Frame.portRecord s t n ∧
        t.port n = { h with spareNext := some (b 1 1, b 12 4, true), degradedAt := s.clk.devTime } ∧
        ∃ e ∈ t.err.ring, e.cls = 2 ∧ e.source = 0x10 ∧ e.inst = n.val ∧ e.code = 0x0C01) ∧
      (b 0 1 = 3 → ∃ t, exec (.unspare n words) s = .next t ∧ Frame.portRecord s t n ∧
        t.port n = { h with spareNext := some (b 1 1, b 12 4, false) }) ∧
      (b 0 1 = 4 → b 1 1 ≤ 2 → b 2 1 ≤ 2 → b 3 1 < 2 ^ b 2 1 → ∃ t, exec (.reconfig n words) s = .next t ∧ t.mem = s.mem ∧
        (t.port n).state = .recovery ∧ (t.port n).rate = b 1 1 ∧ (t.port n).width = b 2 1 ∧ (t.port n).group = b 3 1) ∧
      (b 0 1 = 5 → ∃ t, exec (.resync n words) s = .next t ∧ Frame.port s t n ∧
        t.port n = if q.resyncSent then h.resync else if q.closed then { h with resyncSeen := true }
          else { h with resyncSeen := true, lctl := h.lctl ++ [lctlMsg 5 0 0 0 0 0 0] })) ∧
    (∀ l ix on, p.spareNext = some (l, ix, on) →
      (p.reached ix = false → exec (.spareSwitchEffective n) s = .next s) ∧
      (p.reached ix = true → ∃ t, exec (.spareSwitchEffective n) s = .next t ∧ Frame.port s t n ∧
        t.port n = { p with spareUse := if on then l else 0x1F, spareNext := none })) ∧
    (∀ margins : List Int,
      let low := lowLanes ((List.range 17).map fun l => margins.getD l 0) (s.portCfg n).critMargin
      p.leader = false ∨ low &&& p.critLow &&& ~~~ p.failedLanes = 0 →
      ∃ t, exec (.marginUpdate n margins) s = .next t ∧ Frame.port s t n ∧ (t.port n).marginCount = p.marginCount + 1 ∧
        (t.port n).critLow = low ∧ (t.port n).failedLanes = p.failedLanes ||| (low &&& p.critLow) ∧
        ∀ l < 17, (t.port n).marginSum.getD l 0 = p.marginSum.getD l 0 + margins.getD l 0) ∧
    (p.leader = false → (∀ lane, ∃ t, exec (.laneFailure n lane) s = .next t ∧ Frame.port s t n ∧
        (t.port n).failedLanes = p.failedLanes ||| (1#17 <<< lane.val) ∧ (t.port n).lctl.length = p.lctl.length + 1) ∧
      ∀ at_, ∃ t, exec (.evaluationWindowEnd n at_) s = .next t ∧ (t.port n).marginCount = 0 ∧
        (0 < p.marginCount → ∀ l < 17, (t.port n).margins.getD l 0 = p.marginSum.getD l 0 / p.marginCount ∧
          ((t.port n).weak.getLsbD l = decide ((t.port n).margins.getD l 0 < (s.portCfg n).weakMargin)))) ∧
    (∀ at_ d rest, p.degraded = d :: rest → (s.advance at_).linkRuns = true → p.leader = true → p.closed = false →
      (s.portCfg n).restoreS ≠ 0 → p.healthyWindow = true → p.spareNext = none → p.lctl = [] →
      p.degradedAt + 1000000000 * (s.portCfg n).restoreS ≤ (s.advance at_).clk.devTime →
      (p.undoLanes d).all (p.restored (s.portCfg n)) = true →
      ∃ t, exec (.portRestore n at_) s = .next t ∧ (t.port n).degraded = rest ∧ (t.port n).lctl.length = 1 ∧
        ∀ q, q ≠ n → t.port q = s.port q)

/-- R296 to R300, R314 to R317: a flit slot of an ACTIVE port sends one flit, but an uncorrectable error in the flit it reads for a replay
resets the port; a NAK is repeated while the expected flit is missing; 1 µs without progress starts a replay; a lost codeword lock and a
RECOVERY that does not end reset the port; a drain ends with SILENT. -/
def Obligations.PortSends : Prop :=
  ∀ (s : State) (n : Fin 12), Safety.shaped s → s.linkRuns = true →
    let p := s.port n
    let resets := fun t : State => (t.port n).state = .drain ∧ (t.port n).silentReason = 4 ∧ (t.port n).silentLeft = 4 ∧ t.mem = s.mem ∧
      ∃ e ∈ t.err.ring, e.cls = 2 ∧ e.source = 0x10 ∧ e.inst = n.val ∧ e.code = 0x0C04
    (p.state = .active → ∀ ue,
      (ue = false ∨ p.resend = [] → ∃ t, exec (.flitSlot { port := n, replayUe := ue }) s = .next t ∧
        (t.port n).out.length = p.out.length + 1 ∧
        (p.resend = [] → p.silentLeft = 0 → p.nakDue = false → p.lctl = [] → p.pickVc = none →
          ∃ b, (t.port n).out = p.out ++ [b] ∧ Flit.good b = true ∧ b.head.type = flitIdle ∧ b.head.seq = p.txSeq % 4096 ∧
            (t.port n).txSeq = p.txSeq) ∧
        (∀ v m, p.resend = [] → p.silentLeft = 0 → p.nakDue = false → p.lctl = [] → p.replayBuf.length < 512 → p.pickVc = some v →
          (p.vcq.getD v []).head? = some m → v < 4 → ∃ b, (t.port n).out = p.out ++ [b] ∧ Flit.good b = true ∧ b.head.type = flitData ∧
            b.head.vc = v ∧ (t.port n).txSeq = (p.txSeq + 1) % 4096 ∧
            (t.port n).replayBuf = p.replayBuf ++ [{ seq := p.txSeq, bytes := b }])) ∧
      (ue = true → p.resend ≠ [] → ∃ t, exec (.flitSlot { port := n, replayUe := ue }) s = .next t ∧ resets t)) ∧
    (p.discarding = true → ∃ t, exec (.nakRepeat n) s = .next t ∧ Frame.port s t n ∧ t.port n = { p with nakDue := true }) ∧
    (∀ at_, p.state = .active → p.replayBuf ≠ [] → p.lastProgress + 1000 ≤ (s.advance at_).clk.devTime → p.replaysNoAck < 7 →
      ∃ t, exec (.replayTimeout n at_) s = .next t ∧ (t.port n).resend = p.replayBuf ∧ (t.port n).replays = sat64 (p.replays + 1) ∧
        ∀ q, q ≠ n → t.port q = s.port q) ∧
    (p.state = .recovery → ∃ t, exec (.recoveryTimeout n) s = .next t ∧ resets t) ∧
    (p.state = .active → ∃ t, exec (.codewordLockLoss n) s = .next t ∧ resets t) ∧
    (p.state = .drain → p.silentLeft = 0 → ∃ t, exec (.drainEnd n) s = .next t ∧ (t.port n).state = .drain ∧ (t.port n).silentLeft = 4 ∧
      (t.port n).replayBuf = [] ∧ t.mem = s.mem)

/-! ## The fabric (13) -/

/-- R335, R336, R339: a request is executed once, and in the order of its OTAG. A duplicate is answered with the held answer and changes
no state; a request of a node outside the member set is answered NOT_MEMBER and not executed, and NOT_MEMBER counts as no response; one
that is too old or too far ahead is dropped; one ahead of its order is held, and runs after the one it waits for. -/
def Obligations.RequestsRunOnce : Prop :=
  ∀ (s : State) (c : Instr) (h : Header) (m : Message), Safety.messageOf c = some (h, m) →
    let src := h.src.toNat
    (s.running = false → exec c s = .next s) ∧
    (h.status = 4 → ∀ ch data, exec (.transportResponse h ch data) s = .next s) ∧
    (s.running = true →
      (∀ b, s.rxVerdict h m.vc = .again b → exec c s = .next (s.route src 1 0 0 b) ∧
        ∀ n q, ((s.route src 1 0 0 b).port n).vcq.getD q [] = (s.port n).vcq.getD q [] ∨
          ((s.route src 1 0 0 b).port n).vcq.getD q [] = (s.port n).vcq.getD q [] ++ [{ bytes := b, sent := 0 }]) ∧
      (s.rxVerdict h m.vc = .drop → exec c s = .next s) ∧
      (src ∉ s.memberSet → exec c s = .next (s.route src 1 0 0 (s.response h m.mtype 4 []))) ∧
      (s.rxVerdict h m.vc = .hold → ∃ t, exec c s = .next t ∧ t = { s with net := t.net } ∧ t.net.txns = s.net.txns ∧
        ((s.net.rx src m.vc).holds h = false → (h, m) ∈ (t.net.rx src m.vc).held)) ∧
      (s.rxVerdict h m.vc = .run → exec c s = .next ((s.accept h m).deliver src m.vc 64)) ∧
      (Safety.runs s h m.vc → ∃ t, exec c s = .next t ∧ ∃ status arg data, Safety.answeredArg t h m.vc m.mtype status arg data) ∧
      (∀ h1 m1, s.rxVerdict h m.vc = .run → ((s.net.rx src m.vc).done h).nextHeld = some (h1, m1) →
        exec c s = .next (((s.accept h m).accept h1 m1).deliver src m.vc 63)))

/-- R340, R342, R135, R142: READ answers the bytes of its range, with the unit's tag in ARG (log entry 57); WRITE stores its data before
it answers and changes no other byte; ATOMIC answers the old value and stores what its operation gives; a push lands at ARG plus OFFSET;
what the sender may not reach is refused with a status and changes nothing. -/
def Obligations.RemoteAccessesAtTheirHome : Prop :=
  ∀ (s : State) (h : Header) (data : List Byte), Safety.canonical s → Safety.clean s → s.running = true →
    let a := readAddr h.arg
    let n := readLen h.arg
    let src := h.src.toNat
    (Safety.runs s h 0 → 1 ≤ n → n ≤ 4096 →
      (s.remoteStatus src a n .load = 0 → s.region a = .t1 → ∃ t, exec (.read h) s = .next t ∧
        Safety.answeredArg t h 0 1 0 (s.tagArg a) ((List.range n).map fun j => s.mem.byte (a + j)) ∧ t.mem = s.mem ∧ Frame.net s t) ∧
      (s.remoteStatus src a n .load ≠ 0 → ∃ t, exec (.read h) s = .next t ∧
        Safety.answered t h 0 1 (s.remoteStatus src a n .load) [] ∧ Frame.net s t)) ∧
    (Safety.runs s h 0 → 1 ≤ data.length → data.length ≤ 4096 →
      (s.remoteStatus src a data.length .store = 0 → s.region a = .t1 → ∃ t, exec (.write h data) s = .next t ∧
        Safety.answered t h 0 2 0 [] ∧ (∀ j < data.length, t.mem.byte (a + j) = data.getD j 0) ∧
        (∀ x, x < a ∨ a + data.length ≤ x → t.mem.byte x = s.mem.byte x) ∧ Frame.net { s with mem := t.mem } t) ∧
      (s.remoteStatus src a data.length .store = 1 → ∃ t, exec (.write h data) s = .next t ∧ Safety.answered t h 0 2 1 [] ∧
        Frame.net s t) ∧
      (s.remoteStatus src a data.length .store = 3 → ∃ t, exec (.write h data) s = .next t ∧ Safety.answered t h 0 2 3 [] ∧
        t.mem = s.mem ∧ t.boot.lockViol = satInc s.boot.lockViol)) ∧
    (∀ ord xf operand cmp op, Safety.runs s h 0 → AtomOp.ofCode (bits xf.toNat 0 6) = some op →
      let k := if bits xf.toNat 6 2 = 1 then 8 else 4
      a % k = 0 → s.region a = .t1 → s.remoteStatus src a k .atomic = 0 →
      let old := natLE ((List.range k).map fun j => s.mem.byte (a + j))
      ∃ t, exec (.atomic h ord xf operand cmp) s = .next t ∧ Safety.answered t h 0 3 0 (bytesLE 8 old) ∧
        (∀ j < k, t.mem.byte (a + j) = match op.store k old operand.toNat cmp.toNat with
          | some v => (bytesLE k v).getD j 0
          | none => s.mem.byte (a + j)) ∧
        (∀ x, x < a ∨ a + k ≤ x → t.mem.byte x = s.mem.byte x) ∧ Frame.net { s with mem := t.mem } t) ∧
    ∀ p : PushHeader, Safety.runs s h 2 → p.coded = false →
      let base := a + p.offset.toNat
      let old := s.net.pushRx.find? fun x => x.home == p.home.toNat && x.key == pushWu p
      (old.map (·.complete)).getD false = false → (p.home.toNat, pushWu p) ∉ s.req.doneWu →
      s.inGrants p.home.toNat p.asn.toNat base data.length = true → t1Base ≤ base → base + data.length ≤ t1Top →
      ∃ t, exec (.actPush h p data) s = .next t ∧ Safety.answered t h 2 4 0 [] ∧
        (∀ j < data.length, t.mem.byte (base + j) = data.getD j 0) ∧
        (∀ x, x < base ∨ base + data.length ≤ x → t.mem.byte x = s.mem.byte x) ∧
        (∃ x ∈ t.net.pushRx, x.home = p.home.toNat ∧ x.key = pushWu p ∧ x.complete = p.last ∧
          x.received = ((old.map (·.received)).getD 0) + data.length)

/-- R145, R146, R343, R345, R348, R349, R350, R353, R356: what an accepted message of the fabric does: a lease is granted, held or
stale, and a use of a token's lease answers what the stage node's KV halves have lost (log entry 21); arrivals are added to their
generation, a release frees the arrivals it covers, and arrivals with another count end the request; a token is granted or refused with
its reason, and released with all it held, for a request past its deadline once its last work unit has ended (log entry 70); a STEP_ACK
marks its push; an ABORT drops the pushes of its request; WEIGHT_QUERY is answered by WEIGHT_HAVE; TIME returns its stamps. -/
def Obligations.FabricMessages : Prop :=
  ∀ (s : State) (h : Header), s.running = true →
    let src := h.src.toNat
    let a := Safety.accepted s h 3
    (Safety.runs s h 0 → ∀ key e,
      let held := s.leaseHeldBy key src e.toNat
      (s.leaseGrantable key src = true → ∃ t, exec (.lease h .acquire key e) s = .next t ∧
        Safety.answered t h 0 6 0 (leaseResult true s.net.settled 0) ∧ Frame.net s t ∧
        ∃ l ∈ t.net.leases, l.key = key ∧ l.peer = src ∧ l.side = .granted ∧ l.epoch = s.net.settled) ∧
      (s.leaseGrantable key src = false → ∃ t, exec (.lease h .acquire key e) s = .next t ∧
        Safety.answered t h 0 6 0 (leaseResult false s.net.settled 0) ∧ t.net.leases = s.net.leases ∧ Frame.net s t) ∧
      (held = true → ∃ t, exec (.lease h .release key e) s = .next t ∧
        Safety.answered t h 0 6 0 (leaseResult true s.net.settled 0) ∧ t.leaseHeldBy key src e.toNat = false ∧ Frame.net s t) ∧
      (held = true → ∀ lost, (tokenAsn key = none ∧ lost = 0 ∨
          h.arg.toNat % 4 = 0 ∧ ∃ asn, tokenAsn key = some asn ∧ lost = s.kvLostFor src asn) →
        ∃ t, exec (.lease h .use key e) s = .next t ∧ Safety.answered t h 0 6 0 (leaseResult true s.net.settled lost) ∧
          t.net.leases = s.net.leases ∧ Frame.net s t) ∧
      (held = true → ∀ asn, tokenAsn key = some asn → h.arg.toNat % 4 = 1 → ∃ t, exec (.lease h .use key e) s = .next t ∧
        Safety.answered t h 0 6 0 (leaseResult true s.net.settled (t.kvLostFor src asn)) ∧ Frame.net { s with quota := t.quota } t ∧
        t.quota = { s.quota with tokens := s.quota.tokens.map fun k => if k.home = src ∧ k.asn = asn then
          { k with version := h.arg.toNat / 4 } else k }) ∧
      (held = true → ∀ asn, tokenAsn key = some asn → h.arg.toNat % 4 = 2 → s.listRoom src asn = false →
        ∃ t, exec (.lease h .use key e) s = .next t ∧ Safety.answered t h 0 6 5 (leaseResult false s.net.settled 0) ∧ Frame.net s t) ∧
      (held = false → ∀ op, op = .release ∨ op = .use → ∃ t, exec (.lease h op key e) s = .next t ∧
        Safety.answered t h 0 6 5 (leaseResult false s.net.settled 0) ∧ t.net.leases = s.net.leases ∧ Frame.net s t)) ∧
    (Safety.runs s h 3 →
      (∀ asn slot gen arrived count,
        (∀ f, f = s.fabricBar src asn.toNat slot.val →
          let ahead := tseqAhead gen.toNat f.generation
          (ahead < 2147483648 → ∃ t, exec (.barrier h asn slot gen arrived count true) s = .next t ∧ Safety.answered t h 3 7 0 [] ∧
            (t.fabricBar src asn.toNat slot.val).generation = f.generation + ahead + 1 ∧
            (t.fabricBar src asn.toNat slot.val).bar.waiting = f.bar.waiting.drop arrived.toNat ∧
            (Safety.shaped s → ∀ p ∈ f.bar.waiting.take arrived.toNat, (t.thr p.1 p.2).wait = .ready)) ∧
          (2147483648 ≤ ahead → ∃ t, exec (.barrier h asn slot gen arrived count true) s = .next t ∧ Safety.answered t h 3 7 0 [] ∧
            Frame.net s t)) ∧
        (∀ f r, f = s.fabricBar s.net.nodeId asn.toNat slot.val → s.reqOf asn.toNat = some r →
          (f.bar.count = 0 ∨ f.bar.count = count.toNat → ((f.addArrivals src arrived.toNat).byNode.map (·.2)).sum < count.toNat →
            ∃ t, exec (.barrier h asn slot gen arrived count false) s = .next t ∧ Safety.answered t h 3 7 0 [] ∧
              (t.fabricBar s.net.nodeId asn.toNat slot.val).byNode = (f.addArrivals src arrived.toNat).byNode ∧
              (t.fabricBar s.net.nodeId asn.toNat slot.val).generation = f.generation ∧ t.bays = s.bays) ∧
          (0 < f.bar.count → f.bar.count ≠ count.toNat → r.failed = false → r.phase ≠ .complete →
            ∃ t, exec (.barrier h asn slot gen arrived count false) s = .next t ∧ Safety.answered t h 3 7 0 [] ∧
              ∃ q, t.reqOf asn.toNat = some q ∧ q.failed = true ∧ q.detail = 0x0509))) ∧
      (∀ b : TokenReq,
        (b.formation.epoch.toNat ≠ s.net.settled → ∃ t, exec (.tokenReq h b) s = .next t ∧
          Safety.answered t h 3 5 0 ([0x12] ++ bytesLE 8 b.asn.toNat ++ [2]) ∧ Frame.net s t) ∧
        (b.formation.epoch.toNat = s.net.settled → s.program b.formation.program.toNat = none → ∃ t, exec (.tokenReq h b) s = .next t ∧
          Safety.answered t h 3 5 0 ([0x12] ++ bytesLE 8 b.asn.toNat ++ [3]) ∧ Frame.net s t) ∧
        (∀ p s1 ps, b.formation.epoch.toNat = s.net.settled → s.program b.formation.program.toNat = some p → a.selfEligible p = true →
          a.grantToken b.home.toNat b.asn.toNat b.tenant b.formation (fit 128 b.desc) b.items b.gallery = some (s1, ps) →
          ∃ t, exec (.tokenReq h b) s = .next t ∧ Safety.answered t h 3 5 0 ([0x11] ++ bytesLE 8 b.asn.toNat ++
              bytesLE 8 s.quota.nextToken ++ (ps.map (fun i => (i.base, i.size)) ++
                s1.stateSlots b.home.toNat b.asn.toNat (fit 128 b.desc)).flatMap fun i => bytesLE 8 i.1 ++ bytesLE 8 i.2) ∧
            t.quota.grants = s1.quota.grants ∧
            (∃ k ∈ t.quota.tokens, k.asn = b.asn.toNat ∧ k.home = b.home.toNat ∧ k.number = s.quota.nextToken) ∧
            (∃ l ∈ t.net.leases, l.key = .token b.asn ∧ l.peer = b.home.toNat ∧ l.side = .granted ∧ l.epoch = s.net.settled)) ∧
        (∀ p, b.formation.epoch.toNat = s.net.settled → s.program b.formation.program.toNat = some p → a.selfEligible p = true →
          a.grantToken b.home.toNat b.asn.toNat b.tenant b.formation (fit 128 b.desc) b.items b.gallery = none →
          ∃ t, exec (.tokenReq h b) s = .next t ∧ Safety.answered t h 3 5 0 ([0x12] ++ bytesLE 8 b.asn.toNat ++
              [if a.everGrants b.tenant b.items b.gallery then 1 else 0x81]) ∧ Frame.net s t)) ∧
      (∀ asn, ∃ t, exec (.tokenRelease h asn) s = .next t ∧ Safety.answered t h 3 5 0 [] ∧
        (∀ l ∈ t.net.leases, ¬(l.key = .token asn ∧ l.peer = src ∧ l.side = .granted)) ∧
        let mine := fun k : TokenHeld => k.home = src ∧ k.asn = asn.toNat
        let late := s.stillRuns src asn.toNat = true ∧ ∃ k ∈ s.quota.tokens, mine k ∧ s.pastDeadline k.desc = true
        (late → t.quota.grants = s.quota.grants ∧ ∀ k ∈ t.quota.tokens, mine k → k.released = true) ∧
        (¬ late → (∀ g ∈ t.quota.grants, ¬(g.asn = asn.toNat ∧ g.home = src)) ∧ ∀ k ∈ t.quota.tokens, ¬ mine k)) ∧
      (∀ wu, s.reqOf wu.asn = none → ∃ t, exec (.stepAck h wu) s = .next t ∧ Safety.answered t h 3 5 0 [] ∧
        t.net.pushTx = s.net.pushTx.map (fun x => if x.key = wu ∧ x.dst = src then { x with stepAcked := true } else x) ∧ Frame.net s t) ∧
      (∀ asn status, s.reqOf asn.toNat = none →
        (s.quota.tokens.all (fun k => !(k.home == src && k.asn == asn.toNat)) = true →
          ∃ t, exec (.abort h asn status) s = .next t ∧ Safety.answered t h 3 5 0 [] ∧ Frame.net s t) ∧
        (∀ k ∈ s.quota.tokens, k.home = src → k.asn = asn.toNat →
          ∃ t, exec (.abort h asn status) s = .next t ∧ Safety.answered t h 3 5 0 [] ∧
            ∀ x ∈ t.net.pushRx, ¬(x.home = src ∧ x.key.asn = asn.toNat))) ∧
      (∀ o hash, s.net.outstanding src 3 < 4096 → ∃ t, exec (.weightQuery h o hash) s = .next t ∧ Safety.answered t h 3 5 0 [] ∧
        Frame.net s t ∧
        ((∃ i : Nat, ∃ e, s.cfg.manifest[i]? = some e ∧ e.objectId = o.toNat ∧ e.hash = hash ∧ s.boot.weights[i]? = some .verified) →
          Safety.asked t src 3 5 ([0x31] ++ bytesLE 4 o.toNat ++ [1])) ∧
        ((∀ i : Nat, ∀ e, s.cfg.manifest[i]? = some e → e.objectId = o.toNat → e.hash = hash → s.boot.weights[i]? ≠ some .verified) →
          Safety.asked t src 3 5 ([0x31] ++ bytesLE 4 o.toNat ++ [0]))) ∧
      (∀ o, ∃ t, exec (.weightHave h o true) s = .next t ∧ Safety.answered t h 3 5 0 [] ∧ t.boot = s.boot ∧ Frame.net s t) ∧
      ∀ t1 t2 t3 t4, ∃ t, exec (.time h false t1 t2 t3 t4) s = .next t ∧
        Safety.answered t h 3 8 0 (bytesLE 8 (ofSigned 64 t2) ++ bytesLE 8 (ofSigned 64 t3)) ∧ Frame.net s t)

/-- R325 to R332, R346, R354: HELLOs make and break adjacencies and tell the peer's epoch; a new record is held and flooded on every other adjacency; the
node's own record is refreshed; an old record ages out; routes are recomputed from the database; an epoch record that is newer is
adopted, and a member set that differs from the adopted list raises the epoch; the epoch settles; CAPS is held; LEAVE takes its
node out. -/
def Obligations.FabricRecords : Prop :=
  ∀ (s : State) (n : Fin 12), Safety.shaped s →
    (s.linkRuns = true → (s.port n).state = .active → (s.port n).linkUp = true → (s.port n).closed = false → s.net.leftFabric = false →
      ∃ t q, (s.port n).vcq[3]? = some q ∧ exec (.helloSend n) s = .next t ∧ Frame.port s t n ∧
        (t.port n).vcq[3]? = some (q ++ [{ bytes := s.localMsg 0x01 (helloBytes (s.ownHello n)), sent := 0 }])) ∧
    (∀ h at_, let u := s.advance at_
      u.hears n = true →
      (s.net.adjOf n.val = none → s.helloOk h = true → ∃ t, exec (.hello n h at_) s = .next t ∧
        ∃ a ∈ t.net.adjs, a.port = n.val ∧ a.peer = h.node.toNat ∧ a.peerNonce = h.chipNonce ∧ a.lastHello = u.clk.devTime) ∧
      (s.helloOk h = false → ∃ t, exec (.hello n h at_) s = .next t ∧ (∀ a ∈ t.net.adjs, a.port ≠ n.val ∧ a ∈ s.net.adjs) ∧
        (s.net.nodeId ≠ 0xFF → t.net.adjs = s.net.adjs.filter (fun a => a.port != n.val))) ∧
      (∀ a, s.net.adjOf n.val = some a → s.net.nodeId ≠ 0xFF → s.helloOk h = true → a.peer = h.node.toNat → a.peerNonce = h.chipNonce →
        ∃ t, exec (.hello n h at_) s = .next t ∧ Frame.net s t ∧ t.truss = s.truss ∧
          t.net.adjs = s.net.adjs.map fun a => if a.port = n.val then { a with lastHello := u.clk.devTime, epoch := h.epoch.toNat } else a)) ∧
    (s.linkRuns = true → (s.port n).state = .active → ∃ t, exec (.helloTimeout n) s = .next t ∧
      (∀ a ∈ t.net.adjs, a.port ≠ n.val ∧ a ∈ s.net.adjs) ∧
      (s.net.nodeId ≠ 0xFF → t.net.adjs = s.net.adjs.filter (fun a => a.port != n.val))) ∧
    (∀ r at_, let u := s.advance at_
      u.hears n = true →
      (r.origin.toNat = s.net.nodeId → s.net.nodeId ≠ 0xFF → r.chipNonce = s.net.chipNonce → exec (.lsa n r at_) s = .next u) ∧
      (r.origin.toNat ≠ s.net.nodeId → s.net.nodeId ≠ 0xFF →
        (s.lsaAccepted r = false → exec (.lsa n r at_) s = .next u) ∧
        ((∀ l, s.net.lsaOf r.origin.toNat = some l → l.chipNonce = r.chipNonce ∧ newer32 r.seq.toNat l.seq.toNat = true) →
          ∃ t, exec (.lsa n r at_) s = .next t ∧ t.net.lsaOf r.origin.toNat = some r ∧ t.net.epochMembers = t.memberSet ∧
            ∀ (q : Fin 12) (a : Adj), q ≠ n → a ∈ s.net.adjs → a.port = q.val → (s.port q).state = .active → (s.port q).closed = false →
              ∃ m ∈ (t.port q).vcq.getD 3 [], m.bytes = s.recordMsg r.origin.toNat 0x02 (lsaBytes r)))) ∧
    (s.linkRuns = true →
      (∀ at_, s.net.originates = true → s.net.nodeId < 256 → ∃ t, exec (.lsaRefresh at_) s = .next t ∧
        t.net.lsaSeq = (s.net.lsaSeq + 1) % 2 ^ 32 ∧ t.net.lsaOf s.net.nodeId = some (s.ownLsa t.net.lsaSeq)) ∧
      (∀ o, o.toNat ≠ s.net.nodeId → (s.net.lsaOf o.toNat).isSome = true → ∃ t, exec (.lsaAgeOut o) s = .next t ∧
        t.net.lsaOf o.toNat = none ∧ (∀ k, k ≠ o.toNat → t.net.lsaOf k = s.net.lsaOf k) ∧
        (s.net.nodeId ≠ 0xFF → t.net.epochMembers = t.memberSet)) ∧
      (s.net.routesDirty = true → ∃ t, exec .routeCompute s = .next t ∧ t = { s with net := t.net } ∧ t.net.routesDirty = false ∧
        ∀ d < 254,
          let links := s.net.links.filter fun e => s.memberSet.contains e.1 && s.memberSet.contains e.2.2.1
          let dist := fun k => (distancesTo links d).getD k 0xFFFF
          let r := t.net.route d
          (d ∉ s.memberSet → r = Route.none) ∧
          (d ∈ s.memberSet → d ≠ s.net.nodeId → dist s.net.nodeId ≠ 0xFFFF → r.dist = dist s.net.nodeId ∧ r.ports.length ≤ 4 ∧
            ∀ p ∈ r.ports, ∃ e ∈ links, e.1 = s.net.nodeId ∧ e.2.1 = p ∧ e.2.2.2.2 + dist e.2.2.1 = r.dist))) ∧
    (∀ r at_, let u := s.advance at_
      u.hears n = true → s.net.nodeId ≠ 0xFF →
      (s.judgeNew 3 r.origin.toNat r.epoch.toNat = none → exec (.epoch n r at_) s = .next u) ∧
      ((s.judgeNew 3 r.origin.toNat r.epoch.toNat).isSome = true → s.net.adopts r = true →
        ∃ t, exec (.epoch n r at_) s = .next t ∧ t.net.epochMembers = s.memberSet ∧ t.net.adoptedAt = u.clk.devTime ∧
          (if r.members.foldl (fun acc m => insertNat acc m.toNat) [] = s.memberSet
           then t.net.epochCur = r.epoch.toNat ∧ t.net.epochOrigin = r.origin.toNat
           else t.net.epochCur = (r.epoch.toNat + 1) % 2 ^ 32 ∧ t.net.epochOrigin = s.net.nodeId))) ∧
    (∀ at_, (s.advance at_).linkRuns = true → (s.advance at_).settleDue = true → ∃ t, exec (.epochSettle at_) s = .next t ∧
      t.net.settled = s.net.epochCur ∧ t.net.members = s.net.epochMembers ∧
      ∀ l ∈ t.net.leases, l.peer < 254 → l.peer ∈ s.net.epochMembers) ∧
    (s.hears n = true →
      (∀ r, (s.judgeNew 4 r.origin.toNat r.seq.toNat).isSome = true → s.req.table = [] → ∃ t, exec (.caps n r) s = .next t ∧
        t.net.caps.find? (fun c => c.origin == r.origin) = some r ∧ Frame.net s t) ∧
      ∀ r, (s.judgeNew 5 r.origin.toNat r.epoch.toNat).isSome = true → s.net.nodeId ≠ 0xFF → ∃ t, exec (.leave n r) s = .next t ∧
        r.origin.toNat ∈ t.net.left ∧ t.net.epochMembers = t.memberSet)

/-- R150, R255, R337, R338, R345, R348, R356, R357: an answer takes its request from the table and does what it served: a loaded value
arrives, a token is held, a refusal leaves the request waiting or, where its demand could never be granted, ends it with QUOTA_DENIED, an
offset corrects the clock; 100 µs without one sends the next attempt, and the fourth fails; a request to a node that has left serves
nothing once the settle has taken it out; batches, sync requests and transit messages that cannot go on. -/
def Obligations.FabricAnswers : Prop :=
  ∀ (s : State), Safety.shaped s → s.net.unsent = [] →
    (s.running = true → ∀ (h : Header) (x : Txn),
      let src := h.src.toNat
      (∀ vc data, s.net.txns.find? (fun y => y.dst == src && y.vc == BitVec.toNat vc && y.tseq == h.tseq.toNat) = some x →
        (h.status = 4 → exec (.transportResponse h vc data) s = .next s) ∧
        (h.status ≠ 4 → x.purpose = .other → ∃ t, exec (.transportResponse h vc data) s = .next t ∧ t = { s with net := t.net } ∧
          t.net.txns = s.net.txns.erase x) ∧
        (∀ b t0 (reg : BitVec 5) n pc, h.status = 0 → x.purpose = .load b t0 reg.toNat n false false pc → reg ≠ 0 →
          ∃ t, exec (.transportResponse h vc data) s = .next t ∧ t = { s with net := t.net, bays := t.bays } ∧
            t.net.txns = s.net.txns.erase x ∧ (t.thr b t0).gr reg = BitVec.ofNat 64 (natLE (fit n data)) ∧
            (∀ k, k ≠ reg → (t.thr b t0).gr k = (s.thr b t0).gr k) ∧ (t.thr b t0).pc = (s.thr b t0).pc)) ∧
      (s.net.txns.find? (fun y => y.dst == src && y.vc == 3 && y.tseq == h.tseq.toNat) = some x →
        (∀ (asn number : BitVec 64) bases r m p n2 rest, s.reqOf asn.toNat = some r → r.phase = .tokens → r.askNodes = src :: n2 :: rest →
          r.formation = some m → s.program r.d.program = some p → n2 ≠ s.net.nodeId → ∃ t, exec (.token h asn number bases) s = .next t ∧
            (∃ l ∈ t.net.leases, l.key = .token asn ∧ l.peer = src ∧ l.side = .held ∧ l.epoch = h.epoch.toNat) ∧
            (∃ r', t.reqOf asn.toNat = some r' ∧ src ∈ r'.heldTokens ∧ r'.askNodes = n2 :: rest) ∧ t.mem = s.mem) ∧
        (∀ (asn : BitVec 64) reason r, s.reqOf asn.toNat = some r → r.phase = .tokens → r.askNodes.head? = some src →
          (reason = 2 → ∃ t, exec (.tokenRefuse h asn reason) s = .next t ∧
            ∃ r', t.reqOf asn.toNat = some r' ∧ r'.phase = .waiting13 ∧ r'.awaitSettle = true ∧ r'.heldTokens = []) ∧
          (reason = 0x81 → ∃ t, exec (.tokenRefuse h asn reason) s = .next t ∧
            ∃ r', t.reqOf asn.toNat = some r' ∧ r'.phase = .complete ∧ r'.status = stQuota ∧ r'.detail = 0x010D ∧ r'.heldTokens = []) ∧
          (reason ≠ 2 → reason ≠ 0x81 → (s.tenantCfg r.f).failPolicy = false → ∃ t, exec (.tokenRefuse h asn reason) s = .next t ∧
            ∃ r', t.reqOf asn.toNat = some r' ∧ r'.phase = .waiting13 ∧ r'.heldTokens = [])) ∧
        (∀ t1 t2 t3 t4 : Int, h.status = 0 →
          let off := ((t2 - t1) - (t4 - t3)) / 2
          ∃ t, exec (.time h true t1 t2 t3 t4) s = .next t ∧ t.net.timeOffset = off ∧ t.net.txns = s.net.txns.erase x ∧
            t.clk.timeDegraded = (s.clk.timeDegraded && !(decide (-80 ≤ off) && decide (off ≤ 80))) ∧
            (8000 < off → t.clk.devTime = s.clk.devTime + off.toNat / 4) ∧
            (off ≤ 8000 → t.clk.devTime = s.clk.devTime ∧ -200 ≤ t.net.rateAdj ∧ t.net.rateAdj ≤ 200)))) ∧
    (∀ dst vc tseq at_ x, let u := s.advance at_
      s.net.txns.find? (fun y => y.dst == BitVec.toNat dst && y.vc == BitVec.toNat vc && y.tseq == BitVec.toNat tseq) = some x →
      u.running = true → x.sentAt + 100000 ≤ u.clk.devTime →
      (x.attempt < 3 → ∃ t, exec (.requestTimeout dst vc tseq at_) s = .next t ∧ t = { u with net := t.net, truss := t.truss } ∧
        t.net.retx = sat64 (s.net.retx + 1) ∧ ∃ y ∈ t.net.txns, y.dst = x.dst ∧ y.vc = x.vc ∧ y.tseq = x.tseq ∧ y.purpose = x.purpose ∧
          y.attempt = x.attempt + 1 ∧ y.sentAt = u.clk.devTime ∧ y.bytes = setAttempt x.bytes (x.attempt + 1)) ∧
      (3 ≤ x.attempt → dst.toNat ∈ s.memberSet → x.purpose = .other → ∃ t, exec (.requestTimeout dst vc tseq at_) s = .next t ∧
        t.net.txns = s.net.txns.erase x ∧ t.net.txFail = sat64 (s.net.txFail + 1) ∧ t = { u with net := t.net }) ∧
      (3 ≤ x.attempt → dst.toNat ∉ s.memberSet → dst.toNat ∈ s.net.members → exec (.requestTimeout dst vc tseq at_) s = .next u) ∧
      (3 ≤ x.attempt → dst.toNat ∉ s.memberSet → dst.toNat ∉ s.net.members → x.purpose = .other →
        exec (.requestTimeout dst vc tseq at_) s = .next { u with net := { s.net with txns := s.net.txns.erase x } })) ∧
    (∀ at_, (s.advance at_).running = true →
      (∀ f, s.bars.fabric = [f] → f.home ≠ s.net.nodeId → 0 < f.unsent → s.net.holdsSlot f.home f.asn f.slot = true →
        s.net.outstanding f.home 3 < 4096 → (∀ x, f.sentAt = some x → x + 1000 ≤ (s.advance at_).clk.devTime) →
        ∃ t, exec (.barrierBatchSend at_) s = .next t ∧
          t.bars.fabric = [{ f with unsent := 0, sentAt := some (s.advance at_).clk.devTime }] ∧ Safety.asked t f.home 3 7 (barrierBody f.asn f.slot f.generation f.bar.count)) ∧
      (∀ p a, s.net.timeParent = some p → s.net.adjOf p = some a → s.net.outstanding a.peer 3 < 4096 →
        ∃ t, exec (.timeSyncSend at_) s = .next t ∧ Frame.net s t ∧
          Safety.asked t a.peer 3 8 (bytesLE 8 (4 * (s.advance at_).clk.devTime) ++ List.replicate 24 0))) ∧
    (s.linkRuns = true → ∀ n vc m rest, (s.port n).vcq[BitVec.toNat vc]? = some (m :: rest) → m.sent = 0 →
      fieldLE m.bytes 1 1 ≠ s.net.nodeId → fieldLE m.bytes 2 1 ≠ 0xFF → ∃ t, exec (.transitDrop n vc) s = .next t ∧
        (t.port n).vcq = (s.port n).vcq.set vc.toNat rest ∧ t.net = { s.net with transitDrop := sat64 (s.net.transitDrop + 1) } ∧
        t = { s with truss := t.truss, net := t.net } ∧ ∀ q, q ≠ n → t.port q = s.port q)

/-! ## The acoustic sentinel (16) -/

/-- R408, R415, R421, R422, R427 to R429: a frame is counted and recorded in the ring unless the ring is frozen, and detects
nothing during the warm-up; a detection pulses WAKE_OUT_N for its time; the freeze opens the window, whose close at its end empties
and unlocks the ring; mute stops the clock, empties the ring and is recorded; unmute powers the microphones and PDM_CLK starts 50 ms
later (in held reset only the pins follow the switch); the self-check marks stuck and dead channels. -/
def Obligations.SentinelEvents : Prop :=
  ∀ (s : State) (at_ : Nat),
    let u := s.advance at_
    let now := u.clk.devTime
    let x := s.sent
    (∀ pdm, s.sentCfg = none ∨ s.pins.pdmClk = false → exec (.sentinelFrameEnd at_ pdm) s = .next u) ∧
    (∀ cfg pdm, s.sentCfg = some cfg → s.pins.pdmClk = true → ∃ t, exec (.sentinelFrameEnd at_ pdm) s = .next t ∧
      t.sent.frameNo = x.frameNo + 1 ∧ t.sent.warmupLeft = x.warmupLeft - 1 ∧
      (∃ sets : List (List Int), sets.length = 128 ∧ (∀ l ∈ sets, l.length = 4) ∧
        t.sent.ring = if x.frozen = false ∧ (∀ n, x.freezeAtFrame = some n → x.frameNo < n) then keepLast 62500 (x.ring ++ sets)
          else x.ring) ∧
      (0 < x.warmupLeft → t = { u with sent := t.sent } ∧ t.sent.events = x.events ∧ t.sent.eventSeq = x.eventSeq) ∧
      (x.eventSeq < t.sent.eventSeq → t.pins.wakeOutN = false ∧
        t.sent.wakePulseUntil = some (now + 1000000 * cfg.wakePulseMs) ∧
        (x.frozen = false → x.windowEnd = none → t.sent.freezeAtFrame.isSome = true ∧ t.clk.wakeCause.getLsbD 0 = true)) ∧
      t.mem = s.mem ∧ t.req = s.req ∧ t.err = s.err) ∧
    (∀ w, x.wakePulseUntil = some w → exec (.wakePulseEnd at_) s = .next
      (if w ≤ now then { u with pins := { s.pins with wakeOutN := true }, sent := { x with wakePulseUntil := none } } else u)) ∧
    (∀ cfg n, s.sentCfg = some cfg → x.freezeAtFrame = some n → n ≤ x.frameNo → s.pins.pdmClk = true →
      let y := { x with frozen := true, freezeAtFrame := none, windowEnd := some (now + 1000000000 * cfg.unlockS) }
      (cfg.wakeReq = false → exec (.prerollFreeze at_) s = .next { u with sent := y }) ∧
      (cfg.wakeReq = true → s.canFetch = false →
        exec (.prerollFreeze at_) s = .next { u with sent := y, req := { s.req with wakePending := true } })) ∧
    (∀ w, x.windowEnd = some w → exec (.wakeWindowClose at_) s = .next
      (if w ≤ now then { u with sent := { x with ring := [], frozen := false, windowEnd := none } } else u)) ∧
    (s.clk.pwrOk = true → s.clk.heldInReset = false → s.pins.muteSwN = true → x.freezeAtFrame = none →
      (∀ r ∈ s.req.table, r.admitted = false) → ∃ t, exec .mute s = .next t ∧
        t = { s with pins := { s.pins with muteSwN := false, pdmClk := false, micPwrEn := false, muteLed := true }, sent := t.sent } ∧
        t.sent.ring = [] ∧ t.sent.frozen = false ∧ t.sent.windowEnd = none ∧ t.sent.muted = true ∧ t.sent.erasing = true ∧
        t.sent.events = x.events) ∧
    (s.clk.pwrOk = true → s.clk.heldInReset = true → s.pins.muteSwN = true → exec .mute s = .next
      { s with pins := { s.pins with muteSwN := false, pdmClk := false, micPwrEn := false, muteLed := true } }) ∧
    (x.erasing = true → ∃ t, exec .muteEraseDone s = .next t ∧ t = { s with sent := t.sent } ∧ t.sent.erasing = false ∧
      t.sent.eventSeq = x.eventSeq + 1 ∧ ∃ e, t.sent.events.getLast? = some e ∧ e.kind = 3 ∧ e.seq = x.eventSeq + 1 ∧
        e.time = s.clk.devTime) ∧
    (s.clk.pwrOk = true → s.pins.muteSwN = false ∨ x.muted = true ∧ x.unmuteAt = none → exec (.unmute at_) s = .next
      (if s.clk.heldInReset then { u with pins := { s.pins with muteSwN := true, muteLed := false } }
       else { u with pins := { s.pins with muteSwN := true, micPwrEn := s.sentCfg.isSome },
                     sent := { x with unmuteAt := some (now + 50000000) } })) ∧
    (∀ w, x.unmuteAt = some w → now < w → exec (.pdmClkStart at_) s = .next u) ∧
    (∀ w, s.pins.muteSwN = true → x.unmuteAt = some w → w ≤ now → ∃ t, exec (.pdmClkStart at_) s = .next t ∧ t.sent.muted = false ∧
      t.pins = { s.pins with muteLed := false, pdmClk := s.sentCfg.isSome } ∧ t = { u with pins := t.pins, sent := t.sent } ∧
      (s.sentCfg.isSome = true → t.sent.warmupLeft = 128 ∧ t.sent.frameNo = 0) ∧
      (x.muted = true → t.sent.eventSeq = x.eventSeq + 1 ∧ ∃ e, t.sent.events.getLast? = some e ∧ e.kind = 4) ∧
      (x.muted = false → t.sent.events = x.events)) ∧
    ∀ cfg m, s.sentCfg = some cfg → s.pins.pdmClk = true → (cfg.chans[0]?).any (·.fitted) = true → ∃ t, exec (.micSelfCheck at_ [m]) s = .next t ∧
      t.sent.chanStuck.getLsbD 0 = decide (-100 < m.meanCdb) ∧
      t.sent.chanDead.getLsbD 0 = (decide (m.meanCdb ≤ -100) && decide (m.powerCdb < cfg.deadCdb)) ∧
      (∀ c, 0 < c → t.sent.chanStuck.getLsbD c = x.chanStuck.getLsbD c ∧ t.sent.chanDead.getLsbD c = x.chanDead.getLsbD c) ∧
      (x.chanDead.getLsbD 0 = false → x.chanStuck.getLsbD 0 = false → -100 < m.meanCdb →
        ∃ e ∈ t.err.ring, e.cls = 2 ∧ e.source = 0x58 ∧ e.inst = 0 ∧ e.code = 0x1010) ∧ t.mem = s.mem

/-! ## Invariants -/

/-- The state after reset is in canonical form, has the parts the spec gives it, and no command waits (log entries 3 and 2). -/
def Obligations.ResetIsSound : Prop :=
  Safety.canonical State.reset ∧ Safety.shaped State.reset ∧ State.reset.pending = []

/-- Every step keeps the byte stores of the state in their canonical form. -/
def Obligations.StepsKeepMemoryCanonical : Prop :=
  ∀ (s t : State), Safety.canonical s → step s = .next t → Safety.canonical t

/-- Every step keeps the numbers of the parts, the store buffers within eight lines and the mailboxes within four messages (R137,
R147), and it takes exactly the front command from the queue. -/
def Obligations.StepsKeepTheParts : Prop :=
  ∀ (s t : State), Safety.shaped s → step s = .next t → Safety.shaped t ∧ t.pending = s.pending.tail
end

