-- ==== Sys2Proof/Laws/Memory.lean ====
section
/-! SUPPORT. Laws of the sparse memories: every operation keeps the canonical form; a read after a write to the same place gives
the bytes written, and a write leaves every other place alone. -/
namespace Sys2Proof.Machine
open Sys2Proof

/-! ## The canonical form -/

/-- Addresses strictly rising. -/
def Memory.Rising (m : Memory) : Prop := m.Pairwise fun c d => c.1 < d.1

theorem Memory.wf_iff (d : Byte) (m : Memory) : Memory.wf d m = true ↔ Memory.Rising m ∧ ∀ c ∈ m, c.2 ≠ d := by
  induction m with
  | nil => simp [Memory.wf, Memory.Rising]
  | cons c t ih =>
    cases t with
    | nil => simp [Memory.wf, Memory.Rising]
    | cons e t =>
      simp only [Memory.wf, Bool.and_eq_true, decide_eq_true_eq, bne_iff_ne, ih, Memory.Rising, List.pairwise_cons,
        List.mem_cons]
      constructor
      · rintro ⟨⟨hc, hce⟩, ⟨he, ht⟩, hd⟩
        refine ⟨⟨?_, he, ht⟩, ?_⟩
        · rintro x (rfl | hx)
          · exact hce
          · exact Nat.lt_trans hce (he x hx)
        · rintro x (rfl | hx)
          · exact hc
          · exact hd x hx
      · rintro ⟨⟨hc, he, ht⟩, hd⟩
        exact ⟨⟨hd c (.inl rfl), hc e (.inl rfl)⟩, ⟨he, ht⟩, fun x hx => hd x (.inr hx)⟩

theorem Memory.listed_mem (d : Byte) (a : Nat) (bs : List Byte) :
    ∀ c ∈ Memory.listed d a bs, c.2 ≠ d ∧ a ≤ c.1 ∧ c.1 < a + bs.length := by
  induction bs generalizing a with
  | nil => simp [Memory.listed]
  | cons b bs ih =>
    intro c hc
    unfold Memory.listed at hc
    split at hc
    · have := ih _ c hc; simp only [List.length_cons]; exact ⟨this.1, by omega, by omega⟩
    · next hb =>
      rcases List.mem_cons.1 hc with rfl | hc
      · simp only [List.length_cons]; exact ⟨hb, by omega, by omega⟩
      · have := ih _ c hc; simp only [List.length_cons]; exact ⟨this.1, by omega, by omega⟩

theorem Memory.listed_rising (d : Byte) (a : Nat) (bs : List Byte) : Memory.Rising (Memory.listed d a bs) := by
  induction bs generalizing a with
  | nil => simp [Memory.listed, Memory.Rising]
  | cons b bs ih =>
    unfold Memory.listed
    split
    · exact ih _
    · exact List.pairwise_cons.2 ⟨fun c hc => by have := Memory.listed_mem d _ bs c hc; omega, ih _⟩

theorem Memory.filter_wf (d : Byte) (m : Memory) (p : Host.Cell → Bool) (h : Memory.wf d m = true) :
    Memory.wf d (m.filter p) = true := by
  rw [Memory.wf_iff] at *
  exact ⟨h.1.filter p, fun c hc => h.2 c (List.mem_filter.1 hc).1⟩

theorem Memory.clear_wf (d : Byte) (m : Memory) (a n : Nat) (h : Memory.wf d m = true) :
    Memory.wf d (Memory.clear m a n) = true := Memory.filter_wf d m _ h

theorem Memory.write_wf (d : Byte) (m : Memory) (a : Nat) (bs : List Byte) (h : Memory.wf d m = true) :
    Memory.wf d (Memory.write d m a bs) = true := by
  have h1 := Memory.filter_wf d m (fun c => decide (c.1 < a)) h
  have h2 := Memory.filter_wf d m (fun c => decide (a + bs.length ≤ c.1)) h
  rw [Memory.wf_iff] at *
  refine ⟨?_, ?_⟩
  · unfold Memory.Rising Memory.write
    rw [List.pairwise_append, List.pairwise_append]
    refine ⟨⟨h1.1, Memory.listed_rising d a bs, ?_⟩, h2.1, ?_⟩
    · intro x hx y hy
      have hx := (List.mem_filter.1 hx).2
      have hy := Memory.listed_mem d a bs y hy
      simp only [decide_eq_true_eq] at hx; omega
    · intro x hx y hy
      have hy := (List.mem_filter.1 hy).2
      simp only [decide_eq_true_eq] at hy
      rcases List.mem_append.1 hx with hx | hx
      · have hx := (List.mem_filter.1 hx).2; simp only [decide_eq_true_eq] at hx; omega
      · have hx := Memory.listed_mem d a bs x hx; omega
  · intro c hc
    rcases List.mem_append.1 hc with hc | hc
    · rcases List.mem_append.1 hc with hc | hc
      · exact h1.2 c hc
      · exact (Memory.listed_mem d a bs c hc).1
    · exact h2.2 c hc

/-! ## Reading one byte -/

theorem Memory.byte_append (d : Byte) (m n : Memory) (a : Nat) (h : ∀ c ∈ m, c.1 ≠ a) :
    Memory.byte d (m ++ n) a = Memory.byte d n a := by
  induction m with
  | nil => rfl
  | cons c t ih =>
    obtain ⟨k, v⟩ := c
    have hk : k ≠ a := h (k, v) (.head _)
    simp only [List.cons_append, Memory.byte, if_neg hk]
    exact ih fun x hx => h x (.tail _ hx)

theorem Memory.byte_append_right (d : Byte) (m n : Memory) (a : Nat) (h : ∀ c ∈ n, c.1 ≠ a) :
    Memory.byte d (m ++ n) a = Memory.byte d m a := by
  induction m with
  | nil =>
    induction n with
    | nil => rfl
    | cons c t ih =>
      obtain ⟨k, v⟩ := c
      have hk : k ≠ a := h (k, v) (.head _)
      simp only [List.nil_append, Memory.byte, if_neg hk]
      exact ih fun x hx => h x (.tail _ hx)
  | cons c t ih =>
    obtain ⟨k, v⟩ := c
    simp only [List.cons_append, Memory.byte, ih]

theorem Memory.byte_filter (d : Byte) (m : Memory) (p : Host.Cell → Bool) (a : Nat) (h : ∀ v, p (a, v) = true) :
    Memory.byte d (m.filter p) a = Memory.byte d m a := by
  induction m with
  | nil => rfl
  | cons c t ih =>
    obtain ⟨k, v⟩ := c
    by_cases hk : k = a
    · subst hk; simp [List.filter, h, Memory.byte]
    · simp only [List.filter]
      split <;> simp [Memory.byte, hk, ih]

theorem Memory.byte_none (d : Byte) (m : Memory) (a : Nat) (h : ∀ c ∈ m, c.1 ≠ a) : Memory.byte d m a = d := by
  have := Memory.byte_append d m [] a h; simpa [Memory.byte] using this

theorem Memory.byte_listed (d : Byte) (a : Nat) (bs : List Byte) (i : Nat) (h : i < bs.length) :
    Memory.byte d (Memory.listed d a bs) (a + i) = bs[i] := by
  induction bs generalizing a i with
  | nil => simp at h
  | cons b bs ih =>
    cases i with
    | zero =>
      unfold Memory.listed
      split
      · next hb =>
        rw [Memory.byte_none]
        · simp [hb]
        · intro c hc; have := Memory.listed_mem d (a + 1) bs c hc; omega
      · simp [Memory.byte]
    | succ i =>
      have hi : i < bs.length := by simpa using h
      have hi' := ih (a + 1) i hi
      have e : a + (i + 1) = a + 1 + i := by omega
      unfold Memory.listed
      split
      · rw [e, hi']; simp
      · rw [Memory.byte, if_neg (by omega), e, hi']; simp

/-- A write leaves every other place alone. -/
theorem Memory.byte_write_outside (d : Byte) (m : Memory) (a : Nat) (bs : List Byte) (x : Nat)
    (h : x < a ∨ a + bs.length ≤ x) : Memory.byte d (Memory.write d m a bs) x = Memory.byte d m x := by
  unfold Memory.write
  rcases h with h | h
  · rw [Memory.byte_append_right, Memory.byte_append_right, Memory.byte_filter]
    · intro v; simpa using h
    · intro c hc; have := Memory.listed_mem d a bs c hc; omega
    · intro c hc; have := (List.mem_filter.1 hc).2; simp only [decide_eq_true_eq] at this; omega
  · rw [Memory.byte_append, Memory.byte_filter]
    · intro v; simpa using h
    · intro c hc
      rcases List.mem_append.1 hc with hc | hc
      · have := (List.mem_filter.1 hc).2; simp only [decide_eq_true_eq] at this; omega
      · have := Memory.listed_mem d a bs c hc; omega

/-- A read after a write to the same place gives the byte written. -/
theorem Memory.byte_write_inside (d : Byte) (m : Memory) (a : Nat) (bs : List Byte) (i : Nat) (h : i < bs.length) :
    Memory.byte d (Memory.write d m a bs) (a + i) = bs[i] := by
  unfold Memory.write
  rw [Memory.byte_append_right, Memory.byte_append, Memory.byte_listed d a bs i h]
  · intro c hc; have := (List.mem_filter.1 hc).2; simp only [decide_eq_true_eq] at this; omega
  · intro c hc; have := (List.mem_filter.1 hc).2; simp only [decide_eq_true_eq] at this; omega

/-! ## Reading a range -/

theorem Memory.read_length (d : Byte) (m : Memory) (a n : Nat) : (Memory.read d m a n).length = n := by
  induction n generalizing m a with
  | zero => rfl
  | succ n ih =>
    unfold Memory.read
    split
    · simp [ih]
    · split <;> simp [ih]

theorem Memory.byte_dropWhile (d : Byte) (m : Memory) (a x : Nat) (h : a ≤ x) :
    Memory.byte d (m.dropWhile fun c => decide (c.1 < a)) x = Memory.byte d m x := by
  induction m with
  | nil => rfl
  | cons c t ih =>
    obtain ⟨k, v⟩ := c
    simp only [List.dropWhile]
    split
    · next hk => simp only [decide_eq_true_eq] at hk; rw [ih, Memory.byte, if_neg (by omega)]
    · rfl

theorem Memory.rising_dropWhile (m : Memory) (p : Host.Cell → Bool) (h : Memory.Rising m) : Memory.Rising (m.dropWhile p) :=
  List.Pairwise.sublist (List.dropWhile_sublist p) h

/-- A range read on a canonical memory gives the byte of each of its addresses. -/
theorem Memory.read_get (d : Byte) (m : Memory) (a n i : Nat) (hm : Memory.Rising m) (h : i < n) :
    (Memory.read d m a n)[i]? = some (Memory.byte d m (a + i)) := by
  induction n generalizing m a i with
  | zero => omega
  | succ n ih =>
    have hd := Memory.rising_dropWhile m (fun c => decide (c.1 < a)) hm
    have hb := fun x (hx : a ≤ x) => Memory.byte_dropWhile d m a x hx
    have hge : ∀ k v t, m.dropWhile (fun c => decide (c.1 < a)) = (k, v) :: t → a ≤ k := by
      intro k v t e
      have := List.head?_dropWhile_not (fun c : Host.Cell => decide (c.1 < a)) m
      rw [e] at this; simpa using this
    unfold Memory.read
    split
    · next e =>
      rw [e] at hb
      cases i with
      | zero => rw [← hb (a + 0) (by omega)]; rfl
      | succ i =>
        have := ih [] (a + 1) i List.Pairwise.nil (by omega)
        rw [List.getElem?_cons_succ, this, ← hb (a + (i + 1)) (by omega)]; rfl
    · next k v t e =>
      have hak := hge k v t e
      rw [e] at hb hd
      have hkt := (List.pairwise_cons.1 hd).1
      have ht := (List.pairwise_cons.1 hd).2
      split
      · next hk =>
        subst hk
        cases i with
        | zero => rw [← hb (k + 0) (by omega)]; simp [Memory.byte]
        | succ i =>
          have e : k + (i + 1) = k + 1 + i := by omega
          rw [List.getElem?_cons_succ, ih t (k + 1) i ht (by omega), ← hb (k + (i + 1)) (by omega), e, Memory.byte,
            if_neg (by omega)]
      · next hk =>
        cases i with
        | zero =>
          rw [← hb (a + 0) (by omega)]
          rw [Memory.byte_none]
          · rfl
          · intro c hc
            rcases List.mem_cons.1 hc with rfl | hc
            · simpa using hk
            · have := hkt c hc; dsimp at this; omega
        | succ i =>
          have e : a + (i + 1) = a + 1 + i := by omega
          rw [List.getElem?_cons_succ, ih _ (a + 1) i hd (by omega), ← hb (a + (i + 1)) (by omega), e]

end Sys2Proof.Machine
end

