-- ==== Sys2Proof/Laws/State.lean ====
section
/-! SUPPORT. What each update of the state does to each of its fields: the field it changes, and the others as before; reading a
bay, thread, port or page after changing one. -/
namespace Sys2Proof.Machine
open Sys2Proof

/-! ## modBay -/

section
variable (s : State) (b : Fin 80) (f : Bay → Bay)
@[simp] theorem State.modBay_clk : (s.modBay b f).clk = s.clk := rfl
@[simp] theorem State.modBay_pins : (s.modBay b f).pins = s.pins := rfl
@[simp] theorem State.modBay_boot : (s.modBay b f).boot = s.boot := rfl
@[simp] theorem State.modBay_cfg : (s.modBay b f).cfg = s.cfg := rfl
@[simp] theorem State.modBay_tun : (s.modBay b f).tun = s.tun := rfl
@[simp] theorem State.modBay_stew : (s.modBay b f).stew = s.stew := rfl
@[simp] theorem State.modBay_req : (s.modBay b f).req = s.req := rfl
@[simp] theorem State.modBay_bays : (s.modBay b f).bays = s.bays.modify b.val f := rfl
@[simp] theorem State.modBay_bars : (s.modBay b f).bars = s.bars := rfl
@[simp] theorem State.modBay_mem : (s.modBay b f).mem = s.mem := rfl
@[simp] theorem State.modBay_quota : (s.modBay b f).quota = s.quota := rfl
@[simp] theorem State.modBay_str : (s.modBay b f).str = s.str := rfl
@[simp] theorem State.modBay_kv : (s.modBay b f).kv = s.kv := rfl
@[simp] theorem State.modBay_truss : (s.modBay b f).truss = s.truss := rfl
@[simp] theorem State.modBay_net : (s.modBay b f).net = s.net := rfl
@[simp] theorem State.modBay_host : (s.modBay b f).host = s.host := rfl
@[simp] theorem State.modBay_aud : (s.modBay b f).aud = s.aud := rfl
@[simp] theorem State.modBay_sent : (s.modBay b f).sent = s.sent := rfl
@[simp] theorem State.modBay_cnt : (s.modBay b f).cnt = s.cnt := rfl
@[simp] theorem State.modBay_err : (s.modBay b f).err = s.err := rfl
@[simp] theorem State.modBay_plumb : (s.modBay b f).plumb = s.plumb := rfl
@[simp] theorem State.modBay_cxl : (s.modBay b f).cxl = s.cxl := rfl
@[simp] theorem State.modBay_hub : (s.modBay b f).hub = s.hub := rfl
@[simp] theorem State.modBay_pending : (s.modBay b f).pending = s.pending := rfl
@[simp] theorem State.modBay_freeCtr : (s.modBay b f).freeCtr = s.freeCtr := rfl
end

/-! ## modPort -/

section
variable (s : State) (n : Fin 12) (f : Port → Port)
@[simp] theorem State.modPort_clk : (s.modPort n f).clk = s.clk := rfl
@[simp] theorem State.modPort_pins : (s.modPort n f).pins = s.pins := rfl
@[simp] theorem State.modPort_boot : (s.modPort n f).boot = s.boot := rfl
@[simp] theorem State.modPort_cfg : (s.modPort n f).cfg = s.cfg := rfl
@[simp] theorem State.modPort_tun : (s.modPort n f).tun = s.tun := rfl
@[simp] theorem State.modPort_stew : (s.modPort n f).stew = s.stew := rfl
@[simp] theorem State.modPort_req : (s.modPort n f).req = s.req := rfl
@[simp] theorem State.modPort_bays : (s.modPort n f).bays = s.bays := rfl
@[simp] theorem State.modPort_bars : (s.modPort n f).bars = s.bars := rfl
@[simp] theorem State.modPort_mem : (s.modPort n f).mem = s.mem := rfl
@[simp] theorem State.modPort_quota : (s.modPort n f).quota = s.quota := rfl
@[simp] theorem State.modPort_str : (s.modPort n f).str = s.str := rfl
@[simp] theorem State.modPort_kv : (s.modPort n f).kv = s.kv := rfl
@[simp] theorem State.modPort_truss : (s.modPort n f).truss = s.truss.modify n.val f := rfl
@[simp] theorem State.modPort_net : (s.modPort n f).net = s.net := rfl
@[simp] theorem State.modPort_host : (s.modPort n f).host = s.host := rfl
@[simp] theorem State.modPort_aud : (s.modPort n f).aud = s.aud := rfl
@[simp] theorem State.modPort_sent : (s.modPort n f).sent = s.sent := rfl
@[simp] theorem State.modPort_cnt : (s.modPort n f).cnt = s.cnt := rfl
@[simp] theorem State.modPort_err : (s.modPort n f).err = s.err := rfl
@[simp] theorem State.modPort_plumb : (s.modPort n f).plumb = s.plumb := rfl
@[simp] theorem State.modPort_cxl : (s.modPort n f).cxl = s.cxl := rfl
@[simp] theorem State.modPort_hub : (s.modPort n f).hub = s.hub := rfl
@[simp] theorem State.modPort_pending : (s.modPort n f).pending = s.pending := rfl
@[simp] theorem State.modPort_freeCtr : (s.modPort n f).freeCtr = s.freeCtr := rfl
end

/-! ## modHost -/

section
variable (s : State) (f : HostSt → HostSt)
@[simp] theorem State.modHost_clk : (s.modHost f).clk = s.clk := rfl
@[simp] theorem State.modHost_pins : (s.modHost f).pins = s.pins := rfl
@[simp] theorem State.modHost_boot : (s.modHost f).boot = s.boot := rfl
@[simp] theorem State.modHost_cfg : (s.modHost f).cfg = s.cfg := rfl
@[simp] theorem State.modHost_tun : (s.modHost f).tun = s.tun := rfl
@[simp] theorem State.modHost_stew : (s.modHost f).stew = s.stew := rfl
@[simp] theorem State.modHost_req : (s.modHost f).req = s.req := rfl
@[simp] theorem State.modHost_bays : (s.modHost f).bays = s.bays := rfl
@[simp] theorem State.modHost_bars : (s.modHost f).bars = s.bars := rfl
@[simp] theorem State.modHost_mem : (s.modHost f).mem = s.mem := rfl
@[simp] theorem State.modHost_quota : (s.modHost f).quota = s.quota := rfl
@[simp] theorem State.modHost_str : (s.modHost f).str = s.str := rfl
@[simp] theorem State.modHost_kv : (s.modHost f).kv = s.kv := rfl
@[simp] theorem State.modHost_truss : (s.modHost f).truss = s.truss := rfl
@[simp] theorem State.modHost_net : (s.modHost f).net = s.net := rfl
@[simp] theorem State.modHost_host : (s.modHost f).host = f s.host := rfl
@[simp] theorem State.modHost_aud : (s.modHost f).aud = s.aud := rfl
@[simp] theorem State.modHost_sent : (s.modHost f).sent = s.sent := rfl
@[simp] theorem State.modHost_cnt : (s.modHost f).cnt = s.cnt := rfl
@[simp] theorem State.modHost_err : (s.modHost f).err = s.err := rfl
@[simp] theorem State.modHost_plumb : (s.modHost f).plumb = s.plumb := rfl
@[simp] theorem State.modHost_cxl : (s.modHost f).cxl = s.cxl := rfl
@[simp] theorem State.modHost_hub : (s.modHost f).hub = s.hub := rfl
@[simp] theorem State.modHost_pending : (s.modHost f).pending = s.pending := rfl
@[simp] theorem State.modHost_freeCtr : (s.modHost f).freeCtr = s.freeCtr := rfl
end

/-! ## modClk -/

section
variable (s : State) (f : Clk → Clk)
@[simp] theorem State.modClk_clk : (s.modClk f).clk = f s.clk := rfl
@[simp] theorem State.modClk_pins : (s.modClk f).pins = s.pins := rfl
@[simp] theorem State.modClk_boot : (s.modClk f).boot = s.boot := rfl
@[simp] theorem State.modClk_cfg : (s.modClk f).cfg = s.cfg := rfl
@[simp] theorem State.modClk_tun : (s.modClk f).tun = s.tun := rfl
@[simp] theorem State.modClk_stew : (s.modClk f).stew = s.stew := rfl
@[simp] theorem State.modClk_req : (s.modClk f).req = s.req := rfl
@[simp] theorem State.modClk_bays : (s.modClk f).bays = s.bays := rfl
@[simp] theorem State.modClk_bars : (s.modClk f).bars = s.bars := rfl
@[simp] theorem State.modClk_mem : (s.modClk f).mem = s.mem := rfl
@[simp] theorem State.modClk_quota : (s.modClk f).quota = s.quota := rfl
@[simp] theorem State.modClk_str : (s.modClk f).str = s.str := rfl
@[simp] theorem State.modClk_kv : (s.modClk f).kv = s.kv := rfl
@[simp] theorem State.modClk_truss : (s.modClk f).truss = s.truss := rfl
@[simp] theorem State.modClk_net : (s.modClk f).net = s.net := rfl
@[simp] theorem State.modClk_host : (s.modClk f).host = s.host := rfl
@[simp] theorem State.modClk_aud : (s.modClk f).aud = s.aud := rfl
@[simp] theorem State.modClk_sent : (s.modClk f).sent = s.sent := rfl
@[simp] theorem State.modClk_cnt : (s.modClk f).cnt = s.cnt := rfl
@[simp] theorem State.modClk_err : (s.modClk f).err = s.err := rfl
@[simp] theorem State.modClk_plumb : (s.modClk f).plumb = s.plumb := rfl
@[simp] theorem State.modClk_cxl : (s.modClk f).cxl = s.cxl := rfl
@[simp] theorem State.modClk_hub : (s.modClk f).hub = s.hub := rfl
@[simp] theorem State.modClk_pending : (s.modClk f).pending = s.pending := rfl
@[simp] theorem State.modClk_freeCtr : (s.modClk f).freeCtr = s.freeCtr := rfl
end

/-! ## modPins -/

section
variable (s : State) (f : Pins → Pins)
@[simp] theorem State.modPins_clk : (s.modPins f).clk = s.clk := rfl
@[simp] theorem State.modPins_pins : (s.modPins f).pins = f s.pins := rfl
@[simp] theorem State.modPins_boot : (s.modPins f).boot = s.boot := rfl
@[simp] theorem State.modPins_cfg : (s.modPins f).cfg = s.cfg := rfl
@[simp] theorem State.modPins_tun : (s.modPins f).tun = s.tun := rfl
@[simp] theorem State.modPins_stew : (s.modPins f).stew = s.stew := rfl
@[simp] theorem State.modPins_req : (s.modPins f).req = s.req := rfl
@[simp] theorem State.modPins_bays : (s.modPins f).bays = s.bays := rfl
@[simp] theorem State.modPins_bars : (s.modPins f).bars = s.bars := rfl
@[simp] theorem State.modPins_mem : (s.modPins f).mem = s.mem := rfl
@[simp] theorem State.modPins_quota : (s.modPins f).quota = s.quota := rfl
@[simp] theorem State.modPins_str : (s.modPins f).str = s.str := rfl
@[simp] theorem State.modPins_kv : (s.modPins f).kv = s.kv := rfl
@[simp] theorem State.modPins_truss : (s.modPins f).truss = s.truss := rfl
@[simp] theorem State.modPins_net : (s.modPins f).net = s.net := rfl
@[simp] theorem State.modPins_host : (s.modPins f).host = s.host := rfl
@[simp] theorem State.modPins_aud : (s.modPins f).aud = s.aud := rfl
@[simp] theorem State.modPins_sent : (s.modPins f).sent = s.sent := rfl
@[simp] theorem State.modPins_cnt : (s.modPins f).cnt = s.cnt := rfl
@[simp] theorem State.modPins_err : (s.modPins f).err = s.err := rfl
@[simp] theorem State.modPins_plumb : (s.modPins f).plumb = s.plumb := rfl
@[simp] theorem State.modPins_cxl : (s.modPins f).cxl = s.cxl := rfl
@[simp] theorem State.modPins_hub : (s.modPins f).hub = s.hub := rfl
@[simp] theorem State.modPins_pending : (s.modPins f).pending = s.pending := rfl
@[simp] theorem State.modPins_freeCtr : (s.modPins f).freeCtr = s.freeCtr := rfl
end

/-! ## modBoot -/

section
variable (s : State) (f : Boot → Boot)
@[simp] theorem State.modBoot_clk : (s.modBoot f).clk = s.clk := rfl
@[simp] theorem State.modBoot_pins : (s.modBoot f).pins = s.pins := rfl
@[simp] theorem State.modBoot_boot : (s.modBoot f).boot = f s.boot := rfl
@[simp] theorem State.modBoot_cfg : (s.modBoot f).cfg = s.cfg := rfl
@[simp] theorem State.modBoot_tun : (s.modBoot f).tun = s.tun := rfl
@[simp] theorem State.modBoot_stew : (s.modBoot f).stew = s.stew := rfl
@[simp] theorem State.modBoot_req : (s.modBoot f).req = s.req := rfl
@[simp] theorem State.modBoot_bays : (s.modBoot f).bays = s.bays := rfl
@[simp] theorem State.modBoot_bars : (s.modBoot f).bars = s.bars := rfl
@[simp] theorem State.modBoot_mem : (s.modBoot f).mem = s.mem := rfl
@[simp] theorem State.modBoot_quota : (s.modBoot f).quota = s.quota := rfl
@[simp] theorem State.modBoot_str : (s.modBoot f).str = s.str := rfl
@[simp] theorem State.modBoot_kv : (s.modBoot f).kv = s.kv := rfl
@[simp] theorem State.modBoot_truss : (s.modBoot f).truss = s.truss := rfl
@[simp] theorem State.modBoot_net : (s.modBoot f).net = s.net := rfl
@[simp] theorem State.modBoot_host : (s.modBoot f).host = s.host := rfl
@[simp] theorem State.modBoot_aud : (s.modBoot f).aud = s.aud := rfl
@[simp] theorem State.modBoot_sent : (s.modBoot f).sent = s.sent := rfl
@[simp] theorem State.modBoot_cnt : (s.modBoot f).cnt = s.cnt := rfl
@[simp] theorem State.modBoot_err : (s.modBoot f).err = s.err := rfl
@[simp] theorem State.modBoot_plumb : (s.modBoot f).plumb = s.plumb := rfl
@[simp] theorem State.modBoot_cxl : (s.modBoot f).cxl = s.cxl := rfl
@[simp] theorem State.modBoot_hub : (s.modBoot f).hub = s.hub := rfl
@[simp] theorem State.modBoot_pending : (s.modBoot f).pending = s.pending := rfl
@[simp] theorem State.modBoot_freeCtr : (s.modBoot f).freeCtr = s.freeCtr := rfl
end

/-! ## modTun -/

section
variable (s : State) (f : Tun → Tun)
@[simp] theorem State.modTun_clk : (s.modTun f).clk = s.clk := rfl
@[simp] theorem State.modTun_pins : (s.modTun f).pins = s.pins := rfl
@[simp] theorem State.modTun_boot : (s.modTun f).boot = s.boot := rfl
@[simp] theorem State.modTun_cfg : (s.modTun f).cfg = s.cfg := rfl
@[simp] theorem State.modTun_tun : (s.modTun f).tun = f s.tun := rfl
@[simp] theorem State.modTun_stew : (s.modTun f).stew = s.stew := rfl
@[simp] theorem State.modTun_req : (s.modTun f).req = s.req := rfl
@[simp] theorem State.modTun_bays : (s.modTun f).bays = s.bays := rfl
@[simp] theorem State.modTun_bars : (s.modTun f).bars = s.bars := rfl
@[simp] theorem State.modTun_mem : (s.modTun f).mem = s.mem := rfl
@[simp] theorem State.modTun_quota : (s.modTun f).quota = s.quota := rfl
@[simp] theorem State.modTun_str : (s.modTun f).str = s.str := rfl
@[simp] theorem State.modTun_kv : (s.modTun f).kv = s.kv := rfl
@[simp] theorem State.modTun_truss : (s.modTun f).truss = s.truss := rfl
@[simp] theorem State.modTun_net : (s.modTun f).net = s.net := rfl
@[simp] theorem State.modTun_host : (s.modTun f).host = s.host := rfl
@[simp] theorem State.modTun_aud : (s.modTun f).aud = s.aud := rfl
@[simp] theorem State.modTun_sent : (s.modTun f).sent = s.sent := rfl
@[simp] theorem State.modTun_cnt : (s.modTun f).cnt = s.cnt := rfl
@[simp] theorem State.modTun_err : (s.modTun f).err = s.err := rfl
@[simp] theorem State.modTun_plumb : (s.modTun f).plumb = s.plumb := rfl
@[simp] theorem State.modTun_cxl : (s.modTun f).cxl = s.cxl := rfl
@[simp] theorem State.modTun_hub : (s.modTun f).hub = s.hub := rfl
@[simp] theorem State.modTun_pending : (s.modTun f).pending = s.pending := rfl
@[simp] theorem State.modTun_freeCtr : (s.modTun f).freeCtr = s.freeCtr := rfl
end

/-! ## modStew -/

section
variable (s : State) (f : Stew → Stew)
@[simp] theorem State.modStew_clk : (s.modStew f).clk = s.clk := rfl
@[simp] theorem State.modStew_pins : (s.modStew f).pins = s.pins := rfl
@[simp] theorem State.modStew_boot : (s.modStew f).boot = s.boot := rfl
@[simp] theorem State.modStew_cfg : (s.modStew f).cfg = s.cfg := rfl
@[simp] theorem State.modStew_tun : (s.modStew f).tun = s.tun := rfl
@[simp] theorem State.modStew_stew : (s.modStew f).stew = f s.stew := rfl
@[simp] theorem State.modStew_req : (s.modStew f).req = s.req := rfl
@[simp] theorem State.modStew_bays : (s.modStew f).bays = s.bays := rfl
@[simp] theorem State.modStew_bars : (s.modStew f).bars = s.bars := rfl
@[simp] theorem State.modStew_mem : (s.modStew f).mem = s.mem := rfl
@[simp] theorem State.modStew_quota : (s.modStew f).quota = s.quota := rfl
@[simp] theorem State.modStew_str : (s.modStew f).str = s.str := rfl
@[simp] theorem State.modStew_kv : (s.modStew f).kv = s.kv := rfl
@[simp] theorem State.modStew_truss : (s.modStew f).truss = s.truss := rfl
@[simp] theorem State.modStew_net : (s.modStew f).net = s.net := rfl
@[simp] theorem State.modStew_host : (s.modStew f).host = s.host := rfl
@[simp] theorem State.modStew_aud : (s.modStew f).aud = s.aud := rfl
@[simp] theorem State.modStew_sent : (s.modStew f).sent = s.sent := rfl
@[simp] theorem State.modStew_cnt : (s.modStew f).cnt = s.cnt := rfl
@[simp] theorem State.modStew_err : (s.modStew f).err = s.err := rfl
@[simp] theorem State.modStew_plumb : (s.modStew f).plumb = s.plumb := rfl
@[simp] theorem State.modStew_cxl : (s.modStew f).cxl = s.cxl := rfl
@[simp] theorem State.modStew_hub : (s.modStew f).hub = s.hub := rfl
@[simp] theorem State.modStew_pending : (s.modStew f).pending = s.pending := rfl
@[simp] theorem State.modStew_freeCtr : (s.modStew f).freeCtr = s.freeCtr := rfl
end

/-! ## modReqs -/

section
variable (s : State) (f : Reqs → Reqs)
@[simp] theorem State.modReqs_clk : (s.modReqs f).clk = s.clk := rfl
@[simp] theorem State.modReqs_pins : (s.modReqs f).pins = s.pins := rfl
@[simp] theorem State.modReqs_boot : (s.modReqs f).boot = s.boot := rfl
@[simp] theorem State.modReqs_cfg : (s.modReqs f).cfg = s.cfg := rfl
@[simp] theorem State.modReqs_tun : (s.modReqs f).tun = s.tun := rfl
@[simp] theorem State.modReqs_stew : (s.modReqs f).stew = s.stew := rfl
@[simp] theorem State.modReqs_req : (s.modReqs f).req = f s.req := rfl
@[simp] theorem State.modReqs_bays : (s.modReqs f).bays = s.bays := rfl
@[simp] theorem State.modReqs_bars : (s.modReqs f).bars = s.bars := rfl
@[simp] theorem State.modReqs_mem : (s.modReqs f).mem = s.mem := rfl
@[simp] theorem State.modReqs_quota : (s.modReqs f).quota = s.quota := rfl
@[simp] theorem State.modReqs_str : (s.modReqs f).str = s.str := rfl
@[simp] theorem State.modReqs_kv : (s.modReqs f).kv = s.kv := rfl
@[simp] theorem State.modReqs_truss : (s.modReqs f).truss = s.truss := rfl
@[simp] theorem State.modReqs_net : (s.modReqs f).net = s.net := rfl
@[simp] theorem State.modReqs_host : (s.modReqs f).host = s.host := rfl
@[simp] theorem State.modReqs_aud : (s.modReqs f).aud = s.aud := rfl
@[simp] theorem State.modReqs_sent : (s.modReqs f).sent = s.sent := rfl
@[simp] theorem State.modReqs_cnt : (s.modReqs f).cnt = s.cnt := rfl
@[simp] theorem State.modReqs_err : (s.modReqs f).err = s.err := rfl
@[simp] theorem State.modReqs_plumb : (s.modReqs f).plumb = s.plumb := rfl
@[simp] theorem State.modReqs_cxl : (s.modReqs f).cxl = s.cxl := rfl
@[simp] theorem State.modReqs_hub : (s.modReqs f).hub = s.hub := rfl
@[simp] theorem State.modReqs_pending : (s.modReqs f).pending = s.pending := rfl
@[simp] theorem State.modReqs_freeCtr : (s.modReqs f).freeCtr = s.freeCtr := rfl
end

/-! ## modMem -/

section
variable (s : State) (f : Mem → Mem)
@[simp] theorem State.modMem_clk : (s.modMem f).clk = s.clk := rfl
@[simp] theorem State.modMem_pins : (s.modMem f).pins = s.pins := rfl
@[simp] theorem State.modMem_boot : (s.modMem f).boot = s.boot := rfl
@[simp] theorem State.modMem_cfg : (s.modMem f).cfg = s.cfg := rfl
@[simp] theorem State.modMem_tun : (s.modMem f).tun = s.tun := rfl
@[simp] theorem State.modMem_stew : (s.modMem f).stew = s.stew := rfl
@[simp] theorem State.modMem_req : (s.modMem f).req = s.req := rfl
@[simp] theorem State.modMem_bays : (s.modMem f).bays = s.bays := rfl
@[simp] theorem State.modMem_bars : (s.modMem f).bars = s.bars := rfl
@[simp] theorem State.modMem_mem : (s.modMem f).mem = f s.mem := rfl
@[simp] theorem State.modMem_quota : (s.modMem f).quota = s.quota := rfl
@[simp] theorem State.modMem_str : (s.modMem f).str = s.str := rfl
@[simp] theorem State.modMem_kv : (s.modMem f).kv = s.kv := rfl
@[simp] theorem State.modMem_truss : (s.modMem f).truss = s.truss := rfl
@[simp] theorem State.modMem_net : (s.modMem f).net = s.net := rfl
@[simp] theorem State.modMem_host : (s.modMem f).host = s.host := rfl
@[simp] theorem State.modMem_aud : (s.modMem f).aud = s.aud := rfl
@[simp] theorem State.modMem_sent : (s.modMem f).sent = s.sent := rfl
@[simp] theorem State.modMem_cnt : (s.modMem f).cnt = s.cnt := rfl
@[simp] theorem State.modMem_err : (s.modMem f).err = s.err := rfl
@[simp] theorem State.modMem_plumb : (s.modMem f).plumb = s.plumb := rfl
@[simp] theorem State.modMem_cxl : (s.modMem f).cxl = s.cxl := rfl
@[simp] theorem State.modMem_hub : (s.modMem f).hub = s.hub := rfl
@[simp] theorem State.modMem_pending : (s.modMem f).pending = s.pending := rfl
@[simp] theorem State.modMem_freeCtr : (s.modMem f).freeCtr = s.freeCtr := rfl
end

/-! ## modQuota -/

section
variable (s : State) (f : Quota → Quota)
@[simp] theorem State.modQuota_clk : (s.modQuota f).clk = s.clk := rfl
@[simp] theorem State.modQuota_pins : (s.modQuota f).pins = s.pins := rfl
@[simp] theorem State.modQuota_boot : (s.modQuota f).boot = s.boot := rfl
@[simp] theorem State.modQuota_cfg : (s.modQuota f).cfg = s.cfg := rfl
@[simp] theorem State.modQuota_tun : (s.modQuota f).tun = s.tun := rfl
@[simp] theorem State.modQuota_stew : (s.modQuota f).stew = s.stew := rfl
@[simp] theorem State.modQuota_req : (s.modQuota f).req = s.req := rfl
@[simp] theorem State.modQuota_bays : (s.modQuota f).bays = s.bays := rfl
@[simp] theorem State.modQuota_bars : (s.modQuota f).bars = s.bars := rfl
@[simp] theorem State.modQuota_mem : (s.modQuota f).mem = s.mem := rfl
@[simp] theorem State.modQuota_quota : (s.modQuota f).quota = f s.quota := rfl
@[simp] theorem State.modQuota_str : (s.modQuota f).str = s.str := rfl
@[simp] theorem State.modQuota_kv : (s.modQuota f).kv = s.kv := rfl
@[simp] theorem State.modQuota_truss : (s.modQuota f).truss = s.truss := rfl
@[simp] theorem State.modQuota_net : (s.modQuota f).net = s.net := rfl
@[simp] theorem State.modQuota_host : (s.modQuota f).host = s.host := rfl
@[simp] theorem State.modQuota_aud : (s.modQuota f).aud = s.aud := rfl
@[simp] theorem State.modQuota_sent : (s.modQuota f).sent = s.sent := rfl
@[simp] theorem State.modQuota_cnt : (s.modQuota f).cnt = s.cnt := rfl
@[simp] theorem State.modQuota_err : (s.modQuota f).err = s.err := rfl
@[simp] theorem State.modQuota_plumb : (s.modQuota f).plumb = s.plumb := rfl
@[simp] theorem State.modQuota_cxl : (s.modQuota f).cxl = s.cxl := rfl
@[simp] theorem State.modQuota_hub : (s.modQuota f).hub = s.hub := rfl
@[simp] theorem State.modQuota_pending : (s.modQuota f).pending = s.pending := rfl
@[simp] theorem State.modQuota_freeCtr : (s.modQuota f).freeCtr = s.freeCtr := rfl
end

/-! ## modStr -/

section
variable (s : State) (f : Streams → Streams)
@[simp] theorem State.modStr_clk : (s.modStr f).clk = s.clk := rfl
@[simp] theorem State.modStr_pins : (s.modStr f).pins = s.pins := rfl
@[simp] theorem State.modStr_boot : (s.modStr f).boot = s.boot := rfl
@[simp] theorem State.modStr_cfg : (s.modStr f).cfg = s.cfg := rfl
@[simp] theorem State.modStr_tun : (s.modStr f).tun = s.tun := rfl
@[simp] theorem State.modStr_stew : (s.modStr f).stew = s.stew := rfl
@[simp] theorem State.modStr_req : (s.modStr f).req = s.req := rfl
@[simp] theorem State.modStr_bays : (s.modStr f).bays = s.bays := rfl
@[simp] theorem State.modStr_bars : (s.modStr f).bars = s.bars := rfl
@[simp] theorem State.modStr_mem : (s.modStr f).mem = s.mem := rfl
@[simp] theorem State.modStr_quota : (s.modStr f).quota = s.quota := rfl
@[simp] theorem State.modStr_str : (s.modStr f).str = f s.str := rfl
@[simp] theorem State.modStr_kv : (s.modStr f).kv = s.kv := rfl
@[simp] theorem State.modStr_truss : (s.modStr f).truss = s.truss := rfl
@[simp] theorem State.modStr_net : (s.modStr f).net = s.net := rfl
@[simp] theorem State.modStr_host : (s.modStr f).host = s.host := rfl
@[simp] theorem State.modStr_aud : (s.modStr f).aud = s.aud := rfl
@[simp] theorem State.modStr_sent : (s.modStr f).sent = s.sent := rfl
@[simp] theorem State.modStr_cnt : (s.modStr f).cnt = s.cnt := rfl
@[simp] theorem State.modStr_err : (s.modStr f).err = s.err := rfl
@[simp] theorem State.modStr_plumb : (s.modStr f).plumb = s.plumb := rfl
@[simp] theorem State.modStr_cxl : (s.modStr f).cxl = s.cxl := rfl
@[simp] theorem State.modStr_hub : (s.modStr f).hub = s.hub := rfl
@[simp] theorem State.modStr_pending : (s.modStr f).pending = s.pending := rfl
@[simp] theorem State.modStr_freeCtr : (s.modStr f).freeCtr = s.freeCtr := rfl
end

/-! ## modKv -/

section
variable (s : State) (f : Kv → Kv)
@[simp] theorem State.modKv_clk : (s.modKv f).clk = s.clk := rfl
@[simp] theorem State.modKv_pins : (s.modKv f).pins = s.pins := rfl
@[simp] theorem State.modKv_boot : (s.modKv f).boot = s.boot := rfl
@[simp] theorem State.modKv_cfg : (s.modKv f).cfg = s.cfg := rfl
@[simp] theorem State.modKv_tun : (s.modKv f).tun = s.tun := rfl
@[simp] theorem State.modKv_stew : (s.modKv f).stew = s.stew := rfl
@[simp] theorem State.modKv_req : (s.modKv f).req = s.req := rfl
@[simp] theorem State.modKv_bays : (s.modKv f).bays = s.bays := rfl
@[simp] theorem State.modKv_bars : (s.modKv f).bars = s.bars := rfl
@[simp] theorem State.modKv_mem : (s.modKv f).mem = s.mem := rfl
@[simp] theorem State.modKv_quota : (s.modKv f).quota = s.quota := rfl
@[simp] theorem State.modKv_str : (s.modKv f).str = s.str := rfl
@[simp] theorem State.modKv_kv : (s.modKv f).kv = f s.kv := rfl
@[simp] theorem State.modKv_truss : (s.modKv f).truss = s.truss := rfl
@[simp] theorem State.modKv_net : (s.modKv f).net = s.net := rfl
@[simp] theorem State.modKv_host : (s.modKv f).host = s.host := rfl
@[simp] theorem State.modKv_aud : (s.modKv f).aud = s.aud := rfl
@[simp] theorem State.modKv_sent : (s.modKv f).sent = s.sent := rfl
@[simp] theorem State.modKv_cnt : (s.modKv f).cnt = s.cnt := rfl
@[simp] theorem State.modKv_err : (s.modKv f).err = s.err := rfl
@[simp] theorem State.modKv_plumb : (s.modKv f).plumb = s.plumb := rfl
@[simp] theorem State.modKv_cxl : (s.modKv f).cxl = s.cxl := rfl
@[simp] theorem State.modKv_hub : (s.modKv f).hub = s.hub := rfl
@[simp] theorem State.modKv_pending : (s.modKv f).pending = s.pending := rfl
@[simp] theorem State.modKv_freeCtr : (s.modKv f).freeCtr = s.freeCtr := rfl
end

/-! ## modNet -/

section
variable (s : State) (f : Net → Net)
@[simp] theorem State.modNet_clk : (s.modNet f).clk = s.clk := rfl
@[simp] theorem State.modNet_pins : (s.modNet f).pins = s.pins := rfl
@[simp] theorem State.modNet_boot : (s.modNet f).boot = s.boot := rfl
@[simp] theorem State.modNet_cfg : (s.modNet f).cfg = s.cfg := rfl
@[simp] theorem State.modNet_tun : (s.modNet f).tun = s.tun := rfl
@[simp] theorem State.modNet_stew : (s.modNet f).stew = s.stew := rfl
@[simp] theorem State.modNet_req : (s.modNet f).req = s.req := rfl
@[simp] theorem State.modNet_bays : (s.modNet f).bays = s.bays := rfl
@[simp] theorem State.modNet_bars : (s.modNet f).bars = s.bars := rfl
@[simp] theorem State.modNet_mem : (s.modNet f).mem = s.mem := rfl
@[simp] theorem State.modNet_quota : (s.modNet f).quota = s.quota := rfl
@[simp] theorem State.modNet_str : (s.modNet f).str = s.str := rfl
@[simp] theorem State.modNet_kv : (s.modNet f).kv = s.kv := rfl
@[simp] theorem State.modNet_truss : (s.modNet f).truss = s.truss := rfl
@[simp] theorem State.modNet_net : (s.modNet f).net = f s.net := rfl
@[simp] theorem State.modNet_host : (s.modNet f).host = s.host := rfl
@[simp] theorem State.modNet_aud : (s.modNet f).aud = s.aud := rfl
@[simp] theorem State.modNet_sent : (s.modNet f).sent = s.sent := rfl
@[simp] theorem State.modNet_cnt : (s.modNet f).cnt = s.cnt := rfl
@[simp] theorem State.modNet_err : (s.modNet f).err = s.err := rfl
@[simp] theorem State.modNet_plumb : (s.modNet f).plumb = s.plumb := rfl
@[simp] theorem State.modNet_cxl : (s.modNet f).cxl = s.cxl := rfl
@[simp] theorem State.modNet_hub : (s.modNet f).hub = s.hub := rfl
@[simp] theorem State.modNet_pending : (s.modNet f).pending = s.pending := rfl
@[simp] theorem State.modNet_freeCtr : (s.modNet f).freeCtr = s.freeCtr := rfl
end

/-! ## modAud -/

section
variable (s : State) (f : Audit → Audit)
@[simp] theorem State.modAud_clk : (s.modAud f).clk = s.clk := rfl
@[simp] theorem State.modAud_pins : (s.modAud f).pins = s.pins := rfl
@[simp] theorem State.modAud_boot : (s.modAud f).boot = s.boot := rfl
@[simp] theorem State.modAud_cfg : (s.modAud f).cfg = s.cfg := rfl
@[simp] theorem State.modAud_tun : (s.modAud f).tun = s.tun := rfl
@[simp] theorem State.modAud_stew : (s.modAud f).stew = s.stew := rfl
@[simp] theorem State.modAud_req : (s.modAud f).req = s.req := rfl
@[simp] theorem State.modAud_bays : (s.modAud f).bays = s.bays := rfl
@[simp] theorem State.modAud_bars : (s.modAud f).bars = s.bars := rfl
@[simp] theorem State.modAud_mem : (s.modAud f).mem = s.mem := rfl
@[simp] theorem State.modAud_quota : (s.modAud f).quota = s.quota := rfl
@[simp] theorem State.modAud_str : (s.modAud f).str = s.str := rfl
@[simp] theorem State.modAud_kv : (s.modAud f).kv = s.kv := rfl
@[simp] theorem State.modAud_truss : (s.modAud f).truss = s.truss := rfl
@[simp] theorem State.modAud_net : (s.modAud f).net = s.net := rfl
@[simp] theorem State.modAud_host : (s.modAud f).host = s.host := rfl
@[simp] theorem State.modAud_aud : (s.modAud f).aud = f s.aud := rfl
@[simp] theorem State.modAud_sent : (s.modAud f).sent = s.sent := rfl
@[simp] theorem State.modAud_cnt : (s.modAud f).cnt = s.cnt := rfl
@[simp] theorem State.modAud_err : (s.modAud f).err = s.err := rfl
@[simp] theorem State.modAud_plumb : (s.modAud f).plumb = s.plumb := rfl
@[simp] theorem State.modAud_cxl : (s.modAud f).cxl = s.cxl := rfl
@[simp] theorem State.modAud_hub : (s.modAud f).hub = s.hub := rfl
@[simp] theorem State.modAud_pending : (s.modAud f).pending = s.pending := rfl
@[simp] theorem State.modAud_freeCtr : (s.modAud f).freeCtr = s.freeCtr := rfl
end

/-! ## modSent -/

section
variable (s : State) (f : Sent → Sent)
@[simp] theorem State.modSent_clk : (s.modSent f).clk = s.clk := rfl
@[simp] theorem State.modSent_pins : (s.modSent f).pins = s.pins := rfl
@[simp] theorem State.modSent_boot : (s.modSent f).boot = s.boot := rfl
@[simp] theorem State.modSent_cfg : (s.modSent f).cfg = s.cfg := rfl
@[simp] theorem State.modSent_tun : (s.modSent f).tun = s.tun := rfl
@[simp] theorem State.modSent_stew : (s.modSent f).stew = s.stew := rfl
@[simp] theorem State.modSent_req : (s.modSent f).req = s.req := rfl
@[simp] theorem State.modSent_bays : (s.modSent f).bays = s.bays := rfl
@[simp] theorem State.modSent_bars : (s.modSent f).bars = s.bars := rfl
@[simp] theorem State.modSent_mem : (s.modSent f).mem = s.mem := rfl
@[simp] theorem State.modSent_quota : (s.modSent f).quota = s.quota := rfl
@[simp] theorem State.modSent_str : (s.modSent f).str = s.str := rfl
@[simp] theorem State.modSent_kv : (s.modSent f).kv = s.kv := rfl
@[simp] theorem State.modSent_truss : (s.modSent f).truss = s.truss := rfl
@[simp] theorem State.modSent_net : (s.modSent f).net = s.net := rfl
@[simp] theorem State.modSent_host : (s.modSent f).host = s.host := rfl
@[simp] theorem State.modSent_aud : (s.modSent f).aud = s.aud := rfl
@[simp] theorem State.modSent_sent : (s.modSent f).sent = f s.sent := rfl
@[simp] theorem State.modSent_cnt : (s.modSent f).cnt = s.cnt := rfl
@[simp] theorem State.modSent_err : (s.modSent f).err = s.err := rfl
@[simp] theorem State.modSent_plumb : (s.modSent f).plumb = s.plumb := rfl
@[simp] theorem State.modSent_cxl : (s.modSent f).cxl = s.cxl := rfl
@[simp] theorem State.modSent_hub : (s.modSent f).hub = s.hub := rfl
@[simp] theorem State.modSent_pending : (s.modSent f).pending = s.pending := rfl
@[simp] theorem State.modSent_freeCtr : (s.modSent f).freeCtr = s.freeCtr := rfl
end

/-! ## modCnt -/

section
variable (s : State) (f : Cnt → Cnt)
@[simp] theorem State.modCnt_clk : (s.modCnt f).clk = s.clk := rfl
@[simp] theorem State.modCnt_pins : (s.modCnt f).pins = s.pins := rfl
@[simp] theorem State.modCnt_boot : (s.modCnt f).boot = s.boot := rfl
@[simp] theorem State.modCnt_cfg : (s.modCnt f).cfg = s.cfg := rfl
@[simp] theorem State.modCnt_tun : (s.modCnt f).tun = s.tun := rfl
@[simp] theorem State.modCnt_stew : (s.modCnt f).stew = s.stew := rfl
@[simp] theorem State.modCnt_req : (s.modCnt f).req = s.req := rfl
@[simp] theorem State.modCnt_bays : (s.modCnt f).bays = s.bays := rfl
@[simp] theorem State.modCnt_bars : (s.modCnt f).bars = s.bars := rfl
@[simp] theorem State.modCnt_mem : (s.modCnt f).mem = s.mem := rfl
@[simp] theorem State.modCnt_quota : (s.modCnt f).quota = s.quota := rfl
@[simp] theorem State.modCnt_str : (s.modCnt f).str = s.str := rfl
@[simp] theorem State.modCnt_kv : (s.modCnt f).kv = s.kv := rfl
@[simp] theorem State.modCnt_truss : (s.modCnt f).truss = s.truss := rfl
@[simp] theorem State.modCnt_net : (s.modCnt f).net = s.net := rfl
@[simp] theorem State.modCnt_host : (s.modCnt f).host = s.host := rfl
@[simp] theorem State.modCnt_aud : (s.modCnt f).aud = s.aud := rfl
@[simp] theorem State.modCnt_sent : (s.modCnt f).sent = s.sent := rfl
@[simp] theorem State.modCnt_cnt : (s.modCnt f).cnt = f s.cnt := rfl
@[simp] theorem State.modCnt_err : (s.modCnt f).err = s.err := rfl
@[simp] theorem State.modCnt_plumb : (s.modCnt f).plumb = s.plumb := rfl
@[simp] theorem State.modCnt_cxl : (s.modCnt f).cxl = s.cxl := rfl
@[simp] theorem State.modCnt_hub : (s.modCnt f).hub = s.hub := rfl
@[simp] theorem State.modCnt_pending : (s.modCnt f).pending = s.pending := rfl
@[simp] theorem State.modCnt_freeCtr : (s.modCnt f).freeCtr = s.freeCtr := rfl
end

/-! ## modErr -/

section
variable (s : State) (f : ErrLog → ErrLog)
@[simp] theorem State.modErr_clk : (s.modErr f).clk = s.clk := rfl
@[simp] theorem State.modErr_pins : (s.modErr f).pins = s.pins := rfl
@[simp] theorem State.modErr_boot : (s.modErr f).boot = s.boot := rfl
@[simp] theorem State.modErr_cfg : (s.modErr f).cfg = s.cfg := rfl
@[simp] theorem State.modErr_tun : (s.modErr f).tun = s.tun := rfl
@[simp] theorem State.modErr_stew : (s.modErr f).stew = s.stew := rfl
@[simp] theorem State.modErr_req : (s.modErr f).req = s.req := rfl
@[simp] theorem State.modErr_bays : (s.modErr f).bays = s.bays := rfl
@[simp] theorem State.modErr_bars : (s.modErr f).bars = s.bars := rfl
@[simp] theorem State.modErr_mem : (s.modErr f).mem = s.mem := rfl
@[simp] theorem State.modErr_quota : (s.modErr f).quota = s.quota := rfl
@[simp] theorem State.modErr_str : (s.modErr f).str = s.str := rfl
@[simp] theorem State.modErr_kv : (s.modErr f).kv = s.kv := rfl
@[simp] theorem State.modErr_truss : (s.modErr f).truss = s.truss := rfl
@[simp] theorem State.modErr_net : (s.modErr f).net = s.net := rfl
@[simp] theorem State.modErr_host : (s.modErr f).host = s.host := rfl
@[simp] theorem State.modErr_aud : (s.modErr f).aud = s.aud := rfl
@[simp] theorem State.modErr_sent : (s.modErr f).sent = s.sent := rfl
@[simp] theorem State.modErr_cnt : (s.modErr f).cnt = s.cnt := rfl
@[simp] theorem State.modErr_err : (s.modErr f).err = f s.err := rfl
@[simp] theorem State.modErr_plumb : (s.modErr f).plumb = s.plumb := rfl
@[simp] theorem State.modErr_cxl : (s.modErr f).cxl = s.cxl := rfl
@[simp] theorem State.modErr_hub : (s.modErr f).hub = s.hub := rfl
@[simp] theorem State.modErr_pending : (s.modErr f).pending = s.pending := rfl
@[simp] theorem State.modErr_freeCtr : (s.modErr f).freeCtr = s.freeCtr := rfl
end

/-! ## modPlumb -/

section
variable (s : State) (f : Plumb → Plumb)
@[simp] theorem State.modPlumb_clk : (s.modPlumb f).clk = s.clk := rfl
@[simp] theorem State.modPlumb_pins : (s.modPlumb f).pins = s.pins := rfl
@[simp] theorem State.modPlumb_boot : (s.modPlumb f).boot = s.boot := rfl
@[simp] theorem State.modPlumb_cfg : (s.modPlumb f).cfg = s.cfg := rfl
@[simp] theorem State.modPlumb_tun : (s.modPlumb f).tun = s.tun := rfl
@[simp] theorem State.modPlumb_stew : (s.modPlumb f).stew = s.stew := rfl
@[simp] theorem State.modPlumb_req : (s.modPlumb f).req = s.req := rfl
@[simp] theorem State.modPlumb_bays : (s.modPlumb f).bays = s.bays := rfl
@[simp] theorem State.modPlumb_bars : (s.modPlumb f).bars = s.bars := rfl
@[simp] theorem State.modPlumb_mem : (s.modPlumb f).mem = s.mem := rfl
@[simp] theorem State.modPlumb_quota : (s.modPlumb f).quota = s.quota := rfl
@[simp] theorem State.modPlumb_str : (s.modPlumb f).str = s.str := rfl
@[simp] theorem State.modPlumb_kv : (s.modPlumb f).kv = s.kv := rfl
@[simp] theorem State.modPlumb_truss : (s.modPlumb f).truss = s.truss := rfl
@[simp] theorem State.modPlumb_net : (s.modPlumb f).net = s.net := rfl
@[simp] theorem State.modPlumb_host : (s.modPlumb f).host = s.host := rfl
@[simp] theorem State.modPlumb_aud : (s.modPlumb f).aud = s.aud := rfl
@[simp] theorem State.modPlumb_sent : (s.modPlumb f).sent = s.sent := rfl
@[simp] theorem State.modPlumb_cnt : (s.modPlumb f).cnt = s.cnt := rfl
@[simp] theorem State.modPlumb_err : (s.modPlumb f).err = s.err := rfl
@[simp] theorem State.modPlumb_plumb : (s.modPlumb f).plumb = f s.plumb := rfl
@[simp] theorem State.modPlumb_cxl : (s.modPlumb f).cxl = s.cxl := rfl
@[simp] theorem State.modPlumb_hub : (s.modPlumb f).hub = s.hub := rfl
@[simp] theorem State.modPlumb_pending : (s.modPlumb f).pending = s.pending := rfl
@[simp] theorem State.modPlumb_freeCtr : (s.modPlumb f).freeCtr = s.freeCtr := rfl
end

/-! ## modCxl -/

section
variable (s : State) (f : Cxl → Cxl)
@[simp] theorem State.modCxl_clk : (s.modCxl f).clk = s.clk := rfl
@[simp] theorem State.modCxl_pins : (s.modCxl f).pins = s.pins := rfl
@[simp] theorem State.modCxl_boot : (s.modCxl f).boot = s.boot := rfl
@[simp] theorem State.modCxl_cfg : (s.modCxl f).cfg = s.cfg := rfl
@[simp] theorem State.modCxl_tun : (s.modCxl f).tun = s.tun := rfl
@[simp] theorem State.modCxl_stew : (s.modCxl f).stew = s.stew := rfl
@[simp] theorem State.modCxl_req : (s.modCxl f).req = s.req := rfl
@[simp] theorem State.modCxl_bays : (s.modCxl f).bays = s.bays := rfl
@[simp] theorem State.modCxl_bars : (s.modCxl f).bars = s.bars := rfl
@[simp] theorem State.modCxl_mem : (s.modCxl f).mem = s.mem := rfl
@[simp] theorem State.modCxl_quota : (s.modCxl f).quota = s.quota := rfl
@[simp] theorem State.modCxl_str : (s.modCxl f).str = s.str := rfl
@[simp] theorem State.modCxl_kv : (s.modCxl f).kv = s.kv := rfl
@[simp] theorem State.modCxl_truss : (s.modCxl f).truss = s.truss := rfl
@[simp] theorem State.modCxl_net : (s.modCxl f).net = s.net := rfl
@[simp] theorem State.modCxl_host : (s.modCxl f).host = s.host := rfl
@[simp] theorem State.modCxl_aud : (s.modCxl f).aud = s.aud := rfl
@[simp] theorem State.modCxl_sent : (s.modCxl f).sent = s.sent := rfl
@[simp] theorem State.modCxl_cnt : (s.modCxl f).cnt = s.cnt := rfl
@[simp] theorem State.modCxl_err : (s.modCxl f).err = s.err := rfl
@[simp] theorem State.modCxl_plumb : (s.modCxl f).plumb = s.plumb := rfl
@[simp] theorem State.modCxl_cxl : (s.modCxl f).cxl = f s.cxl := rfl
@[simp] theorem State.modCxl_hub : (s.modCxl f).hub = s.hub := rfl
@[simp] theorem State.modCxl_pending : (s.modCxl f).pending = s.pending := rfl
@[simp] theorem State.modCxl_freeCtr : (s.modCxl f).freeCtr = s.freeCtr := rfl
end

/-! ## modHub -/

section
variable (s : State) (f : Hub → Hub)
@[simp] theorem State.modHub_clk : (s.modHub f).clk = s.clk := rfl
@[simp] theorem State.modHub_pins : (s.modHub f).pins = s.pins := rfl
@[simp] theorem State.modHub_boot : (s.modHub f).boot = s.boot := rfl
@[simp] theorem State.modHub_cfg : (s.modHub f).cfg = s.cfg := rfl
@[simp] theorem State.modHub_tun : (s.modHub f).tun = s.tun := rfl
@[simp] theorem State.modHub_stew : (s.modHub f).stew = s.stew := rfl
@[simp] theorem State.modHub_req : (s.modHub f).req = s.req := rfl
@[simp] theorem State.modHub_bays : (s.modHub f).bays = s.bays := rfl
@[simp] theorem State.modHub_bars : (s.modHub f).bars = s.bars := rfl
@[simp] theorem State.modHub_mem : (s.modHub f).mem = s.mem := rfl
@[simp] theorem State.modHub_quota : (s.modHub f).quota = s.quota := rfl
@[simp] theorem State.modHub_str : (s.modHub f).str = s.str := rfl
@[simp] theorem State.modHub_kv : (s.modHub f).kv = s.kv := rfl
@[simp] theorem State.modHub_truss : (s.modHub f).truss = s.truss := rfl
@[simp] theorem State.modHub_net : (s.modHub f).net = s.net := rfl
@[simp] theorem State.modHub_host : (s.modHub f).host = s.host := rfl
@[simp] theorem State.modHub_aud : (s.modHub f).aud = s.aud := rfl
@[simp] theorem State.modHub_sent : (s.modHub f).sent = s.sent := rfl
@[simp] theorem State.modHub_cnt : (s.modHub f).cnt = s.cnt := rfl
@[simp] theorem State.modHub_err : (s.modHub f).err = s.err := rfl
@[simp] theorem State.modHub_plumb : (s.modHub f).plumb = s.plumb := rfl
@[simp] theorem State.modHub_cxl : (s.modHub f).cxl = s.cxl := rfl
@[simp] theorem State.modHub_hub : (s.modHub f).hub = f s.hub := rfl
@[simp] theorem State.modHub_pending : (s.modHub f).pending = s.pending := rfl
@[simp] theorem State.modHub_freeCtr : (s.modHub f).freeCtr = s.freeCtr := rfl
end

/-! ## modBars -/

section
variable (s : State) (f : Bars → Bars)
@[simp] theorem State.modBars_clk : (s.modBars f).clk = s.clk := rfl
@[simp] theorem State.modBars_pins : (s.modBars f).pins = s.pins := rfl
@[simp] theorem State.modBars_boot : (s.modBars f).boot = s.boot := rfl
@[simp] theorem State.modBars_cfg : (s.modBars f).cfg = s.cfg := rfl
@[simp] theorem State.modBars_tun : (s.modBars f).tun = s.tun := rfl
@[simp] theorem State.modBars_stew : (s.modBars f).stew = s.stew := rfl
@[simp] theorem State.modBars_req : (s.modBars f).req = s.req := rfl
@[simp] theorem State.modBars_bays : (s.modBars f).bays = s.bays := rfl
@[simp] theorem State.modBars_bars : (s.modBars f).bars = f s.bars := rfl
@[simp] theorem State.modBars_mem : (s.modBars f).mem = s.mem := rfl
@[simp] theorem State.modBars_quota : (s.modBars f).quota = s.quota := rfl
@[simp] theorem State.modBars_str : (s.modBars f).str = s.str := rfl
@[simp] theorem State.modBars_kv : (s.modBars f).kv = s.kv := rfl
@[simp] theorem State.modBars_truss : (s.modBars f).truss = s.truss := rfl
@[simp] theorem State.modBars_net : (s.modBars f).net = s.net := rfl
@[simp] theorem State.modBars_host : (s.modBars f).host = s.host := rfl
@[simp] theorem State.modBars_aud : (s.modBars f).aud = s.aud := rfl
@[simp] theorem State.modBars_sent : (s.modBars f).sent = s.sent := rfl
@[simp] theorem State.modBars_cnt : (s.modBars f).cnt = s.cnt := rfl
@[simp] theorem State.modBars_err : (s.modBars f).err = s.err := rfl
@[simp] theorem State.modBars_plumb : (s.modBars f).plumb = s.plumb := rfl
@[simp] theorem State.modBars_cxl : (s.modBars f).cxl = s.cxl := rfl
@[simp] theorem State.modBars_hub : (s.modBars f).hub = s.hub := rfl
@[simp] theorem State.modBars_pending : (s.modBars f).pending = s.pending := rfl
@[simp] theorem State.modBars_freeCtr : (s.modBars f).freeCtr = s.freeCtr := rfl
end

/-! ## Counting touches only the counters -/

section
variable (s : State) (i k : Nat)
@[simp] theorem State.count_clk : (s.count i k).clk = s.clk := rfl
@[simp] theorem State.count_pins : (s.count i k).pins = s.pins := rfl
@[simp] theorem State.count_boot : (s.count i k).boot = s.boot := rfl
@[simp] theorem State.count_cfg : (s.count i k).cfg = s.cfg := rfl
@[simp] theorem State.count_tun : (s.count i k).tun = s.tun := rfl
@[simp] theorem State.count_stew : (s.count i k).stew = s.stew := rfl
@[simp] theorem State.count_req : (s.count i k).req = s.req := rfl
@[simp] theorem State.count_bays : (s.count i k).bays = s.bays := rfl
@[simp] theorem State.count_bars : (s.count i k).bars = s.bars := rfl
@[simp] theorem State.count_mem : (s.count i k).mem = s.mem := rfl
@[simp] theorem State.count_quota : (s.count i k).quota = s.quota := rfl
@[simp] theorem State.count_str : (s.count i k).str = s.str := rfl
@[simp] theorem State.count_kv : (s.count i k).kv = s.kv := rfl
@[simp] theorem State.count_truss : (s.count i k).truss = s.truss := rfl
@[simp] theorem State.count_net : (s.count i k).net = s.net := rfl
@[simp] theorem State.count_host : (s.count i k).host = s.host := rfl
@[simp] theorem State.count_aud : (s.count i k).aud = s.aud := rfl
@[simp] theorem State.count_sent : (s.count i k).sent = s.sent := rfl
@[simp] theorem State.count_err : (s.count i k).err = s.err := rfl
@[simp] theorem State.count_plumb : (s.count i k).plumb = s.plumb := rfl
@[simp] theorem State.count_cxl : (s.count i k).cxl = s.cxl := rfl
@[simp] theorem State.count_hub : (s.count i k).hub = s.hub := rfl
@[simp] theorem State.count_pending : (s.count i k).pending = s.pending := rfl
@[simp] theorem State.count_freeCtr : (s.count i k).freeCtr = s.freeCtr := rfl
end

theorem State.countBay_eq (s : State) (b : Fin 80) (e k : Nat) : s.countBay b e k = s.count (32 * b.val + e) k := rfl
theorem State.countPort_eq (s : State) (n : Fin 12) (e k : Nat) : s.countPort n e k = s.count (2624 + 32 * n.val + e) k := rfl
theorem State.countDev_eq (s : State) (e k : Nat) : s.countDev e k = s.count (6120 + e) k := rfl
theorem State.countFn_eq (s : State) (f : Fin 16) (e k : Nat) : s.countFn f e k = s.count (3456 + 16 * f.val + e) k := rfl

/-! ## One element of a list of parts -/

theorem getD_modify_same {α : Type} (l : List α) (i : Nat) (f : α → α) (d : α) (h : i < l.length) :
    (l.modify i f).getD i d = f (l.getD i d) := by
  simp [List.getD_eq_getElem?_getD, List.getElem?_eq_getElem h]

theorem getD_modify_other {α : Type} (l : List α) (i j : Nat) (f : α → α) (d : α) (h : i ≠ j) :
    (l.modify i f).getD j d = l.getD j d := by
  simp [List.getD_eq_getElem?_getD, h]

theorem State.bay_modBay_same (s : State) (b : Fin 80) (f : Bay → Bay) (h : s.bays.length = 80) :
    (s.modBay b f).bay b = f (s.bay b) :=
  getD_modify_same _ _ _ _ (by have := b.isLt; omega)

theorem State.bay_modBay_other (s : State) (b c : Fin 80) (f : Bay → Bay) (h : b ≠ c) : (s.modBay b f).bay c = s.bay c :=
  getD_modify_other _ _ _ _ _ (fun e => h (Fin.ext e))

theorem Bay.thr_modThr_same (y : Bay) (t : Fin 128) (f : Thread → Thread) (h : y.threads.length = 128) :
    (y.modThr t f).thr t = f (y.thr t) :=
  getD_modify_same _ _ _ _ (by have := t.isLt; omega)

theorem Bay.thr_modThr_other (y : Bay) (t u : Fin 128) (f : Thread → Thread) (h : t ≠ u) : (y.modThr t f).thr u = y.thr u :=
  getD_modify_other _ _ _ _ _ (fun e => h (Fin.ext e))

theorem State.port_modPort_same (s : State) (n : Fin 12) (f : Port → Port) (h : s.truss.length = 12) :
    (s.modPort n f).port n = f (s.port n) :=
  getD_modify_same _ _ _ _ (by have := n.isLt; omega)

theorem State.port_modPort_other (s : State) (n m : Fin 12) (f : Port → Port) (h : n ≠ m) : (s.modPort n f).port m = s.port m :=
  getD_modify_other _ _ _ _ _ (fun e => h (Fin.ext e))

theorem State.page_modPage_same (s : State) (n : Fin 16) (f : FnPage → FnPage) (h : s.host.pages.length = 16) :
    (s.modPage n f).page n = f (s.page n) :=
  getD_modify_same _ _ _ _ (by have := n.isLt; omega)

theorem State.page_modPage_other (s : State) (n m : Fin 16) (f : FnPage → FnPage) (h : n ≠ m) :
    (s.modPage n f).page m = s.page m :=
  getD_modify_other _ _ _ _ _ (fun e => h (Fin.ext e))

/-! ## Thread registers -/

section
variable (t : Thread) (n : BitVec 5) (x : Word) (q : BitVec 512)
@[simp] theorem Thread.next_g : t.next.g = t.g := rfl
@[simp] theorem Thread.next_v : t.next.v = t.v := rfl
@[simp] theorem Thread.next_p : t.next.p = t.p := rfl
@[simp] theorem Thread.next_pc : t.next.pc = t.pc + 4 := rfl
@[simp] theorem Thread.next_buf : t.next.buf = t.buf := rfl
@[simp] theorem Thread.next_mbox : t.next.mbox = t.mbox := rfl
@[simp] theorem Thread.next_exited : t.next.exited = t.exited := rfl
@[simp] theorem Thread.next_wait : t.next.wait = t.wait := rfl
@[simp] theorem Thread.next_pend : t.next.pend = t.pend := rfl
@[simp] theorem Thread.next_gr : t.next.gr n = t.gr n := rfl
@[simp] theorem Thread.next_vr : t.next.vr n = t.vr n := rfl
@[simp] theorem Thread.setV_pc : (t.setV n q).pc = t.pc := rfl
@[simp] theorem Thread.setV_g : (t.setV n q).g = t.g := rfl
@[simp] theorem Thread.setV_p : (t.setV n q).p = t.p := rfl
@[simp] theorem Thread.setG_pc : (t.setG n x).pc = t.pc := by unfold Thread.setG; split <;> rfl
@[simp] theorem Thread.setG_v : (t.setG n x).v = t.v := by unfold Thread.setG; split <;> rfl
@[simp] theorem Thread.setG_p : (t.setG n x).p = t.p := by unfold Thread.setG; split <;> rfl
@[simp] theorem Thread.gr_zero : t.gr 0 = 0 := rfl
@[simp] theorem Thread.setG_zero : t.setG 0 x = t := rfl
@[simp] theorem Thread.pred_zero : t.pred 0 = true := rfl
end

theorem Thread.gr_setG_same (t : Thread) (n : BitVec 5) (x : Word) (h : t.g.length = 32) :
    (t.setG n x).gr n = if n = 0 then 0 else x := by
  unfold Thread.setG Thread.gr
  split
  · rfl
  · have : n.toNat < t.g.length := by have := n.isLt; omega
    simp [List.getD_eq_getElem?_getD, this]

theorem Thread.gr_setG_other (t : Thread) (n m : BitVec 5) (x : Word) (h : m ≠ n) : (t.setG n x).gr m = t.gr m := by
  have hn : n.toNat ≠ m.toNat := fun e => h (BitVec.eq_of_toNat_eq e.symm)
  unfold Thread.setG Thread.gr
  split
  · rfl
  · split
    · rfl
    · simp [List.getD_eq_getElem?_getD, hn]

theorem Thread.vr_setV_same (t : Thread) (n : BitVec 5) (x : BitVec 512) (h : t.v.length = 32) : (t.setV n x).vr n = x := by
  have : n.toNat < t.v.length := by have := n.isLt; omega
  simp [Thread.setV, Thread.vr, List.getD_eq_getElem?_getD, this]

theorem Thread.vr_setV_other (t : Thread) (n m : BitVec 5) (x : BitVec 512) (h : m ≠ n) : (t.setV n x).vr m = t.vr m := by
  have hn : n.toNat ≠ m.toNat := fun e => h (BitVec.eq_of_toNat_eq e.symm)
  simp [Thread.setV, Thread.vr, List.getD_eq_getElem?_getD, hn]

end Sys2Proof.Machine
end

