-- ==== Sys2Proof/Laws/Thread.lean ====
section
/-! SUPPORT. What issuing one thread instruction does: the one lemma that the statements about register instructions rest on. -/
namespace Sys2Proof.Machine
open Sys2Proof

theorem Safety.shaped_bay {s : State} (h : Safety.shaped s) (b : Fin 80) :
    (s.bay b).threads.length = 128 ∧ (s.bay b).movers.length = 2 ∧ (s.bay b).barriers.length = 16 ∧
      ∀ t ∈ (s.bay b).threads, t.g.length = 32 ∧ t.v.length = 32 ∧ t.buf.length ≤ 8 ∧ t.mbox.length ≤ 4 ∧
        ∀ l ∈ t.buf, l.bytes.length = 64 := by
  have hb : b.val < s.bays.length := by have := h.1; have := b.isLt; omega
  have e : s.bay b = s.bays[b.val] := by simp [State.bay, List.getD_eq_getElem?_getD, List.getElem?_eq_getElem hb]
  rw [e]; exact h.2.2.2.2.1 _ (List.getElem_mem hb)

theorem Safety.shaped_thr {s : State} (h : Safety.shaped s) (b : Fin 80) (t : Fin 128) :
    (s.thr b t).g.length = 32 ∧ (s.thr b t).v.length = 32 := by
  have hb := Safety.shaped_bay h b
  have ht : t.val < (s.bay b).threads.length := by have := hb.1; have := t.isLt; omega
  have e : s.thr b t = (s.bay b).threads[t.val] := by
    simp [State.thr, Bay.thr, List.getD_eq_getElem?_getD, List.getElem?_eq_getElem ht]
  have := hb.2.2.2 _ (List.getElem_mem ht)
  rw [e]; exact ⟨this.1, this.2.1⟩

theorem State.thr_modThr_same (s : State) (b : Fin 80) (t : Fin 128) (f : Thread → Thread) (h : s.bays.length = 80)
    (ht : (s.bay b).threads.length = 128) : (s.modThr b t f).thr b t = f (s.thr b t) := by
  unfold State.thr State.modThr
  rw [State.bay_modBay_same _ _ _ h, Bay.thr_modThr_same _ _ _ ht]

theorem State.thr_modThr_other (s : State) (b : Fin 80) (t u : Fin 128) (f : Thread → Thread) (h : s.bays.length = 80)
    (htu : t ≠ u) : (s.modThr b t f).thr b u = s.thr b u := by
  unfold State.thr State.modThr
  rw [State.bay_modBay_same _ _ _ h, Bay.thr_modThr_other _ _ _ _ htu]

/-- The thread as the instruction finds it: ready, and no value on its way into the register it writes. -/
def Thread.started (t : Thread) (write : Option RegName) : Thread :=
  { t with wait := .ready, pend := match write with | some r => t.pend.filter (· != r.key) | none => t.pend }

/-- An instruction that issues, is legal and reads no awaited register runs in `startOf`, and then the slot counts as used. -/
theorem State.issue_runs (s : State) (w : Issue) (reads : List RegName) (write : Option RegName) (run : State → Ran)
    (hi : Safety.issues s w) (hl : Safety.loaded s w reads) :
    s.issue w true reads write run =
      match run (s.startOf w write) with
      | .done t => t.issued w
      | .wait t on => t.modThr w.bay w.thread fun t => { t with wait := .retry on } := by
  obtain ⟨h1, h2, h3, h4⟩ := hi
  have hr : (reads.find? fun r => (s.thr w.bay w.thread).pend.contains r.key) = none := by
    rw [List.find?_eq_none]; intro r hr; simpa using hl r hr
  have h3' : (s.modThr w.bay w.thread fun t => { t with wait := .ready }).fetchable (s.thr w.bay w.thread).pc = true := h3
  unfold State.issue State.startOf
  simp only [h1, h2, h4, hr, h3', Bool.not_true, Bool.false_eq_true, if_false, ne_eq, not_true_eq_false] <;>
  cases write <;> rfl

theorem filter_pend (l : List (Bool × Nat)) (k : Bool × Nat) (h : l.contains k = false) : l.filter (· != k) = l := by
  rw [List.filter_eq_self]
  intro x hx
  have : k ∉ l := by simpa using h
  simp only [bne_iff_ne, ne_eq]; rintro rfl; exact this hx

theorem State.startOf_spec (s : State) (w : Issue) (write : Option RegName) (hs : Safety.shaped s) :
    (s.startOf w write).thr w.bay w.thread = (s.thr w.bay w.thread).started write ∧ Frame.outside s (s.startOf w write) w := by
  have hb := hs.1
  have ht := (Safety.shaped_bay hs w.bay).1
  have base : ∀ (n : Net) (f : Thread → Thread), n = { s.net with txns := n.txns, unsent := n.unsent } →
      n.txns.map (fun x => { x with purpose := .other }) = s.net.txns.map (fun x => { x with purpose := .other }) →
      n.unsent.map (fun x => { x with purpose := .other }) = s.net.unsent.map (fun x => { x with purpose := .other }) →
      ((({ s with net := n } : State).modThr w.bay w.thread f).thr w.bay w.thread = f (s.thr w.bay w.thread) ∧
        Frame.outside s (({ s with net := n } : State).modThr w.bay w.thread f) w) := by
    intro n f h1 h2 h3
    refine ⟨State.thr_modThr_same _ _ _ _ hb ht, rfl, ?_, ?_, ?_, rfl, h1, h2, h3⟩
    · intro b hbw; exact State.bay_modBay_other _ _ _ _ (Ne.symm hbw)
    · intro u hu; exact State.thr_modThr_other _ _ _ _ _ hb (Ne.symm hu)
    · have : (({ s with net := n } : State).modThr w.bay w.thread f).bay w.bay = (s.bay w.bay).modThr w.thread f :=
        State.bay_modBay_same ({ s with net := n } : State) w.bay _ hb
      rw [this]; rfl
  have merge : ∀ (n : Net) (f g : Thread → Thread),
      ((({ s with net := n } : State).modThr w.bay w.thread f).modThr w.bay w.thread g) =
        ({ s with net := n } : State).modThr w.bay w.thread (fun t => g (f t)) := by
    intro n f g
    simp only [State.modThr, State.modBay, Bay.modThr, List.modify_modify_eq]
    congr 2
    funext y
    simp only [Function.comp, List.modify_modify_eq]
    rfl
  cases write with
  | none =>
    have := base s.net (fun t => { t with wait := .ready }) rfl rfl rfl
    exact ⟨this.1, this.2⟩
  | some r =>
    have e1 : (s.modThr w.bay w.thread fun t => { t with wait := .ready }).thr w.bay w.thread =
        { s.thr w.bay w.thread with wait := .ready } := State.thr_modThr_same _ _ _ _ hb ht
    unfold State.startOf State.forgetLoads
    simp only [e1]
    split
    · next h =>
      have h : (s.thr w.bay w.thread).pend.contains r.key = false := by simpa using h
      have := base s.net (fun t => { t with wait := .ready }) rfl rfl rfl
      refine ⟨this.1.trans ?_, this.2⟩
      simp only [Thread.started, filter_pend _ _ h]
    · have := base (s.net.unload w r.key) (fun t => { t with wait := .ready, pend := t.pend.filter (· != r.key) }) rfl
        (by simp [Net.unload, List.map_map, Function.comp_def]) (by simp [Net.unload, List.map_map, Function.comp_def])
      have m := merge (s.net.unload w r.key) (fun t => { t with wait := .ready })
        (fun t => { t with pend := t.pend.filter (· != r.key) })
      exact ⟨(congrArg (fun x : State => x.thr w.bay w.thread) m).trans this.1, (congrArg (Frame.outside s · w) m).mpr this.2⟩

theorem Frame.outside_issued (s t : State) (w : Issue) (hb : t.bays.length = 80) (h : Frame.outside s t w) :
    Frame.outside s (t.issued w) w ∧ (t.issued w).thr w.bay w.thread = t.thr w.bay w.thread := by
  obtain ⟨h1, h2, h3, h4, h5, h6, h7, h8⟩ := h
  have e : ∀ b, (t.issued w).bay b = (t.modBay w.bay fun y => { y with rr := y.rr.set (w.thread.val / 8) (w.thread.val % 8) }).bay b :=
    fun b => rfl
  have es := (e w.bay).trans (State.bay_modBay_same _ _ _ hb)
  refine ⟨⟨?_, ?_, ?_, ?_, ?_, h6, h7, h8⟩, ?_⟩
  · rw [h1]; rfl
  · intro b hbw; rw [e, State.bay_modBay_other _ _ _ _ (Ne.symm hbw), h2 b hbw]
  · intro u hu; rw [← h3 u hu]; unfold State.thr; rw [es]; rfl
  · rw [es, h4]
  · have e5 : (t.issued w).cnt = { t.cnt with values := (t.issued w).cnt.values } := rfl
    rw [e5, h5]
  · unfold State.thr; rw [es]; rfl

theorem Frame.outside_modThr (s t : State) (w : Issue) (f : Thread → Thread) (hb : t.bays.length = 80)
    (ht : (t.bay w.bay).threads.length = 128) (h : Frame.outside s t w) :
    Frame.outside s (t.modThr w.bay w.thread f) w ∧
      (t.modThr w.bay w.thread f).thr w.bay w.thread = f (t.thr w.bay w.thread) := by
  obtain ⟨h1, h2, h3, h4, h5, h6, h7, h8⟩ := h
  refine ⟨⟨?_, ?_, ?_, ?_, h5, h6, h7, h8⟩, State.thr_modThr_same _ _ _ _ hb ht⟩
  · rw [h1]; rfl
  · intro b hbw; exact (State.bay_modBay_other _ _ _ _ (Ne.symm hbw)).trans (h2 b hbw)
  · intro u hu; exact (State.thr_modThr_other _ _ _ _ _ hb (Ne.symm hu)).trans (h3 u hu)
  · have : (t.modThr w.bay w.thread f).bay w.bay = (t.bay w.bay).modThr w.thread f := State.bay_modBay_same _ _ _ hb
    rw [this, h4]; rfl

/-- What a legal instruction that only changes its own thread does: the thread is `f` of the thread as it started, and nothing
outside it changes (Frame.outside). -/
theorem State.issueThr_spec (s : State) (w : Issue) (reads : List RegName) (write : Option RegName) (f : Thread → Thread)
    (hs : Safety.shaped s) (hi : Safety.issues s w) (hl : Safety.loaded s w reads) :
    (s.issueThr w true reads write f).thr w.bay w.thread = f ((s.thr w.bay w.thread).started write) ∧
      Frame.outside s (s.issueThr w true reads write f) w := by
  have h0 := State.startOf_spec s w write hs
  have hb : (s.startOf w write).bays.length = 80 := by
    cases write with
    | none => simp [State.startOf, State.modThr, hs.1]
    | some r => unfold State.startOf State.forgetLoads; dsimp only; split <;> simp [State.modThr, hs.1]
  have ht : ((s.startOf w write).bay w.bay).threads.length = 128 := by
    have hlen : ∀ (x : State) (g : Thread → Thread), x.bays.length = 80 → (x.bay w.bay).threads.length = 128 →
        ((x.modThr w.bay w.thread g).bay w.bay).threads.length = 128 := by
      intro x g hx hxt
      have : (x.modThr w.bay w.thread g).bay w.bay = (x.bay w.bay).modThr w.thread g := State.bay_modBay_same _ _ _ hx
      rw [this]; simpa [Bay.modThr] using hxt
    have h1 := hlen s (fun t => { t with wait := .ready }) hs.1 (Safety.shaped_bay hs w.bay).1
    cases write with
    | none => exact h1
    | some r =>
      unfold State.startOf State.forgetLoads; dsimp only; split
      · exact h1
      · exact hlen _ _ (by simp [State.modThr, hs.1]) h1
  unfold State.issueThr
  rw [State.issue_runs s w reads write _ hi hl]
  dsimp only
  have h1 := Frame.outside_modThr s (s.startOf w write) w f hb ht h0.2
  have h2 := Frame.outside_issued s _ w (by simp [State.modThr, hb]) h1.1
  exact ⟨h2.2.trans (h1.2.trans (by rw [h0.1])), h2.1⟩

end Sys2Proof.Machine
end

