-- ==== Sys2Proof/WellFormed.lean ====
section
/-! DEFINITION. Well-formed commands: operands of the sizes and ranges that the rules give. A meaning takes any operand, and an
ill-formed one is cut or filled to size; the checks here say what a sender may send. -/
namespace Sys2Proof

/-- At most four downstream ports (Table 19.3), each at a width a link can have. -/
def cxlOk (ports : List CxlTrain) (devs : List CxlFound) : Bool :=
  decide (ports.length ≤ 4) && ports.all (fun p => [1, 2, 4, 8, 16].contains p.width)
    && devs.all fun d => d.port.val < ports.length

/-- A formation of 1 to 256 stages (R501). -/
def formationOk (m : Formation) : Bool := decide (1 ≤ m.nodes.length) && decide (m.nodes.length ≤ 256)

/-- A check of Table 3.6 during which a read times out. -/
def checkOk (t : Option Nat) : Bool := t.all fun k => decide (1 ≤ k) && decide (k ≤ 11)

/-- Up to 15 VFs; 2,048 vectors on the PF, 8 on a VF (R361, Table 14.3). -/
def configOk (w : ConfigWrite) : Bool :=
  match w with
  | .busMaster _ _ => true
  | .numVfs _ => true
  | .msixMask f v _ => decide (v < if f.val = 0 then 2048 else 8)

/-- The guard fields of a word (R128). -/
def guardOk (w : Issue) (word : BitVec 32) : Bool := word.extractLsb' 23 3 == w.pg && word.extractLsb' 22 1 == w.pn

/-- A codeword on 16, 8 or 4 lanes: 2,720 unit intervals in all (R288, R289). -/
def levelsWf (w : LaneLevels) : Bool := (w.length == 16 || w.length == 8 || w.length == 4) && w.all fun l => l.length == 2720 / w.length

/-- The check. -/
def Instr.wf : Instr → Bool
  | .reqTail _ _ => true
  | .descriptorFetch desc => desc.length == 128
  | .deadlinePassed _ _ => true
  | .dispatchOpportunity => true
  | .bayTaskEnd _ _ _ => true
  | .hubMoverJob => true
  | .hubMoverJobDone _ _ _ => true
  | .streamCommitPhase2 _ => true
  | .auditRecordCommit => true
  | .anchorRetry _ => true
  | .auditRecordDelivery => true
  | .holdQueueDrain => true
  | .streamLeaseGrant _ => true
  | .streamSwapInDone _ _ => true
  | .kvAppend _ _ => true
  | .kvGather _ _ => true
  | .kvRecordCommit _ => true
  | .mmul _ => true
  | .conv _ => true
  | .tileTagComplete _ => true
  | .arrayRampDown _ => true
  | .rampTokenReturn _ => true
  | .linear _ _ => true
  | .tile _ _ => true
  | .pack _ _ => true
  | .unpack _ _ => true
  | .cellStep _ _ => true
  | .moverTagComplete _ _ => true
  | .exit_ x0 x1 x2 x3 => (Instr.exit_ x0 x1 x2 x3).threadLegal
  | .yield_ x0 x1 x2 x3 => (Instr.yield_ x0 x1 x2 x3).threadLegal
  | .trap x0 x1 x2 x3 => (Instr.trap x0 x1 x2 x3).threadLegal
  | .aluAdd x0 x1 x2 x3 => (Instr.aluAdd x0 x1 x2 x3).threadLegal
  | .aluSub x0 x1 x2 x3 => (Instr.aluSub x0 x1 x2 x3).threadLegal
  | .aluAnd x0 x1 x2 x3 => (Instr.aluAnd x0 x1 x2 x3).threadLegal
  | .aluOr x0 x1 x2 x3 => (Instr.aluOr x0 x1 x2 x3).threadLegal
  | .aluXor x0 x1 x2 x3 => (Instr.aluXor x0 x1 x2 x3).threadLegal
  | .aluSll x0 x1 x2 x3 => (Instr.aluSll x0 x1 x2 x3).threadLegal
  | .aluSrl x0 x1 x2 x3 => (Instr.aluSrl x0 x1 x2 x3).threadLegal
  | .aluSra x0 x1 x2 x3 => (Instr.aluSra x0 x1 x2 x3).threadLegal
  | .aluMul x0 x1 x2 x3 => (Instr.aluMul x0 x1 x2 x3).threadLegal
  | .aluMulhu x0 x1 x2 x3 => (Instr.aluMulhu x0 x1 x2 x3).threadLegal
  | .aluDivu x0 x1 x2 x3 => (Instr.aluDivu x0 x1 x2 x3).threadLegal
  | .aluRemu x0 x1 x2 x3 => (Instr.aluRemu x0 x1 x2 x3).threadLegal
  | .aluMinu x0 x1 x2 x3 => (Instr.aluMinu x0 x1 x2 x3).threadLegal
  | .aluMaxu x0 x1 x2 x3 => (Instr.aluMaxu x0 x1 x2 x3).threadLegal
  | .aluMin x0 x1 x2 x3 => (Instr.aluMin x0 x1 x2 x3).threadLegal
  | .aluMax x0 x1 x2 x3 => (Instr.aluMax x0 x1 x2 x3).threadLegal
  | .pcmpEq x0 x1 x2 x3 => (Instr.pcmpEq x0 x1 x2 x3).threadLegal
  | .pcmpNe x0 x1 x2 x3 => (Instr.pcmpNe x0 x1 x2 x3).threadLegal
  | .pcmpLt x0 x1 x2 x3 => (Instr.pcmpLt x0 x1 x2 x3).threadLegal
  | .pcmpGe x0 x1 x2 x3 => (Instr.pcmpGe x0 x1 x2 x3).threadLegal
  | .pcmpLtu x0 x1 x2 x3 => (Instr.pcmpLtu x0 x1 x2 x3).threadLegal
  | .pcmpGeu x0 x1 x2 x3 => (Instr.pcmpGeu x0 x1 x2 x3).threadLegal
  | .addi x0 x1 x2 x3 => (Instr.addi x0 x1 x2 x3).threadLegal
  | .andi x0 x1 x2 x3 => (Instr.andi x0 x1 x2 x3).threadLegal
  | .ori x0 x1 x2 x3 => (Instr.ori x0 x1 x2 x3).threadLegal
  | .lih x0 x1 x2 x3 => (Instr.lih x0 x1 x2 x3).threadLegal
  | .vopAdd x0 x1 x2 x3 x4 => (Instr.vopAdd x0 x1 x2 x3 x4).threadLegal
  | .vopSub x0 x1 x2 x3 x4 => (Instr.vopSub x0 x1 x2 x3 x4).threadLegal
  | .vopMul x0 x1 x2 x3 x4 => (Instr.vopMul x0 x1 x2 x3 x4).threadLegal
  | .vopMin x0 x1 x2 x3 x4 => (Instr.vopMin x0 x1 x2 x3 x4).threadLegal
  | .vopMax x0 x1 x2 x3 x4 => (Instr.vopMax x0 x1 x2 x3 x4).threadLegal
  | .vopFma x0 x1 x2 x3 x4 => (Instr.vopFma x0 x1 x2 x3 x4).threadLegal
  | .vopAnd x0 x1 x2 x3 x4 => (Instr.vopAnd x0 x1 x2 x3 x4).threadLegal
  | .vopOr x0 x1 x2 x3 x4 => (Instr.vopOr x0 x1 x2 x3 x4).threadLegal
  | .vopXor x0 x1 x2 x3 x4 => (Instr.vopXor x0 x1 x2 x3 x4).threadLegal
  | .vopShl x0 x1 x2 x3 x4 => (Instr.vopShl x0 x1 x2 x3 x4).threadLegal
  | .vopShr x0 x1 x2 x3 x4 => (Instr.vopShr x0 x1 x2 x3 x4).threadLegal
  | .vopExp x0 x1 x2 x3 x4 => (Instr.vopExp x0 x1 x2 x3 x4).threadLegal
  | .vcvt x0 x1 x2 x3 x4 => (Instr.vcvt x0 x1 x2 x3 x4).threadLegal
  | .vredSum x0 x1 x2 x3 x4 => (Instr.vredSum x0 x1 x2 x3 x4).threadLegal
  | .vredMax x0 x1 x2 x3 x4 => (Instr.vredMax x0 x1 x2 x3 x4).threadLegal
  | .vredMin x0 x1 x2 x3 x4 => (Instr.vredMin x0 x1 x2 x3 x4).threadLegal
  | .vget x0 x1 x2 x3 => (Instr.vget x0 x1 x2 x3).threadLegal
  | .vput x0 x1 x2 x3 => (Instr.vput x0 x1 x2 x3).threadLegal
  | .vbcast x0 x1 x2 x3 => (Instr.vbcast x0 x1 x2 x3).threadLegal
  | .ld x0 x1 x2 x3 x4 => (Instr.ld x0 x1 x2 x3 x4).threadLegal
  | .lds x0 x1 x2 x3 x4 => (Instr.lds x0 x1 x2 x3 x4).threadLegal
  | .st x0 x1 x2 x3 x4 => (Instr.st x0 x1 x2 x3 x4).threadLegal
  | .vld x0 x1 x2 x3 x4 => (Instr.vld x0 x1 x2 x3 x4).threadLegal
  | .vst x0 x1 x2 x3 x4 => (Instr.vst x0 x1 x2 x3 x4).threadLegal
  | .storeLineDrain _ _ _ => true
  | .br x0 x1 => (Instr.br x0 x1).threadLegal
  | .call x0 x1 => (Instr.call x0 x1).threadLegal
  | .jr x0 x1 x2 x3 x4 => (Instr.jr x0 x1 x2 x3 x4).threadLegal
  | .atomLd x0 x1 x2 x3 x4 => (Instr.atomLd x0 x1 x2 x3 x4).threadLegal
  | .atomSt x0 x1 x2 x3 x4 => (Instr.atomSt x0 x1 x2 x3 x4).threadLegal
  | .atomSwap x0 x1 x2 x3 x4 => (Instr.atomSwap x0 x1 x2 x3 x4).threadLegal
  | .atomCas x0 x1 x2 x3 x4 => (Instr.atomCas x0 x1 x2 x3 x4).threadLegal
  | .atomAdd x0 x1 x2 x3 x4 => (Instr.atomAdd x0 x1 x2 x3 x4).threadLegal
  | .atomAnd x0 x1 x2 x3 x4 => (Instr.atomAnd x0 x1 x2 x3 x4).threadLegal
  | .atomOr x0 x1 x2 x3 x4 => (Instr.atomOr x0 x1 x2 x3 x4).threadLegal
  | .atomXor x0 x1 x2 x3 x4 => (Instr.atomXor x0 x1 x2 x3 x4).threadLegal
  | .atomMin x0 x1 x2 x3 x4 => (Instr.atomMin x0 x1 x2 x3 x4).threadLegal
  | .atomMax x0 x1 x2 x3 x4 => (Instr.atomMax x0 x1 x2 x3 x4).threadLegal
  | .atomMinu x0 x1 x2 x3 x4 => (Instr.atomMinu x0 x1 x2 x3 x4).threadLegal
  | .atomMaxu x0 x1 x2 x3 x4 => (Instr.atomMaxu x0 x1 x2 x3 x4).threadLegal
  | .fenceB x0 x1 x2 x3 => (Instr.fenceB x0 x1 x2 x3).threadLegal
  | .fenceN x0 x1 x2 x3 => (Instr.fenceN x0 x1 x2 x3).threadLegal
  | .fenceG x0 x1 x2 x3 => (Instr.fenceG x0 x1 x2 x3).threadLegal
  | .barBay x0 x1 x2 x3 => (Instr.barBay x0 x1 x2 x3).threadLegal
  | .barNode x0 x1 x2 x3 => (Instr.barNode x0 x1 x2 x3).threadLegal
  | .barFabric x0 x1 x2 x3 => (Instr.barFabric x0 x1 x2 x3).threadLegal
  | .tissue x0 x1 x2 x3 => (Instr.tissue x0 x1 x2 x3).threadLegal
  | .twait x0 x1 x2 x3 => (Instr.twait x0 x1 x2 x3).threadLegal
  | .mq x0 x1 x2 x3 => (Instr.mq x0 x1 x2 x3).threadLegal
  | .mwait x0 x1 x2 x3 => (Instr.mwait x0 x1 x2 x3).threadLegal
  | .send x0 x1 x2 x3 => (Instr.send x0 x1 x2 x3).threadLegal
  | .recv x0 x1 x2 x3 => (Instr.recv x0 x1 x2 x3).threadLegal
  | .philox x0 x1 x2 x3 x4 => (Instr.philox x0 x1 x2 x3 x4).threadLegal
  | .ctx x0 x1 x2 x3 x4 => (Instr.ctx x0 x1 x2 x3 x4).threadLegal
  | .pwrOkRise _ _ ports devs => cxlOk ports devs
  | .pwrOkFall => true
  | .coldResetPerform _ _ ports devs => cxlOk ports devs
  | .refQualified _ => true
  | .pllLock _ => true
  | .powerOnBist _ _ _ => true
  | .slotVerify a b => checkOk a && checkOk b
  | .hbmTrainingDone => true
  | .weightFetchDone _ _ _ _ => true
  | .weightCodingDone _ => true
  | .bootReady => true
  | .sysRstNLow => true
  | .resetBtnPress => true
  | .resetBtnRelease => true
  | .resetBtnHold => true
  | .buttonRearm => true
  | .watchdogExpiry _ => true
  | .warmResetPerform => true
  | .warmResetComplete => true
  | .safeCommitReset _ => true
  | .thermtrip _ => true
  | .fatalFault code => decide (0x1230 ≤ code.toNat) && decide (code.toNat ≤ 0x1236)
  | .refGlitch _ => true
  | .refDrift _ => true
  | .refDriftClear => true
  | .refLost => true
  | .avsTargetReached _ => true
  | .avsTimeout _ => true
  | .p2Entry _ => true
  | .p3Entry _ => true
  | .aonTimerExpiry _ => true
  | .pcieWake => true
  | .trussListenWake _ => true
  | .p3ExitComplete _ => true
  | .swRailMinLowEnd _ => true
  | .budgetWindowStart _ sensors rails base => sensors.length == 96 && rails.length == 13 && base.length == 13
  | .schedulerEpochBoundary _ => true
  | .estimatorRecalibration _ vrm est part =>
    vrm.length == 13 && est.length == 13 && part.bays.length == 80 && part.rails.length == 13 && part.base.length == 13
  | .vrmTelemetryStale _ => true
  | .hbmTempPoll _ temps => temps.length == 8
  | .hbmTempTimeout _ _ => true
  | .wuTimeout _ _ => true
  | .bayFence _ => true
  | .stageImage _ _ _ => true
  | .commitImage _ _ => true
  | .flashOperationDone _ _ => true
  | .getInfo _ _ => true
  | .setTunable _ _ => true
  | .quiesce _ _ => true
  | .quiesceComplete => true
  | .resume _ _ => true
  | .warmReset _ _ => true
  | .snapshot _ _ => true
  | .plumbNow _ _ => true
  | .sentinelRead _ _ => true
  | .exportPubkey _ _ => true
  | .setTimeOffset _ _ => true
  | .leaveFabric _ _ => true
  | .arm _ _ => true
  | .disarm _ => true
  | .tailErrClear _ => true
  | .cplHead _ _ => true
  | .audHead _ => true
  | .irqCauseClear _ _ => true
  | .take => true
  | .load _ => true
  | .registerWrite _ _ offset width _ _ => (width == 4 || width == 8) && offset % width == 0
  | .flr _ => true
  | .perstNAssert => true
  | .perstNDeassert => true
  | .doeDiscovery _ => true
  | .getVersion => true
  | .getCapabilities => true
  | .negotiateAlgorithms _ _ => true
  | .getDigests => true
  | .getCertificate _ _ _ => true
  | .challenge _ _ => true
  | .getMeasurements _ _ _ => true
  | .smbusStatus => true
  | .smbusTmax => true
  | .smbusModulePower => true
  | .smbusHbmTemp => true
  | .smbusNodeEpoch => true
  | .smbusDegradedCount => true
  | .smbusStepping => true
  | .cxlEventPoll _ _ => true
  | .cxlDeviceLost _ => true
  | .detectBurst _ => true
  | .peerSignalDetect _ _ => true
  | .trainingSet _ set => set.bytes.length == 32
  | .eqTimeout _ => true
  | .trainingTimeout _ => true
  | .dataFlit _ words => words.all levelsWf
  | .idle _ words => words.all levelsWf
  | .nak _ words => words.all levelsWf
  | .silent _ words => words.all levelsWf
  | .health _ words => words.all levelsWf
  | .spare _ words => words.all levelsWf
  | .unspare _ words => words.all levelsWf
  | .reconfig _ words => words.all levelsWf
  | .resync _ words => words.all levelsWf
  | .nakRepeat _ => true
  | .replayTimeout _ _ => true
  | .recoveryTimeout _ => true
  | .evaluationWindowEnd _ _ => true
  | .laneFailure _ _ => true
  | .marginUpdate _ margins => margins.length == 17
  | .spareSwitchEffective _ => true
  | .portRestore _ _ => true
  | .drainEnd _ => true
  | .codewordLockLoss _ => true
  | .helloSend _ => true
  | .hello _ _ _ => true
  | .helloTimeout _ => true
  | .lsa _ r _ => r.adjs.length ≤ 12
  | .lsaRefresh _ => true
  | .lsaAgeOut _ => true
  | .routeCompute => true
  | .epoch _ r _ => r.members.length ≤ 254
  | .epochSettle _ => true
  | .caps _ r => r.entries.length ≤ 256
  | .leave _ _ => true
  | .tokenReq _ body => body.desc.length == 128 && formationOk body.formation
  | .token _ _ _ _ => true
  | .tokenRefuse _ _ _ => true
  | .tokenRelease _ _ => true
  | .stepAck _ _ => true
  | .abort _ _ _ => true
  | .weightQuery _ _ _ => true
  | .weightHave _ _ _ => true
  | .read _ => true
  | .write _ data => 1 ≤ data.length && data.length ≤ 4096
  | .atomic _ _ _ _ _ => true
  | .actPush _ p data => data.length ≤ p.total.toNat
  | .lease _ _ _ _ => true
  | .barrier _ _ _ _ _ _ _ => true
  | .barrierBatchSend _ => true
  | .time _ _ _ _ _ _ => true
  | .timeSyncSend _ => true
  | .transportResponse _ _ _ => true
  | .requestTimeout _ _ _ _ => true
  | .transitDrop _ _ => true
  | .sentinelFrameEnd _ pdm => pdm.length == 24576
  | .wakePulseEnd _ => true
  | .prerollFreeze _ => true
  | .wakeWindowClose _ => true
  | .mute => true
  | .muteEraseDone => true
  | .unmute _ => true
  | .pdmClkStart _ => true
  | .micSelfCheck _ chans => chans.length == 8
  | .snapshotPulse => true
  | .periodicSnapshot _ => true
  | .bandwidthWindowEnd _ => true
  | .plumbRunStart _ _ => true
  | .plumbRoundStart _ => true
  | .plumbSegmentEnd _ _ => true
  | .plumbStepDone _ _ _ _ => true
  | .patrolScrub addr _ => addr % 64 == 0
  | .sysRstNRelease _ _ ports devs => cxlOk ports devs
  | .flitSlot _ => true
  | .configSpaceWrite w => configOk w
  | .pcieLinkUp => true
  | .unsupportedRequest _ => true
  | .smbusBusTimeout => true
  | .tapInstruction _ => true
  | .illegalInstr w word => (decodeThreadWord w.bay w.thread word).isNone && guardOk w word
  | .arrayOff _ => true

end Sys2Proof
end

