-- ==== Sys2Proof/Tests/Slice0.lean ====
section
/-! SUPPORT. Tests: states that meet the hypotheses of every statement, ill-formed commands the check refuses, words of Table 5.10,
and single steps whose expected values come from the spec. -/
namespace Sys2Proof.Tests
open Sys2Proof Sys2Proof.Machine

/-! ## States -/

/-- A node that has booted: clock locked, configuration applied, node ID 5. -/
def ready : State :=
  { State.reset with
    clk := { Clk.reset with refQualified := true, pllEnabled := true, pllLocked := true },
    boot := { Boot.reset with phase := .ready, locked := true, weightsDone := true },
    cfg := { Cfg.zero with programsEnd := t1Base + 0x10000 },
    net := { Net.reset with nodeId := 5, members := [5], epochMembers := [5] },
    host := { HostSt.reset with linkUp := true } }

def okThread (t : Thread) : Bool :=
  t.g.length == 32 && t.v.length == 32 && decide (t.buf.length ≤ 8) && decide (t.mbox.length ≤ 4) &&
    t.buf.all fun l => l.bytes.length == 64

theorem okThread_iff {t : Thread} (h : okThread t = true) :
    t.g.length = 32 ∧ t.v.length = 32 ∧ t.buf.length ≤ 8 ∧ t.mbox.length ≤ 4 ∧ ∀ l ∈ t.buf, l.bytes.length = 64 := by
  simpa [okThread, and_assoc] using h

def okRest (s : State) : Bool :=
  s.truss.length == 12 && s.host.pages.length == 16 && s.clk.tiles.length == 4 && s.truss.all (fun p => p.vcq.length == 4) &&
    s.plumb.tiles.length == 4 && s.stew.tokens.length == 4 && s.stew.tokensOut.length == 4 && s.stew.tokenWait.length == 4 &&
    s.stew.gain.length == 13 && s.stew.hbmStep.length == 8

/-- A state whose bay 0 has two threads of its own, with every other bay and thread as at reset, has the right parts. -/
theorem shaped_of (s : State) (y : Bay) (a b : Thread) (hs : s.bays = y :: List.replicate 79 Bay.reset)
    (hy : y.threads = a :: b :: List.replicate 126 Thread.reset) (hm : y.movers.length = 2) (hb : y.barriers.length = 16)
    (h1 : okThread a = true) (h2 : okThread b = true) (hr : okRest s = true) : Safety.shaped s := by
  have h0 := okThread_iff (t := Thread.reset) (by decide)
  have hr' : (((((((((s.truss.length = 12 ∧ s.host.pages.length = 16) ∧ s.clk.tiles.length = 4) ∧
      ∀ p ∈ s.truss, p.vcq.length = 4) ∧ s.plumb.tiles.length = 4) ∧ s.stew.tokens.length = 4) ∧ s.stew.tokensOut.length = 4) ∧
      s.stew.tokenWait.length = 4) ∧ s.stew.gain.length = 13) ∧ s.stew.hbmStep.length = 8) := by
    simpa [okRest] using hr
  obtain ⟨⟨⟨⟨⟨⟨⟨⟨⟨r1, r2⟩, r3⟩, r4⟩, r5⟩, r6⟩, r7⟩, r8⟩, r9⟩, r10⟩ := hr'
  refine ⟨by rw [hs]; simp, r1, r2, r3, ?_, r4, r5, r6, r7, r8, r9, r10⟩
  intro z hz
  rw [hs] at hz
  rcases List.mem_cons.1 hz with rfl | hz
  · refine ⟨by rw [hy]; simp, hm, hb, ?_⟩
    intro t ht
    rw [hy] at ht
    rcases List.mem_cons.1 ht with rfl | ht
    · exact okThread_iff h1
    · rcases List.mem_cons.1 ht with rfl | ht
      · exact okThread_iff h2
      · rw [List.eq_of_mem_replicate ht]; exact h0
  · rw [List.eq_of_mem_replicate hz]
    refine ⟨by simp [Bay.reset], by simp [Bay.reset], by simp [Bay.reset], ?_⟩
    intro t ht
    have e : t = Thread.reset := (List.mem_replicate.1 (show t ∈ List.replicate 128 Thread.reset from ht)).2
    rw [e]; exact h0

theorem reset_shaped : Safety.shaped State.reset :=
  shaped_of _ Bay.reset Thread.reset Thread.reset rfl rfl rfl rfl (by decide) (by decide) (by decide)
theorem reset_canonical : Safety.canonical State.reset := ⟨by decide, by decide⟩
theorem ready_shaped : Safety.shaped ready :=
  shaped_of _ Bay.reset Thread.reset Thread.reset rfl rfl rfl rfl (by decide) (by decide) (by decide)
theorem ready_running : ready.running = true := by decide

/-! ## Threads -/

def task0 : Task :=
  { wu := ⟨7, 0, 0, .step 3⟩, home := 5, f := 0, program := 1, idx := 0, tasks := 1, waveFirst := 0, waveN := 1, args := 0,
    started := 0, limit := 1000000, energy := 0 }
/-- g1 = 0x40, g2 = 2^63 − 16, g3 = 3, g4 = −2, g5 = 1, g6 = 128, g7 = 129, g8 = 0x1000. -/
def regs0 : List Word :=
  [0, 0x40, 0x7FFFFFFFFFFFFFF0, 3, 0xFFFFFFFFFFFFFFFE, 1, 128, 129, 0x1000] ++ List.replicate 23 0
def thread0 : Thread :=
  { Thread.reset with pc := BitVec.ofNat 64 (t1Base + 0x100), exited := false, g := regs0,
                      v := [0, 0, 0x0102030405060708090A0B0C0D0E0F] ++ List.replicate 29 0 }
def w00 : Issue := ⟨0, 0, 0, 0⟩
def desc0 : List Byte := List.replicate 128 0
def req0 : Req := { ready.newReq 0 desc0 false with asn := 7, phase := .rolling, formation := some ⟨0, 1, [5]⟩ }
def run0 : RunWu :=
  { key := ⟨7, 0, 0, .step 3⟩, home := 5, f := 0, program := 1, shapeClass := 0, cls := 0, bays := [(0, 0)], ended := [],
    charge := 0, div := 0, scale := 0, cdur := 0, raw := 0, rawD := 0, started := 0, measured := 0, kvDone := false }
def bay0 (a b : Thread) : Bay :=
  { Bay.reset with threads := a :: b :: List.replicate 126 Thread.reset, task := some task0 }
/-- Node 5 runs one bay task on bay 0, with these threads 0 and 1. -/
def runs (a b : Thread) : State :=
  { ready with
    bays := bay0 a b :: List.replicate 79 Bay.reset,
    mem := { Mem.reset with cells := [(0x40, 0x11), (0x41, 0xF2), (0x47, 0x80)] },
    req := { Reqs.reset with table := [req0], running := [run0] } }
def run1 : State := runs thread0 Thread.reset

theorem runs_shaped (a b : Thread) (ha : okThread a = true) (hb : okThread b = true) : Safety.shaped (runs a b) :=
  shaped_of _ (bay0 a b) a b rfl rfl rfl rfl ha hb rfl
theorem run1_shaped : Safety.shaped run1 := runs_shaped _ _ (by decide) (by decide)
theorem run1_issues : Safety.issues run1 w00 := by unfold Safety.issues; decide

/-! ## Witnesses: the queue, encodings and register instructions -/

theorem wit_StepRunsTheFrontCommand :
    ({ ready with pending := [.snapshotPulse, .mute] } : State).pending = .snapshotPulse :: [.mute] := rfl

theorem wit_ThreadWordsRoundTrip :
    encodeThread (.vst w00 4 5 4 0) = some 0x50085800#32 ∧ (Instr.vst w00 4 5 4 0).issue = some w00 ∧
    (Instr.vst w00 4 5 4 0).threadLegal = true ∧ decodeThreadWord 0 0 0x50085800#32 = some (.vst w00 4 5 4 0) := by decide

theorem wit_IntegerResults : Safety.shaped run1 ∧ Safety.issues run1 w00 ∧ Safety.loaded run1 w00 [.g 1, .g 2] :=
  ⟨run1_shaped, run1_issues, by unfold Safety.loaded; decide⟩

theorem wit_ComparisonResults : Safety.shaped run1 ∧ Safety.issues run1 w00 ∧ Safety.loaded run1 w00 [.g 2, .g 4] ∧ (2#2 ≠ 3#2) :=
  ⟨run1_shaped, run1_issues, by unfold Safety.loaded; decide, by decide⟩

def redTree (ty f : Nat) (v : BitVec 512) : Nat → Nat → Nat
  | 0, i => bits v.toNat (laneWidth ty * i) (laneWidth ty)
  | j + 1, i => redLane ty f (redTree ty f v j (2 * i)) (redTree ty f v j (2 * i + 1))

theorem wit_VectorResults :
    Safety.shaped run1 ∧ Safety.issues run1 w00 ∧ Safety.loaded run1 w00 [.v 2, .v 3, .v 4, .g 1, .g 5] ∧
    (6#3 ≠ 7#3) ∧ (4 ≤ (4#3).toNat ∧ (4#3).toNat ≤ 6) ∧ (3#3).toNat ≤ 3 ∧ (8#4).toNat ≤ 8 ∧
    (∀ f, ∃ T : Nat → Nat → Nat, laneWidth (0#3).toNat * 2 ^ 6 = 512 ∧
      (∀ i, T 0 i = bits ((run1.thr 0 0).vr 2).toNat (laneWidth (0#3).toNat * i) (laneWidth (0#3).toNat)) ∧
      ∀ j i, T (j + 1) i = redLane (0#3).toNat f (T j (2 * i)) (T j (2 * i + 1))) :=
  ⟨run1_shaped, run1_issues, by unfold Safety.loaded; decide, by decide, by decide, by decide, by decide,
   fun f => ⟨redTree 0 f ((run1.thr 0 0).vr 2), by decide, fun _ => rfl, fun _ _ => rfl⟩⟩

theorem wit_LaneResults : (3 ≤ 3 ∧ 7 < 512 / laneWidth 3) ∧ Fmt.bf16.decode 0x7F81 = .nan ∧ Fmt.f16.decode 0xFE00 = .nan ∧
    Fmt.f32.decode 0x7FFFFFFF = .nan := by decide

/-- Guarded by p1, which is clear. -/
def w01 : Issue := ⟨0, 0, 1, 0⟩

theorem wit_BranchAndGuardResults :
    (Safety.shaped run1 ∧ Safety.issues run1 w00 ∧ Safety.loaded run1 w00 [.g 1]) ∧
    (encodeThread (.trap w01 0 0 7)).isSome = true ∧ (Instr.trap w01 0 0 7).issue = some w01 ∧ run1.canIssue w01 = true ∧
    (run1.thr 0 0).pc.toNat % 4 = 0 ∧ run1.fetchable (run1.thr 0 0).pc = true ∧ (run1.thr 0 0).guard w01 = false :=
  ⟨⟨run1_shaped, run1_issues, by unfold Safety.loaded; decide⟩, by decide⟩

/-- The pc is not 4-byte aligned. -/
def runOdd : State := runs { thread0 with pc := BitVec.ofNat 64 (t1Base + 0x102) } Thread.reset

theorem wit_ExceptionsEndTheRequest :
    ((encodeThread (.trap w00 0 0 7)).isSome = true ∧ (Instr.trap w00 0 0 7).issue = some w00 ∧ runOdd.canIssue w00 = true ∧
      (runOdd.thr 0 0).pc.toNat % 4 ≠ 0) ∧
    ((encodeThread (.trap w00 1 0 7)).isSome = true ∧ (Instr.trap w00 1 0 7).issue = some w00 ∧
      (Instr.trap w00 1 0 7).threadLegal = false) ∧
    (Safety.shaped run1 ∧ Safety.issues run1 w00 ∧ (run1.bay 0).task = some task0 ∧ task0.home = run1.net.nodeId ∧
      run1.reqOf task0.wu.asn = some req0 ∧ req0.failed = false ∧ req0.phase ≠ .complete ∧
      run1.runOf task0.home task0.wu = some run0 ∧ (task0.idx, (0 : Fin 80)) ∈ run0.bays) ∧
    (Safety.issues run1 { w00 with pg := (0xF8000000#32).extractLsb' 23 3, pn := (0xF8000000#32).extractLsb' 22 1 } ∧
      decodeThreadWord 0 0 0xF8000000#32 = none) :=
  ⟨by decide, by decide, ⟨run1_shaped, run1_issues, rfl, rfl, rfl, rfl, by decide, rfl, by decide⟩, by unfold Safety.issues; decide, by decide⟩

/-! ## Witnesses: memory, order, tags and mailboxes -/

theorem run1_canonical : Safety.canonical run1 := ⟨by decide, by decide⟩

theorem wit_LoadResults :
    (Safety.shaped run1 ∧ Safety.canonical run1 ∧ Safety.issues run1 w00 ∧ Safety.loaded run1 w00 [.g 1]) ∧
    (run1.target 0 .load ((run1.thr 0 0).gr 1 + (1#9).signExtend 64 * 1) 1 = .here 0x41 ∧ run1.region 0x41 ≠ .csr ∧
      run1.readEnd 0x41 1 = .ok ∧ ∀ l ∈ run1.mem.ceLines, l + 64 ≤ 0x41 ∨ 0x41 + 1 ≤ l) ∧
    (run1.target 0 .load ((run1.thr 0 0).gr 1 + (0#9).signExtend 64 * 64) 64 = .here 0x40 ∧ run1.readEnd 0x40 64 = .ok ∧
      ∀ l ∈ run1.mem.ceLines, l + 64 ≤ 0x40 ∨ 0x40 + 64 ≤ l) :=
  ⟨⟨run1_shaped, run1_canonical, run1_issues, by unfold Safety.loaded; decide⟩, by decide, by decide⟩

/-- A line of the store buffer whose byte 8 is stored, at some line number. -/
def line (k : Nat) : BufLine := { addr := 64 * k, bytes := (List.replicate 64 none).set 8 (some 0xAB), thread := 0, pc := 0 }
/-- The store buffer is full with lines 2 to 9. -/
def runFull : State := runs { thread0 with buf := (List.range 8).map fun k => line (k + 2) } Thread.reset
def runLine : State := runs { thread0 with buf := [line 1] } Thread.reset
/-- Bay 0 holds line 1 for its own observers. -/
def runShared : State :=
  { run1 with bays := { bay0 thread0 Thread.reset with shared := [line 1] } :: List.replicate 79 Bay.reset }
theorem runShared_shaped : Safety.shaped runShared :=
  shaped_of _ _ thread0 Thread.reset rfl rfl rfl rfl (by decide) (by decide) rfl

theorem wit_StoreBuffer :
    (Safety.shaped run1 ∧ Safety.issues run1 w00 ∧ Safety.loaded run1 w00 [.g 1, .g 2, .v 2] ∧
      run1.target 0 .store ((run1.thr 0 0).gr 1 + (0#9).signExtend 64 * 8) 8 = .here 0x40 ∧ (run1.thr 0 0).buf.length < 8) ∧
    (Safety.shaped runFull ∧ Safety.issues runFull w00 ∧ Safety.loaded runFull w00 [.g 1, .g 2, .v 2] ∧
      runFull.target 0 .store ((runFull.thr 0 0).gr 1 + (0#9).signExtend 64 * 8) 8 = .here 0x40 ∧
      (runFull.thr 0 0).buf.any (·.addr == runFull.lineAddr 5 0x40) = false ∧ 8 ≤ (runFull.thr 0 0).buf.length) ∧
    (Safety.shaped runLine ∧ Safety.issues runLine w00 ∧ (runLine.thr 0 0).buf.any (·.addr == runLine.lineAddr 5 0x40) = true ∧
      runLine.running = true ∧ (runLine.thr 0 0).buf[(0 : Fin 8).val]? = some (line 1) ∧ runLine.targetNode (line 1).addr = some 5 ∧
      (runLine.bay 0).shared = [] ∧ (line 1).bytes.length = 64 ∧
      ∀ j < 64, runLine.region (localAddr (line 1).addr + j) = .t0 ∨ runLine.region (localAddr (line 1).addr + j) = .t1) ∧
    (Safety.shaped runShared ∧ runShared.running = true ∧ (runShared.thr 0 0).buf[(0 : Fin 8).val]? = none ∧
      (runShared.bay 0).shared = [line 1] ∧ (0 : Fin 8).val = (runShared.thr 0 0).buf.length) ∧
    (∀ s ∈ [runLine, runShared], Memory.wf 0 s.mem.cells = true ∧ Memory.wf 0xFF s.boot.flash = true) :=
  ⟨⟨run1_shaped, run1_issues, by unfold Safety.loaded; decide, by decide⟩,
   ⟨runs_shaped _ _ (by decide) (by decide), by unfold Safety.issues; decide, by unfold Safety.loaded; decide, by decide⟩,
   ⟨runs_shaped _ _ (by decide) (by decide), by unfold Safety.issues; decide, by decide⟩, ⟨runShared_shaped, by decide⟩, by decide⟩

theorem wit_AtomicResults :
    Safety.shaped run1 ∧ Safety.canonical run1 ∧ Safety.issues run1 w00 ∧ Safety.loaded run1 w00 [.g 1, .g 4, .g 5] ∧
    (0x8#4).extractLsb' 2 2 ≠ 3 ∧ (1#2).toNat < 2 ∧ (run1.thr 0 0).buf = [] ∧ (run1.bay 0).shared = [] ∧ run1.outstandingAcc .fabric 0 0 = false ∧
    run1.target 0 .atomic ((run1.thr 0 0).gr 1) 8 = .here 0x40 ∧ run1.readEnd 0x40 8 = .ok ∧
    (∀ l ∈ run1.mem.ceLines, l + 64 ≤ 0x40 ∨ 0x40 + 8 ≤ l) ∧ (0x8#4).getLsbD 1 = false ∧ (0x8#4).getLsbD 0 = false ∧
    (4#5).getLsbD 0 = false :=
  ⟨run1_shaped, run1_canonical, run1_issues, by unfold Safety.loaded; decide, by decide⟩

/-- A load of thread 0 is outstanding. -/
def runAway : State :=
  { run1 with net := { run1.net with txns := [{ dst := 6, vc := 0, tseq := 0, attempt := 0, sentAt := 0,
                                                purpose := .load 0 0 9 8 false false 0, bytes := [] }] } }
/-- Slot 3 of every scope is at count 2. -/
def runBar : State :=
  { run1 with
    bays := { bay0 thread0 Thread.reset with barriers := (List.replicate 16 none).set 3 (some { count := 2, arrived := 1, waiting := [] }) }
      :: List.replicate 79 Bay.reset,
    bars := { Bars.reset with fabric := [{ home := 5, asn := 7, slot := 3, generation := 0,
                                           bar := { count := 2, arrived := 1, waiting := [] }, byNode := [(5, 1)], unsent := 0, sentAt := none }] } }

theorem wit_FencesAndBarriers :
    (Safety.shaped run1 ∧ Safety.issues run1 w00 ∧ (run1.thr 0 0).buf = [] ∧ (run1.bay 0).shared = [] ∧
      ∀ sc ∈ [Scope.bay, .node, .fabric], run1.outstandingAcc sc 0 0 = false) ∧
    (Safety.shaped runAway ∧ Safety.issues runAway w00 ∧ (runAway.thr 0 0).buf = [] ∧ (runAway.bay 0).shared = [] ∧
      ∀ sc ∈ [Scope.bay, .node, .fabric], runAway.outstandingAcc sc 0 0 = true) ∧
    (Safety.loaded run1 w00 [.g 3, .g 5] ∧ (run1.bay 0).task = some task0 ∧ task0.home = run1.net.nodeId ∧
      (run1.bay 0).barriers.getD 3 none = none ∧ run1.nodeBar task0 3 = none ∧ (run1.fabricBar 5 7 3).bar.count = 0 ∧
      (run1.fabricBar 5 7 3).bar.waiting = [] ∧ (run1.fabricBar 5 7 3).byNode = [] ∧ (run1.thr 0 0).gr 3 < 16 ∧
      (run1.thr 0 0).gr 5 = 1 ∧ 1 < ((run1.thr 0 0).gr 6).toNat ∧ ((run1.thr 0 0).gr 6).toNat ≤ 128) ∧
    ((run1.thr 0 0).gr 0 = 0 ∧ 128 < ((run1.thr 0 0).gr 7).toNat ∧ 16 ≤ ((run1.thr 0 0).gr 1).toNat) ∧
    (Safety.shaped runBar ∧ Safety.issues runBar w00 ∧ ((runBar.bay 0).barriers.getD 3 none).map (·.count) = some 2 ∧
      (runBar.fabricBar 5 7 3).bar.count = 2 ∧ 2 ≠ ((runBar.thr 0 0).gr 6).toNat) :=
  ⟨⟨run1_shaped, run1_issues, by decide⟩,
   ⟨shaped_of _ (bay0 thread0 Thread.reset) _ _ rfl rfl rfl rfl (by decide) (by decide) rfl, by unfold Safety.issues; decide, by decide⟩,
   ⟨by unfold Safety.loaded; decide, rfl, rfl, by decide⟩, by decide,
   ⟨shaped_of _ _ thread0 Thread.reset rfl rfl rfl rfl (by decide) (by decide) rfl, by unfold Safety.issues; decide, by decide⟩⟩

/-- The array and mover 0 of bay 0 each hold the entry with tag 1; tag 2 has been issued and has completed. -/
def runTags : State :=
  { run1 with
    bays := { bay0 { thread0 with g := regs0.set 9 2 } Thread.reset with
              tileQueue := [{ tag := 1, thread := 0, desc := [] }], tileIssued := 2, moveIssued := 2,
              movers := [{ Mover.reset with queue := [{ tag := 1, thread := 0, desc := [] }] }, Mover.reset] }
      :: List.replicate 79 Bay.reset }

theorem wit_DescriptorsAndTagWaits :
    (Safety.shaped run1 ∧ Safety.issues run1 w00 ∧ Safety.loaded run1 w00 [.g 1] ∧ (run1.thr 0 0).buf = [] ∧
      (run1.bay 0).shared = [] ∧ run1.outstandingAcc .fabric 0 0 = false ∧ run1.target 0 .load ((run1.thr 0 0).gr 1) 64 = .here 0x40 ∧ 0x40 / 0x800000 = (0 : Fin 80).val ∧
      run1.readEnd 0x40 64 = .ok ∧ (∀ l ∈ run1.mem.ceLines, l + 64 ≤ 0x40 ∨ 0x40 + 64 ≤ l) ∧ (run1.bay 0).tileOut 0 < 4 ∧
      ((run1.bay 0).mover 0).outOf 0 < 4 ∧ ((run1.bay 0).mover 1).outOf 0 < 4) ∧
    (Safety.shaped runTags ∧ Safety.issues runTags w00 ∧ Safety.loaded runTags w00 [.g 0, .g 5, .g 9, .g 3] ∧
      (runTags.thr 0 0).tileFault = none ∧ (runTags.thr 0 0).moveFault = none) ∧
    (((runTags.thr 0 0).gr 0).toNat = 0 ∧ ((runTags.thr 0 0).gr 5).toNat = 1 ∧ ((runTags.thr 0 0).gr 9).toNat = 2 ∧
      ((runTags.thr 0 0).gr 3).toNat = 3 ∧ (runTags.bay 0).tileIssued = 2 ∧ (runTags.bay 0).moveIssued = 2 ∧
      (∀ p ∈ (runTags.bay 0).tileFailed, p.1 ≠ 1) ∧ (∀ p ∈ (runTags.bay 0).moveFailed, p.1 ≠ 1) ∧
      (∃ e ∈ (runTags.bay 0).tileQueue, e.tag = 1) ∧ (∃ m ∈ (runTags.bay 0).movers, ∃ e ∈ m.queue, e.tag = 1) ∧
      (¬ ∃ e ∈ (runTags.bay 0).tileQueue, e.tag = 2) ∧ (runTags.bay 0).running = none ∧
      ¬ ∃ m ∈ (runTags.bay 0).movers, ∃ e ∈ m.queue, e.tag = 2) :=
  ⟨⟨run1_shaped, run1_issues, by unfold Safety.loaded; decide, by decide⟩,
   ⟨shaped_of _ _ { thread0 with g := regs0.set 9 2 } Thread.reset rfl rfl rfl rfl (by decide) (by decide) rfl,
    by unfold Safety.issues; decide, by unfold Safety.loaded; decide, by decide⟩, by decide⟩

/-- Threads 0 and 1 of bay 0 run, with these mailboxes. -/
def runMail (own other : List (BitVec 512)) : State :=
  runs { thread0 with mbox := own } { thread0 with mbox := other }

theorem wit_MailboxesAndExit :
    (Safety.shaped (runMail [] []) ∧ Safety.issues (runMail [] []) w00 ∧ Safety.loaded (runMail [] []) w00 [.g 5, .v 2] ∧
      ((runMail [] []).bay 0).task = some task0 ∧ (runMail [] []).mboxBay task0 (1 / 128) = some (some 0) ∧
      ((runMail [] []).thr 0 0).gr 5 = 1 ∧ ((runMail [] []).thr 0 1).exited = false ∧ ((runMail [] []).thr 0 1).mbox.length < 4 ∧
      ((runMail [] []).thr 0 0).mbox = []) ∧
    (Safety.shaped (runMail [7] [1, 2, 3, 4]) ∧ Safety.issues (runMail [7] [1, 2, 3, 4]) w00 ∧
      4 ≤ ((runMail [7] [1, 2, 3, 4]).thr 0 1).mbox.length ∧ ((runMail [7] [1, 2, 3, 4]).thr 0 0).mbox = 7 :: []) ∧
    ((run1.thr 0 1).exited = true ∧ run1.mboxBay task0 (128 / 128) = none ∧
      ({ run1 with req := { run1.req with running := [{ run0 with ended := [0] }] } } : State).mboxBay task0 0 = some none) ∧
    ((run1.thr 0 0).tileFault = none ∧ (run1.thr 0 0).moveFault = none ∧ (run1.bay 0).drain = none ∧
      ∃ u, u ≠ (0 : Fin 128) ∧ ((runMail [] []).thr 0 u).exited = false) :=
  ⟨⟨runs_shaped _ _ (by decide) (by decide), by unfold Safety.issues; decide, by unfold Safety.loaded; decide, by decide⟩,
   ⟨runs_shaped _ _ (by decide) (by decide), by unfold Safety.issues; decide, by decide, rfl⟩, by decide,
   by decide, by decide, by decide, 1, by decide⟩

/-- g4 holds an illegal lane base. -/
theorem wit_ContextAndDraws :
    Safety.shaped run1 ∧ Safety.issues run1 w00 ∧ Safety.loaded run1 w00 [.g 5] ∧ (run1.bay 0).task = some task0 ∧
    (((run1.thr 0 0).gr 5).extractLsb' 48 16 &&& 3 = 0 ∧ ((run1.thr 0 0).gr 5).extractLsb' 44 4 = 0) ∧
    (((run1.thr 0 0).gr 4).extractLsb' 48 16 &&& 3 ≠ 0 ∨ ((run1.thr 0 0).gr 4).extractLsb' 44 4 ≠ 0) ∧ (11#8).toNat < 12 :=
  ⟨run1_shaped, run1_issues, by unfold Safety.loaded; decide, rfl, by decide⟩

/-! ## A program, a descriptor, and a request of each phase -/

def class1 : ShapeClass :=
  { maxContext := 16, maxF0 := 64, maxLeaves := 64, maxSteps := 8, maxBranch := 4, kindFrames := true, kindStream := true,
    rIn := 64, rOut := 32 }
def stage1 : StageCfg :=
  { layersKv := 0, kvFmt := 0, d := 0, appendMax := 0, ctxPerEvent := 0, persist := false, slotsPerTask := 0, cell := false }
def demand1 : Demand := { t1Fix := 4096, t1PerFuture := 64, t1PerRecord := 0, t2Fix := 0, t2PerFuture := 0, t2PerRecord := 0 }
def template1 (ctx : Bool) : Template :=
  { stage := 0, shapeClass := 0, memBound := false, context := ctx, bayTasks := 1, eFixed := 100, ePerFuture := 10, dFixed := 100,
    dPerFuture := 10, entry := 0x100 }
def program1 : Program :=
  { number := 1, chained := false, codec := 0, audioInput := false, streamClass := none, classes := [class1], stages := [stage1],
    demands := [demand1], templates := [template1 true, template1 false], objects := [], codeBase := t1Base, codeLen := 0x1000,
    digest := 0 }
/-- Two futures of two steps from one event of 64 bytes; its deadline is 500, and KIND as given. -/
def desc1 (kind deadline : Nat) : List Byte :=
  let d := overlay (List.replicate 128 0) 0x08 ([1, 1, 0, 0, 3, 0] ++ bytesLE 1 kind)
  let d := overlay (overlay d 0x10 [9, 0, 0, 0]) 0x14 [1, 0, 2, 0, 2, 0]
  let d := overlay (overlay d 0x38 (bytesLE 8 deadline)) 0x40 (bytesLE 8 0x1000)
  overlay (overlay (overlay d 0x48 (bytesLE 4 64)) 0x50 (bytesLE 8 0x2000)) 0x58 (bytesLE 4 128)
def page1 : FnPage :=
  { FnPage.reset with armed := true, armBit := true, busMaster := true, reqLog2 := 6, cplLog2 := 6, audLog2 := 6, reqTail := 1 }
/-- Tenant 0 is enabled, program 1 loaded, and one descriptor waits in ring 0. -/
def work : State :=
  { ready with
    cfg := { ready.cfg with
      programs := [program1],
      tenants := { TenantCfg.zero with present := true, enabled := true, weight := 1, lim := [0x10000000, 0x10000000, 0] }
        :: List.replicate 15 TenantCfg.zero,
      policy := { Policy.zero with capW := 100, classes := List.replicate 4 { maxShare := 256, maxBays := 80 } } },
    tun := { Tun.reset with powerCap := 100, enable := true :: List.replicate 15 false, weight := 1 :: List.replicate 15 0,
                            limit := List.replicate 16 [0x10000000, 0x10000000, 0] },
    stew := { Stew.reset with remain := 1000000, bEff := 1000000 },
    host := { ready.host with pages := page1 :: List.replicate 15 FnPage.reset } }
theorem work_shaped : Safety.shaped work :=
  shaped_of _ Bay.reset Thread.reset Thread.reset rfl rfl rfl rfl (by decide) (by decide) rfl

def reqAt (d : List Byte) (phase : Phase) : Req :=
  { work.newReq 0 d false with asn := 7, phase := phase, formation := some ⟨0, 1, [5]⟩, askNodes := [], inputFetched := true }
/-- The work state with one request and no descriptor waiting. -/
def holds (r : Req) : State := { work with req := { Reqs.reset with nextAsn := 8, table := [r] } }
/-- Bay 0 runs the only bay task of the request's work unit, and all its threads have exited. -/
def holdsRun (r : Req) : State :=
  { holds r with
    bays := { Bay.reset with task := some task0 } :: List.replicate 79 Bay.reset,
    req := { (holds r).req with running := [run0] } }

/-! ## Witnesses: requests, scheduling, streams and the scribe -/

theorem test_checks_pass : work.earlyChecks 0 (desc1 0 500) = none := by decide
theorem test_check_1 : ready.earlyChecks 0 (desc1 0 500) = some (0x13, 0x0101) := by decide
theorem test_check_10 : work.earlyChecks 0 (overlay (desc1 0 500) 0x50 [4]) = some (0x21, 0x010A) := by decide

theorem wit_FetchAssignsTheNextAsn :
    Safety.shaped work ∧ work.canFetch = true ∧ work.chooseFn.map (·.1) = some 0 ∧ work.reqOf work.req.nextAsn = none ∧
    work.grantsOf work.net.nodeId work.req.nextAsn = [] ∧ work.earlyChecks 0 (fit 128 []) = some (0x11, 0x0102) :=
  ⟨work_shaped, by decide⟩

theorem wit_DeadlinesAndTaskEnds :
    ((((holds (reqAt (desc1 0 500) .rolling)).advance 501).reqOf (7#64).toNat).isSome = true ∧
      ((holds (reqAt (desc1 0 500) .rolling)).advance 501).running = true ∧
      (reqAt (desc1 0 500) .rolling).admitted = true ∧ (reqAt (desc1 0 500) .rolling).failed = false ∧
      (reqAt (desc1 0 500) .rolling).deadlinePassed = false ∧ (reqAt (desc1 0 500) .rolling).streamCommitted = false ∧
      (reqAt (desc1 0 500) .rolling).d.enforce = true ∧
      (reqAt (desc1 0 500) .rolling).d.deadline ≠ 0 ∧ (reqAt (desc1 0 500) .rolling).d.deadline < 501) ∧
    (let s1 := (holdsRun (reqAt (desc1 0 500) .rolling)).advance 100
     Safety.shaped (holdsRun (reqAt (desc1 0 500) .rolling)) ∧ (s1.bay 0).task = some task0 ∧ s1.runOf task0.home task0.wu = some run0 ∧
      s1.running = true ∧ s1.taskQuiet 0 = true ∧ s1.kvSettled run0 = true ∧ run0.bays.length ≤ run0.ended.length + 1 ∧ s1.quota.tokens = []) :=
  ⟨by decide, shaped_of _ { Bay.reset with task := some task0 } Thread.reset Thread.reset rfl rfl rfl rfl (by decide) (by decide) rfl,
   rfl, rfl, by decide⟩

/-- The run of the request's work unit has a second bay task, on bay 1. -/
theorem wit_DeadlinesAndTaskEnds_more :
    let w := { run0 with bays := [(0, 0), (1, 1)] }
    let s : State := { holdsRun (reqAt (desc1 0 500) .rolling) with req := { Reqs.reset with table := [reqAt (desc1 0 500) .rolling], running := [w] } }
    Safety.shaped s ∧ s.runOf task0.home task0.wu = some w ∧ (s.bay 0).task = some task0 ∧ s.running = true ∧ s.taskQuiet 0 = true ∧
      s.kvSettled w = true ∧ w.ended.length + 1 < w.bays.length :=
  ⟨shaped_of _ { Bay.reset with task := some task0 } Thread.reset Thread.reset rfl rfl rfl rfl (by decide) (by decide) rfl, rfl, rfl,
   by decide⟩

/-- The context work unit of the request can be dispatched. -/
def dispatchableBy (deadline : Nat) : State :=
  { holds (reqAt (desc1 0 deadline) .context) with
    net := { work.net with pushRx := [{ key := ⟨7, 0, 0, .context⟩, home := 5, received := 0, complete := true, acked := false, src := 5 }] } }

def dispatchable : State := dispatchableBy 0
theorem wit_DeadlinesAndTaskEnds_candidates :
    (dispatchableBy 500).candidates.any (fun c => c.d.enforce && c.d.deadline != 0) = true := by decide

theorem wit_DispatchTakesTheFirstThatFits :
    (Safety.shaped dispatchable ∧ dispatchable.running = true ∧ dispatchable.isFatal = false ∧ ready.candidates = [] ∧
      ∃ c post, dispatchable.leaveP2.readyList = [] ++ c :: post ∧ Safety.dispatchable dispatchable.leaveP2 c) ∧
    (let a : Cand := { home := 5, key := ⟨7, 0, 0, .context⟩, f := 0, d := desc1 0 500, p := program1, tm := template1 true }
     let b : Cand := { a with key := ⟨6, 0, 0, .context⟩, d := desc1 0 0 }
     a.d.deadline < 2 ^ 64 ∧ b.d.deadline < 2 ^ 64 ∧ a.key.asn < 2 ^ 64 ∧ b.key.asn < 2 ^ 64 ∧ a.home < 256 ∧ b.home < 256 ∧
      a.key.stage ≤ 65535 ∧ b.key.stage ≤ 65535 ∧ a.key.wave < 2 ^ 16 ∧ b.key.wave < 2 ^ 16 ∧ stepCode a.key.step < 2 ^ 20 ∧
      stepCode b.key.step < 2 ^ 20 ∧ a.d.cls = b.d.cls ∧ b.d.deadline = 0 ∧ a.d.deadline ≠ 0) :=
  ⟨⟨shaped_of _ Bay.reset Thread.reset Thread.reset rfl rfl rfl rfl (by decide) (by decide) rfl, by decide, by decide, by decide, _, _, rfl,
    by unfold Safety.dispatchable; decide⟩, by decide⟩

def job0 : HubJob := { id := 0, kind := .output 7 0, running := true, descs := [] }
def job1 : HubJob := { id := 1, kind := .input 7, running := false, descs := [] }
def jobsHere : State := { holds (reqAt (desc1 0 0) .rolling) with hub := { Hub.reset with jobs := [job0, job1] } }

theorem wit_HubMoversAndOutput :
    (jobsHere.running = true ∧ jobsHere.hub.jobs.countP (·.running) < 16 ∧ job1 ∈ jobsHere.hub.jobs ∧ job1.running = false ∧
      ∀ k ∈ jobsHere.hub.jobs, k.running = false → k = job1 ∨ job1.order < k.order) ∧
    (Safety.shaped jobsHere ∧ jobsHere.hub.jobs.find? (fun x => x.id == job0.id && x.running) = some job0 ∧
      jobsHere.reqOf 7 = some (reqAt (desc1 0 0) .rolling) ∧ (reqAt (desc1 0 0) .rolling).asn = 7 ∧
      (reqAt (desc1 0 0) .rolling).failed = false ∧ (jobsHere.page (reqAt (desc1 0 0) .rolling).f).busMaster = true ∧
      ∃ bytes, (jobsHere.stepOutput (reqAt (desc1 0 0) .rolling) 0 []).1 = .ok bytes) :=
  ⟨by decide, shaped_of _ Bay.reset Thread.reset Thread.reset rfl rfl rfl rfl (by decide) (by decide) rfl, rfl, rfl, rfl, rfl,
   by decide, _, rfl⟩

def streamReq (p : Phase) : Req := reqAt (desc1 1 0) p
def committing : State :=
  { holds { streamReq .commit with leaseHeld := true } with str := { Streams.reset with phase1 := [7] } }
def swap0 : Swap := { tenant := 0, stream := 9, asn := 7, cls := 0, bay := 0, slot := 0, node := 5, sent := false }
def swapping : State := { holds { streamReq .context with swapWait := true } with str := { Streams.reset with swaps := [swap0] } }
/-- The request has completed, and its record waits to be committed. -/
def done0 : State := { holds (reqAt (desc1 0 0) .complete) with req := { Reqs.reset with table := [reqAt (desc1 0 0) .complete], doneQ := [7] } }
def anchor0 : Anchor := { reason := 1, recno := 0, recHash := 0, imageSeq := 0 }

theorem wit_StreamsAndAnchors :
    (Safety.canonical (holds (streamReq .context)) ∧ (holds (streamReq .context)).reqOf (7#64).toNat = some (streamReq .context) ∧
      (streamReq .context).asn = (7#64).toNat ∧ (holds (streamReq .context)).running = true ∧
      (holds (streamReq .context)).canLease (streamReq .context) = true ∧ (holds (streamReq .context)).kvAway (streamReq .context) = false ∧
      ((streamReq .context).formation.map fun m => nodeOf m 0) = some (holds (streamReq .context)).net.nodeId ∧
      (streamReq .context).usesGallery (holds (streamReq .context)) = false) ∧
    (Safety.canonical committing ∧ committing.running = true ∧ (committing.reqOf 7).map (·.phase) = some .commit ∧
      (committing.reqOf 7).map (·.failed) = some false ∧ committing.str.phase1.contains 7 = true ∧ committing.kvOpen 7 = false ∧
      committing.persistNodes { streamReq .commit with leaseHeld := true } = []) ∧
    (swapping.running = true ∧ swapping.str.swaps.find? (fun y => y.asn == (7#64).toNat) = some swap0 ∧
      swap0.sent = false ∧ swap0.node = swapping.net.nodeId ∧ ({ swap0 with node := 6 } : Swap).node ≠ swapping.net.nodeId ∧
      (swapping.reqOf swap0.asn).map (fun r => (r.failed, r.phase, r.lost, r.formation.map fun m => nodeOf m 0)) =
        some (false, .context, [], some swapping.net.nodeId) ∧
      swapping.readEnd (swapping.backingCopy 0 9 0 (swapping.streamVersion 0 9)) (swapping.streamClass 0).slotSize = .ok) ∧
    (done0.req.doneQ = 7 :: [] ∧ done0.scribeRuns = true ∧ done0.gateOpen = true ∧ done0.reqOf 7 = some (reqAt (desc1 0 0) .complete)) ∧
    ∀ n ∈ [3, 8], let s := ({ ready with aud := { Audit.reset with anchorRetry := [(n, anchor0)] } } : State).advance 5
      s.aud.anchorRetry = (n, anchor0) :: [] ∧ s.clk.pllLocked = true ∧ s.clk.devTime = 5 :=
  ⟨⟨⟨by decide, by decide⟩, rfl, rfl, by decide⟩, ⟨⟨by decide, by decide⟩, by decide⟩, by decide, ⟨rfl, by decide, by decide, rfl⟩,
   by decide⟩

def hold0 : Hold :=
  { cpl := { asn := 7, f := 0, reqTag := 0, status := 0, cflags := 0, detail := 0, gen := 0, recno := 0, timeEnd := 0, energy := 0,
             outWritten := 0, outHashPfx := 0, epoch := 0, stepsDone := 0 },
    slot := .hold, cplDone := false, audDone := true }
def recordWaits : State := { work with aud := { Audit.reset with mirror := [(0, [1, 2, 3])], nextRecno := 1 } }
def completionWaits : State := { work with host := { work.host with holdQ := [hold0] } }

theorem wit_RecordsAndCompletionsAreDelivered :
    (Safety.shaped recordWaits ∧ recordWaits.scribeRuns = true ∧ recordWaits.canDeliver = true ∧
      ∀ x ∈ recordWaits.aud.mirror, x.1 < recordWaits.aud.nextRecno) ∧
    (Safety.shaped completionWaits ∧ completionWaits.scribeRuns = true ∧ completionWaits.canDeliver = false ∧
      hold0 ∈ completionWaits.host.holdQ ∧ completionWaits.canComplete hold0 = true ∧ ∀ x ∈ completionWaits.host.holdQ, x = hold0) :=
  ⟨⟨shaped_of _ Bay.reset Thread.reset Thread.reset rfl rfl rfl rfl (by decide) (by decide) rfl, by decide⟩,
   ⟨shaped_of _ Bay.reset Thread.reset Thread.reset rfl rfl rfl rfl (by decide) (by decide) rfl, by decide⟩⟩

/-! ## Witnesses: the array, ramps and movers -/

/-- A 1 by 1 by 1 integer tile instruction: A at 0x1000, B at 0x2000, OUT at 0x3000; TOP as given. -/
def tile1 (top : Nat) : List Byte :=
  let d := overlay (List.replicate 64 0) 0x00 [BitVec.ofNat 8 top, 0, 2, 0, 1, 0, 1, 0, 1, 0, 1, 1, 1, 0]
  let d := overlay (overlay d 0x10 (bytesLE 8 0x1000 ++ bytesLE 4 64)) 0x20 (bytesLE 8 0x2000 ++ bytesLE 4 64)
  overlay d 0x30 (bytesLE 8 0x3000 ++ bytesLE 4 64)
def entry1 (desc : List Byte) : QEntry := { tag := 1, thread := 0, desc := desc }
def bayWith (y : Bay) (cells : List (Nat × Byte)) : State :=
  { run1 with bays := y :: List.replicate 79 Bay.reset, mem := { Mem.reset with cells := cells } }
/-- The array of bay 0 holds one instruction; 3 is stored at A and −2 at B. -/
def tileState (top : Nat) : State :=
  bayWith { bay0 thread0 Thread.reset with tileQueue := [entry1 (tile1 top)], tileIssued := 1, ramp := .active, rowGroups := 8 }
    [(0x1000, 3), (0x2000, 0xFE)]
theorem tileState_shaped (top : Nat) : Safety.shaped (tileState top) :=
  shaped_of _ _ thread0 Thread.reset rfl rfl rfl rfl (by decide) (by decide) rfl

theorem wit_TileInstructions (top : Nat) : Safety.shaped (tileState top) ∧ (tileState top).running = true ∧
    Safety.clean (tileState top) ∧ ((tileState top).bay 0).task = some task0 ∧ ((tileState top).bay 0).running = none ∧
    ((tileState top).bay 0).tileQueue = entry1 (tile1 top) :: [] ∧ ((tileState top).bay 0).ramp = .active ∧
    ((tileState top).thr 0 0).exited = false :=
  ⟨tileState_shaped top, rfl, ⟨rfl, rfl⟩, rfl, rfl, rfl, rfl, rfl⟩

theorem test_tile_passes : (tileState 1).tileCheck 0 task0 (tile1 1) ((tileState 1).windowOf 0 (tile1 1)) none = none := by decide
theorem test_tile_fails : (tileState 3).tileCheck 0 task0 (tile1 3) ((tileState 3).windowOf 0 (tile1 3)) none = some 0x0601 := by decide
/-- 3 times −2, as 32 bits (R159). -/
theorem test_tile_result : (tileState 1).tileResult (tile1 1) ((tileState 1).windowOf 0 (tile1 1)) none false = .ok [[0xFFFFFFFA]] := by
  rfl

/-- The head takes its A from a producer that failed (R173). -/
def tileFed : State :=
  bayWith { bay0 thread0 Thread.reset with
              tileQueue := [entry1 ((tile1 1).set 3 8)], tileIssued := 1, ramp := .active, rowGroups := 8,
              drain := some { m := 1, n := 1, mValid := 1, nValid := 1, fmt := 0, rows := [], addr := 0x4000, stride := 64,
                              failed := some poisonFault } } [(0x2000, 1)]
theorem wit_TileInstructions_failedProducer : Safety.shaped tileFed ∧ tileFed.running = true ∧ Safety.clean tileFed ∧
    (tileFed.bay 0).task = some task0 ∧ (tileFed.bay 0).running = none ∧ (tileFed.bay 0).tileQueue = entry1 ((tile1 1).set 3 8) :: [] ∧
    (tileFed.bay 0).ramp = .active ∧ (tileFed.thr 0 0).exited = false ∧
    tileFed.tileCheck 0 task0 ((tile1 1).set 3 8) (tileFed.windowOf 0 ((tile1 1).set 3 8)) (tileFed.bay 0).drain = none ∧
    (tileFed.bay 0).drain.bind (·.failed) = some poisonFault :=
  ⟨shaped_of _ _ thread0 Thread.reset rfl rfl rfl rfl (by decide) (by decide) rfl, rfl, ⟨rfl, rfl⟩, rfl, rfl, rfl, rfl, rfl, by decide, rfl⟩

def ranTile : RunTile := { entry := entry1 (tile1 1), outs := [(0x3000, [0xFA, 0xFF]), (0x3040, [1])], failed := none, producer := none }
def tileRan : State := bayWith { bay0 thread0 Thread.reset with running := some ranTile, ramp := .active } []

theorem wit_TileInstructions_completion : Safety.shaped tileRan ∧ (tileRan.bay 0).running = some ranTile ∧ ranTile.failed = none ∧
    (tileRan.thr 0 ranTile.entry.thread).exited = false ∧ (∀ p ∈ ranTile.outs, Safety.inT0T1 tileRan p.1 p.2.length) ∧
    ranTile.outs.Pairwise (fun p q => p.1 + p.2.length ≤ q.1 ∨ q.1 + q.2.length ≤ p.1) :=
  ⟨shaped_of _ _ thread0 Thread.reset rfl rfl rfl rfl (by decide) (by decide) rfl, rfl, rfl, rfl,
   by unfold Safety.inT0T1; decide, by decide⟩

/-- A bfloat16 NaN, and an element beside it. -/
theorem wit_CellsAccumulate : 5 < 2 ^ 32 ∧ (∀ i < 2, (fun k => if k = 0 then none else some 1 : Nat → Option Nat) i = none ∨
      (fun k => if k = 1 then none else some 1 : Nat → Option Nat) i = none) ∧
    floatTy 4 = some Fmt.bf16 ∧ 1 < 2 ∧ Fmt.bf16.decode 0x7FC1 = .nan ∧
    ∀ i < 2, (some (0x7FC1 + i) : Option Nat).isSome = true ∧ (some i : Option Nat).isSome = true := by decide

/-- Bay 0 has no task and its array stands as given; tile 0 has this many free tokens. -/
def ramps (r : Ramp) (tokens out : Nat) : State :=
  { ready with bays := { Bay.reset with ramp := r } :: List.replicate 79 Bay.reset,
               stew := { Stew.reset with tokens := [tokens, 0, 0, 0], tokensOut := [out, 0, 0, 0], tokenWait := [[], [], [], []] } }
theorem ramps_shaped (r : Ramp) (n m : Nat) : Safety.shaped (ramps r n m) :=
  shaped_of _ { Bay.reset with ramp := r } Thread.reset Thread.reset rfl rfl rfl rfl (by decide) (by decide) rfl

theorem wit_RampTokens (n : Nat) :
    (Safety.shaped (ramps .active n 0) ∧ ((ramps .active n 0).bay 0).task = none ∧ ((ramps .active n 0).bay 0).ramp = .active ∧
      ((ramps .active n 0).bay 0).running = none ∧ (ramps .active n 0).stew.tokenWait.getD (tileOf 0).val [] = [] ∧
      (ramps .active n 0).stew.tokens.getD (tileOf 0).val 0 = n) ∧
    (Safety.shaped (ramps .off 0 1) ∧ 0 < (ramps .off 0 1).stew.tokensOut.getD (tileOf 0).val 0 ∧
      (ramps .off 0 1).stew.tokenWait.getD (tileOf 0).val [] = []) ∧
    (Safety.shaped (ramps .down 0 1) ∧ ((ramps .down 0 1).bay 0).ramp = .down ∧ ((ramps .down 0 1).bay 0).tileQueue = []) :=
  ⟨⟨ramps_shaped _ _ _, rfl, rfl, rfl, rfl, rfl⟩, ⟨ramps_shaped _ _ _, by decide, rfl⟩, ramps_shaped _ _ _, rfl, rfl⟩

/-- A mover descriptor from 0x10000 to 0x20000. -/
def move1 (cop flags count ss ds rows cols : Nat) : List Byte :=
  [BitVec.ofNat 8 cop, BitVec.ofNat 8 flags, 0, 0] ++ bytesLE 4 count ++ bytesLE 8 0x10000 ++ bytesLE 8 0x20000 ++ bytesLE 4 ss ++
    bytesLE 4 ds ++ bytesLE 2 rows ++ bytesLE 2 cols ++ List.replicate 28 0
/-- Mover 0 of bay 0 holds one entry, which has run or not, or was halted before it. -/
def moverState (d : List Byte) (ran : Option (Option FaultInfo)) (halted : Option FaultInfo) : State :=
  bayWith { bay0 thread0 Thread.reset with
              moveIssued := 1, movers := [{ Mover.reset with queue := [entry1 d], ran := ran, halted := halted }, Mover.reset] }
    [(0x10000, 1), (0x10040, 2)]
theorem moverState_shaped (d : List Byte) (r : Option (Option FaultInfo)) (h : Option FaultInfo) : Safety.shaped (moverState d r h) :=
  shaped_of _ _ thread0 Thread.reset rfl rfl rfl rfl (by decide) (by decide) rfl
theorem moverState_canonical (d : List Byte) (r : Option (Option FaultInfo)) (h : Option FaultInfo) :
    Safety.canonical (moverState d r h) := ⟨rfl, rfl⟩
theorem moverState_head (d : List Byte) : Safety.headOf (moverState d none none) 0 0 task0 (entry1 d) :=
  ⟨rfl, rfl, ⟨[], rfl⟩, rfl, rfl⟩

/-- LINEAR, TILE, and PACK and UNPACK of a 3 by 5 matrix with TRANS. -/
theorem wit_MoverEntries : ∀ d ∈ [move1 1 0 2 0 0 0 0, move1 2 0 1 16384 16384 0 0, move1 3 2 0 64 16384 3 5, move1 4 2 0 16384 64 3 5],
    Safety.shaped (moverState d none none) ∧ Safety.canonical (moverState d none none) ∧ Safety.clean (moverState d none none) ∧
    Safety.headOf (moverState d none none) 0 0 task0 (entry1 d) ∧ (moverState d none none).moverBusy 0 0 = false ∧
    (∀ u, tagCoded ((moverState d none none).mem.tagOf u) = false) ∧ MoveDesc.isMove d = true ∧ MoveDesc.code d = false ∧
    (moverState d none none).moveCheck task0 d = none ∧ (moverState d none none).targetNode (MoveDesc.src d) = some 5 ∧
    (moverState d none none).targetNode (MoveDesc.dst d) = some 5 := by
  intro d hd
  refine ⟨moverState_shaped _ _ _, moverState_canonical _ _ _, ⟨rfl, rfl⟩, moverState_head d, rfl, fun u => (by simp [moverState, bayWith, Mem.tagOf, Mem.reset, tagCoded]), ?_⟩
  revert d; decide

theorem wit_MoverEntries_places : ∀ x ∈ MoveDesc.srcSpans (move1 1 0 2 0 0 0 0) ++ MoveDesc.dstSpans (move1 1 0 2 0 0 0 0),
    Safety.inT0T1 (moverState (move1 1 0 2 0 0 0 0) none none) (0x10000 + x.1) x.2 := by unfold Safety.inT0T1; decide

theorem wit_MoverEntries_failing : MoveDesc.isMove (move1 1 0 0 0 0 0 0) = true ∧
    (moverState (move1 1 0 0 0 0 0 0) none none).moveCheck task0 (move1 1 0 0 0 0 0 0) = some (0x0A04, false) ∧
    (moverState (move1 1 0 0 0 0 0 0) none none).moveLeft task0 (move1 1 0 0 0 0 0 0) = false ∧
    ((moverState [] (some none) none).thr 0 0).exited = false ∧ (moverState [] (some none) none).moverBusy 0 0 = false := by decide

/-- A DENSE cell descriptor of two rows: X 2 wide at 0x1000, H 3 at 0x2000, OUT at 0x3000, bfloat16 weights in a grant. -/
def cellWeights : Nat := t1Base + 0x200000
def cell1 (form : Nat) : List Byte :=
  [0x40, BitVec.ofNat 8 form, 0x64, 0, 2, 2] ++ bytesLE 2 2 ++ bytesLE 2 3 ++ bytesLE 2 0 ++ bytesLE 2 2 ++ [0, 0] ++ bytesLE 8 0x1000 ++
    bytesLE 8 cellWeights ++ bytesLE 8 0x2000 ++ bytesLE 8 0 ++ bytesLE 8 0x3000 ++ bytesLE 2 64 ++ bytesLE 2 64 ++ bytesLE 2 64 ++ [0, 0]
def cellBay (form : Nat) : Bay :=
  { bay0 thread0 Thread.reset with
      ramp := .active, moveIssued := 1, movers := [{ Mover.reset with queue := [entry1 (cell1 form)] }, Mover.reset] }
def cellState (form : Nat) : State :=
  { bayWith (cellBay form) [(0x1000, 0x80), (0x1001, 0x3F)] with
    quota := { run1.quota with
      grants := [{ home := 5, asn := 7, tenant := 0, tier := 1, kind := .scratch 0 1, base := cellWeights, size := 0x100000 }] } }

theorem wit_CellSteps : Safety.shaped (cellState 2) ∧ Safety.headOf (cellState 2) 0 0 task0 (entry1 (cell1 2)) ∧
    fieldLE (entry1 (cell1 2)).desc 0 1 = 0x40 ∧ CellDesc.slots (cell1 2) = false ∧ (cellState 2).cellCheck 0 task0 (cell1 2) = none ∧
    ((cellState 2).bay 0).tilesDone = true ∧ ((cellState 2).bay 0).drain = none ∧ ((cellState 2).bay 0).ramp = .active ∧
    (∃ q, (cellState 2).cellData task0 (cell1 2) [] = .ok q) ∧ 0 < CellDesc.bV (cell1 2) ∧
    CellDesc.sAddr (cell1 2) + CellDesc.bV (cell1 2) * CellDesc.sStride (cell1 2) ≤ CellDesc.out (cell1 2) ∧
    CellDesc.outBytes (cell1 2) ≤ CellDesc.outStride (cell1 2) ∧ CellDesc.rowBytes (cell1 2) ≤ CellDesc.sStride (cell1 2) ∧
    Fmt.f32.decode 0x7FC00001 = .nan :=
  ⟨shaped_of _ (cellBay 2) thread0 Thread.reset rfl rfl rfl rfl (by decide) (by decide) rfl, ⟨by decide, rfl, ⟨[], rfl⟩, rfl, rfl⟩,
   by decide, by decide, by decide, by decide, by decide, by decide, ⟨_, rfl⟩, by decide⟩

/-- The same step over slots 0 and 1 of bay 0, with no state to read: the slot list stands at 0x2000, and STAGE at 0x4000. -/
def cellS : List Byte := overlay ((cell1 2).set 3 1) 0x28 (bytesLE 8 0x4000)
def slotted : State :=
  { cellState 2 with
    bays := { cellBay 2 with movers := [{ Mover.reset with queue := [entry1 cellS] }, Mover.reset] } :: List.replicate 79 Bay.reset,
    mem := { Mem.reset with cells := [(0x1000, 0x80), (0x1001, 0x3F), (0x2003, 0x80), (0x200B, 0x80), (0x200C, 1)] },
    cfg := { ready.cfg with
      programs := [{ program1 with streamClass := some 0 }],
      pers := { ready.cfg.pers with classes := [{ present := true, slotSize := 64, form := 2, fmtS := 6, h := 3, slotsPerBay := 2, idleMs := 0 }] } },
    req := { run1.req with table := [reqAt (desc1 0 0) .context] },
    str := { Streams.reset with slots := [⟨0, 0, 0, .reserved 7 5⟩, ⟨0, 0, 1, .reserved 7 5⟩] } }
theorem wit_CellSteps_slots : Safety.shaped slotted ∧ Safety.clean slotted ∧ Safety.headOf slotted 0 0 task0 (entry1 cellS) ∧
    fieldLE (entry1 cellS).desc 0 1 = 0x40 ∧ CellDesc.slots cellS = true ∧ slotted.cellCheck 0 task0 cellS = none ∧
    (slotted.bay 0).tilesDone = true ∧ (slotted.bay 0).drain = none ∧ (slotted.bay 0).ramp = .active ∧
    (∃ q, slotted.cellData task0 cellS (slotted.slotRefs cellS) = .ok q) ∧
    slotted.readEnd (CellDesc.sAddr cellS) (8 * CellDesc.bV cellS) = .ok ∧ (slotted.slotRefs cellS).head?.isSome = true ∧
    task0.home = slotted.net.nodeId ∧ (slotted.reqOf task0.wu.asn).isSome = true ∧
    (cellState 2).cellCheck 0 task0 ((cell1 2).set 1 3) = some 0x0801 :=
  ⟨shaped_of _ { cellBay 2 with movers := [{ Mover.reset with queue := [entry1 cellS] }, Mover.reset] } thread0 Thread.reset rfl rfl rfl rfl
     (by decide) (by decide) rfl, ⟨rfl, rfl⟩, ⟨by decide, rfl, ⟨[], rfl⟩, rfl, rfl⟩,
   by decide, by decide, by decide, by decide, by decide, by decide, ⟨_, rfl⟩, by decide⟩

def kvStage : StageCfg := { stage1 with layersKv := 1, kvFmt := 4, d := 64, appendMax := 4, ctxPerEvent := 1, slotsPerTask := 1 }
def kvProgram : Program := { program1 with stages := [kvStage] }
/-- A KV descriptor of layer 0, row 0: K rows at 0x1000 and V rows at 0x2000. -/
def kv1 (op count : Nat) : List Byte :=
  [BitVec.ofNat 8 op, 0, 4, 0] ++ bytesLE 4 0 ++ bytesLE 2 count ++ List.replicate 6 0 ++ bytesLE 8 0x1000 ++ bytesLE 8 0x2000 ++
    bytesLE 4 64 ++ bytesLE 4 64 ++ List.replicate 24 0
/-- The record of future 0 holds two positions, and they lie in slot 1 of bay 0. -/
def kvRec1 : KvRec :=
  { id := 0, asn := 7, home := 5, stage := 0, future := some (0, 0), parent := none, inherit := 0, length := 2, pages := [[]],
    blocks := [(t1Base + 0x200000, t1Base + 0x201000)], tail := [some (t1Base + 0x200000, 2)], everBound := [true], live := true,
    stream := none, held := none, poolBlock := none }
def kvWork1 : KvWork :=
  { wu := task0.wu, home := 5, record := 0, row := 0, layer := 0, bay := 0, slot := 1, named := true, before := true, appended := 0, newPages := [], parked := none }
def kvBay (q : List QEntry) : Bay :=
  { bay0 thread0 Thread.reset with
      moveIssued := 1, landing := [.free, .bound 0 0 0 2], movers := [{ Mover.reset with queue := q }, Mover.reset] }
def kvState (y : Bay) : State :=
  { bayWith y [(0x1000, 7), (0x2000, 9), (0x7F8000, 1), (0x7F8040, 3), (0x7F8400, 2)] with
    cfg := { ready.cfg with programs := [kvProgram], pers := { ready.cfg.pers with landingKib := 64 } },
    kv := { Kv.reset with records := [kvRec1], work := [kvWork1], nextRec := 1 },
    req := { run1.req with table := [reqAt (desc1 0 0) .rolling] } }

theorem wit_KvRowsMove : ∀ d ∈ [kv1 0x50 1, kv1 0x51 2],
    let s := kvState (kvBay [entry1 d])
    (Safety.shaped s ∧ Safety.canonical s ∧ Safety.clean s ∧ Safety.headOf s 0 0 task0 (entry1 d)) ∧
    s.stageCfg task0.program task0.wu.stage = some kvStage ∧
    s.kvRecOf task0.home task0.wu.asn task0.wu.stage (rowKey (s.descOf task0.home task0.wu.asn) task0.wu (KvDesc.row d)) = some kvRec1 ∧
    s.kvCheck 0 task0 kvStage (some kvRec1) d = none ∧ s.workOf task0 (KvDesc.row d) (KvDesc.layer d) = some kvWork1 ∧
    kvWork1.bay = 0 ∧ kvWork1.named = true ∧ (0 < kvStage.d ∧ kvWork1.slot < (s.bay 0).landing.length) ∧
    KvDesc.kAddr d + KvDesc.count d * KvDesc.kStride d ≤ KvDesc.vAddr d ∧
    s.kvRecId 0 = some kvRec1 ∧ (s.landing 0 1).fill = 2 ∧ s.kvRoom kvRec1 kvStage 2 1 = true ∧
    (∀ j < 64, s.region (s.landingAddr 0 1 + 32 * j) = .t0) := by
  intro d hd s
  refine ⟨⟨shaped_of _ (kvBay [entry1 d]) thread0 Thread.reset rfl rfl rfl rfl (by decide) (by decide) rfl,
    ⟨rfl, rfl⟩, ⟨rfl, rfl⟩, rfl, rfl, ⟨[], rfl⟩, rfl, rfl⟩, ?_⟩
  revert d; decide

/-- The gather's two positions can be read, and 64 bytes come back of each. -/
theorem wit_KvRowsMove_gather : ∀ i < 2, ∀ v ∈ [true, false],
    (match (kvState (kvBay [])).readPosition kvWork1 kvRec1 kvStage v i with | .ok l => l.length | .error _ => 0) = 64 := by decide

/-- The work unit has appended one position, its threads have exited, and its movers are empty. -/
theorem wit_KvRowsMove_commit :
    let s : State := { kvState { Bay.reset with task := some task0, landing := [.free, .bound 0 0 0 3] } with
      kv := { Kv.reset with records := [kvRec1], work := [{ kvWork1 with appended := 1 }], nextRec := 1 } }
    (s.req.running.find? fun x => x.key == task0.wu && !x.kvDone) = some run0 ∧ s.wuQuiet run0 = true ∧ s.running = true ∧
      s.kvRecId 0 = some kvRec1 ∧ kvRec1.stream = none ∧ (s.stageCfg run0.program task0.wu.stage).isSome = true ∧
      ((0 : Nat), (0 : Fin 80)) ∈ run0.bays ∧ (s.bay 0).task = some task0 ∧ task0.home = run0.home ∧ task0.program = run0.program ∧
      kvRec1.held = none ∧ ∃ x ∈ s.kv.work, x.home = run0.home ∧ x.wu = task0.wu ∧ x.record = 0 ∧ x.bay = 0 :=
  ⟨rfl, by decide, by decide, rfl, rfl, by decide, by decide, rfl, rfl, rfl, rfl, _, List.mem_cons_self .., by decide⟩

/-! ## Witnesses: boot, resets, clocks, power and the Steward -/

theorem plain_shaped (s : State) (h : s.bays = State.reset.bays) (hr : okRest s = true) : Safety.shaped s :=
  shaped_of s Bay.reset Thread.reset Thread.reset h rfl rfl rfl (by decide) (by decide) hr

/-- The clock block changed, all else as in the booted state. -/
def clocked (f : Clk → Clk) : State := { ready with clk := f ready.clk }
def pllUp : State := { State.reset with clk := { Clk.reset with refQualified := true, pllEnabled := true, pllLocked := true } }

theorem wit_ColdBoot :
    (clocked fun c => { c with pwrOk := false }).clk.pwrOk = false ∧
    (let s := clocked fun c => { c with pendingReset := .cold 8 }
     s.clk.pendingReset = .cold 8 ∧ s.clk.pwrOk = true ∧ s.clk.heldInReset = false ∧ (∀ f ∈ s.boot.flashOps, f.isAnchor = false)) ∧
    ((clocked fun c => { c with heldInReset := true }).clk.pwrOk = true ∧ (clocked fun c => { c with heldInReset := true }).clk.heldInReset = true) ∧
    (Safety.shaped State.reset ∧ (State.reset.advance 10).alive = true ∧ (State.reset.advance 10).clk.refLost = false ∧
      (State.reset.advance 10).boot.phase = .refWait) ∧
    (let s : State := { State.reset with clk := { Clk.reset with refQualified := true, pllEnabled := true }, boot := { Boot.reset with phase := .pllWait } }
     Safety.shaped s ∧ s.clk.pwrOk = true ∧ s.clk.pllEnabled = true ∧ s.clk.pllLocked = false ∧ s.clk.refLost = false ∧
      s.clk.clockLoss = false ∧ s.boot.phase = .pllWait) ∧
    (∀ p ∈ [BootPhase.bist, BootPhase.verify], let s : State := { pllUp with boot := { Boot.reset with phase := p } }
     Safety.shaped s ∧ s.boot.phase = p ∧ s.clk.pllLocked = true) :=
  ⟨rfl, by decide, by decide, ⟨reset_shaped, by decide⟩, ⟨plain_shaped _ rfl rfl, by decide⟩,
   fun _ _ => ⟨plain_shaped _ rfl rfl, rfl, rfl⟩⟩

def weight1 : ManifestEntry :=
  { objectId := 4, fromPeer := true, fromHost := true, bytes := 3, hostAddr := 0, t1Offset := 0x1000, hash := sha384Val [1, 2, 3] }
def weighs (w : WeightState) (p : BootPhase) (done : Bool) : State :=
  { ready with cfg := { ready.cfg with manifest := [weight1] }, boot := { ready.boot with weights := [w], weightsDone := done, phase := p } }

theorem wit_BootLoadsWeights :
    (∀ w p d, Safety.canonical (weighs w p d) ∧ (weighs w p d).clk.pllLocked = true ∧ (weighs w p d).cfg.manifest[0]? = some weight1 ∧
      (weighs w p d).boot.weights[0]? = some w ∧ (weighs w p d).boot.phase = p ∧ (weighs w p d).boot.weightsDone = d ∧
      (weighs w p d).boot.locked = true ∧ (weighs w p d).cfg.listed weight1.objectId = []) ∧
    Safety.inT0T1 (weighs .pending .weights false) ((weighs .pending .weights false).weightAddr weight1) (max 1 weight1.bytes) ∧
    ([1, 2, 3].length = weight1.bytes ∧ sha384Val [1, 2, 3] = weight1.hash) ∧
    (let s : State := { weighs .pending .hbm false with boot := { ready.boot with phase := .hbm, verified := some Cfg.zero } }
     Safety.canonical s ∧ s.clk.pllLocked = true ∧ s.boot.verified = some Cfg.zero ∧ s.boot.phase = .hbm) ∧
    (let s : State := { ready with cfg := { ready.cfg with header := { ready.cfg.header with svn := 3 } } }
     Safety.canonical s ∧ s.clk.pllLocked = true ∧ s.pending = [] ∧ s.running = true ∧ s.boot.fuseFloor < s.cfg.header.svn) :=
  ⟨fun _ _ _ => ⟨⟨rfl, rfl⟩, rfl, rfl, rfl, rfl, rfl, rfl, rfl⟩, by unfold Safety.inT0T1; decide, ⟨rfl, rfl⟩, ⟨⟨rfl, rfl⟩, rfl, rfl, rfl⟩,
   ⟨by decide, by decide⟩, by decide⟩

theorem wit_ResetsAreAsked :
    let s : State := { clocked (fun c => { c with btnDown := true }) with
      aud := { Audit.reset with head := some 4 }, boot := { ready.boot with commitResetAt := some 50 } }
    s.alive = true ∧ s.boot.phase = .ready ∧ s.clk.pstate ≠ .p3 ∧ s.clk.p3Entering = false ∧ s.clk.pendingReset = .none ∧
      s.clk.warmInProgress = false ∧ s.clk.btnDown = true ∧ s.clk.btnIgnored = false ∧ s.aud.head = some 4 ∧ s.clk.pllLocked = true ∧
      s.boot.commitResetAt = some 50 ∧ (s.advance 49).clk.devTime < 50 ∧ 50 ≤ (s.advance 50).clk.devTime ∧ (s.dueAnchor 4).isSome = true := by
  decide

/-- A warm reset is due while one request rolls, one has failed, and one has completed. -/
def warmDue (fatal : List Nat) : State :=
  { runs thread0 Thread.reset with
    clk := { ready.clk with pendingReset := .warm 3 }, err := { ready.err with fatal := fatal },
    req := { Reqs.reset with table := [req0, { req0 with asn := 8, failed := true, status := 0x31 }, { req0 with asn := 9, phase := .complete }],
                             running := [run0] } }

theorem wit_WarmResetAborts :
    (∀ l, Safety.shaped (warmDue l)) ∧ ((warmDue []).req.table.map (·.asn)).Nodup ∧ (warmDue []).alive = true ∧
    (warmDue []).clk.pendingReset = .warm 3 ∧ (warmDue []).clk.pllLocked = true ∧ (warmDue []).clk.refLost = false ∧
    (warmDue []).clk.pstate ≠ .p3 ∧ (warmDue []).clk.thermtrip = false ∧ (warmDue []).err.fatal.all warmLeaves = true ∧
    (warmDue [0x1236]).err.fatal.all warmLeaves = false ∧ (∃ r ∈ (warmDue []).req.table, r.phase ≠ .complete) ∧
    (Safety.shaped (clocked fun c => { c with warmInProgress := true }) ∧ (clocked fun c => { c with warmInProgress := true }).alive = true) :=
  ⟨fun _ => shaped_of _ (bay0 thread0 Thread.reset) _ _ rfl rfl rfl rfl (by decide) (by decide) rfl, by decide, by decide, rfl, rfl, rfl,
   by decide, rfl, rfl, rfl, by decide, plain_shaped _ rfl rfl, by decide⟩

theorem wit_ClockEvents : ∀ n ∈ [14, 15],
    let s := clocked fun c => { c with glitchTimes := List.replicate n 100 }
    Safety.shaped s ∧ s.alive = true ∧ s.clk.devTime < 200 ∧ s.clk.glitchTimes.countP (fun x => decide (200 < x + 1000000)) = n ∧
      s.clk.refQualified = true ∧ s.clk.pllLocked = true ∧ s.clk.refDrift = false ∧ s.clk.refLost = false ∧ s.clk.pstate ≠ .p3 ∧
      (clocked fun c => { c with refDrift := true }).clk.refDrift = true := by
  intro n hn
  refine ⟨plain_shaped _ rfl rfl, ?_⟩
  revert n; decide

/-- Idle since time 0, with an idle dwell of 10 µs and a P3 dwell of 1 ms. -/
def idling (f : Clk → Clk) : State :=
  { clocked f with cfg := { ready.cfg with policy := { ready.cfg.policy with idleDwellUs := 10, p3Enable := true, p3DwellMs := 1 } } }
def asleep : State :=
  { idling (fun c => { c with pstate := .p3, pllLocked := false, pllEnabled := false, railLowUntil := some 1000, aonTimerAt := some 50 }) with
    pins := { ready.pins with swRailEn := false }, truss := List.replicate 12 { Port.reset with state := .listen } }

theorem wit_PowerStates :
    (let s1 := (idling fun c => { c with idleSince := some 0 }).advance 10000
     Safety.shaped (idling fun c => { c with idleSince := some 0 }) ∧ s1.clk.idleSince = some 0 ∧ s1.running = true ∧ s1.clk.pstate = .p0 ∧
      s1.idle = true ∧ (∀ y ∈ s1.bays, y.ramp = .off) ∧ 0 + 1000 * s1.cfg.policy.idleDwellUs ≤ s1.clk.devTime) ∧
    (Safety.shaped (idling fun c => { c with pstate := .p2, p2Since := some 0 }) ∧
      ((idling fun c => { c with pstate := .p2, p2Since := some 0 }).advance 1000000).mayP3 = true ∧
      (idling fun c => { c with pstate := .p2, p2Since := some 0 }).clk.p3Entering = false) ∧
    (let s : State := { idling (fun c => { c with pstate := .p2, p2Since := some 0, p3Entering := true }) with
                        truss := List.replicate 12 { Port.reset with state := .listen }, aud := { Audit.reset with head := some 4 } }
     Safety.shaped s ∧ (s.advance 1000000).p3Ready = true) ∧
    (Safety.shaped asleep ∧ (asleep.advance 50).clk.pstate = .p3 ∧ (asleep.advance 50).due (asleep.advance 50).clk.aonTimerAt = true ∧
      (asleep.advance 1000).due (asleep.advance 1000).clk.railLowUntil = true ∧ asleep.advance 0 = asleep ∧ asleep.host.linkUp = true ∧
      (asleep.port 3).state = .listen ∧ asleep.alive = true ∧ asleep.clk.btnIgnored = false ∧ asleep.boot.phase ≠ .safe) ∧
    (let s : State := { asleep with clk := { asleep.clk with wakeLatched := true, railLowUntil := none }, pins := ready.pins }
     Safety.shaped s ∧ (s.advance 2000).clk.pstate = .p3 ∧ (s.advance 2000).alive = true ∧ (s.advance 2000).clk.wakeLatched = true ∧
      (s.advance 2000).pins.swRailEn = true ∧ (s.advance 2000).clk.refLost = false ∧ (s.advance 2000).clk.thermtrip = false ∧
      (s.advance 2000).clk.held = []) :=
  ⟨⟨plain_shaped _ rfl rfl, by decide, by decide, by decide, by decide, by decide, by decide⟩, ⟨plain_shaped _ rfl rfl, by decide⟩,
   ⟨plain_shaped _ rfl rfl, by decide⟩, ⟨plain_shaped _ rfl rfl, by decide, by decide, by decide, rfl, by decide⟩, plain_shaped _ rfl rfl, by decide⟩

/-- Tile 1 rises to its fastest divider. -/
def rises : State :=
  clocked fun c => { c with tiles := c.tiles.set 1 { ready.tile 1 with div := 3, confirmed := 700, step := some ⟨0, 850⟩ } }
theorem wit_DividerSteps : Safety.shaped rises ∧ (rises.tile (1 : Fin 4).val).step = some ⟨0, 850⟩ ∧ rises.wantedDiv (1 : Fin 4).val = 0 ∧
    (rises.tile 1).rising = true := ⟨plain_shaped _ rfl rfl, by decide⟩

theorem wit_BudgetsAndTunables :
    (Safety.shaped ready ∧ (ready.advance 300000).running = true ∧ 300000 % 100000 = 0 ∧ 300000 % 1000000 ≠ 0 ∧
      (∃ i < 96, ((List.replicate 96 (some 351) : List (Option Int)).getD i none).isSome = true) ∧
      (({ ready with err := { ready.err with fatal := [0x1230] } } : State).advance 300000).isFatal = true) ∧
    ((ready.advance 1000000).running = true ∧ 1000000 % 1000000 = 0) :=
  ⟨⟨ready_shaped, by decide, by decide, by decide, ⟨0, by decide⟩, by decide⟩, by decide⟩

theorem wit_EstimatorsAndHbm : (ready.advance 500).running = true ∧ Safety.shaped ready ∧
    ([some 1000, none] : List (Option Nat)).getD 0 none = some 1000 ∧ ([900] : List Nat).getD 0 0 ≠ 0 ∧
    ([some 1000, none] : List (Option Nat)).getD 1 none = none ∧ Safety.shaped run1 ∧ (run1.advance 500).running = true ∧
    (run1.bay 0).task = some task0 :=
  ⟨by decide, ready_shaped, by decide, by decide, by decide, run1_shaped, by decide⟩

theorem wit_FencesAndFatalCauses :
    (Safety.shaped run1 ∧ run1.running = true ∧ run1.plumb.running = false ∧ (run1.bay 0).fenced = false ∧ (run1.bay 0).task = some task0 ∧
      run1.runOf task0.home task0.wu = some run0 ∧ (task0.idx, (0 : Fin 80)) ∈ run0.bays ∧ run0.kvDone = false) ∧
    ((run1.advance 1000001).running = true ∧ run1.isFatal = false ∧ task0.started + task0.limit < (run1.advance 1000001).clk.devTime ∧
      task0.home = run1.net.nodeId ∧ run1.reqOf task0.wu.asn = some req0 ∧ req0.failed = false ∧ req0.phase ≠ .complete) ∧
    (run1.alive = true ∧ 0x1230 ≤ (0x1230#16).toNat ∧ (0x1236#16).toNat ≤ 0x1236) :=
  ⟨⟨run1_shaped, by decide, rfl, rfl, rfl, rfl, by decide, rfl⟩, ⟨by decide, by decide, by decide, rfl, rfl, rfl, by decide⟩, by decide⟩

/-! ## Witnesses: the mailbox, host registers, counters, far memory and the plumb test -/

/-- Every function page holds these mailbox arguments. -/
def mailing (args : List Byte) : State :=
  { work with host := { work.host with pages := List.replicate 16 { FnPage.reset with mbxArgs := fit 64 args, busMaster := true, vfEnabled := true } },
              cfg := { work.cfg with policy := { work.cfg.policy with capW := 600 } } }
theorem mailing_shaped (args : List Byte) : Safety.shaped (mailing args) := plain_shaped _ rfl rfl
def job (f : Fin 16) (id : Nat) (args : List Byte) (dma : Option (List Byte)) : MbxJob :=
  { f := f, id := id, seq := 9, args := fit 64 args, dma := dma }
theorem mailing_starts (f : Fin 16) (id : Nat) (args : List Byte) (dma : Option (List Byte)) (hf : (mailing args).reachable f = true)
    (hp : (mailing args).page f = { FnPage.reset with mbxArgs := fit 64 args, busMaster := true, vfEnabled := true }) :
    Safety.mailbox (mailing args) f id 9 dma (job f id args dma) := by
  refine ⟨hf, rfl, rfl, rfl, ?_, ?_, ?_⟩ <;> rw [hp] <;> rfl

/-- SET_TUNABLE of the power cap to 500 W and to 700 W; the rest by their arguments. -/
theorem wit_MailboxCommandResults :
    (∀ p ∈ [((0x01 : Nat), ([] : List Byte)), (0x02, [1, 0, 0, 0, 0, 0, 0, 0, 0xF4, 1]), (0x02, [1, 0, 0, 0, 0, 0, 0, 0, 0xBC, 2]),
        (0x03, [0]), (0x03, [1]), (0x03, [2]), (0x04, []), (0x20, []), (0x30, []), (0x31, []), (0x60, [77]), (0x60, [77, 0, 0, 0, 0, 0, 0, 0, 1])],
      Safety.shaped (mailing p.2) ∧ Safety.mailbox (mailing p.2) 0 p.1 9 none (job 0 p.1 p.2 none) ∧
        (mailing p.2).mbxDenied (job 0 p.1 p.2 none) = none) ∧
    ((mailing []).tunableOk 1 500 = true ∧ (mailing []).tunableOk 1 700 = false ∧ (mailing []).tun.gen < 0xFFFFFFFF ∧
      (mailing []).clk.pendingReset = .none ∧ (mailing []).clk.warmInProgress = false ∧ (mailing []).clk.timeDegraded = false ∧
      (mailing []).running = true ∧ (mailing []).asleep = false ∧ (mailing []).boot.phase = .ready) ∧
    (Safety.mailbox (mailing [1]) 0 0x04 9 none (job 0 0x04 [1] none) ∧ (mailing [1]).mbxDenied (job 0 0x04 [1] none) = some 0x82) ∧
    (let s := (mailing []).modPage 0 fun p => { p with mbxBusy := true }
     Safety.shaped s ∧ s.reachable 0 = true ∧ (s.page 0).mbxBusy = true) ∧
    (let s : State := { mailing [1] with req := { Reqs.reset with quiesced := true, quiesceWait := some (0, 9) },
                                         host := { (mailing [1]).host with mbxRunning := some (job 0 0x03 [1] none) } }
     Safety.shaped s ∧ s.req.quiesceWait.isSome = true ∧ s.host.mbxRunning = some (job 0 0x03 [1] none) ∧ s.running = true ∧
      s.admittedCount = 0 ∧ s.req.doneQ = [] ∧ s.host.mbxWaiting = [] ∧ (s.page 0).mbxDrop = false) := by
  refine ⟨?_, by decide, ⟨mailing_starts _ _ _ _ (by decide) rfl, by decide⟩, ⟨plain_shaped _ rfl rfl, by decide, by decide⟩,
    plain_shaped _ rfl rfl, by decide⟩
  intro p hp
  refine ⟨mailing_shaped _, ?_, ?_⟩
  · exact mailing_starts _ _ _ _ (by revert p; decide) rfl
  · revert p; decide

/-- STAGE_IMAGE of one sector into slot 1; SENTINEL_READ of 16 bytes. -/
theorem wit_MailboxImagesAndReads :
    (∀ p ∈ [((0x11 : Nat), ([0] : List Byte)), (0x40, [64, 0, 0, 0, 0, 0, 0, 0, 8, 0, 0, 0, 16]), (0x50, []), (0x70, [])],
      Safety.mailbox (mailing p.2) 0 p.1 9 none (job 0 p.1 p.2 none) ∧ (mailing p.2).mbxDenied (job 0 p.1 p.2 none) = none) ∧
    (∀ p ∈ [((1 : Nat), (true : Bool)), (0, false)],
      let a : List Byte := [BitVec.ofNat 8 p.1, 0, 0, 0, 0, 16, 0, 0, 0, 16]
      Safety.mailbox (mailing a) 0 0x10 9 (some []) (job 0 0x10 a (some [])) ∧ (mailing a).mbxDenied (job 0 0x10 a (some [])) = none ∧
        (mailing a).slotAllowed (fieldLE (job 0 0x10 a (some [])).args 0 1) = p.2 ∧ (mailing a).canSend 0 = true ∧
        (mailing a).boot.planned.slotState p.1 ≠ slotStaging) ∧
    (∀ o ∈ [FlashOp.anchorWrite 0 anchor0, .verify 1],
      let s : State := { ready with boot := { ready.boot with flashBusy := some o }, host := { ready.host with mbxRunning := some (job 0 0x11 [1] none) } }
      Safety.shaped s ∧ s.boot.flashBusy = some o ∧ s.clk.pllLocked = true ∧ s.host.mbxRunning = some (job 0 0x11 [1] none) ∧
        s.host.mbxWaiting = [] ∧ (s.page 0).mbxDrop = false) ∧
    (let s := mailing [64, 0, 0, 0, 0, 0, 0, 0, 8, 0, 0, 0, 16]
     s.canSend 0 = true ∧ s.sent.windowEnd = none ∧
      let u := { s with sent := { s.sent with muted := false, windowEnd := some 9 } }
      Safety.mailbox u 0 0x40 9 none (job 0 0x40 [64, 0, 0, 0, 0, 0, 0, 0, 8, 0, 0, 0, 16] none) ∧
        u.mbxDenied (job 0 0x40 [64, 0, 0, 0, 0, 0, 0, 0, 8, 0, 0, 0, 16] none) = none) := by
  refine ⟨?_, ?_, fun o _ => ⟨plain_shaped _ rfl rfl, rfl, rfl, rfl, rfl, rfl⟩, by decide, rfl, ⟨by decide, rfl, rfl, rfl, rfl, rfl, rfl⟩, by decide⟩
  · intro p hp
    refine ⟨mailing_starts _ _ _ _ (by revert p; decide) rfl, ?_⟩
    revert p; decide
  · intro p hp a
    refine ⟨mailing_starts _ _ _ _ (by revert p; decide) rfl, ?_⟩
    revert p; decide

theorem wit_HostRegisterWrites :
    (Safety.shaped work ∧ work.reachable 0 = true ∧ work.asleep = false ∧ (work.page 0).armed = true ∧ (work.page 0).armBit = true ∧
      ((64#32) - (work.page 0).reqHead).toNat ≤ 2 ^ (work.page 0).reqLog2.toNat ∧
      2 ^ (work.page 0).reqLog2.toNat < ((65#32) - (work.page 0).reqHead).toNat) ∧
    (Safety.shaped (mailing []) ∧ (mailing []).reachable 3 = true ∧ ((mailing []).page 3).armed = false ∧ ((mailing []).page 3).armBit = false) ∧
    (Safety.shaped (clocked fun c => { c with pstate := .p3 }) ∧ (clocked fun c => { c with pstate := .p3 }).reachable 0 = true ∧
      (clocked fun c => { c with pstate := .p3 }).asleep = true) ∧
    ¬ ((4 : Nat) = 4 ∧ 0x66 % 4 = 0 ∨ (4 : Nat) = 8 ∧ 0x66 % 8 = 0) :=
  ⟨⟨work_shaped, by decide⟩, ⟨mailing_shaped _, by decide⟩, ⟨plain_shaped _ rfl rfl, by decide⟩, by decide⟩

/-- A snapshot record at index 1 is in the ring. -/
theorem wit_HostRegisterWrites_load :
    let r : SnapRec := { index := 1, seq := 1, time := 0, trigger := 0, saved := true, epoch := 0, gen := 0, values := [] }
    let s : State := { work with cnt := { work.cnt with ring := [r] } }
    s.mem.poisoned (snapRingBase + 65536 * (1#10).toNat) 65536 = false ∧ s.cnt.ring.find? (fun x => x.index == (1#10).toNat) = some r :=
  ⟨by decide, rfl⟩

theorem wit_FunctionAndLinkResets :
    (Safety.shaped work ∧ work.reachable 0 = true ∧ work.clk.pwrOk = true ∧ work.host.linkUp = true ∧ work.asleep = false ∧ work.broaderReset = false ∧
      work.isSafe = false) ∧
    (let s := clocked fun c => { c with pstate := .p3, p3Entering := true }
     Safety.shaped s ∧ s.reachable 0 = true ∧ s.asleep = true) ∧
    (let s := clocked fun c => { c with pendingReset := .warm 3 }
     Safety.shaped s ∧ s.clk.pwrOk = true ∧ s.broaderReset = true) ∧
    (let s : State := { asleep with host := { ready.host with linkUp := false }, pins := { asleep.pins with perstN := true } }
     Safety.shaped s ∧ s.clk.pwrOk = true ∧ s.pins.perstN = true ∧ s.clk.pstate = .p3 ∧ s.clk.thermtrip = false ∧ s.host.linkUp = false) ∧
    (let s : State := { ready with host := { ready.host with linkUp := false }, pins := { ready.pins with perstN := true } }
     Safety.shaped s ∧ s.clk.pwrOk = true ∧ s.pins.perstN = true ∧ s.clk.pllLocked = true ∧ s.clk.thermtrip = false ∧ s.host.linkUp = false) :=
  ⟨⟨work_shaped, by decide⟩, ⟨plain_shaped _ rfl rfl, by decide⟩, ⟨plain_shaped _ rfl rfl, by decide⟩, ⟨plain_shaped _ rfl rfl, by decide⟩,
   plain_shaped _ rfl rfl, by decide⟩

theorem wit_SpdmSmbusAndTap : work.host.linkUp = true ∧ work.clk.pwrOk = true ∧ work.asleep = false ∧ work.isSafe = false ∧
    work.clk.pstate ≠ .p3 ∧ asleep.clk.pwrOk = true ∧ asleep.clk.pstate = .p3 ∧ work.reachable 3 = false ∧ work.reachable 0 = true ∧
    (∃ x, ({ work with cxl := { work.cxl with ports := [{ used := true, trained := true, rate := 32, width := 4 }] } } : State).cxl.ports[(0 : Fin 4).val]? =
      some x ∧ x.trained = true) ∧
    tapOffers true .extest = true ∧ tapOffers false .extest = false := by decide

theorem wit_CounterEvents :
    (Safety.shaped ready ∧ ready.countersRun = true ∧ ready.cnt.due = []) ∧
    (let s : State := { mailing [] with cnt := { ready.cnt with due := [1] }, host := { (mailing []).host with mbxRunning := some (job 3 0x30 [] none) } }
     Safety.shaped s ∧ s.countersRun = true ∧ s.cnt.due ≠ [] ∧ s.host.mbxRunning = some (job 3 0x30 [] none) ∧ s.host.mbxWaiting = [] ∧
      (s.page 3).mbxDrop = false) ∧
    (let s : State := { ready with cnt := { ready.cnt with due := [2, 0], winLen := 1000 }, tun := { Tun.reset with snapInterval := 50 } }
     Safety.shaped s ∧ s.countersRun = true ∧ s.cnt.due ≠ [] ∧ (s.advance 100000).countersRun = true ∧ s.tun.snapInterval ≠ 0 ∧
      100000 % (1000 * s.tun.snapInterval) = 0 ∧ s.cnt.winLen ≠ 0 ∧ 1000000 = s.cnt.winBase + 1000 * s.cnt.winLen * (s.cnt.winSeq + 1) ∧
      (s.advance 1000000).countersRun = true ∧ s.cnt.windows[3]? = some BwWindow.reset ∧ BwWindow.reset.base ≤ s.bwSource 3 ∧
      s.bwSource 3 < 2 ^ 48) :=
  ⟨⟨ready_shaped, by decide⟩, ⟨plain_shaped _ rfl rfl, by decide⟩, plain_shaped _ rfl rfl, by decide⟩

def farDev : CxlDev := { base := t2Base, gib := 64, port := 0, switchPort := 0, lost := false }
theorem wit_FarMemoryAndScrub :
    let s : State := { ready with cxl := { ready.cxl with devs := [farDev] } }
    (s.advance 50).running = true ∧ s.clk.pwrOk = true ∧ s.cxl.devs[(0 : Fin 4).val]? = some farDev ∧ farDev.lost = false ∧ s.running = true ∧
      (∀ a ∈ [t1Base + 70, t1Top - 1], t1Base ≤ a / 64 * 64 ∧ a / 64 * 64 < t1Top ∧ a / 64 * 64 ∉ s.mem.poison) ∧
      s.inLocked t1Base = true ∧
      (s.err.triple { cls := 0, source := 0x0C, inst := (0 : Fin 4).val, code := 0x0E22 }).written < 16 := by decide

def plumbTile1 : PlumbTile :=
  { round := 0, bay := some 20, step := 1, segment := 2, retry := false, yielded := false, waitingBay := false, finished := false, advance := [] }
def plumbing (x : PlumbTile) : State := { ready with plumb := { ready.plumb with running := true, tiles := ready.plumb.tiles.set 1 x } }
theorem wit_PlumbSteps :
    (Safety.shaped ready ∧ (ready.advance 77).running = true ∧ ready.isFatal = false ∧ ready.plumb.running = false) ∧
    ∀ x ∈ [plumbTile1, { plumbTile1 with waitingBay := true }, { plumbTile1 with retry := true }],
      Safety.shaped (plumbing x) ∧ (plumbing x).running = true ∧ (plumbing x).plumb.running = true ∧ (plumbing x).plumbTile (1 : Fin 4) = x ∧
        x.bay = some 20 ∧ ((plumbing x).bay 20).task = none ∧ x.step ≠ 0 ∧ x.step < 4 ∧ ((plumbing x).bay 20).fenced = false := by
  refine ⟨⟨ready_shaped, by decide⟩, ?_⟩
  intro x hx
  refine ⟨plain_shaped _ rfl rfl, rfl, rfl, rfl, ?_⟩
  revert x; decide

/-! ## Witnesses: Truss ports -/

theorem wit_FlitsRoundTrip :
    let h : FlitHead := { seq := 4095, ack := 4095, type := 4, vc := 3, crVc := 3, crCum := 4095, valid16 := 15, eom := true }
    h.seq < 4096 ∧ h.ack < 4096 ∧ h.type ≤ 4 ∧ h.vc < 4 ∧ h.crVc < 4 ∧ h.crCum < 4096 ∧ h.valid16 ≤ 15 ∧
      (List.replicate 240 (7 : Byte)).length = 16 * h.valid16 := by decide +kernel
theorem wit_FlitsRoundTrip_code : rsDecode [] = some ([], []) := by decide

def livePort : Port := { Port.reset with state := .active, rate := 1, rxSeq := 5, txSeq := 7 }
/-- Port 2 of the booted node stands as given. -/
def ported (p : Port) : State := { ready with truss := List.replicate 2 Port.reset ++ p :: List.replicate 9 Port.reset }
theorem ported_shaped (p : Port) (h : okRest (ported p) = true) : Safety.shaped (ported p) := plain_shaped _ rfl h

/-- A flit of a type with an expected number and a payload of whole 16-byte chunks. -/
def flit (type seq : Nat) (payload : List Byte) : Flit :=
  flitBytes { seq := seq, ack := 4095, type := type, vc := 1, crVc := 0, crCum := 0, valid16 := payload.length / 16, eom := false } payload
/-- A training set of TSTATE 5. -/
def set5 : TrainSet :=
  let b := [0x54, 0x52, 0x53, 0x53, 0, 3, 5, 3] ++ bytesLE 8 77 ++ bytesLE 8 88 ++ bytesLE 4 0x1FFFF ++ [0, 0]
  b ++ bytesLE 2 (crc16 b).toNat

def lane5 (f : TrainSet → TrainSet) : LaneSet := { lane := 0, bytes := f set5 }
theorem wit_PortTraining : (∀ st ∈ [PortState.parked, .detect, .eq, .align, .credit, .recovery],
      let s := ported { livePort with state := st }
      Safety.shaped s ∧ s.linkRuns = true ∧ (s.port 2).state = st ∧ (s.port 2).continuous = false ∧ s.clk.devTime < 500) ∧
    (TrainSet.upright (lane5 id).bytes).1.ok = true ∧ (TrainSet.upright (lane5 id).bytes).1.lane = (lane5 id).lane.val ∧
    5 ≤ (TrainSet.upright (lane5 id).bytes).1.tstate ∧ (TrainSet.upright (lane5 (·.set 9 4)).bytes).1.ok = false ∧
    (TrainSet.upright set5).1.lane ≠ (3 : Fin 17).val ∧ (TrainSet.upright (lane5 (·.map (· ^^^ 0xAA#8))).bytes) = (set5, true) ∧
    PortState.credit.training = true ∧ PortState.align.training = true := by
  refine ⟨fun st hst => ⟨ported_shaped _ rfl, rfl, rfl, rfl, (by decide : 0 < 500)⟩, by decide +kernel⟩

/-- The port has read the bits of a flit, from codewords that were all correctable or not. -/
def carries (f : Flit) (good : Bool) : State := ported { livePort with rxBits := [{ len := 2048, val := natBE f, good := good }] }
theorem carries_shaped (f : Flit) (g : Bool) : Safety.shaped (carries f g) := ported_shaped _ rfl

set_option maxRecDepth 20000 in
theorem wit_PortReceives :
    (∀ f g, Safety.shaped (carries f g) ∧ (carries f g).linkRuns = true ∧ ((carries f g).port 2).state = .active) ∧
    (((ported livePort).readWords 2 []).port 2).nextFlit = none ∧
    (∀ p ∈ [(flitData, List.replicate 32 (7 : Byte)), (flitIdle, []), (flitNak, []), (flitSilent, 2 :: List.replicate 15 0)],
      Safety.receives (carries (flit p.1 5 p.2) true) 2 [] (flit p.1 5 p.2) livePort p.1) ∧
    (∀ f ∈ [flit flitData 6 [], (flit flitIdle 5 []).set 20 9], Safety.reads (carries f true) 2 [] f true livePort) ∧
    Safety.reads (carries (flit flitIdle 5 []) false) 2 [] (flit flitIdle 5 []) false livePort ∧
    (flit flitData 5 (List.replicate 32 7)).head.eom = false ∧ Flit.good ((flit flitIdle 5 []).set 20 9) = false ∧
    Flit.good (flit flitData 6 []) = true ∧ (flit flitData 6 []).head.type = flitData ∧ (flit flitData 6 []).head.seq ≠ livePort.rxSeq ∧
    oldSeq 6 livePort.rxSeq = false ∧ (flit flitIdle 5 []).head.seq = livePort.rxSeq ∧
    (livePort.hear 0 (flit flitNak 5 []).head).replaysNoAck < 7 :=
  ⟨fun f g => ⟨carries_shaped f g, rfl, rfl⟩, by decide +kernel, by unfold Safety.receives Safety.reads; decide +kernel,
   by unfold Safety.reads; decide +kernel, by unfold Safety.reads; decide +kernel, by decide +kernel⟩

set_option maxRecDepth 20000 in
/-- HEALTH, SPARE, UNSPARE, RECONFIG and RESYNC; the port is new, or in DRAIN after a RESYNC of its own. -/
theorem wit_PortLanes :
    (∀ b ∈ [[1, 0, 0, 0, 0x11], [2, 3, 0, 0, 0, 0, 0, 0, 0, 0, 0, 0, 0x34], [3, 3], [4, 1, 2, 3], ([5] : List Byte)],
      Safety.receives (carries (flit flitLctl 5 (fit 16 b)) true) 2 [] (flit flitLctl 5 (fit 16 b)) livePort flitLctl ∧
        (flit flitLctl 5 (fit 16 b)).payload = fit 16 b) ∧
    (let s := ported { livePort with spareNext := some (3, 9, true), marginCount := 1, leader := false }
     Safety.shaped s ∧ s.linkRuns = true ∧ (s.port 2).state = .active ∧ (s.port 2).spareNext = some (3, 9, true) ∧
      (s.port 2).leader = false ∧ 0 < (s.port 2).marginCount ∧ (s.port 2).reached 9 = false) ∧
    (let s := ported { livePort with spareNext := some (3, 0, true) }
     (s.port 2).spareNext = some (3, 0, true) ∧ (s.port 2).reached 0 = true) ∧
    (let p := { livePort with leader := true, degraded := [.spare 3], healthyWindow := true, winMin := List.replicate 17 5 }
     let s := { ported p with cfg := { ready.cfg with fabric := { ready.cfg.fabric with ports := List.replicate 12 { PortCfg.zero with restoreS := 1 } } } }
     Safety.shaped s ∧ (s.port 2) = p ∧ (s.advance 1000000000).linkRuns = true ∧ (s.portCfg 2).restoreS ≠ 0 ∧ p.closed = false ∧
      p.spareNext = none ∧ p.lctl = [] ∧ p.degradedAt + 1000000000 * (s.portCfg 2).restoreS ≤ (s.advance 1000000000).clk.devTime ∧
      (p.undoLanes (.spare 3)).all (p.restored (s.portCfg 2)) = true) := by
  refine ⟨by unfold Safety.receives Safety.reads; decide +kernel, ⟨ported_shaped _ rfl, by decide⟩, by decide, ?_, by decide⟩
  exact ported_shaped { livePort with leader := true, degraded := [.spare 3], healthyWindow := true, winMin := List.replicate 17 5 } rfl

theorem wit_PortSends :
    (Safety.shaped (ported livePort) ∧ (ported livePort).linkRuns = true ∧ (ported livePort).port 2 = livePort ∧ livePort.state = .active ∧
      livePort.resend = [] ∧ livePort.silentLeft = 0 ∧ livePort.nakDue = false ∧ livePort.lctl = [] ∧ livePort.pickVc = none) ∧
    (let p := { livePort with vcq := [[], [], [{ bytes := List.replicate 300 9, sent := 0 }], []], discarding := true,
                              replayBuf := [⟨6, [1]⟩] }
     Safety.shaped (ported p) ∧ p.pickVc = some 2 ∧ ((p.vcq.getD 2 []).head?).isSome = true ∧ p.replayBuf.length < 512 ∧ p.discarding = true ∧
      p.replayBuf ≠ [] ∧ p.lastProgress + 1000 ≤ ((ported p).advance 1000).clk.devTime ∧ p.replaysNoAck < 7) ∧
    ({ livePort with resend := [⟨6, [1]⟩] } : Port).resend ≠ [] ∧
    ∀ st ∈ [PortState.recovery, .drain],
      Safety.shaped (ported { livePort with state := st }) ∧ ((ported { livePort with state := st }).port 2).state = st ∧
        ((ported { livePort with state := st }).port 2).silentLeft = 0 :=
  ⟨⟨ported_shaped _ rfl, by decide⟩, ⟨ported_shaped _ rfl, by decide⟩, by decide, fun _ _ => ⟨ported_shaped _ rfl, rfl, rfl⟩⟩

/-! ## Witnesses: the fabric -/

def lsaOfNode (o p : Nat) : Lsa :=
  { origin := BitVec.ofNat 8 o, seq := 1, chipNonce := 3, claimEpoch := 0, isStatic := true,
    adjs := [{ localPort := 2, peerPort := 2, peer := BitVec.ofNat 8 p, cost := 1 }] }
/-- Nodes 5 and 6 on port 2; a grant of node 6's request 40 lies here. -/
def pair : State :=
  { runs thread0 Thread.reset with
    cfg := { work.cfg with fabric := { work.cfg.fabric with fabricId := 5 } }, tun := work.tun, stew := work.stew,
    truss := List.replicate 2 Port.reset ++ livePort :: List.replicate 9 Port.reset,
    quota := { ready.quota with
      grants := [{ home := 6, asn := 40, tenant := 0, tier := 1, kind := .scratch 0 1, base := t1Base + 0x100000, size := 0x10000 }] },
    net := { ready.net with
      chipNonce := 1, lsdb := [⟨lsaOfNode 5 6, 0⟩, ⟨lsaOfNode 6 5, 0⟩], members := [5, 6], epochMembers := [5, 6],
      adjs := [{ port := 2, peerPort := 2, peer := 6, peerNonce := 3, lastHello := 0, epoch := 0 }] } }
theorem pair_shaped : Safety.shaped pair :=
  shaped_of _ (bay0 thread0 Thread.reset) _ _ rfl rfl rfl rfl (by decide) (by decide) rfl
theorem pair_canonical : Safety.canonical pair := ⟨by decide, by decide⟩
def head6 (tseq oseq arg : Nat) : Header :=
  { src := 6, dst := 5, otag := 0, attempt := 0, tseq := BitVec.ofNat 32 tseq, cack := 0, oseq := BitVec.ofNat 16 oseq, status := 0,
    epoch := 0, len := 0, arg := BitVec.ofNat 64 arg }
/-- The request with TSEQ 0 has been answered. -/
def again : State :=
  { pair with net := { pair.net with
      rxState := [{ src := 6, vc := 0, nonce := 3, next := 1, window := [], cached := [(0, [1, 2])], oseq := [(0, 1)], held := [] }] } }

/-- The request with OSEQ 1 came first, and is held. -/
def early : State :=
  { pair with net := { pair.net with
      rxState := [{ src := 6, vc := 0, nonce := 3, next := 0, window := [], cached := [], oseq := [], held := [(head6 1 1 0, .read)] }] } }

theorem wit_RequestsRunOnce : Safety.messageOf (.read (head6 0 0 0)) = some (head6 0 0 0, .read) ∧ pair.running = true ∧
    State.reset.running = false ∧ ({ head6 0 0 0 with status := 4 } : Header).status = 4 ∧ again.running = true ∧
    again.rxVerdict (head6 0 0 0) 0 = .again [1, 2] ∧ pair.rxVerdict (head6 5000 0 0) 0 = .drop ∧
    ({ head6 0 0 0 with src := 9 } : Header).src.toNat ∉ pair.memberSet ∧ pair.rxVerdict (head6 0 1 0) 0 = .hold ∧
    (pair.net.rx 6 0).holds (head6 0 1 0) = false ∧ pair.rxVerdict (head6 0 0 0) 0 = .run ∧ Safety.runs pair (head6 0 0 0) 0 ∧
    early.rxVerdict (head6 0 0 0) 0 = .run ∧ ((early.net.rx 6 0).done (head6 0 0 0)).nextHeld = some (head6 1 1 0, .read) := by
  unfold Safety.runs; decide +kernel

def pushHead : PushHeader :=
  { asn := 40, home := 6, coded := false, last := true, stage := 0, step := 0, wave := 0, offset := 16, total := 21 }
theorem wit_RemoteAccessesAtTheirHome : Safety.canonical pair ∧ Safety.clean pair ∧ pair.running = true ∧
    (let a := t1Base + 0x100008
     let h := head6 0 0 (a + 2 ^ 48 * 8)
     Safety.runs pair h 0 ∧ Safety.runs pair h 2 ∧ readAddr h.arg = a ∧ readLen h.arg = 8 ∧ a % 8 = 0 ∧ pair.region a = .t1 ∧
      pair.remoteStatus 6 a 8 .load = 0 ∧ pair.remoteStatus 6 a 8 .store = 0 ∧ pair.remoteStatus 6 a 8 .atomic = 0 ∧ AtomOp.ofCode (bits (0x44#8).toNat 0 6) = some .add ∧
      pushHead.coded = false ∧ (pushHead.home.toNat, pushWu pushHead) ∉ pair.req.doneWu ∧ pair.inGrants 6 40 (a + 16) 5 = true) ∧
    pair.remoteStatus 6 0x40 8 .store = 1 ∧ pair.remoteStatus 6 (t1Base + 64) 8 .store = 3 ∧ pair.remoteStatus 6 0x40 8 .load ≠ 0 :=
  ⟨pair_canonical, ⟨rfl, rfl⟩, by unfold Safety.runs; decide +kernel⟩

def tokenAsk (epoch : Nat) : TokenReq :=
  { home := 6, asn := 41, tenant := 0, epoch := BitVec.ofNat 32 epoch, formation := ⟨BitVec.ofNat 32 epoch, 1, [6, 5]⟩, desc := desc1 0 0,
    items := [⟨.scratch 0 1, 100⟩], gallery := none }
def token6 : TokenHeld := { asn := 41, home := 6, number := 0, leaseEpoch := 0, tenant := 0, formation := ⟨0, 1, [6, 5]⟩, desc := desc1 0 0, released := false, version := 0 }
def bar6 (home : Nat) : FabricBar :=
  { home := home, asn := 7, slot := 3, generation := 2, bar := { count := 3, arrived := 1, waiting := [(0, 1)] }, byNode := [(5, 1)], unsent := 2, sentAt := none }

/-- A KV pool without room for the page lists of node 6's request 41. -/
def poolFull : State :=
  { pair with
    cfg := { pair.cfg with programs := [kvProgram] },
    quota := { pair.quota with fixed := [{ tenant := 0, tier := 1, kind := .kvPool 1 0, base := t1Base + 0x300000, size := 0 }] },
    kv := { Kv.reset with records := [{ kvRec1 with asn := 41, home := 6, future := none, stream := some (0, 9, 1, 0) }] } }

theorem wit_FabricMessages_use :
    let s : State := { poolFull with net := { pair.net with leases := [⟨.token 41, 6, .granted, 0⟩] } }
    s.running = true ∧ Safety.runs s (head6 0 0 2) 0 ∧ s.leaseHeldBy (.token 41) 6 0 = true ∧ tokenAsn (.token 41) = some 41 ∧
      (head6 0 0 2).arg.toNat % 4 = 2 ∧ (head6 0 0 9).arg.toNat % 4 = 1 ∧ (head6 0 0 0).arg.toNat % 4 = 0 ∧ s.listRoom 6 41 = false ∧
      tokenAsn (.stream 0 7) = none := by unfold Safety.runs; decide +kernel

theorem wit_FabricMessages :
    (pair.running = true ∧ Safety.runs pair (head6 0 0 0) 0 ∧ Safety.runs pair (head6 0 0 0) 3) ∧
    (pair.leaseGrantable (.stream 0 7) 6 = true ∧ pair.leaseGrantable (.token 7) 6 = false ∧ pair.leaseHeldBy (.token 7) 6 0 = false ∧
      ({ pair with net := { pair.net with leases := [⟨.stream 0 7, 6, .granted, 0⟩] } } : State).leaseHeldBy (.stream 0 7) 6 0 = true) ∧
    (let s : State := { pair with bars := { pair.bars with fabric := [bar6 6, bar6 5] } }
     s.fabricBar 6 7 3 = bar6 6 ∧ s.fabricBar 5 7 3 = bar6 5 ∧ (bar6 6).generation % two32 = (2#32).toNat ∧ (s.reqOf 7).isSome = true ∧
      (((bar6 5).addArrivals 6 1).byNode.map (·.2)).sum < (bar6 5).bar.count ∧
      tseqAhead (2#32).toNat (bar6 6).generation < 2147483648 ∧ 2147483648 ≤ tseqAhead (1#32).toNat (bar6 6).generation ∧
      (0 < (bar6 5).bar.count ∧ (bar6 5).bar.count ≠ (7#32).toNat) ∧
      (s.reqOf 7).map (fun r => (r.failed, r.phase)) = some (false, .rolling)) ∧
    ((tokenAsk 9).formation.epoch.toNat ≠ pair.net.settled ∧ (tokenAsk 0).formation.epoch.toNat = pair.net.settled ∧
      pair.program 1 = some program1 ∧ (Safety.accepted pair (head6 0 0 0) 3).selfEligible program1 = true ∧
      ((Safety.accepted pair (head6 0 0 0) 3).grantToken 6 41 0 ⟨0, 1, [6, 5]⟩ (fit 128 (desc1 0 0)) [⟨.scratch 0 1, 100⟩] none).isSome = true ∧
      ((Safety.accepted { pair with tun := Tun.reset } (head6 0 0 0) 3).grantToken 6 41 0 ⟨0, 1, [6, 5]⟩ (fit 128 (desc1 0 0))
        [⟨.scratch 0 1, 100⟩] none) = none) ∧
    (pair.reqOf 41 = none ∧ pair.quota.tokens.all (fun k => !(k.home == 6 && k.asn == 41)) = true ∧
      ∃ k ∈ ({ pair with quota := { pair.quota with tokens := [token6] } } : State).quota.tokens, k.home = 6 ∧ k.asn = 41) ∧
    (let k := { token6 with desc := desc1 0 500 }
     let s : State := { pair with clk := { pair.clk with devTime := 501 }, quota := { pair.quota with tokens := [k] },
                                  req := { pair.req with running := [{ run0 with home := 6, key := ⟨41, 0, 0, .step 0⟩ }] } }
     s.stillRuns 6 41 = true ∧ k ∈ s.quota.tokens ∧ s.pastDeadline k.desc = true) ∧
    pair.program 2 = none ∧
    (pair.net.outstanding 6 3 < 4096 ∧ (weighs .verified .ready true).cfg.manifest[0]? = some weight1 ∧
      (weighs .verified .ready true).boot.weights[0]? = some .verified ∧ (weighs .pending .ready true).boot.weights[0]? ≠ some .verified) := by
  unfold Safety.runs; decide +kernel

def hello6 : Hello :=
  { port := 2, node := 6, isolated := false, timeDegraded := false, timeMasterOk := true, proto := 1, epoch := 0, chipNonce := 3, fabricId := 5,
    lsaSeq := 0, claimEpoch := 0, time := 0 }
theorem wit_FabricRecords :
    (Safety.shaped pair ∧ pair.linkRuns = true ∧ (pair.port 2).state = .active ∧ (pair.port 2).linkUp = true ∧ (pair.port 2).closed = false ∧
      pair.net.leftFabric = false ∧ (pair.advance 9).hears 2 = true ∧ pair.hears 2 = true ∧ pair.net.nodeId ≠ 0xFF) ∧
    (pair.helloOk hello6 = true ∧ pair.helloOk { hello6 with proto := 2 } = false ∧ (pair.net.adjOf 2).isSome = true ∧
      ({ pair.net with adjs := [] } : Net).adjOf 2 = none ∧ ((pair.net.adjOf 2).map (·.peer)) = some hello6.node.toNat ∧
      ((pair.net.adjOf 2).map (·.peerNonce)) = some hello6.chipNonce) ∧
    (pair.lsaAccepted (lsaOfNode 6 5) = false ∧ pair.net.lsaOf 9 = none ∧ (lsaOfNode 9 5).origin.toNat ≠ pair.net.nodeId ∧
      ({ lsaOfNode 5 6 with chipNonce := 1 } : Lsa).origin.toNat = pair.net.nodeId ∧ ({ lsaOfNode 5 6 with chipNonce := 1 } : Lsa).chipNonce = pair.net.chipNonce ∧
      (pair.net.lsaOf 6).map (fun l => (l.chipNonce, newer32 2 l.seq.toNat)) = some ((lsaOfNode 6 5).chipNonce, true) ∧
      pair.net.originates = true ∧ pair.net.nodeId < 256 ∧ (6#8).toNat ≠ pair.net.nodeId ∧ (pair.net.lsaOf 6).isSome = true ∧
      ({ pair.net with routesDirty := true } : Net).routesDirty = true) ∧
    (let r : EpochRec := { origin := 6, epoch := 7, members := [5, 6], time := 0 }
     (pair.judgeNew 3 r.origin.toNat r.epoch.toNat).isSome = true ∧ pair.net.adopts r = true ∧ (({ pair with net := { pair.net with freshFlood := [(3, 6, 7)] } } : State).judgeNew 3 6 7).isNone = true ∧
      r.members.foldl (fun acc m => insertNat acc m.toNat) [] = pair.memberSet ∧
      ({ r with members := [6] } : EpochRec).members.foldl (fun acc m => insertNat acc m.toNat) [] ≠ pair.memberSet) ∧
    (({ pair with net := { pair.net with epochCur := 4, members := [5] } } : State).advance 200000).settleDue = true ∧
    (let s : State := { pair with req := Reqs.reset }
     Safety.shaped s ∧ s.hears 2 = true ∧ s.req.table = [] ∧ (s.judgeNew 4 6 4).isSome = true ∧ (s.judgeNew 5 6 3).isSome = true) :=
  ⟨⟨pair_shaped, by decide +kernel⟩, by decide +kernel, by decide +kernel, by decide +kernel, by decide +kernel,
   shaped_of _ (bay0 thread0 Thread.reset) _ _ rfl rfl rfl rfl (by decide) (by decide) rfl, by decide +kernel⟩

def txn6 (p : Purpose) (vc attempt : Nat) : Txn :=
  { dst := 6, vc := vc, tseq := 3, attempt := attempt, sentAt := 0, purpose := p, bytes := List.replicate 32 0 }
def owed (x : Txn) : State := { pair with net := { pair.net with txns := [x] } }
def asking : Req := { reqAt (desc1 0 0) .tokens with askNodes := [6, 9], formation := some ⟨0, 1, [6, 9]⟩ }
theorem wit_FabricAnswers :
    (∀ x, Safety.shaped (owed x) ∧ (owed x).net.unsent = [] ∧ (owed x).running = true) ∧
    (∀ p ∈ [(Purpose.other, (0 : Nat)), (.load 0 0 9 4 false false 0, 0), (.steward 7, 3)],
      (owed (txn6 p.1 p.2 0)).net.txns.find? (fun y => y.dst == (6#8).toNat && y.vc == p.2 && y.tseq == (3#32).toNat) = some (txn6 p.1 p.2 0)) ∧
    (let s : State := { owed (txn6 (.steward 7) 3 0) with req := { Reqs.reset with nextAsn := 8, table := [asking] } }
     Safety.shaped s ∧ s.net.unsent = [] ∧ s.running = true ∧ s.reqOf (7#64).toNat = some asking ∧ asking.phase = .tokens ∧
      asking.askNodes = 6 :: 9 :: [] ∧ asking.formation = some ⟨0, 1, [6, 9]⟩ ∧ s.program asking.d.program = some program1 ∧ 9 ≠ s.net.nodeId ∧
      asking.askNodes.head? = some 6 ∧ (s.tenantCfg asking.f).failPolicy = false) ∧
    (((owed (txn6 .other 0 0)).advance 100000).running = true ∧ (txn6 .other 0 3).sentAt + 100000 ≤ ((owed (txn6 .other 0 3)).advance 100000).clk.devTime ∧
      6 ∈ (owed (txn6 .other 0 3)).memberSet ∧
      ∀ members ∈ [[5], [5, 6]], let s : State := { owed (txn6 .other 0 3) with net := { ready.net with members := members, txns := [txn6 .other 0 3] } }
        s.net.txns.find? (fun y => y.dst == (6#8).toNat && y.vc == (0#2).toNat && y.tseq == (3#32).toNat) = some (txn6 .other 0 3) ∧ 6 ∉ s.memberSet ∧
          (6 ∈ s.net.members ↔ members = [5, 6])) ∧
    (let s : State := { pair with
       bars := { pair.bars with fabric := [bar6 6] }, net := { pair.net with leases := [⟨.barrierSlot 7 3, 6, .held, 0⟩], timeParent := some 2 } }
     s.bars.fabric = [bar6 6] ∧ 6 ≠ s.net.nodeId ∧ 0 < (bar6 6).unsent ∧ s.net.holdsSlot 6 7 3 = true ∧ s.net.outstanding 6 3 < 4096 ∧
      (bar6 6).sentAt = none ∧ ({ bar6 6 with sentAt := some 0 } : FabricBar).sentAt = some 0 ∧ 0 + 1000 ≤ (s.advance 1000).clk.devTime ∧
      s.net.timeParent = some 2 ∧ (s.net.adjOf 2).isSome = true) ∧
    (let s := ported { livePort with vcq := [[], [{ bytes := [1, 9, 6] ++ List.replicate 29 0, sent := 0 }], [], []] }
     s.linkRuns = true ∧ (s.port 2).vcq[(1#2).toNat]? = some ({ bytes := [1, 9, 6] ++ List.replicate 29 0, sent := 0 } :: []) ∧
      fieldLE ([1, 9, 6] ++ List.replicate 29 0) 1 1 ≠ s.net.nodeId ∧ fieldLE ([1, 9, 6] ++ List.replicate 29 0) 2 1 ≠ 0xFF) :=
  ⟨fun _ => ⟨shaped_of _ (bay0 thread0 Thread.reset) _ _ rfl rfl rfl rfl (by decide) (by decide) rfl, rfl, rfl⟩, by decide,
   ⟨shaped_of _ (bay0 thread0 Thread.reset) _ _ rfl rfl rfl rfl (by decide) (by decide) rfl, rfl, rfl, rfl, rfl, rfl, rfl, by decide⟩,
   by decide +kernel⟩

/-! ## Witnesses: the sentinel and the invariants -/

def sent1 : SentCfg :=
  { glass := true, tones := true, wakeReq := false, unlockS := 3, postMs := 100, wakePulseMs := 5, deadCdb := -6000, selfCheckS := 10,
    chans := List.replicate 8 ⟨0, 0, true⟩, delays := List.replicate 4 (List.replicate 8 0), weights := List.replicate 4 (List.replicate 8 100),
    glassBeams := 15, flexThr := 1, flexMinMs := 10, shatterThr := 1, shatterMinMs := 10, winMinMs := 1, winMaxMs := 100, toneDefs := [],
    wakeDesc := List.replicate 128 0 }
/-- The sentinel runs, with this in its own state. -/
def listens (f : Sent → Sent) : State :=
  { ready with cfg := { ready.cfg with sentinel := some sent1 }, pins := { ready.pins with pdmClk := true, muteSwN := true },
               sent := f { ready.sent with enabled := true, muted := false, frameNo := 200 } }

theorem wit_SentinelEvents :
    (ready.sentCfg = none ∧ (listens id).sentCfg = some sent1 ∧ (listens id).pins.pdmClk = true ∧ (listens id).clk.pwrOk = true ∧
      (listens id).clk.heldInReset = false ∧ (listens id).pins.muteSwN = true ∧ (listens id).sent.freezeAtFrame = none ∧
      (∀ r ∈ (listens id).req.table, r.admitted = false) ∧ (sent1.chans[0]?).any (·.fitted) = true) ∧
    ((listens fun x => { x with freezeAtFrame := some 200 }).sent.freezeAtFrame = some 200 ∧ 200 ≤ (listens id).sent.frameNo ∧
      sent1.wakeReq = false ∧ (listens fun x => { x with warmupLeft := 3 }).sent.warmupLeft = 3) ∧
    (let s : State := { listens id with cfg := { ready.cfg with sentinel := some { sent1 with wakeReq := true } }, req := { ready.req with quiesced := true } }
     s.sentCfg = some { sent1 with wakeReq := true } ∧ s.canFetch = false) ∧
    (∀ at_ ∈ [4, 5], let s := listens fun x => { x with wakePulseUntil := some 5, windowEnd := some 5, unmuteAt := some 5 }
     s.sent.wakePulseUntil = some 5 ∧ s.sent.windowEnd = some 5 ∧ s.sent.unmuteAt = some 5 ∧ s.pins.muteSwN = true ∧
      (5 ≤ (s.advance at_).clk.devTime ↔ at_ = 5)) ∧
    (let s := listens fun x => { x with muted := true, erasing := true, unmuteAt := none }
     s.sent.erasing = true ∧ s.sent.muted = true ∧ s.sent.unmuteAt = none) ∧
    (let s : State := { listens id with clk := { ready.clk with heldInReset := true } }
     s.clk.pwrOk = true ∧ s.clk.heldInReset = true ∧ s.pins.muteSwN = true) := by decide

/-- A step that answers a next state: the round-trip of a mask register write, and an idle step. -/
theorem wit_StepsKeep : Safety.canonical ready ∧ Safety.shaped ready ∧ (∃ t, step ready = .next t) ∧
    (∃ t, step { ready with pending := [.perstNDeassert] } = .next t) :=
  ⟨⟨by decide, by decide⟩, ready_shaped, ⟨_, rfl⟩, ⟨_, rfl⟩⟩

/-! ## Ill-formed commands: one for each check of `Instr.wf` -/

def head0 : Header := ⟨6, 5, 0, 0, 0, 0, 0, 0, 0, 0, 0⟩
def train (width : Nat) : CxlTrain := { trained := true, rate32 := true, width := width }
def straps0 : Straps := ⟨0, 0, false⟩

theorem test_wf_descriptor : (Instr.descriptorFetch [0]).wf = false := by decide
theorem test_wf_thread_words :
    (Instr.trap w00 1 0 7).wf = false ∧ (Instr.pcmpEq w00 24 0 0).wf = false ∧ (Instr.lih w00 1 2 0).wf = false ∧
    (Instr.vopAdd w00 7 0 0 0).wf = false ∧ (Instr.vopFma w00 2 0 0 0).wf = false ∧ (Instr.vopShl w00 6 0 0 0).wf = false ∧
    (Instr.vopExp w00 6 0 0 1).wf = false ∧ (Instr.vcvt w00 0x10 0 0 0).wf = false ∧ (Instr.vcvt w00 9 0 0 0).wf = false ∧
    (Instr.vredSum w00 6 0 0 1).wf = false ∧ (Instr.ld w00 1 1 4 0).wf = false ∧ (Instr.vst w00 1 1 3 0).wf = false ∧
    (Instr.jr w00 0 1 1 0).wf = false := by decide
theorem test_wf_atomics :
    (Instr.atomLd w00 0 0 2 0).wf = false ∧ (Instr.atomSt w00 0 0 1 0).wf = false ∧ (Instr.atomCas w00 1 0 0 0).wf = false ∧
    (Instr.atomAdd w00 0 0 0xC 0).wf = false ∧ (Instr.atomAdd w00 0 0 0 2).wf = false ∧ (Instr.fenceB w00 0 0 1).wf = false ∧
    (Instr.barNode w00 0 0 1).wf = false ∧ (Instr.ctx w00 0 0 0 0x0C).wf = false := by decide
theorem test_wf_cxl :
    (Instr.pwrOkRise straps0 false (List.replicate 5 (train 4)) []).wf = false ∧
    (Instr.coldResetPerform straps0 false [train 3] []).wf = false ∧
    (Instr.sysRstNRelease straps0 false [train 4] [⟨1, none, false, true, false, true, true, 0⟩]).wf = false := by decide
theorem test_wf_power :
    (Instr.slotVerify (some 12) none).wf = false ∧ (Instr.fatalFault 0x1237).wf = false ∧
    (Instr.budgetWindowStart 0 [] [] []).wf = false ∧ (Instr.estimatorRecalibration 0 [] [] ⟨[], [], [], 0⟩).wf = false ∧
    (Instr.hbmTempPoll 0 []).wf = false := by decide
theorem test_wf_registers :
    (Instr.registerWrite 0 .csr 8 2 0 none).wf = false ∧ (Instr.registerWrite 0 .csr 4 8 0 none).wf = false ∧
    (Instr.configSpaceWrite (.msixMask 1 8 true)).wf = false ∧ (Instr.configSpaceWrite (.msixMask 0 2048 true)).wf = false := by
  decide
theorem test_wf_ports :
    (Instr.trainingSet 0 ⟨0, []⟩).wf = false ∧ (Instr.marginUpdate 0 []).wf = false ∧
    (∀ w ∈ ([[], [[]], List.replicate 4 []] : List LaneLevels), ∀ i ∈ [Instr.dataFlit 0 [w], .idle 0 [w], .nak 0 [w], .silent 0 [w],
      .health 0 [w], .spare 0 [w], .unspare 0 [w], .reconfig 0 [w], .resync 0 [w]], i.wf = false) := by decide
set_option maxRecDepth 4000 in
theorem test_wf_fabric :
    (Instr.lsa 0 { lsaOfNode 6 2 with adjs := List.replicate 13 ⟨0, 0, 0, 0⟩ } 0).wf = false ∧
    (Instr.epoch 0 ⟨6, 1, List.replicate 255 1, 0⟩ 0).wf = false ∧
    (Instr.tokenReq head0 { tokenAsk 0 with formation := ⟨0, 1, []⟩ }).wf = false ∧
    (Instr.tokenReq head0 { tokenAsk 0 with desc := [] }).wf = false ∧ (Instr.write head0 []).wf = false ∧
    (Instr.actPush head0 { pushHead with total := 1 } [1, 2]).wf = false := by decide
theorem test_wf_caps (r : Caps) (h : r.entries.length = 257) : (Instr.caps 0 r).wf = false := by
  show decide (r.entries.length ≤ 256) = false
  simp [h]
theorem test_wf_write (l : List Byte) (h : l.length = 4097) : (Instr.write head0 l).wf = false := by
  show (decide (1 ≤ l.length) && decide (l.length ≤ 4096)) = false
  simp [h]
theorem test_wf_sentinel :
    (Instr.sentinelFrameEnd 0 []).wf = false ∧ (Instr.micSelfCheck 0 []).wf = false ∧
    (Instr.patrolScrub 32 .clean).wf = false := by decide
theorem test_wf_illegal :
    (Instr.illegalInstr w00 0x50085800).wf = false ∧ (Instr.illegalInstr ⟨0, 0, 1, 0⟩ 0xF8000000).wf = false := by decide

/-! ## Words of Table 5.10 -/

theorem test_word_vst : decodeThreadWord 0 0 0x50085800#32 = some (.vst w00 4 5 4 0) := by decide
theorem test_word_atom_st : decodeThreadWord 0 0 0x800E6A41#32 = some (.atomSt w00 7 6 0xA 1) := by decide
theorem test_word_atom_ld : decodeThreadWord 0 0 0x80126940#32 = some (.atomLd w00 9 6 9 1) := by decide
theorem test_word_pcmp : decodeThreadWord 0 0 0x08029000#32 = some (.pcmpEq w00 1 9 0) := by decide
theorem test_word_br : decodeThreadWord 0 0 0x60BFFFFE#32 = some (.br ⟨0, 0, 1, 0⟩ 0x3FFFFE) := by decide

/-! ## Values the spec works out -/

/-- 04, the worked windows: charges of the latency and the batch work units. -/
theorem test_charges : chargeOf 1800 4096 4505 = 1980 ∧ chargeOf 240000 4096 5132 = 300704 ∧
    chargeOf 1800 3449 4505 = 1668 ∧ chargeOf 240000 3449 5132 = 253205 := by decide
/-- 04, the worked windows: t at 97.0, 94.5 and 96.0 °C. -/
theorem test_therm : thermOf 95 388 = 2 ∧ thermOf 95 378 = 0 ∧ thermOf 95 384 = 1 := by decide
/-- 00: bay 37's scratchpad. -/
theorem test_bay_37 : bayBase 37 = 0x12800000 := by decide
/-- 15: the formation record of the worked example. -/
theorem test_formation : formationBytes ⟨0x4B7, 7, [1, 2, 5, 6]⟩ = [0xB7, 4, 0, 0, 7, 4, 0, 1, 2, 5, 6] := by decide
/-- The published known answer of Philox4x32-10 for a zero key and counter. -/
theorem test_philox : philox4x32 0 (0, 0, 0, 0) = [0x6627E8D5, 0xE169C58D, 0xBC57AC4C, 0x9B00DBD8] := by decide
/-- 07: index 335 of the order of an 11 by 11 by 3 layer. -/
theorem test_taps : ({ Window'.parse [] with r := 11, s := 11, cg := 3 } : Window').taps[335]? = some (8, 9, 2) := by decide
/-- 11, Table 11.6: the code lengths of the worked histogram. -/
def hist11 : List Nat := (((((List.replicate 256 0).set 0 9000).set 0x38 3000).set 0x30 2000).set 0x28 1000).set 0x40 1384
set_option maxRecDepth 20000 in
theorem test_lengths : (fun l => (l.getD 0 0, l.getD 0x38 0, l.getD 0x30 0, l.getD 0x28 0, l.getD 0x40 0, l.sum)) (codeLengths hist11) =
    (1, 2, 3, 4, 4, 14) := by decide +kernel
end Sys2Proof.Tests
end

section
/-! Integer and immediate instructions (05, R131, Table 5.2): the effect that every instruction writing one general register has, and the
value that each of them writes. -/
namespace Sys2Proof.Machine
open Sys2Proof

/-! ## Writing one general register -/

/-- From `s` to `t` the issuing thread writes `v` to g[RD] (discarded for g0) and moves to the next instruction; nothing else changes. -/
def WritesGeneral (s t : State) (w : Issue) (rd : BitVec 5) (v : Word) : Prop :=
  (t.thr w.bay w.thread).gr rd = (if rd = 0 then 0 else v) ∧
  (t.thr w.bay w.thread).pc = (s.thr w.bay w.thread).pc + 4 ∧
  Frame.general (s.thr w.bay w.thread) (t.thr w.bay w.thread) rd ∧ Frame.outside s t w

@[simp] theorem Thread.started_gr (t : Thread) (write : Option RegName) (n : BitVec 5) : (t.started write).gr n = t.gr n := rfl
@[simp] theorem Thread.started_pc (t : Thread) (write : Option RegName) : (t.started write).pc = t.pc := rfl

theorem Thread.setG_eq_update_g (t : Thread) (n : BitVec 5) (x : Word) : t.setG n x = { t with g := (t.setG n x).g } := by
  unfold Thread.setG; split <;> rfl

theorem Frame.general_setG_next (t : Thread) (rd : BitVec 5) (v : Word) :
    Frame.general t ((t.started (some (.g rd))).setG rd v).next rd := by
  refine ⟨?_, fun n hn => ?_⟩
  · rw [Thread.setG_eq_update_g]; rfl
  · rw [Thread.next_gr, Thread.gr_setG_other _ _ _ _ hn, Thread.started_gr]

theorem Safety.loaded_mono {s : State} {w : Issue} {rs qs : List RegName} (h : Safety.loaded s w rs) (hq : qs ⊆ rs) :
    Safety.loaded s w qs := fun r hr => h r (hq hr)

section
variable {s : State} {w : Issue}

/-- A legal instruction that sets g[RD] to a value computed from its thread. -/
theorem State.issueThr_writesGeneral {reads : List RegName} (rd : BitVec 5) (val : Thread → Word) (hs : Safety.shaped s)
    (hi : Safety.issues s w) (hl : Safety.loaded s w reads) :
    WritesGeneral s (s.issueThr w true reads (some (.g rd)) fun t => (t.setG rd (val t)).next) w rd
      (val ((s.thr w.bay w.thread).started (some (.g rd)))) := by
  obtain ⟨hthr, hout⟩ :=
    State.issueThr_spec s w reads (some (.g rd)) (fun t => (t.setG rd (val t)).next) hs hi hl
  have hlen := (Safety.shaped_thr hs w.bay w.thread).1
  refine ⟨?_, ?_, ?_, hout⟩ <;> rw [hthr]
  · exact Thread.gr_setG_same _ _ _ hlen
  · simp
  · exact Frame.general_setG_next _ _ _

theorem State.issueAlu_writesGeneral {ra rb : BitVec 5} (rd : BitVec 5) (op : Word → Word → Word) (hs : Safety.shaped s)
    (hi : Safety.issues s w) (hl : Safety.loaded s w [.g ra, .g rb]) :
    WritesGeneral s (s.issueAlu w rd ra rb op) w rd
      (op ((s.thr w.bay w.thread).gr ra) ((s.thr w.bay w.thread).gr rb)) :=
  State.issueThr_writesGeneral rd (fun t => op (t.gr ra) (t.gr rb)) hs hi hl

end

/-! ## The values of the ALU functions (R131) -/

section
variable (x y : Word)

theorem shiftCount_eq_low_bits : shiftCount y = (y &&& 63).toNat := by
  rw [BitVec.toNat_and]
  exact (Nat.and_two_pow_sub_one_eq_mod y.toNat 6).symm

theorem sll_eq : sll x y = x <<< (y &&& 63).toNat := by rw [sll, shiftCount_eq_low_bits]
theorem srl_eq : srl x y = x >>> (y &&& 63).toNat := by rw [srl, shiftCount_eq_low_bits]
theorem sra_eq : sra x y = x.sshiftRight (y &&& 63).toNat := by rw [sra, shiftCount_eq_low_bits]

/-- The 128-bit product of two zero-extended words does not wrap, so its high half is that of the product of the numbers. -/
theorem mulhu_eq : mulhu x y = ((x.setWidth 128) * (y.setWidth 128)).extractLsb' 64 64 := by
  have hlt : x.toNat * y.toNat < 2 ^ 128 := Nat.mul_lt_mul'' (c := 2 ^ 64) (d := 2 ^ 64) x.isLt y.isLt
  have hprod : (x.setWidth 128 * y.setWidth 128).toNat = x.toNat * y.toNat := by
    rw [BitVec.toNat_mul, BitVec.toNat_setWidth_of_le (by decide), BitVec.toNat_setWidth_of_le (by decide), Nat.mod_eq_of_lt hlt]
  apply BitVec.eq_of_toNat_eq
  rw [BitVec.extractLsb'_toNat, hprod, Nat.shiftRight_eq_div_pow, mulhu, BitVec.toNat_ofNat]

/-- A choice between two values may be made by `<` or by `≤` where equal keys make the values equal. -/
theorem ite_eq_ite_of_imp {p q : Prop} [Decidable p] [Decidable q] {u v : Word} (hpq : p → q) (hqp : q → p ∨ u = v) :
    (if p then u else v) = if q then u else v := by
  by_cases hp : p
  · rw [if_pos hp, if_pos (hpq hp)]
  · by_cases hq : q
    · rw [if_neg hp, if_pos hq, (hqp hq).resolve_left hp]
    · rw [if_neg hp, if_neg hq]

theorem minu_eq : minu x y = if x.toNat ≤ y.toNat then x else y := by
  simp only [minu, BitVec.ult, decide_eq_true_eq]
  exact ite_eq_ite_of_imp Nat.le_of_lt fun h => (Nat.lt_or_eq_of_le h).imp_right BitVec.eq_of_toNat_eq

theorem maxu_eq : maxu x y = if x.toNat ≤ y.toNat then y else x := by
  simp only [maxu, BitVec.ult, decide_eq_true_eq]
  exact ite_eq_ite_of_imp Nat.le_of_lt fun h => (Nat.lt_or_eq_of_le h).imp_right fun e => (BitVec.eq_of_toNat_eq e).symm

theorem mins_eq : mins x y = if x.toInt ≤ y.toInt then x else y := by
  simp only [mins, BitVec.slt, decide_eq_true_eq]
  exact ite_eq_ite_of_imp Int.le_of_lt fun h => (Int.lt_or_eq_of_le h).imp_right BitVec.eq_of_toInt_eq

theorem maxs_eq : maxs x y = if x.toInt ≤ y.toInt then y else x := by
  simp only [maxs, BitVec.slt, decide_eq_true_eq]
  exact ite_eq_ite_of_imp Int.le_of_lt fun h => (Int.lt_or_eq_of_le h).imp_right fun e => (BitVec.eq_of_toInt_eq e).symm

end

/-! ## The statement -/

/-- Settles O3. Each ALU instruction is `State.issueAlu` of an operation with the listed value, and each immediate instruction is
`State.issueThr` of an update of g[RD]; what issuing such an update does is `State.issueThr_writesGeneral`. -/
theorem integerResults : Obligations.IntegerResults := by
  refine ⟨fun s w rd ra rb hs hi hl => ?_, fun s w rd ra imm hs hi hl => ?_⟩
  · intro th x y k c hc
    have halu : ∃ op, exec c.1 s = .next (s.issueAlu w rd ra rb op) ∧ op x y = c.2 := by
      simp only [List.mem_cons, List.not_mem_nil, or_false] at hc
      rcases hc with rfl | rfl | rfl | rfl | rfl | rfl | rfl | rfl | rfl | rfl | rfl | rfl | rfl | rfl | rfl | rfl
      · exact ⟨(· + ·), rfl, rfl⟩
      · exact ⟨(· - ·), rfl, rfl⟩
      · exact ⟨(· &&& ·), rfl, rfl⟩
      · exact ⟨(· ||| ·), rfl, rfl⟩
      · exact ⟨(· ^^^ ·), rfl, rfl⟩
      · exact ⟨sll, rfl, sll_eq x y⟩
      · exact ⟨srl, rfl, srl_eq x y⟩
      · exact ⟨sra, rfl, sra_eq x y⟩
      · exact ⟨(· * ·), rfl, rfl⟩
      · exact ⟨mulhu, rfl, mulhu_eq x y⟩
      · exact ⟨divu, rfl, rfl⟩
      · exact ⟨remu, rfl, rfl⟩
      · exact ⟨minu, rfl, minu_eq x y⟩
      · exact ⟨maxu, rfl, maxu_eq x y⟩
      · exact ⟨mins, rfl, mins_eq x y⟩
      · exact ⟨maxs, rfl, maxs_eq x y⟩
    obtain ⟨op, hexec, hval⟩ := halu
    exact ⟨_, hexec, hval ▸ State.issueAlu_writesGeneral rd op hs hi hl⟩
  · intro th c hc
    have hra : Safety.loaded s w [.g ra] := Safety.loaded_mono hl (by simp)
    have hrd : Safety.loaded s w [.g rd] := Safety.loaded_mono hl (by simp)
    simp only [List.mem_cons, List.not_mem_nil, or_false] at hc
    rcases hc with rfl | rfl | rfl | rfl
    · exact ⟨_, rfl, State.issueThr_writesGeneral rd (fun t => t.gr ra + imm.signExtend 64) hs hi hra⟩
    · exact ⟨_, rfl, State.issueThr_writesGeneral rd (fun t => t.gr ra &&& imm.setWidth 64) hs hi hra⟩
    · exact ⟨_, rfl, State.issueThr_writesGeneral rd (fun t => t.gr ra ||| imm.setWidth 64) hs hi hra⟩
    · exact ⟨_, rfl, State.issueThr_writesGeneral rd (fun t => t.gr rd <<< 12 ||| imm.setWidth 64) hs hi hrd⟩

end Sys2Proof.Machine
end

section
/-! The accumulation of a matrix cell (06, R152, R159, R160, R162): what one k-step does to the accumulator, and what a run of k-steps
makes of it. -/
namespace Sys2Proof.Machine
open Sys2Proof

/-! ## One k-step -/

theorem macStep_of_shim (fa fb acc : Nat) {a b : Option Nat} (h : a = none ∨ b = none) : macStep fa fb acc a b = acc := by
  rcases h with rfl | rfl
  · rfl
  · cases a <;> rfl

theorem macStep_int8 (acc x y : Nat) : macStep 0 0 acc (some x) (some y) = macInt acc x y := rfl

theorem macStep_float {fa fb : Nat} {p q : Fmt} (hp : floatTy fa = some p) (hq : floatTy fb = some q) (acc x y : Nat) :
    macStep fa fb acc (some x) (some y) = mac32 p q acc x y := by
  simp only [macStep, hp, hq]

/-! ## A run of k-steps -/

@[simp] theorem cellAcc_zero (fa fb : Nat) (a b : Nat → Option Nat) (start : Nat) : cellAcc fa fb a b start 0 = start := rfl

theorem cellAcc_succ (fa fb : Nat) (a b : Nat → Option Nat) (start k : Nat) :
    cellAcc fa fb a b start (k + 1) = macStep fa fb (cellAcc fa fb a b start k) (a k) (b k) := by
  simp only [cellAcc, List.range_succ, List.foldl_append, List.foldl_cons, List.foldl_nil]

/-! ## Shim zeros (R162) -/

theorem cellAcc_succ_of_shim (fa fb start k : Nat) {a b : Nat → Option Nat} (h : a k = none ∨ b k = none) :
    cellAcc fa fb a b start (k + 1) = cellAcc fa fb a b start k := by
  rw [cellAcc_succ, macStep_of_shim _ _ _ h]

theorem cellAcc_of_all_shim (fa fb start k : Nat) {a b : Nat → Option Nat} (h : ∀ i < k, a i = none ∨ b i = none) :
    cellAcc fa fb a b start k = start := by
  induction k with
  | zero => rfl
  | succ k ih => rw [cellAcc_succ_of_shim _ _ _ _ (h k k.lt_succ_self), ih fun i hi => h i (Nat.lt_succ_of_lt hi)]

/-! ## INT8 operands: sums modulo 2^32 (R159) -/

theorem ofSigned_eq_emod (n : Nat) (z : Int) : (ofSigned n z : Int) = z % (2 ^ n : Nat) :=
  Int.toNat_of_nonneg (Int.emod_nonneg z (Int.natCast_ne_zero.mpr (Nat.ne_of_gt (Nat.two_pow_pos n))))

theorem ofSigned_natCast {n x : Nat} (h : x < 2 ^ n) : ofSigned n (x : Int) = x := by
  rw [ofSigned, ← Int.natCast_emod, Int.toNat_natCast, Nat.mod_eq_of_lt h]

/-- Wrapping a partial sum does not change the wrapped total. -/
theorem ofSigned_ofSigned_add (n : Nat) (z t : Int) : ofSigned n ((ofSigned n z : Int) + t) = ofSigned n (z + t) := by
  rw [ofSigned_eq_emod, ofSigned, Int.emod_add_emod, ← ofSigned]

theorem cellAcc_int8 (x y : Nat → Nat) {start : Nat} (hs : start < 2 ^ 32) (k : Nat) :
    cellAcc 0 0 (fun i => some (x i)) (fun i => some (y i)) start k =
      ofSigned 32 ((start : Int) + ((List.range k).map fun i => toSigned 8 (x i) * toSigned 8 (y i)).sum) := by
  induction k with
  | zero => simp only [cellAcc_zero, List.range_zero, List.map_nil, List.sum_nil, Int.add_zero, ofSigned_natCast hs]
  | succ k ih =>
    rw [cellAcc_succ, macStep_int8, macInt, ih, ofSigned_ofSigned_add, Int.add_assoc, List.range_succ, List.map_append,
      List.sum_append, List.map_singleton, List.sum_singleton]

/-! ## NaN in binary32 accumulators (R160) -/

@[simp] theorem FVal.nan_add (v : FVal) : FVal.nan.add v = .nan := rfl
@[simp] theorem FVal.add_nan (v : FVal) : v.add .nan = .nan := by cases v <;> rfl
@[simp] theorem FVal.nan_mul (v : FVal) : FVal.nan.mul v = .nan := rfl
@[simp] theorem Fmt.round_nan (f : Fmt) : f.round .nan = f.nan := rfl
@[simp] theorem Fmt.f32_decode_nan : Fmt.f32.decode Fmt.f32.nan = .nan := by decide

theorem mac32_nan_acc (p q : Fmt) (x y : Nat) : mac32 p q Fmt.f32.nan x y = Fmt.f32.nan := by
  simp only [mac32, Fmt.add, Fmt.f32_decode_nan, FVal.nan_add, Fmt.round_nan]

theorem mac32_nan_operand {p : Fmt} (q : Fmt) (acc : Nat) {x : Nat} (y : Nat) (h : p.decode x = .nan) :
    mac32 p q acc x y = Fmt.f32.nan := by
  simp only [mac32, Fmt.add, h, FVal.nan_mul, Fmt.round_nan, Fmt.f32_decode_nan, FVal.add_nan]

section
variable {fa fb : Nat} {p q : Fmt} (hp : floatTy fa = some p) (hq : floatTy fb = some q)
include hp hq

theorem macStep_nan_acc (a b : Option Nat) : macStep fa fb Fmt.f32.nan a b = Fmt.f32.nan := by
  match a, b with
  | none, _ => exact macStep_of_shim _ _ _ (.inl rfl)
  | some _, none => exact macStep_of_shim _ _ _ (.inr rfl)
  | some x, some y => rw [macStep_float hp hq, mac32_nan_acc]

/-- From the first k-step whose product is a NaN on, the accumulator is NaN, whatever the later elements are. -/
theorem cellAcc_nan_of_nan_operand {a b : Nat → Option Nat} (start : Nat) {j k x y : Nat} (hjk : j < k) (ha : a j = some x)
    (hb : b j = some y) (hx : p.decode x = .nan) : cellAcc fa fb a b start k = Fmt.f32.nan := by
  induction hjk with
  | refl => rw [cellAcc_succ, ha, hb, macStep_float hp hq, mac32_nan_operand q _ _ hx]
  | step _ ih => rw [cellAcc_succ, ih, macStep_nan_acc hp hq]

end

/-! ## The statement -/

/-- Settles O24, by induction on the number of k-steps in each of its parts. -/
theorem cellsAccumulate : Obligations.CellsAccumulate := by
  refine ⟨fun x y start k hs => cellAcc_int8 x y hs k, fun fa fb start k a b h => cellAcc_of_all_shim fa fb start k h,
    fun fa fb start k a b h => cellAcc_succ_of_shim fa fb start k h, ?_⟩
  intro p q fa fb acc k j a b x y hp hq hjk ha hb hx _
  exact cellAcc_nan_of_nan_operand hp hq acc hjk ha hb hx

end Sys2Proof.Machine
end

section
/-! What leaves the network state as it was: the operations on counters, interrupts, error records, memory, streams, KV, requests and
reservations that the messages of the fabric come down to (13), each with one lemma. -/
namespace Sys2Proof.Machine
open Sys2Proof

/-! ## Folding a state change over a list -/

theorem foldl_keeps {α σ β : Type} (view : σ → β) (f : σ → α → σ) (hf : ∀ s x, view (f s x) = view s) (l : List α) (s : σ) :
    view (l.foldl f s) = view s := by
  induction l generalizing s with
  | nil => rfl
  | cons x l ih => exact (ih (f s x)).trans (hf s x)

@[simp] theorem State.foldl_net {α : Type} (f : State → α → State) (l : List α) (s : State) (hf : ∀ s x, (f s x).net = s.net) :
    (l.foldl f s).net = s.net := foldl_keeps State.net f hf l s

@[simp] theorem State.each_net {α : Type} (f : State → α → State) (l : List α) (s : State) (hf : ∀ s x, (f s x).net = s.net) :
    (s.each l f).net = s.net := State.foldl_net f l s hf

/-! ## Counters, interrupts, records -/

@[simp] theorem State.modThr_net (s : State) (b : Fin 80) (t : Fin 128) (f : Thread → Thread) : (s.modThr b t f).net = s.net := rfl
@[simp] theorem State.modPage_net (s : State) (n : Fin 16) (f : FnPage → FnPage) : (s.modPage n f).net = s.net := rfl
@[simp] theorem State.addJob_net (s : State) (k : JobKind) : (s.addJob k).net = s.net := rfl
@[simp] theorem State.countBay_net (s : State) (b : Fin 80) (e k : Nat) : (s.countBay b e k).net = s.net := rfl
@[simp] theorem State.countHbm_net (s : State) (st e k : Nat) : (s.countHbm st e k).net = s.net := rfl
@[simp] theorem State.countT2_net (s : State) (d e k : Nat) : (s.countT2 d e k).net = s.net := rfl
@[simp] theorem State.countFn_net (s : State) (f : Fin 16) (e k : Nat) : (s.countFn f e k).net = s.net := rfl
@[simp] theorem State.countProg_net (s : State) (p e k : Nat) : (s.countProg p e k).net = s.net := rfl
@[simp] theorem State.countDev_net (s : State) (e k : Nat) : (s.countDev e k).net = s.net := rfl
@[simp] theorem State.draw_net (s : State) : s.draw.2.net = s.net := rfl
@[simp] theorem State.emit_net (s : State) (m : HostMsg) : (s.emit m).net = s.net := rfl

@[simp] theorem State.sendMsix_net (s : State) (f : Fin 16) (v : Nat) : (s.sendMsix f v).net = s.net := by
  simp [State.sendMsix, apply_ite State.net]

@[simp] theorem State.sendQuiet_net (s : State) (f : Fin 16) (v : Nat) : (s.sendQuiet f v).net = s.net := by
  simp [State.sendQuiet, apply_ite State.net]

@[simp] theorem State.raise_net (s : State) (f : Fin 16) (v : Nat) : (s.raise f v).net = s.net := by
  simp [State.raise, apply_ite State.net]

@[simp] theorem State.error_net (s : State) (e : ErrSpec) : (s.error e).net = s.net := by
  simp [State.error, apply_ite State.net]

@[simp] theorem State.lockViolation_net (s : State) (source inst addr : Nat) (asn : Option Nat) :
    (s.lockViolation source inst addr asn).net = s.net := by
  simp [State.lockViolation]

/-! ## Memory -/

@[simp] theorem State.optionElim_net {α : Type} (o : Option α) (s : State) (f : α → State) (hf : ∀ x, (f x).net = s.net) :
    (o.elim s f).net = s.net := by
  cases o with
  | none => rfl
  | some x => exact hf x

@[simp] theorem State.countAccess_net (s : State) (write : Bool) (a n : Nat) : (s.countAccess write a n).net = s.net := by
  unfold State.countAccess
  split
  · exact State.foldl_net _ _ _ fun _ _ => rfl
  · split <;> rfl
  · rfl

@[simp] theorem State.noteRead_net (s : State) (a n : Nat) : (s.noteRead a n).net = s.net := by
  simp only [State.noteRead]
  split <;> simp

@[simp] theorem State.storeBytes_net (s : State) (a : Nat) (bs : List Byte) : (s.storeBytes a bs).net = s.net := by
  rw [State.storeBytes, State.modMem_net, State.countAccess_net]
  refine State.foldl_net _ _ _ fun s g => ?_
  split
  · rfl
  · exact State.optionElim_net _ _ _ fun _ => rfl
  · rfl

@[simp] theorem State.memWrite_net (s : State) (a : Nat) (bs : List Byte) : (s.memWrite a bs).net = s.net := by
  simp [State.memWrite, apply_ite State.net]

@[simp] theorem State.writeCoded_net (s : State) (a : Nat) (tag : BitVec 16) (lines : List Byte) :
    (s.writeCoded a tag lines).net = s.net := by
  simp [State.writeCoded]

@[simp] theorem State.writeUnit_net (s : State) (code wide : Bool) (a : Nat) (bytes : List Byte) :
    (s.writeUnit code wide a bytes).net = s.net := by
  unfold State.writeUnit
  split <;> simp

@[simp] theorem State.writeTagged_net (s : State) (code wide : Bool) (a : Nat) (bytes : List Byte) :
    (s.writeTagged code wide a bytes).net = s.net := by
  simp [State.writeTagged, apply_ite State.net]

@[simp] theorem State.markTags_net (s : State) (a n mark : Nat) : (s.markTags a n mark).net = s.net := by
  unfold State.markTags
  split
  · rfl
  · split
    · exact State.each_net _ _ _ fun _ _ => rfl
    · rfl

theorem State.landUnit_net (s : State) (a : Nat) (tag : BitVec 16) (bytes : List Byte) : (s.landUnit a tag bytes).net = s.net := by
  simp [State.landUnit, apply_ite State.net]

@[simp] theorem State.landPush_net (s : State) (arg : BitVec 64) (p : PushHeader) (data : List Byte) :
    (s.landPush arg p data).net = s.net := by
  simp only [State.landPush]
  split
  · rfl
  · split
    · exact foldl_keeps (fun x : State × Nat => x.1.net) _ (fun x u => State.landUnit_net _ _ _ _) _ _
    · simp

/-! ## Memory errors and fatal causes -/

@[simp] theorem State.faultRamp_net (s : State) (b : Fin 80) : (s.faultRamp b).net = s.net := by
  simp [State.faultRamp, apply_ite State.net]

@[simp] theorem State.silenceActive_net (s : State) (reason : Nat) : (s.silenceActive reason).net = s.net := by
  simp [State.silenceActive, apply_ite State.net]

@[simp] theorem State.fatal_net (s : State) (code inst : Nat) (fenced : Option Nat) : (s.fatal code inst fenced).net = s.net := by
  simp [State.fatal]

@[simp] theorem State.remapGranule_net (s : State) (g : Nat) : (s.remapGranule g).net = s.net := by
  unfold State.remapGranule
  split <;> simp

@[simp] theorem State.remapReleased_net (s : State) (base size : Nat) : (s.remapReleased base size).net = s.net := by
  simp [State.remapReleased, apply_ite State.net]

@[simp] theorem State.fencePc_net (s : State) (g : Nat) : (s.fencePc g).net = s.net := by
  simp [State.fencePc, apply_ite State.net]

@[simp] theorem State.retireGranule_net (s : State) (g : Nat) : (s.retireGranule g).net = s.net := by
  simp [State.retireGranule, apply_ite State.net]

@[simp] theorem State.hbmCorrected_net (s : State) (line : Nat) : (s.hbmCorrected line).net = s.net := by
  simp [State.hbmCorrected, apply_ite State.net]

@[simp] theorem State.plumbAdvance_net (s : State) (b : Fin 80) : (s.plumbAdvance b).net = s.net := by
  simp [State.plumbAdvance, apply_ite State.net]

@[simp] theorem State.sramCorrected_net (s : State) (b : Fin 80) (addr : Nat) : (s.sramCorrected b addr).net = s.net := by
  simp [State.sramCorrected, apply_ite State.net]

@[simp] theorem State.meet_net (s : State) (a n : Nat) : (s.meet a n).net = s.net := by
  simp [State.meet, apply_ite State.net]

@[simp] theorem State.homeMeet_net (s : State) (a n : Nat) : (s.homeMeet a n).net = s.net := by
  simp [State.homeMeet, apply_ite State.net]

@[simp] theorem State.atomHome_net (s : State) (op : AtomOp) (n a cmp new : Nat) : (s.atomHome op n a cmp new).2.net = s.net := by
  simp only [State.atomHome]
  split <;> split <;> simp

/-! ## Streams, quotas, KV and barriers -/

@[simp] theorem State.addUsed_net (s : State) (t : Fin 16) (x d : Nat) : (s.addUsed t x d).net = s.net := rfl
@[simp] theorem State.subUsed_net (s : State) (t : Fin 16) (x d : Nat) : (s.subUsed t x d).net = s.net := rfl
@[simp] theorem State.setLanding_net (s : State) (b : Fin 80) (j : Nat) (l : Landing) : (s.setLanding b j l).net = s.net := rfl
@[simp] theorem State.modKvRec_net (s : State) (i : Nat) (f : KvRec → KvRec) : (s.modKvRec i f).net = s.net := rfl
@[simp] theorem State.returnBlocks_net (s : State) (f : Fixed) (l : List Nat) : (s.returnBlocks f l).net = s.net := rfl
@[simp] theorem State.modReq_net (s : State) (asn : Nat) (f : Req → Req) : (s.modReq asn f).net = s.net := rfl
@[simp] theorem State.dropRun_net (s : State) (home : Nat) (k : WuKey) : (s.dropRun home k).net = s.net := rfl
@[simp] theorem State.leaveFabricBars_net (s : State) (home asn : Nat) (bays : List (Fin 80)) :
    (s.leaveFabricBars home asn bays).net = s.net := rfl
@[simp] theorem State.wake_net (s : State) (p : Fin 80 × Fin 128) : (s.wake p).net = s.net := rfl
@[simp] theorem State.setFabricBar_net (s : State) (f : FabricBar) : (s.setFabricBar f).net = s.net := rfl
@[simp] theorem State.setWeight_net (s : State) (i : Nat) (w : WeightState) : (s.setWeight i w).net = s.net := rfl

@[simp] theorem State.setEntry_net (s : State) (t : Fin 16) (id off n v : Nat) : (s.setEntry t id off n v).net = s.net := by
  unfold State.setEntry
  split <;> simp

@[simp] theorem State.endLease_net (s : State) (t : Fin 16) (id asn : Nat) : (s.endLease t id asn).net = s.net := by
  simp [State.endLease, State.freeLease, State.swapOut, State.clearRes, apply_ite State.net]

@[simp] theorem State.releaseHere_net (s : State) (home asn : Nat) : (s.releaseHere home asn).net = s.net := by
  rw [State.releaseHere, State.modStr_net, State.modQuota_net, State.modKv_net]
  exact State.foldl_net _ _ _ fun _ _ => rfl

@[simp] theorem State.mergeTokens_net (s : State) (home asn : Nat) : (s.mergeTokens home asn).net = s.net := by
  simp only [State.mergeTokens]
  split <;> rfl

@[simp] theorem State.setLandings_net (s : State) (b : Fin 80) (layers : List Nat) (j : Nat → Nat) (l : Nat → Landing) :
    (s.each layers fun s k => s.setLanding b (j k) (l k)).net = s.net :=
  State.each_net _ _ _ fun _ _ => rfl

@[simp] theorem State.abandonKv_net (s : State) (home : Nat) (wu : WuKey) : (s.abandonKv home wu).net = s.net := by
  simp only [State.abandonKv, State.modKv_net]
  refine State.each_net _ _ _ fun s w => ?_
  rw [State.setLanding_net]
  split
  · rfl
  · split
    · split <;> rfl
    · split <;> rfl

@[simp] theorem State.freeKv_net (s : State) (home asn : Nat) (stage : Option Nat) : (s.freeKv home asn stage).net = s.net := by
  simp only [State.freeKv, State.modKv_net]
  refine State.each_net _ _ _ fun s r => ?_
  split
  · rfl
  · split
    · split <;> split <;> simp
    · rfl

theorem State.poolBlocks_net {s s1 : State} {f : Fixed} {blk n i : Nat} (h : s.poolBlocks f blk n = some (i, s1)) :
    s1.net = s.net := by
  obtain ⟨j, -, hj⟩ := Option.map_eq_some_iff.mp h
  exact (Prod.mk.inj hj).2 ▸ rfl

@[simp] theorem State.kvPhase1_net (s : State) (home asn version : Nat) : (s.kvPhase1 home asn version).net = s.net := by
  refine State.each_net _ _ _ fun s r => ?_
  split
  · rfl
  · split
    · simp only [State.memWrite_net, implies_true, State.each_net]
      split
      · rfl
      · split
        · next hpool => exact State.poolBlocks_net hpool
        · rfl
    · rfl

@[simp] theorem State.kvPhase2_net (s : State) (home asn version : Nat) : (s.kvPhase2 home asn version).net = s.net := by
  refine State.each_net _ _ _ fun s r => ?_
  split
  · rfl
  · split
    · extract_lets h ours freed residents noted bound
      have hfreed : freed.net = s.net := by
        simp only [freed, apply_ite State.net, State.setLandings_net, State.returnBlocks_net, ite_self]
      have hbound : bound.net = freed.net := by
        simp only [bound]
        split
        · split <;> simp [noted]
        · rfl
      exact hbound.trans hfreed
    · rfl

@[simp] theorem State.clearHere_net (s : State) (home asn : Nat) (m : Formation) (d : Desc) (t : Fin 16) :
    (s.clearHere home asn m d t).net = s.net := by
  refine State.each_net _ _ _ fun s k => ?_
  split <;> simp

@[simp] theorem State.clearLost_net (s : State) (r : Req) : (s.clearLost r).net = s.net := by
  unfold State.clearLost
  cases r.formation <;> simp

@[simp] theorem State.kvOp_net (s : State) (home asn op version : Nat) : (s.kvOp home asn op version).net = s.net := by
  unfold State.kvOp
  split
  · rfl
  · split
    · simp
    · split
      · simp only
        split <;> simp
      · rfl

@[simp] theorem State.releaseFabric_net (s : State) (f : FabricBar) (n : Nat) (later : List (Nat × Nat)) :
    (s.releaseFabric f n later).net = s.net :=
  State.each_net _ _ _ fun _ _ => rfl

/-! ## Requests end -/

@[simp] theorem State.requestRecord_net (s : State) (asn status detail source inst addr : Nat) (info : List Byte) :
    (s.requestRecord asn status detail source inst addr info).net = s.net := State.error_net _ _

@[simp] theorem State.openRecord_net (s : State) (asn status detail : Nat) (addr : Option Nat) :
    (s.openRecord asn status detail addr).net = s.net := State.requestRecord_net _ _ _ _ _ _ _ _

@[simp] theorem State.finish_net (s : State) (asn status detail : Nat) : (s.finish asn status detail).net = s.net := by
  unfold State.finish
  split
  · rfl
  · simp [apply_ite State.net]

@[simp] theorem State.settleReq_net (s : State) (asn : Nat) : (s.settleReq asn).net = s.net := by
  unfold State.settleReq
  split
  · rfl
  · split
    · rfl
    · split
      · simp [apply_ite State.net]
      · split
        · rfl
        · simp [apply_ite State.net]

/-! ## Reservations -/

/-- The kernel compares two forms of a `match` on `firstFit` by first trying to evaluate it, which takes long with sizes in bytes; so
`placeItem` is unfolded with a variable in the place of `firstFit`. -/
theorem State.placeItem_net {s s1 : State} {asn home : Nat} {t : Fin 16} {i : DemandItem} {p : PlacedItem}
    (h : s.placeItem asn home t i = some (s1, p)) : s1.net = s.net := by
  obtain ⟨place, hplace⟩ : ∃ place, place = @State.placeItem := ⟨_, rfl⟩
  obtain ⟨fit, hfit⟩ : ∃ fit, fit = firstFit := ⟨_, rfl⟩
  rw [← hplace] at h
  delta State.placeItem at hplace
  rw [← hfit] at hplace
  subst hplace
  dsimp only at h
  split at h
  · cases h
  · rw [← (Prod.mk.inj (Option.some.inj h)).1, State.modMem_net, State.modQuota_net]

/-- As in `placeItem_net`, here with a variable in the place of `placeItem`. -/
theorem State.placeAll_net {asn home : Nat} {t : Fin 16} {items : List DemandItem} {s s1 : State} {ps : List PlacedItem}
    (h : State.placeAll asn home t items s = some (s1, ps)) : s1.net = s.net := by
  have hitem := @State.placeItem_net
  obtain ⟨place, hplace⟩ : ∃ place, place = @State.placeItem := ⟨_, rfl⟩
  obtain ⟨all, hall⟩ : ∃ all, all = @State.placeAll := ⟨_, rfl⟩
  rw [← hall] at h
  delta State.placeAll State.placeAll._f at hall
  rw [← hplace] at hall hitem
  clear hplace
  subst hall
  induction items generalizing s ps with
  | nil => cases h; rfl
  | cons i items ih =>
    dsimp only at h
    split at h
    · cases h
    · next s' p hp =>
      split at h
      · cases h
      · next hps =>
        obtain ⟨rfl, -⟩ := Prod.mk.inj (Option.some.inj h)
        exact (ih hps).trans (hitem hp)

theorem State.reserveSlots_net {s s1 : State} {asn home c g : Nat} (h : s.reserveSlots asn home c g = some s1) : s1.net = s.net := by
  simp only [State.reserveSlots] at h
  split at h
  · cases h
  · cases h; rfl

theorem State.evalDemand_net {s s1 : State} {asn home : Nat} {t : Fin 16} {items : List DemandItem} {gallery : Option (Nat × Nat)}
    {ps : List PlacedItem} (h : s.evalDemand asn home t items gallery = some (s1, ps)) : s1.net = s.net := by
  simp only [State.evalDemand] at h
  split at h
  · cases h
  · split at h
    · cases h
    · next s' hslots =>
      have hs' : s'.net = s.net := by
        split at hslots
        · split at hslots
          · cases hslots; rfl
          · exact State.reserveSlots_net hslots
        · cases hslots; rfl
      split at h
      · cases h
      · next s'' ps' hplaced =>
        rw [← (Prod.mk.inj (Option.some.inj h)).1, State.addUsed_net, State.addUsed_net, State.placeAll_net hplaced, hs']

theorem State.grantToken_net {s s1 : State} {home asn : Nat} {t : Fin 16} {m : Formation} {desc : Desc} {items : List DemandItem}
    {gallery : Option (Nat × Nat)} {ps : List PlacedItem} (h : s.grantToken home asn t m desc items gallery = some (s1, ps)) :
    s1.net = s.net := by
  simp only [State.grantToken] at h
  split at h
  · cases h
  · next s' ps' he =>
    rw [← (Prod.mk.inj (Option.some.inj h)).1, State.modQuota_net, State.evalDemand_net he]

end Sys2Proof.Machine
end

section
/-! What leaves the receiver states as they were (13, R335): sending, and all that a request does at its receiver before it is
answered, change other parts of the network state only. -/
namespace Sys2Proof.Machine
open Sys2Proof

/-! ## What `Net.rx` reads -/

/-- The receiver states and the records that give the peers' nonces: all that `Net.rx` reads. -/
def Net.rxView (n : Net) : List RxState × List LsdbEntry := (n.rxState, n.lsdb)

theorem Net.rx_eq_of_rxView {n m : Net} (h : n.rxView = m.rxView) (src vc : Nat) : n.rx src vc = m.rx src vc := by
  obtain ⟨hrx, hlsdb⟩ := Prod.mk.inj h
  unfold Net.rx Net.nonceOf Net.lsaOf
  rw [hrx, hlsdb]

@[simp] theorem State.foldl_rxView {α : Type} (f : State → α → State) (l : List α) (s : State)
    (hf : ∀ s x, (f s x).net.rxView = s.net.rxView) : (l.foldl f s).net.rxView = s.net.rxView :=
  foldl_keeps (fun s : State => s.net.rxView) f hf l s

@[simp] theorem State.each_rxView {α : Type} (f : State → α → State) (l : List α) (s : State)
    (hf : ∀ s x, (f s x).net.rxView = s.net.rxView) : (s.each l f).net.rxView = s.net.rxView :=
  State.foldl_rxView f l s hf

/-! ## Messages sent -/

@[simp] theorem State.putMsg_net (s : State) (port : Fin 12) (vc : Nat) (bytes : List Byte) : (s.putMsg port vc bytes).net = s.net := by
  simp [State.putMsg, apply_ite State.net]

@[simp] theorem State.route_net (s : State) (dst vc otag attempt : Nat) (bytes : List Byte) :
    (s.route dst vc otag attempt bytes).net = s.net := by
  unfold State.route
  split <;> simp

@[simp] theorem State.flood_net (s : State) (skip : Option Nat) (bytes : List Byte) : (s.flood skip bytes).net = s.net := by
  simp [State.flood]

@[simp] theorem State.sendReq_rxView (s : State) (r : SendReq) : (s.sendReq r).net.rxView = s.net.rxView := by
  unfold State.sendReq State.transmit
  split
  · rfl
  · simp only [State.route_net]; rfl

@[simp] theorem State.sendMsgTo_rxView (s : State) (dst subtype : Nat) (body : List Byte) (purpose : Purpose) :
    (s.sendMsgTo dst subtype body purpose).net.rxView = s.net.rxView := State.sendReq_rxView _ _

@[simp] theorem State.sendPush_rxView (s : State) (x : PushTx) : (s.sendPush x).net.rxView = s.net.rxView := by
  simp [State.sendPush]

@[simp] theorem State.floodCaps_rxView (s : State) : s.floodCaps.net.rxView = s.net.rxView := by
  unfold State.floodCaps
  split
  · rfl
  · simp only [State.flood_net]; rfl

/-! ## Pushes, work units, requests -/

@[simp] theorem State.deliverPush_rxView (s : State) (home : Nat) (k : WuKey) (src : Nat) :
    (s.deliverPush home k src).net.rxView = s.net.rxView := by
  unfold State.deliverPush
  split <;> rfl

@[simp] theorem State.resendMoved_rxView (s : State) (home asn : Nat) : (s.resendMoved home asn).net.rxView = s.net.rxView := by
  unfold State.resendMoved
  split
  · rfl
  · simp only
    split
    · rfl
    · refine State.each_rxView _ _ _ fun s x => ?_
      split
      · simp only [State.deliverPush_rxView]; rfl
      · simp only [State.sendPush_rxView]; rfl

@[simp] theorem State.ackInputs_rxView (s : State) (home asn : Nat) : (s.ackInputs home asn).net.rxView = s.net.rxView := by
  unfold State.ackInputs
  split
  · rfl
  · refine State.foldl_rxView _ _ _ fun s x => ?_
    simp only [State.sendStepAck, State.sendMsgTo_rxView]; rfl

@[simp] theorem State.landLine_rxView (s : State) (b : Fin 80) (l : BufLine) : (s.landLine b l).net.rxView = s.net.rxView := by
  refine State.each_rxView _ _ _ fun s r => ?_
  split
  · rfl
  · split
    · simp
    · simp

@[simp] theorem State.drainAll_rxView (s : State) (b : Fin 80) (t : Fin 128) : (s.drainAll b t).net.rxView = s.net.rxView := by
  simp [State.drainAll]

@[simp] theorem State.freeBay_rxView (s : State) (b : Fin 80) : (s.freeBay b).net.rxView = s.net.rxView := by
  unfold State.freeBay
  split <;> rfl

@[simp] theorem State.stopWu_rxView (s : State) (home : Nat) (k : WuKey) (drain : Bool) :
    (s.stopWu home k drain).net.rxView = s.net.rxView := by
  unfold State.stopWu
  split
  · rfl
  · simp [apply_ite State.net, apply_ite Net.rxView]

@[simp] theorem State.abandonWu_rxView (s : State) (home : Nat) (k : WuKey) : (s.abandonWu home k).net.rxView = s.net.rxView := by
  unfold State.abandonWu
  split
  · rfl
  · simp

@[simp] theorem State.dropHome_rxView (s : State) (home asn : Nat) : (s.dropHome home asn).net.rxView = s.net.rxView := by
  have hpushes (n : Net) (rx : List PushRx) (tx : List PushTx) :
      ({ n with pushRx := rx, pushTx := tx } : Net).rxView = n.rxView := rfl
  simp [State.dropHome, hpushes]

@[simp] theorem State.failReqAt_rxView (s : State) (asn status detail source inst addr : Nat) (info : List Byte) :
    (s.failReqAt asn status detail source inst addr info).net.rxView = s.net.rxView := by
  unfold State.failReqAt State.failWith
  split
  · rfl
  · split
    · rfl
    · simp

/-! ## Weight objects and barriers -/

@[simp] theorem State.checkWeights_rxView (s : State) : s.checkWeights.net.rxView = s.net.rxView := by
  unfold State.checkWeights
  split <;> simp

@[simp] theorem State.askPeer_rxView (s : State) (i after : Nat) : (s.askPeer i after).net.rxView = s.net.rxView := by
  unfold State.askPeer
  split
  · rfl
  · split
    · simp
    · unfold State.peerFailed
      split
      · rfl
      · split
        · rfl
        · simp [State.weightFailed]

@[simp] theorem State.settleFabric_rxView (s : State) (f : FabricBar) (from_ fuel : Nat) :
    (s.settleFabric f from_ fuel).net.rxView = s.net.rxView := by
  induction fuel generalizing s f with
  | zero => rfl
  | succ fuel ih =>
    simp only [State.settleFabric]
    split
    · rfl
    · simp [ih]

/-! ## What a request does before its answer -/

theorem State.takePush_rxView (s : State) (src : Nat) (arg : BitVec 64) (p : PushHeader) (data : List Byte) :
    (s.takePush src arg p data).net.rxView = s.net.rxView := by
  simp only [State.takePush]
  split
  · rfl
  · rw [State.modNet_net, State.landPush_net]; rfl

theorem State.runTokenRelease_rxView (s : State) (h : Header) (asn : BitVec 64) :
    (s.runTokenRelease h asn).net.rxView = s.net.rxView := by
  unfold State.runTokenRelease
  extract_lets home late u
  have hu : u.net.rxView = s.net.rxView := by
    simp only [u]
    split
    · rfl
    · exact State.dropHome_rxView s _ _
  exact hu

theorem State.runStepAck_rxView (s : State) (h : Header) (wu : WuKey) : (s.runStepAck h wu).net.rxView = s.net.rxView := by
  unfold State.runStepAck
  extract_lets hit u v noted begun
  have hv : v.net.rxView = s.net.rxView := State.each_rxView _ _ _ fun _ _ => State.ackInputs_rxView _ _ _
  split
  · exact hv
  · split
    · exact hv
    · split
      · rw [State.settleReq_net, ← hv]
        simp only [begun, apply_ite State.net, State.modReq_net, ite_self, noted, State.modReqs_net]
      · exact hv

theorem State.runAbort_rxView (s : State) (h : Header) (asn : BitVec 64) (status : BitVec 8) :
    (s.runAbort h asn status).net.rxView = s.net.rxView := by
  unfold State.runAbort
  extract_lets home held stopped u
  have hu : u.net.rxView = s.net.rxView := by
    simp only [u]
    split
    · exact (State.each_rxView _ _ _ fun _ _ => State.abandonWu_rxView _ _ _ : stopped.net.rxView = s.net.rxView)
    · rfl
  split
  · exact hu
  · split
    · exact hu
    · split
      · rw [State.failReqAt_rxView, hu]
      · exact hu

theorem State.runWeightHave_rxView (s : State) (h : Header) (object : BitVec 32) (holds : Bool) :
    (s.runWeightHave h object holds).net.rxView = s.net.rxView := by
  unfold State.runWeightHave
  split
  · rfl
  · split <;> simp

end Sys2Proof.Machine
end

section
/-! Every message of Table 13.3 is answered once it has run (R335, R340), and by nothing else does it change the receiver states. -/
namespace Sys2Proof.Machine
open Sys2Proof

/-! ## A request that runs is answered -/

/-- From `s`, where the request has been marked, `t` comes by answering it in a state with the receiver states of `s`. -/
def State.Answers (s : State) (h : Header) (vc mtype : Nat) (t : State) : Prop :=
  ∃ u : State, u.net.rxView = s.net.rxView ∧ ∃ status arg data,
    t = u.answer h vc (msgBytes (mtype + 0x80) u.net.nodeId h.src.toNat 0 0 h.tseq.toNat 0 0 status u.net.settled arg data)

section
variable {s u : State} {h : Header}

theorem State.answers_respond {vc mtype status : Nat} {data : List Byte} (hu : u.net.rxView = s.net.rxView) :
    s.Answers h vc mtype (u.respond h vc mtype status data) := ⟨u, hu, status, 0, data, rfl⟩

theorem State.answers_respondRead {status arg : Nat} {data : List Byte} (hu : u.net.rxView = s.net.rxView) :
    s.Answers h 0 1 (u.respondRead h status arg data) := ⟨u, hu, status, arg, data, rfl⟩

theorem State.runRead_answers : s.Answers h 0 1 (s.runRead h) := by
  unfold State.runRead
  extract_lets a n st
  split
  · exact State.answers_respond rfl
  · dsimp only
    split <;> exact State.answers_respondRead (by rw [State.homeMeet_net])

theorem State.runWrite_answers (data : List Byte) : s.Answers h 0 2 (s.runWrite h data) := by
  unfold State.runWrite
  extract_lets a st u
  have hu : u.net = s.net := by simp [u, apply_ite State.net]
  split
  · exact State.answers_respond (by rw [hu])
  · exact State.answers_respond (by rw [State.markTags_net, State.memWrite_net, hu])

theorem State.runAtomic_answers (xf : BitVec 8) (operand compare : BitVec 64) :
    s.Answers h 0 3 (s.runAtomic h xf operand compare) := by
  unfold State.runAtomic
  extract_lets a n
  split
  · exact State.answers_respond rfl
  · extract_lets st
    split
    · exact State.answers_respond rfl
    · split
      · exact State.answers_respond (congrArg Net.rxView (State.atomHome_net s _ _ _ _ _))
      · exact State.answers_respond (by rw [State.meet_net])
      · exact State.answers_respond (by rw [State.meet_net])

theorem State.judgeToken_answers (b : TokenReq) : s.Answers h 3 5 (s.judgeToken h b) := by
  simp only [State.judgeToken]
  split
  · exact State.answers_respond rfl
  · split
    · exact State.answers_respond rfl
    · split
      · exact State.answers_respond rfl
      · split
        · exact State.answers_respond rfl
        · next hgrant =>
          refine State.answers_respond ?_
          rw [State.resendMoved_rxView, State.modNet_net, State.mergeTokens_net, ← State.grantToken_net hgrant]
          rfl

theorem State.useLease_answers (key : LeaseKey) : s.Answers h 0 6 (s.useLease h key) := by
  unfold State.useLease
  split
  · exact State.answers_respond rfl
  · simp only
    split
    · exact State.answers_respond rfl
    · exact State.answers_respond (by simp)

theorem State.runLease_answers (op : LeaseOp) (key : LeaseKey) (leaseEpoch : BitVec 32) :
    s.Answers h 0 6 (s.runLease h op key leaseEpoch) := by
  cases op with
  | acquire =>
    simp only [State.runLease]
    split <;> exact State.answers_respond rfl
  | release =>
    simp only [State.runLease]
    split <;> exact State.answers_respond rfl
  | use =>
    simp only [State.runLease]
    split
    · exact State.useLease_answers key
    · exact State.answers_respond rfl

theorem State.runBarrier_answers (asn : BitVec 64) (slot : Fin 16) (generation arrived count : BitVec 32) (isRelease : Bool) :
    s.Answers h 3 7 (s.runBarrier h asn slot generation arrived count isRelease) := by
  simp only [State.runBarrier]
  split
  · exact State.answers_respond (by simp [apply_ite State.net])
  · split
    · exact State.answers_respond rfl
    · split <;> exact State.answers_respond (by simp)

theorem State.runMsg_answers (m : Message) : s.Answers h m.vc m.mtype (s.runMsg h m) := by
  cases m with
  | read => exact State.runRead_answers
  | write data => exact State.runWrite_answers data
  | atomic xf operand compare => exact State.runAtomic_answers xf operand compare
  | actPush p data => exact State.answers_respond (State.takePush_rxView s _ _ p data)
  | tokenReq body => exact State.judgeToken_answers body
  | tokenRelease asn => exact State.answers_respond (State.runTokenRelease_rxView s h asn)
  | stepAck wu => exact State.answers_respond (State.runStepAck_rxView s h wu)
  | abort asn status => exact State.answers_respond (State.runAbort_rxView s h asn status)
  | weightQuery object hash => exact State.answers_respond (State.sendMsgTo_rxView s _ _ _ _)
  | weightHave object holds => exact State.answers_respond (State.runWeightHave_rxView s h object holds)
  | lease op key leaseEpoch => exact State.runLease_answers op key leaseEpoch
  | barrier asn slot generation arrived count isRelease =>
    exact State.runBarrier_answers asn slot generation arrived count isRelease
  | time t2 t3 => exact State.answers_respond rfl

end

end Sys2Proof.Machine
end

section
/-! Requests at their receiver (13, R335, R336, R339): the receiver state that a mark and an answer leave, what each verdict does, and
the statement. -/
namespace Sys2Proof.Machine
open Sys2Proof

/-! ## The receiver state of a node on a channel (R335) -/

theorem Net.rx_key (n : Net) (src vc : Nat) :
    (n.rx src vc).src = src ∧ (n.rx src vc).vc = vc ∧ (n.rx src vc).nonce = n.nonceOf src := by
  unfold Net.rx
  extract_lets fresh
  split
  · next r hr =>
    obtain ⟨hsrc, hvc⟩ : r.src = src ∧ r.vc = vc := by simpa using List.find?_some hr
    split
    · next hnonce => exact ⟨hsrc, hvc, eq_of_beq hnonce⟩
    · exact ⟨rfl, rfl, rfl⟩
  · exact ⟨rfl, rfl, rfl⟩

theorem Net.rx_setRx (n : Net) {r : RxState} {src vc : Nat} (hsrc : r.src = src) (hvc : r.vc = vc) (hnonce : r.nonce = n.nonceOf src) :
    (n.setRx r).rx src vc = r := by
  subst hsrc hvc
  have hfind : (n.setRx r).rxState.find? (fun t => t.src == r.src && t.vc == r.vc) = some r := by
    have hother : (n.rxState.filter fun u => !(u.src == r.src && u.vc == r.vc)).find? (fun t => t.src == r.src && t.vc == r.vc) = none :=
      List.find?_eq_none.mpr fun u hu => by
        simpa only [Bool.not_eq_true, Bool.not_eq_true'] using (List.mem_filter.mp hu).2
    rw [Net.setRx, List.find?_append, hother]
    simp
  have hn : (r.nonce == (n.setRx r).nonceOf r.src) = true := beq_iff_eq.mpr hnonce
  simp only [Net.rx, hfind, hn, if_true]

theorem Safety.accepted_rx (s : State) (h : Header) (vc : Nat) :
    (Safety.accepted s h vc).net.rx h.src.toNat vc = (s.net.rx h.src.toNat vc).done h := by
  obtain ⟨hsrc, hvc, hnonce⟩ := s.net.rx_key h.src.toNat vc
  exact Net.rx_setRx s.net hsrc hvc hnonce

theorem State.answer_net (s : State) (h : Header) (vc : Nat) (b : List Byte) :
    (s.answer h vc b).net = s.net.setRx { s.net.rx h.src.toNat vc with
      cached := (s.net.rx h.src.toNat vc).cached.filter (fun c => c.1 != h.tseq.toNat) ++ [(h.tseq.toNat, b)] } := by
  rw [State.answer, State.route_net, State.modNet_net]

theorem State.answer_rx (s : State) (h : Header) (vc : Nat) (b : List Byte) :
    (s.answer h vc b).net.rx h.src.toNat vc = { s.net.rx h.src.toNat vc with
      cached := (s.net.rx h.src.toNat vc).cached.filter (fun c => c.1 != h.tseq.toNat) ++ [(h.tseq.toNat, b)] } := by
  obtain ⟨hsrc, hvc, hnonce⟩ := s.net.rx_key h.src.toNat vc
  rw [State.answer_net]
  exact Net.rx_setRx s.net hsrc hvc hnonce

/-! ## A request in its turn -/

theorem State.accept_eq_runMsg (s : State) (h : Header) (m : Message) : s.accept h m = (Safety.accepted s h m.vc).runMsg h m := rfl

theorem State.accept_answeredArg (s : State) (h : Header) (m : Message) :
    ∃ status arg data, Safety.answeredArg (s.accept h m) h m.vc m.mtype status arg data := by
  obtain ⟨u, -, status, arg, data, hrun⟩ := State.runMsg_answers (s := Safety.accepted s h m.vc) (h := h) m
  refine ⟨status, arg, data, ?_⟩
  rw [State.accept_eq_runMsg, hrun, Safety.answeredArg, State.answer_rx, State.answer_net]
  exact List.mem_append_right _ (List.mem_singleton.mpr rfl)

/-- Running a request and caching its answer leaves what is held, and the OSEQ expected, as the mark left them. -/
theorem State.accept_nextHeld (s : State) (h : Header) (m : Message) :
    ((s.accept h m).net.rx h.src.toNat m.vc).nextHeld = ((s.net.rx h.src.toNat m.vc).done h).nextHeld := by
  obtain ⟨u, hu, status, arg, data, hrun⟩ := State.runMsg_answers (s := Safety.accepted s h m.vc) (h := h) m
  rw [State.accept_eq_runMsg, hrun, State.answer_rx, ← Safety.accepted_rx, ← Net.rx_eq_of_rxView hu]
  rfl

theorem State.deliver_of_none {s : State} {src vc : Nat} (hnone : (s.net.rx src vc).nextHeld = none) (fuel : Nat) :
    s.deliver src vc fuel = s := by
  cases fuel with
  | zero => rfl
  | succ fuel => simp only [State.deliver, hnone]

theorem State.deliver_of_some {s : State} {src vc : Nat} {h : Header} {m : Message}
    (hsome : (s.net.rx src vc).nextHeld = some (h, m)) (fuel : Nat) :
    s.deliver src vc (fuel + 1) = (s.accept h m).deliver src vc fuel := by
  simp only [State.deliver, hsome]

/-! ## A request arrives -/

theorem exec_of_messageOf {c : Instr} {h : Header} {m : Message} (hc : Safety.messageOf c = some (h, m)) (s : State) :
    exec c s = .next (s.receive h m) := by
  unfold Safety.messageOf at hc
  split at hc <;> cases hc <;> rfl

section
variable {s : State} {h : Header} {m : Message}

theorem State.receive_of_not_running (hrun : s.running = false) : s.receive h m = s := by
  simp [State.receive, hrun]

theorem State.receive_of_again (hrun : s.running = true) {b : List Byte} (hv : s.rxVerdict h m.vc = .again b) :
    s.receive h m = s.route h.src.toNat 1 0 0 b := by
  simp [State.receive, hrun, hv]

theorem State.receive_of_drop (hrun : s.running = true) (hv : s.rxVerdict h m.vc = .drop) : s.receive h m = s := by
  simp [State.receive, hrun, hv]

theorem State.receive_of_not_mem (hrun : s.running = true) (hsrc : h.src.toNat ∉ s.memberSet) :
    s.receive h m = s.route h.src.toNat 1 0 0 (s.response h m.mtype 4 []) := by
  have hv : s.rxVerdict h m.vc = .notMember := by simp [State.rxVerdict, hsrc]
  simp [State.receive, hrun, hv]

theorem State.receive_of_hold (hrun : s.running = true) (hv : s.rxVerdict h m.vc = .hold) :
    s.receive h m = s.modNet fun n => n.setRx ((n.rx h.src.toNat m.vc).hold h m) := by
  simp [State.receive, hrun, hv]

theorem State.receive_of_run (hrun : s.running = true) (hv : s.rxVerdict h m.vc = .run) :
    s.receive h m = (s.accept h m).deliver h.src.toNat m.vc 64 := by
  simp [State.receive, hrun, hv]

end

theorem Net.rx_setRx_hold (n : Net) (src vc : Nat) (h : Header) (m : Message) :
    (n.setRx ((n.rx src vc).hold h m)).rx src vc = (n.rx src vc).hold h m := by
  obtain ⟨hsrc, hvc, hnonce⟩ := n.rx_key src vc
  exact Net.rx_setRx n hsrc hvc hnonce

theorem RxState.mem_held_hold {r : RxState} {h : Header} (hnew : r.holds h = false) (m : Message) : (h, m) ∈ (r.hold h m).held := by
  simp [RxState.hold, hnew]

theorem doTransportResponse_of_notMember {h : Header} (hstatus : h.status = 4) (vc : BitVec 2) (data : List Byte) (s : State) :
    doTransportResponse h vc data s = s := by
  simp [doTransportResponse, hstatus]

/-! ## What a route leaves on the ports -/

theorem getD_modify_or {α : Type} (l : List α) (i j : Nat) (f : α → α) (d : α) :
    (l.modify i f).getD j d = l.getD j d ∨ (l.modify i f).getD j d = f (l.getD j d) := by
  by_cases hij : i = j
  · subst hij
    by_cases hi : i < l.length
    · exact .inr (getD_modify_same l i f d hi)
    · exact .inl (by rw [List.modify_eq_self (by omega)])
  · exact .inl (getD_modify_other l i j f d hij)

theorem State.putMsg_vcq (s : State) (p n : Fin 12) (vc q : Nat) (b : List Byte) :
    ((s.putMsg p vc b).port n).vcq.getD q [] = (s.port n).vcq.getD q [] ∨
      ((s.putMsg p vc b).port n).vcq.getD q [] = (s.port n).vcq.getD q [] ++ [{ bytes := b, sent := 0 }] := by
  unfold State.putMsg
  extract_lets _
  split
  · rcases getD_modify_or s.truss p n _ Port.reset with hport | hport
    · exact .inl (congrArg (fun x : Port => x.vcq.getD q []) hport)
    · rw [State.port, State.modPort_truss, hport]
      exact getD_modify_or _ vc q _ []
  · exact .inl rfl

theorem State.route_vcq (s : State) (n : Fin 12) (dst vc otag attempt q : Nat) (b : List Byte) :
    ((s.route dst vc otag attempt b).port n).vcq.getD q [] = (s.port n).vcq.getD q [] ∨
      ((s.route dst vc otag attempt b).port n).vcq.getD q [] = (s.port n).vcq.getD q [] ++ [{ bytes := b, sent := 0 }] := by
  unfold State.route
  split
  · exact s.putMsg_vcq _ n vc q b
  · exact .inl rfl

/-! ## The statement -/

/-- Settles O52. A request command is `State.receive`, whose branches are the verdicts. That a request that runs is answered, and that what
is held for its order follows it, rests on `State.runMsg_answers`: nothing that a request does touches what `Net.rx` reads but the answer
itself. -/
theorem requestsRunOnce : Obligations.RequestsRunOnce := by
  intro s c h m hc
  have hexec := exec_of_messageOf hc s
  refine ⟨fun hrun => ?_, fun hstatus ch data => ?_, fun hrun =>
    ⟨fun b hv => ⟨?_, fun n q => s.route_vcq n _ _ _ _ q b⟩, fun hv => ?_, fun hsrc => ?_, fun hv => ?_, fun hv => ?_, ?_, ?_⟩⟩
  · rw [hexec, State.receive_of_not_running hrun]
  · exact congrArg Host.Outcome.next (doTransportResponse_of_notMember hstatus ch data s)
  · rw [hexec, State.receive_of_again hrun hv]
  · rw [hexec, State.receive_of_drop hrun hv]
  · rw [hexec, State.receive_of_not_mem hrun hsrc]
  · refine ⟨_, hexec.trans (congrArg _ (State.receive_of_hold hrun hv)), rfl, rfl, fun hnew => ?_⟩
    rw [State.modNet_net, Net.rx_setRx_hold]
    exact RxState.mem_held_hold hnew m
  · rw [hexec, State.receive_of_run hrun hv]
  · rintro ⟨hv, hnone⟩
    refine ⟨s.accept h m, ?_, s.accept_answeredArg h m⟩
    rw [hexec, State.receive_of_run hrun hv, State.deliver_of_none ((s.accept_nextHeld h m).trans hnone)]
  · intro h1 m1 hv hsome
    rw [hexec, State.receive_of_run hrun hv, State.deliver_of_some ((s.accept_nextHeld h m).trans hsome)]

end Sys2Proof.Machine
end

section
/-! The encoding of thread instructions (05, R128, R129): each field of a format lies at its own bits, and the fields of a word make it
up; so the word of a legal instruction decodes to it, and a word that decodes is its instruction's word. -/
namespace Sys2Proof

/-! ## The fields of a word -/

section
variable (op : BitVec 6) (w : Issue) (rd ra rb : BitVec 5)

@[simp] theorem threadWord_op (low : BitVec 22) : (threadWord op w low).extractLsb' 26 6 = op := by
  unfold threadWord; ext i hi; simp; grind
@[simp] theorem threadWord_pg (low : BitVec 22) : (threadWord op w low).extractLsb' 23 3 = w.pg := by
  unfold threadWord; ext i hi; simp; grind
@[simp] theorem threadWord_pn (low : BitVec 22) : (threadWord op w low).extractLsb' 22 1 = w.pn := by
  unfold threadWord; ext i hi; simp; grind

/-- A field below bit 22 is a field of the format. -/
theorem threadWord_field (low : BitVec 22) (k n : Nat) (h : k + n ≤ 22) :
    (threadWord op w low).extractLsb' k n = low.extractLsb' k n := by
  unfold threadWord; ext i hi; simp; grind

@[simp] theorem threadWord_low (low : BitVec 22) : (threadWord op w low).extractLsb' 0 22 = low := by
  rw [threadWord_field op w low 0 22 (by omega)]; simp

@[simp] theorem formR_op (fn : BitVec 7) : (formR op w rd ra rb fn).extractLsb' 26 6 = op := threadWord_op ..
@[simp] theorem formR_pg (fn : BitVec 7) : (formR op w rd ra rb fn).extractLsb' 23 3 = w.pg := threadWord_pg ..
@[simp] theorem formR_pn (fn : BitVec 7) : (formR op w rd ra rb fn).extractLsb' 22 1 = w.pn := threadWord_pn ..
@[simp] theorem formR_rd (fn : BitVec 7) : (formR op w rd ra rb fn).extractLsb' 17 5 = rd := by
  rw [formR, threadWord_field _ _ _ _ _ (by omega)]; ext i hi; simp; grind
@[simp] theorem formR_ra (fn : BitVec 7) : (formR op w rd ra rb fn).extractLsb' 12 5 = ra := by
  rw [formR, threadWord_field _ _ _ _ _ (by omega)]; ext i hi; simp; grind
@[simp] theorem formR_rb (fn : BitVec 7) : (formR op w rd ra rb fn).extractLsb' 7 5 = rb := by
  rw [formR, threadWord_field _ _ _ _ _ (by omega)]; ext i hi; simp; grind
@[simp] theorem formR_fn (fn : BitVec 7) : (formR op w rd ra rb fn).extractLsb' 0 7 = fn := by
  rw [formR, threadWord_field _ _ _ _ _ (by omega)]; ext i hi; simp; grind
@[simp] theorem formR_ty (ty : BitVec 3) (f : BitVec 4) : (formR op w rd ra rb (vopFn ty f)).extractLsb' 4 3 = ty := by
  rw [formR, vopFn, threadWord_field _ _ _ _ _ (by omega)]; ext i hi; simp; grind
@[simp] theorem formR_f (ty : BitVec 3) (f : BitVec 4) : (formR op w rd ra rb (vopFn ty f)).extractLsb' 0 4 = f := by
  rw [formR, vopFn, threadWord_field _ _ _ _ _ (by omega)]; ext i hi; simp; grind

@[simp] theorem formI_op (imm : BitVec 12) : (formI op w rd ra imm).extractLsb' 26 6 = op := threadWord_op ..
@[simp] theorem formI_pg (imm : BitVec 12) : (formI op w rd ra imm).extractLsb' 23 3 = w.pg := threadWord_pg ..
@[simp] theorem formI_pn (imm : BitVec 12) : (formI op w rd ra imm).extractLsb' 22 1 = w.pn := threadWord_pn ..
@[simp] theorem formI_rd (imm : BitVec 12) : (formI op w rd ra imm).extractLsb' 17 5 = rd := by
  rw [formI, threadWord_field _ _ _ _ _ (by omega)]; ext i hi; simp; grind
@[simp] theorem formI_ra (imm : BitVec 12) : (formI op w rd ra imm).extractLsb' 12 5 = ra := by
  rw [formI, threadWord_field _ _ _ _ _ (by omega)]; ext i hi; simp; grind
@[simp] theorem formI_imm (imm : BitVec 12) : (formI op w rd ra imm).extractLsb' 0 12 = imm := by
  rw [formI, threadWord_field _ _ _ _ _ (by omega)]; ext i hi; simp; grind

@[simp] theorem formM_op (sz : BitVec 3) (off : BitVec 9) : (formM op w rd ra sz off).extractLsb' 26 6 = op := threadWord_op ..
@[simp] theorem formM_pg (sz : BitVec 3) (off : BitVec 9) : (formM op w rd ra sz off).extractLsb' 23 3 = w.pg := threadWord_pg ..
@[simp] theorem formM_pn (sz : BitVec 3) (off : BitVec 9) : (formM op w rd ra sz off).extractLsb' 22 1 = w.pn := threadWord_pn ..
@[simp] theorem formM_rt (sz : BitVec 3) (off : BitVec 9) : (formM op w rd ra sz off).extractLsb' 17 5 = rd := by
  rw [formM, threadWord_field _ _ _ _ _ (by omega)]; ext i hi; simp; grind
@[simp] theorem formM_ra (sz : BitVec 3) (off : BitVec 9) : (formM op w rd ra sz off).extractLsb' 12 5 = ra := by
  rw [formM, threadWord_field _ _ _ _ _ (by omega)]; ext i hi; simp; grind
@[simp] theorem formM_sz (sz : BitVec 3) (off : BitVec 9) : (formM op w rd ra sz off).extractLsb' 9 3 = sz := by
  rw [formM, threadWord_field _ _ _ _ _ (by omega)]; ext i hi; simp; grind
@[simp] theorem formM_off (sz : BitVec 3) (off : BitVec 9) : (formM op w rd ra sz off).extractLsb' 0 9 = off := by
  rw [formM, threadWord_field _ _ _ _ _ (by omega)]; ext i hi; simp; grind

@[simp] theorem formX_op (ord : BitVec 4) (xf : BitVec 8) : (formX op w rd ra ord xf).extractLsb' 26 6 = op := threadWord_op ..
@[simp] theorem formX_pg (ord : BitVec 4) (xf : BitVec 8) : (formX op w rd ra ord xf).extractLsb' 23 3 = w.pg := threadWord_pg ..
@[simp] theorem formX_pn (ord : BitVec 4) (xf : BitVec 8) : (formX op w rd ra ord xf).extractLsb' 22 1 = w.pn := threadWord_pn ..
@[simp] theorem formX_rd (ord : BitVec 4) (xf : BitVec 8) : (formX op w rd ra ord xf).extractLsb' 17 5 = rd := by
  rw [formX, threadWord_field _ _ _ _ _ (by omega)]; ext i hi; simp; grind
@[simp] theorem formX_ra (ord : BitVec 4) (xf : BitVec 8) : (formX op w rd ra ord xf).extractLsb' 12 5 = ra := by
  rw [formX, threadWord_field _ _ _ _ _ (by omega)]; ext i hi; simp; grind
@[simp] theorem formX_ord (ord : BitVec 4) (xf : BitVec 8) : (formX op w rd ra ord xf).extractLsb' 8 4 = ord := by
  rw [formX, threadWord_field _ _ _ _ _ (by omega)]; ext i hi; simp; grind
@[simp] theorem formX_xf (ord : BitVec 4) (xf : BitVec 8) : (formX op w rd ra ord xf).extractLsb' 0 8 = xf := by
  rw [formX, threadWord_field _ _ _ _ _ (by omega)]; ext i hi; simp; grind
@[simp] theorem formX_wd (ord : BitVec 4) (wd : BitVec 2) (a : BitVec 6) :
    (formX op w rd ra ord (atomXf wd a)).extractLsb' 6 2 = wd := by
  rw [formX, atomXf, threadWord_field _ _ _ _ _ (by omega)]; ext i hi; simp; grind
@[simp] theorem formX_aop (ord : BitVec 4) (wd : BitVec 2) (a : BitVec 6) :
    (formX op w rd ra ord (atomXf wd a)).extractLsb' 0 6 = a := by
  rw [formX, atomXf, threadWord_field _ _ _ _ _ (by omega)]; ext i hi; simp; grind
end

/-! ## A word is made of its fields -/

/-- The issue of a thread at the word `x`, whose guard it is. -/
@[reducible] def wordIssue (b : Fin 80) (t : Fin 128) (x : BitVec 32) : Issue := ⟨b, t, x.extractLsb' 23 3, x.extractLsb' 22 1⟩

section
variable (b : Fin 80) (t : Fin 128) (x : BitVec 32) (op : BitVec 6)

theorem threadWord_of_fields (hop : (x.extractLsb' 26 6).toNat = op.toNat) :
    threadWord op (wordIssue b t x) (x.extractLsb' 0 22) = x := by
  rw [← BitVec.eq_of_toNat_eq hop]; unfold threadWord; ext i hi; simp; grind

theorem formR_of_fields (fn : BitVec 7) (hop : (x.extractLsb' 26 6).toNat = op.toNat)
    (hfn : (x.extractLsb' 0 7).toNat = fn.toNat) :
    formR op (wordIssue b t x) (x.extractLsb' 17 5) (x.extractLsb' 12 5) (x.extractLsb' 7 5) fn = x := by
  rw [← BitVec.eq_of_toNat_eq hop, ← BitVec.eq_of_toNat_eq hfn]; unfold formR threadWord; ext i hi; simp; grind

theorem formR_vop_of_fields (f : BitVec 4) (hop : (x.extractLsb' 26 6).toNat = op.toNat)
    (hf : (x.extractLsb' 0 4).toNat = f.toNat) :
    formR op (wordIssue b t x) (x.extractLsb' 17 5) (x.extractLsb' 12 5) (x.extractLsb' 7 5) (vopFn (x.extractLsb' 4 3) f) = x := by
  rw [← BitVec.eq_of_toNat_eq hop, ← BitVec.eq_of_toNat_eq hf]; unfold formR vopFn threadWord; ext i hi; simp; grind

theorem formI_of_fields (hop : (x.extractLsb' 26 6).toNat = op.toNat) :
    formI op (wordIssue b t x) (x.extractLsb' 17 5) (x.extractLsb' 12 5) (x.extractLsb' 0 12) = x := by
  rw [← BitVec.eq_of_toNat_eq hop]; unfold formI threadWord; ext i hi; simp; grind

theorem formM_of_fields (hop : (x.extractLsb' 26 6).toNat = op.toNat) :
    formM op (wordIssue b t x) (x.extractLsb' 17 5) (x.extractLsb' 12 5) (x.extractLsb' 9 3) (x.extractLsb' 0 9) = x := by
  rw [← BitVec.eq_of_toNat_eq hop]; unfold formM threadWord; ext i hi; simp; grind

theorem formX_of_fields (xf : BitVec 8) (hop : (x.extractLsb' 26 6).toNat = op.toNat)
    (hxf : (x.extractLsb' 0 8).toNat = xf.toNat) :
    formX op (wordIssue b t x) (x.extractLsb' 17 5) (x.extractLsb' 12 5) (x.extractLsb' 8 4) xf = x := by
  rw [← BitVec.eq_of_toNat_eq hop, ← BitVec.eq_of_toNat_eq hxf]; unfold formX threadWord; ext i hi; simp; grind

theorem formX_atom_of_fields (a : BitVec 6) (hop : (x.extractLsb' 26 6).toNat = op.toNat)
    (ha : (x.extractLsb' 0 6).toNat = a.toNat) :
    formX op (wordIssue b t x) (x.extractLsb' 17 5) (x.extractLsb' 12 5) (x.extractLsb' 8 4) (atomXf (x.extractLsb' 6 2) a) = x := by
  rw [← BitVec.eq_of_toNat_eq hop, ← BitVec.eq_of_toNat_eq ha]; unfold formX atomXf threadWord; ext i hi; simp; grind
end

/-! ## Both directions -/

/-- The word of an instruction reads as the instruction. -/
theorem readThreadWord_of_encode {i : Instr} {x : BitVec 32} {w : Issue} (hx : encodeThread i = some x) (hw : i.issue = some w) :
    readThreadWord w.bay w.thread x = some i := by
  cases i <;> cases hx <;> cases hw <;> simp [readThreadWord]

/-- A word that reads as an instruction is its word, and it issues for the thread that read it. -/
theorem encode_of_readThreadWord {b : Fin 80} {t : Fin 128} {x : BitVec 32} {i : Instr} (h : readThreadWord b t x = some i) :
    encodeThread i = some x ∧ i.issue = some (wordIssue b t x) := by
  simp only [readThreadWord] at h
  split at h
  all_goals try split at h
  all_goals cases h
  all_goals refine ⟨congrArg some ?_, rfl⟩
  all_goals
    simp [threadWord_of_fields, formR_of_fields, formR_vop_of_fields, formI_of_fields, formM_of_fields, formX_of_fields,
      formX_atom_of_fields, *]
end Sys2Proof

open Sys2Proof in
/-- Settles O2: the fields of a format are where `readThreadWord` reads them, and a word is made of those fields. -/
theorem threadWordsRoundTrip : Obligations.ThreadWordsRoundTrip := by
  refine ⟨fun i x w hx hw hl => ?_, fun b t x i h => ?_⟩
  · rw [decodeThreadWord, readThreadWord_of_encode hx hw]
    exact if_pos hl
  · unfold decodeThreadWord at h
    split at h
    · next j hj =>
      obtain ⟨henc, hissue⟩ := encode_of_readThreadWord hj
      split at h
      · next hl => cases h; exact ⟨henc, hl, _, hissue, rfl, rfl⟩
      · cases h
    · cases h
end

section
/-! The queue, and the state after reset (log entries 2 and 3): the shape of a thread and of a bay, and that reset has it. -/
namespace Sys2Proof.Machine
open Sys2Proof

/-- A thread has its registers, and its store buffer and mailbox keep their bounds (R137, R147). -/
def Thread.Shaped (t : Thread) : Prop :=
  t.g.length = 32 ∧ t.v.length = 32 ∧ t.buf.length ≤ 8 ∧ t.mbox.length ≤ 4 ∧ ∀ l ∈ t.buf, l.bytes.length = 64

/-- A bay has its threads, movers and barrier slots. -/
def Bay.Shaped (y : Bay) : Prop :=
  y.threads.length = 128 ∧ y.movers.length = 2 ∧ y.barriers.length = 16 ∧ ∀ t ∈ y.threads, t.Shaped

theorem Thread.reset_shaped : Thread.reset.Shaped := by
  refine ⟨rfl, rfl, by decide, by decide, ?_⟩
  intro l hl
  cases hl

theorem Bay.reset_shaped : Bay.reset.Shaped := by
  refine ⟨rfl, rfl, rfl, fun t ht => ?_⟩
  rw [List.eq_of_mem_replicate ht]
  exact Thread.reset_shaped

/-- Settles O1: a step on a queue with `c` in front is `exec c` on the state with the queue's rest. -/
theorem stepRunsTheFrontCommand : Obligations.StepRunsTheFrontCommand := by
  intro s c rest h
  simp only [step, h]

/-- Settles O58: at reset nothing is listed in the memories, and every bay and port is as its own reset. -/
theorem resetIsSound : Obligations.ResetIsSound := by
  refine ⟨⟨rfl, rfl⟩, ⟨rfl, rfl, rfl, rfl, fun y hy => ?_, fun p hp => ?_, rfl, rfl, rfl, rfl, rfl, rfl⟩, rfl⟩
  · rw [List.eq_of_mem_replicate hy]
    exact Bay.reset_shaped
  · rw [List.eq_of_mem_replicate hp]
    rfl

end Sys2Proof.Machine
end

section
/-! Byte strings and numbers: a number's bytes spell it again, in either order, and the parts of a byte string are where they were put. -/
namespace Sys2Proof.Machine
open Sys2Proof

@[simp] theorem bytesLE_length (n v : Nat) : (bytesLE n v).length = n := by
  induction n generalizing v with
  | zero => rfl
  | succ n ih => simp [bytesLE, ih]

@[simp] theorem bytesBE_length (n v : Nat) : (bytesBE n v).length = n := by simp [bytesBE]

theorem natLE_bytesLE (n v : Nat) : natLE (bytesLE n v) = v % 256 ^ n := by
  induction n generalizing v with
  | zero => simp [bytesLE, natLE, Nat.mod_one]
  | succ n ih => rw [bytesLE, natLE, ih, BitVec.toNat_ofNat, show 256 ^ (n + 1) = 256 * 256 ^ n from Nat.pow_succ', Nat.mod_mul]

theorem natLE_lt (l : List Byte) : natLE l < 256 ^ l.length := by
  induction l with
  | nil => simp [natLE]
  | cons b l ih =>
    have hb := b.isLt
    rw [natLE, List.length_cons, Nat.pow_succ']
    omega

/-- Induction from the back of a list. -/
theorem list_back_induction {α : Type} {motive : List α → Prop} (nil : motive [])
    (append_singleton : ∀ l a, motive l → motive (l ++ [a])) (l : List α) : motive l := by
  have hrev : ∀ m : List α, motive m.reverse := fun m => by
    induction m with
    | nil => exact nil
    | cons a m ih => rw [List.reverse_cons]; exact append_singleton _ _ ih
  simpa only [List.reverse_reverse] using hrev l.reverse

theorem natBE_append (l m : List Byte) : natBE (l ++ m) = natBE l * 256 ^ m.length + natBE m := by
  induction m using list_back_induction with
  | nil => simp [natBE]
  | append_singleton m b ih =>
    have h : ∀ (k : List Byte), natBE (k ++ [b]) = natBE k * 256 + b.toNat := fun k => by simp [natBE]
    rw [← List.append_assoc, h, h, ih, List.length_append, List.length_singleton, Nat.pow_succ, Nat.add_mul, Nat.mul_assoc, Nat.add_assoc]

theorem natBE_reverse (l : List Byte) : natBE l.reverse = natLE l := by
  induction l with
  | nil => rfl
  | cons b l ih => rw [List.reverse_cons, natBE_append, ih, natLE]; simp only [natBE]; simp; omega

theorem natBE_bytesBE (n v : Nat) : natBE (bytesBE n v) = v % 256 ^ n := by rw [bytesBE, natBE_reverse, natLE_bytesLE]

@[simp] theorem fit_length (n : Nat) (l : List Byte) : (fit n l).length = n := by simp [fit]; omega

theorem fit_of_length {n : Nat} {l : List Byte} (h : l.length = n) : fit n l = l := by simp [fit, ← h]

theorem take_fit {k n : Nat} {l : List Byte} (h : l.length = k) (hk : k ≤ n) : (fit n l).take k = l := by
  have : l.take n = l := List.take_of_length_le (by omega)
  rw [fit, this, List.take_append_of_le_length (by omega), List.take_of_length_le (by omega)]

end Sys2Proof.Machine
end

section
/-! Flits and the line coding (12, R289 to R292): the fields of a flit's header, the levels of a lane, and what the decoder lets through. -/
namespace Sys2Proof.Machine
open Sys2Proof

/-! ## Flits -/

section
variable (h : FlitHead) (payload : List Byte)

@[simp] theorem flitBytes_length : (flitBytes h payload).length = 256 := by simp [flitBytes]

theorem flitBytes_take_body : (flitBytes h payload).take 248 = bytesLE 8 h.word ++ fit 240 payload :=
  List.take_left' (by simp)

theorem flitBytes_crc : slice (flitBytes h payload) 248 8 = bytesBE 8 (crc64 (bytesLE 8 h.word ++ fit 240 payload)).toNat := by
  have hdrop : (flitBytes h payload).drop 248 = bytesBE 8 (crc64 (bytesLE 8 h.word ++ fit 240 payload)).toNat :=
    List.drop_left' (by simp)
  rw [slice, hdrop, List.take_of_length_le (by simp)]

theorem flitBytes_word : fieldLE (flitBytes h payload) 0 8 = h.word % 2 ^ 64 := by
  have htake : (flitBytes h payload).take 8 = bytesLE 8 h.word := by
    rw [flitBytes, List.append_assoc]
    exact List.take_left' (by simp)
  rw [fieldLE, slice, List.drop_zero, htake]
  exact natLE_bytesLE 8 h.word

variable {h} in
theorem flitBytes_head (hseq : h.seq < 4096) (hack : h.ack < 4096) (htype : h.type ≤ 4) (hvc : h.vc < 4) (hcrVc : h.crVc < 4)
    (hcrCum : h.crCum < 4096) (hvalid : h.valid16 ≤ 15) : Flit.head (flitBytes h payload) = h := by
  obtain ⟨seq, ack, type, vc, crVc, crCum, valid16, eom⟩ := h
  simp only at hseq hack htype hvc hcrVc hcrCum hvalid
  have heom : b2n eom ≤ 1 := by cases eom <;> decide
  have hbit : ∀ n, n % 2 = b2n eom → (n % 2 == 1) = eom := by intro n hn; rw [hn]; cases eom <;> rfl
  simp only [Flit.head, flitBytes_word, FlitHead.word, bits, bitOf, FlitHead.mk.injEq]
  refine ⟨?_, ?_, ?_, ?_, ?_, ?_, ?_, hbit _ ?_⟩ <;> omega

variable {h payload} in
theorem flitBytes_payload (hhead : Flit.head (flitBytes h payload) = h) (hvalid : h.valid16 ≤ 15)
    (hlen : payload.length = 16 * h.valid16) : Flit.payload (flitBytes h payload) = payload := by
  have hdrop : (flitBytes h payload).drop 8 = fit 240 payload ++ bytesBE 8 (crc64 (bytesLE 8 h.word ++ fit 240 payload)).toNat := by
    rw [flitBytes, List.append_assoc]
    exact List.drop_left' (by simp)
  rw [Flit.payload, hhead, slice, hdrop, List.take_append_of_le_length (by simp; omega), take_fit hlen (by omega)]

variable {h} in
theorem flitBytes_good (hhead : Flit.head (flitBytes h payload) = h) (htype : h.type ≤ 4) : Flit.good (flitBytes h payload) = true := by
  have hcrc : natBE (slice (flitBytes h payload) 248 8) = (crc64 ((flitBytes h payload).take 248)).toNat := by
    rw [flitBytes_crc, natBE_bytesBE, flitBytes_take_body]
    exact Nat.mod_eq_of_lt (BitVec.isLt _)
  simp [Flit.good, hcrc, hhead, htype]
end

/-! ## The levels of a lane -/

theorem grayLevel_grayLevel (u : BitVec 2) : grayLevel (grayLevel u) = u := by revert u; decide

theorem prbsBits_lt (n : Nat) (p : BitVec 31) : (prbsBits n p).1 < 2 ^ n := by
  induction n with
  | zero => simp [prbsBits]
  | succ n ih =>
    have := (prbsStep (prbsBits n p).2).1.toNat_le
    simp only [prbsBits]
    omega

theorem symsVal_append_singleton (l : List Sym) (c : Sym) : symsVal (l ++ [c]) = symsVal l * 1024 + c.toNat := by simp [symsVal]

theorem symsVal_lt (l : List Sym) : symsVal l < 2 ^ (10 * l.length) := by
  induction l using list_back_induction with
  | nil => simp [symsVal]
  | append_singleton l c ih =>
    have := c.isLt
    rw [symsVal_append_singleton, List.length_append, List.length_singleton, Nat.mul_add, Nat.pow_add]
    omega

theorem symsOf_symsVal (l : List Sym) : symsOf l.length (symsVal l) = l := by
  induction l using list_back_induction with
  | nil => rfl
  | append_singleton l c ih =>
    have hc := c.isLt
    have hlast : BitVec.ofNat 10 (symsVal (l ++ [c]) / 2 ^ (10 * (l.length + 1 - 1 - l.length))) = c := by
      apply BitVec.eq_of_toNat_eq
      rw [symsVal_append_singleton, BitVec.toNat_ofNat, show l.length + 1 - 1 - l.length = 0 by omega]
      omega
    rw [List.length_append, List.length_singleton, symsOf, List.range_succ, List.map_append, List.map_singleton, hlast]
    refine congrArg (· ++ [c]) (Eq.trans (List.map_congr_left fun i hi => ?_) ih)
    have hi := List.mem_range.mp hi
    rw [symsVal_append_singleton, show 10 * (l.length + 1 - 1 - i) = 10 + 10 * (l.length - 1 - i) by omega, Nat.pow_add,
      ← Nat.div_div_eq_div_mul, show (symsVal l * 1024 + c.toNat) / 2 ^ 10 = symsVal l by omega]

/-- The number that unit intervals spell, two bits each. -/
def uisVal (us : List (BitVec 2)) : Nat := us.foldl (fun acc u => acc * 4 + u.toNat) 0

theorem uisVal_uiBits (n v : Nat) : uisVal ((List.range n).map (uiBits n v)) = v % 4 ^ n := by
  have hgen : ∀ k ≤ n, uisVal ((List.range k).map (uiBits n v)) = v / 4 ^ (n - k) % 4 ^ k := by
    intro k
    induction k with
    | zero => simp [uisVal, Nat.mod_one]
    | succ k ih =>
      intro hk
      rw [List.range_succ, List.map_append, uisVal, List.foldl_append]
      change uisVal ((List.range k).map (uiBits n v)) * 4 + (uiBits n v k).toNat = _
      rw [ih (by omega), uiBits, BitVec.toNat_ofNat, show n - 1 - k = n - (k + 1) by omega,
        show n - k = n - (k + 1) + 1 by omega, Nat.pow_succ, ← Nat.div_div_eq_div_mul,
        show 4 ^ (k + 1) = 4 * 4 ^ k from Nat.pow_succ', Nat.mod_mul]
      omega
  simpa using hgen n (Nat.le_refl n)

/-- What a lane reads of levels that spell `v`, scrambled with its own scrambler's bits. -/
theorem laneRead_of_uis {seed : BitVec 31} {inverted : Bool} {ls us : List (BitVec 2)} {v : Nat}
    (hus : ls.map (fun u => grayLevel (if inverted then ~~~u else u)) = us) (hv : uisVal us = v) :
    laneRead seed inverted ls = (symsOf (ls.length / 5) (v ^^^ (prbsBits (2 * ls.length) seed).1), (prbsBits (2 * ls.length) seed).2) := by
  rw [laneRead, ← hv, ← hus, uisVal, List.foldl_map]

theorem laneRead_laneLevels (seed : BitVec 31) (syms : List Sym) :
    let sent := laneLevels seed syms
    laneRead seed false sent.1 = (syms, sent.2) ∧ laneRead seed true (sent.1.map fun u => ~~~u) = (syms, sent.2) := by
  have hlt : symsVal syms ^^^ (prbsBits (2 * (5 * syms.length)) seed).1 < 4 ^ (5 * syms.length) := by
    have hpow : (4 : Nat) ^ (5 * syms.length) = 2 ^ (10 * syms.length) := by
      rw [show (4 : Nat) = 2 ^ 2 from rfl, ← Nat.pow_mul]
      congr 1
      omega
    have hp := prbsBits_lt (2 * (5 * syms.length)) seed
    rw [show 2 * (5 * syms.length) = 10 * syms.length by omega] at hp ⊢
    rw [hpow]
    exact Nat.xor_lt_two_pow (symsVal_lt syms) hp
  have hval : uisVal ((List.range (5 * syms.length)).map (uiBits (5 * syms.length)
      (symsVal syms ^^^ (prbsBits (2 * (5 * syms.length)) seed).1))) = symsVal syms ^^^ (prbsBits (2 * (5 * syms.length)) seed).1 := by
    rw [uisVal_uiBits, Nat.mod_eq_of_lt hlt]
  have hread : ∀ (b : Bool) (ls : List (BitVec 2)), ls.length = 5 * syms.length →
      ls.map (fun u => grayLevel (if b then ~~~u else u)) = (List.range (5 * syms.length)).map (uiBits (5 * syms.length)
        (symsVal syms ^^^ (prbsBits (2 * (5 * syms.length)) seed).1)) →
      laneRead seed b ls = (syms, (laneLevels seed syms).2) := by
    intro b ls hlen hus
    rw [laneRead_of_uis hus hval, hlen, Nat.xor_assoc, Nat.xor_self, Nat.xor_zero, Nat.mul_div_cancel_left _ (by omega), symsOf_symsVal]
    rfl
  refine ⟨hread _ _ (by simp [laneLevels]) ?_, hread _ _ (by simp [laneLevels]) ?_⟩
  · simp [laneLevels, grayLevel_grayLevel]
  · simp [laneLevels, grayLevel_grayLevel]

/-! ## The decoder -/

theorem foldl_modify_getElem? {α : Type} (g : α → α → α) (errs : List (Nat × α)) (l : List α) {i : Nat} (hi : i ∉ errs.map (·.1)) :
    (errs.foldl (fun l e => l.modify e.1 fun c => g c e.2) l)[i]? = l[i]? := by
  induction errs generalizing l with
  | nil => rfl
  | cons e errs ih =>
    obtain ⟨hne, hrest⟩ : i ≠ e.1 ∧ i ∉ errs.map (·.1) := by simpa using hi
    rw [List.foldl_cons, ih _ hrest, List.getElem?_modify]
    simp [Ne.symm hne]

theorem rsDecode_sound {r fixed : List Sym} {wrong : List Nat} (h : rsDecode r = some (fixed, wrong)) :
    (∀ c ∈ syndromes fixed, c = 0) ∧ wrong.length ≤ 15 ∧ ∀ i, i ∉ wrong → fixed[i]? = r[i]? := by
  unfold rsDecode at h
  extract_lets syn q errs cor at h
  split at h
  · next hzero =>
    obtain ⟨rfl, rfl⟩ : r = fixed ∧ [] = wrong := by simpa using h
    exact ⟨by simpa using hzero, by simp, fun _ _ => rfl⟩
  · split at h
    · cases h
    · next hlen =>
      split at h
      · next hfix =>
        obtain ⟨hcount, hzero⟩ : errs.length = q.len ∧ (syndromes cor).all (· == 0) = true := by simpa using hfix
        obtain ⟨hcor, hwrong⟩ : cor = fixed ∧ errs.map (·.1) = wrong := by simpa using h
        subst hcor hwrong
        exact ⟨by simpa using hzero, by rw [List.length_map]; omega, fun i hi => foldl_modify_getElem? (fun c d => c ^^^ d) errs r hi⟩
      · cases h

/-- Settles O47: the header's fields are the digits of its word, a lane's levels are the digits of its scrambled number, and the decoder
checks the word it gives. -/
theorem flitsRoundTrip : Obligations.FlitsRoundTrip := by
  refine ⟨fun h payload hseq hack htype hvc hcrVc hcrCum hvalid hlen => ?_, laneRead_laneLevels, fun r fixed wrong => rsDecode_sound⟩
  have hhead := flitBytes_head payload hseq hack htype hvc hcrVc hcrCum hvalid
  exact ⟨flitBytes_length h payload, flitBytes_good payload hhead htype, hhead, flitBytes_payload hhead hvalid hlen⟩

end Sys2Proof.Machine
end

section
/-! What a step keeps (05, R137, R147; log entries 2, 8, 63): the canonical form of the byte stores, the numbers of the parts, and the queue's
rest. `Ctx.Sound` says all three of a state at once, each under the assumption it rests on, so that one lemma for each operation serves
both invariants. -/
namespace Sys2Proof.Machine
open Sys2Proof

/-- What is assumed of the state a step starts in (that its stores are canonical, that it has its parts), and the rest of the queue. -/
structure Ctx where
  canon : Prop
  shape : Prop
  queue : List Instr

variable {κ : Ctx}

/-! ## Parts -/

/-- A byte store whose unlisted bytes are `d` is canonical. -/
def Ctx.Canon (κ : Ctx) (d : Byte) (c : Memory) : Prop := κ.canon → Memory.wf d c = true
/-- The device memory is canonical. -/
def Ctx.Cells (κ : Ctx) (c : Memory) : Prop := κ.Canon 0 c
/-- The boot flash is canonical. -/
def Ctx.Flash (κ : Ctx) (c : Memory) : Prop := κ.Canon 0xFF c
/-- A list has its `n` parts. -/
def Ctx.Has {α : Type} (κ : Ctx) (n : Nat) (l : List α) : Prop := κ.shape → l.length = n
/-- The bays and their threads have the right numbers. -/
def Ctx.Bays (κ : Ctx) (l : List Bay) : Prop := κ.shape → l.length = 80 ∧ ∀ y ∈ l, y.Shaped
/-- Twelve ports of four virtual channels. -/
def Ctx.Ports (κ : Ctx) (l : List Port) : Prop := κ.shape → l.length = 12 ∧ ∀ p ∈ l, p.vcq.length = 4
/-- The queue is the rest of the queue that the step took its command from. -/
def Ctx.Queue (κ : Ctx) (q : List Instr) : Prop := q = κ.queue

/-- The state is as the assumptions say. -/
structure Ctx.Sound (κ : Ctx) (s : State) : Prop where
  queue : κ.Queue s.pending
  cells : κ.Cells s.mem.cells
  flash : κ.Flash s.boot.flash
  bays : κ.Bays s.bays
  ports : κ.Ports s.truss
  pages : κ.Has 16 s.host.pages
  tiles : κ.Has 4 s.clk.tiles
  plumb : κ.Has 4 s.plumb.tiles
  tokens : κ.Has 4 s.stew.tokens
  tokensOut : κ.Has 4 s.stew.tokensOut
  tokenWait : κ.Has 4 s.stew.tokenWait
  gain : κ.Has 13 s.stew.gain
  hbmStep : κ.Has 8 s.stew.hbmStep

theorem Ctx.Sound.shaped {s : State} (h : κ.Sound s) (hm : κ.shape) : Safety.shaped s := by
  obtain ⟨hbays, hbay⟩ := h.bays hm
  obtain ⟨hports, hport⟩ := h.ports hm
  exact ⟨hbays, hports, h.pages hm, h.tiles hm, hbay, hport, h.plumb hm, h.tokens hm, h.tokensOut hm, h.tokenWait hm, h.gain hm, h.hbmStep hm⟩

theorem Ctx.Sound.canonical {s : State} (h : κ.Sound s) (hm : κ.canon) : Safety.canonical s := ⟨h.cells hm, h.flash hm⟩

/-- The state a step hands to its command is sound, under what is assumed of the state before. -/
theorem Ctx.sound_start (s : State) (rest : List Instr) :
    Ctx.Sound ⟨Safety.canonical s, Safety.shaped s, rest⟩ { s with pending := rest } where
  queue := rfl
  cells h := h.1
  flash h := h.2
  bays h := ⟨h.1, h.2.2.2.2.1⟩
  ports h := ⟨h.2.1, h.2.2.2.2.2.1⟩
  pages h := h.2.2.1
  tiles h := h.2.2.2.1
  plumb h := h.2.2.2.2.2.2.1
  tokens h := h.2.2.2.2.2.2.2.1
  tokensOut h := h.2.2.2.2.2.2.2.2.1
  tokenWait h := h.2.2.2.2.2.2.2.2.2.1
  gain h := h.2.2.2.2.2.2.2.2.2.2.1
  hbmStep h := h.2.2.2.2.2.2.2.2.2.2.2

theorem Ctx.sound_iff (s : State) : κ.Sound s ↔ κ.Queue s.pending ∧ κ.Cells s.mem.cells ∧ κ.Flash s.boot.flash ∧ κ.Bays s.bays ∧
    κ.Ports s.truss ∧ κ.Has 16 s.host.pages ∧ κ.Has 4 s.clk.tiles ∧ κ.Has 4 s.plumb.tiles ∧ κ.Has 4 s.stew.tokens ∧
    κ.Has 4 s.stew.tokensOut ∧ κ.Has 4 s.stew.tokenWait ∧ κ.Has 13 s.stew.gain ∧ κ.Has 8 s.stew.hbmStep :=
  ⟨fun ⟨a, b, c, d, e, f, g, h, i, j, k, l, n⟩ => ⟨a, b, c, d, e, f, g, h, i, j, k, l, n⟩,
   fun ⟨a, b, c, d, e, f, g, h, i, j, k, l, n⟩ => ⟨a, b, c, d, e, f, g, h, i, j, k, l, n⟩⟩

/-- A state written out part by part. -/
@[simp] theorem Ctx.sound_mk (clk pins boot cfg tun stew req bays bars mem quota str kv truss net host aud sent cnt err plumb cxl hub pending
    freeCtr) :
    κ.Sound ⟨clk, pins, boot, cfg, tun, stew, req, bays, bars, mem, quota, str, kv, truss, net, host, aud, sent, cnt, err, plumb, cxl, hub,
      pending, freeCtr⟩ ↔
    κ.Queue pending ∧ κ.Cells mem.cells ∧ κ.Flash boot.flash ∧ κ.Bays bays ∧ κ.Ports truss ∧ κ.Has 16 host.pages ∧ κ.Has 4 clk.tiles ∧
    κ.Has 4 plumb.tiles ∧ κ.Has 4 stew.tokens ∧ κ.Has 4 stew.tokensOut ∧ κ.Has 4 stew.tokenWait ∧ κ.Has 13 stew.gain ∧ κ.Has 8 stew.hbmStep :=
  Ctx.sound_iff _

@[simp] theorem Ctx.sound_ite (c : Prop) [Decidable c] (s t : State) :
    κ.Sound (if c then s else t) ↔ (c → κ.Sound s) ∧ (¬c → κ.Sound t) := by
  split <;> simp [*]

section
variable {s : State} (h : κ.Sound s)
include h
@[simp] theorem Ctx.queue_of_sound : κ.Queue s.pending := h.queue
@[simp] theorem Ctx.cells_of_sound : κ.Cells s.mem.cells := h.cells
@[simp] theorem Ctx.flash_of_sound : κ.Flash s.boot.flash := h.flash
@[simp] theorem Ctx.bays_of_sound : κ.Bays s.bays := h.bays
@[simp] theorem Ctx.ports_of_sound : κ.Ports s.truss := h.ports
@[simp] theorem Ctx.pages_of_sound : κ.Has 16 s.host.pages := h.pages
@[simp] theorem Ctx.tiles_of_sound : κ.Has 4 s.clk.tiles := h.tiles
@[simp] theorem Ctx.plumb_of_sound : κ.Has 4 s.plumb.tiles := h.plumb
@[simp] theorem Ctx.tokens_of_sound : κ.Has 4 s.stew.tokens := h.tokens
@[simp] theorem Ctx.tokensOut_of_sound : κ.Has 4 s.stew.tokensOut := h.tokensOut
@[simp] theorem Ctx.tokenWait_of_sound : κ.Has 4 s.stew.tokenWait := h.tokenWait
@[simp] theorem Ctx.gain_of_sound : κ.Has 13 s.stew.gain := h.gain
@[simp] theorem Ctx.hbmStep_of_sound : κ.Has 8 s.stew.hbmStep := h.hbmStep
end

section
variable {α β : Type} (n : Nat) (l : List α)
@[simp] theorem Ctx.has_set (i : Nat) (x : α) : κ.Has n (l.set i x) ↔ κ.Has n l := by simp [Ctx.Has]
@[simp] theorem Ctx.has_modify (i : Nat) (f : α → α) : κ.Has n (l.modify i f) ↔ κ.Has n l := by simp [Ctx.Has]
@[simp] theorem Ctx.has_map (f : α → β) : κ.Has n (l.map f) ↔ κ.Has n l := by simp [Ctx.Has]
@[simp] theorem Ctx.has_mapIdx (f : Nat → α → β) : κ.Has n (l.mapIdx f) ↔ κ.Has n l := by simp [Ctx.Has]
@[simp] theorem Ctx.has_replicate (x : α) : κ.Has n (List.replicate n x) := by simp [Ctx.Has]
@[simp] theorem Ctx.has_range : κ.Has n (List.range n) := by simp [Ctx.Has]
end

/-! ## Memory -/

theorem Ctx.canon_write {d : Byte} {c : Memory} (h : κ.Canon d c) (a : Nat) (bs : List Byte) : κ.Canon d (Memory.write d c a bs) :=
  fun hm => Memory.write_wf d c a bs (h hm)

theorem Ctx.canon_clear {d : Byte} {c : Memory} (h : κ.Canon d c) (a n : Nat) : κ.Canon d (Memory.clear c a n) :=
  fun hm => Memory.clear_wf d c a n (h hm)

theorem Ctx.canon_foldl {α : Type} {d : Byte} {f : Memory → α → Memory} (hf : ∀ c x, κ.Canon d c → κ.Canon d (f c x)) (l : List α)
    {c : Memory} (h : κ.Canon d c) : κ.Canon d (l.foldl f c) := by
  induction l generalizing c with
  | nil => exact h
  | cons x l ih => exact ih (hf c x h)

theorem Ctx.canon_unfresh {x : Mem} (h : κ.Cells x.cells) (a n : Nat) : κ.Cells (x.unfresh a n).cells := by
  unfold Mem.unfresh
  extract_lets gs
  split
  · exact h
  · exact Ctx.canon_foldl (d := 0) (fun c g hc => Ctx.canon_clear hc _ _) gs h

@[simp] theorem Ctx.canon_memWrite {x : Mem} (h : κ.Cells x.cells) (a : Nat) (bs : List Byte) : κ.Cells (x.write a bs).cells :=
  Ctx.canon_write (Ctx.canon_unfresh h a bs.length) a bs

/-! ## Bays, threads and ports -/

/-- A change of a bay keeps its parts. -/
def Ctx.KeepsBay (f : Bay → Bay) : Prop := ∀ y, y.Shaped → (f y).Shaped
/-- A change of a thread keeps its parts. -/
def Ctx.KeepsThr (f : Thread → Thread) : Prop := ∀ t, t.Shaped → (f t).Shaped
/-- A change of a port keeps its four channels. -/
def Ctx.KeepsPort (f : Port → Port) : Prop := ∀ p, p.vcq.length = 4 → (f p).vcq.length = 4

theorem Thread.shaped_of_sublist {t u : Thread} (h : t.Shaped) (hg : u.g.length = t.g.length) (hv : u.v.length = t.v.length)
    (hbuf : u.buf.Sublist t.buf) (hmbox : u.mbox.length ≤ t.mbox.length) : u.Shaped := by
  obtain ⟨h1, h2, h3, h4, h5⟩ := h
  exact ⟨hg.trans h1, hv.trans h2, Nat.le_trans hbuf.length_le h3, Nat.le_trans hmbox h4, fun l hl => h5 l (hbuf.subset hl)⟩

theorem Bay.shaped_of_threads {y z : Bay} (h : y.Shaped) (ht : z.threads = y.threads) (hm : z.movers.length = y.movers.length)
    (hb : z.barriers.length = y.barriers.length) : z.Shaped := by
  obtain ⟨h1, h2, h3, h4⟩ := h
  rw [Bay.Shaped, ht]
  exact ⟨h1, hm.trans h2, hb.trans h3, h4⟩

theorem forall_mem_modify {α : Type} {P : α → Prop} {f : α → α} (hf : ∀ x, P x → P (f x)) {l : List α} (h : ∀ x ∈ l, P x) (i : Nat) :
    ∀ x ∈ l.modify i f, P x := by
  induction l generalizing i with
  | nil => intro x hx; simp at hx
  | cons y l ih =>
    obtain ⟨hy, hl⟩ := List.forall_mem_cons.mp h
    cases i with
    | zero => exact List.forall_mem_cons.mpr ⟨hf y hy, hl⟩
    | succ i => exact List.forall_mem_cons.mpr ⟨hy, ih hl i⟩

theorem Bay.shaped_modThr {y : Bay} (h : y.Shaped) (t : Fin 128) {f : Thread → Thread} (hf : Ctx.KeepsThr f) : (y.modThr t f).Shaped := by
  obtain ⟨h1, h2, h3, h4⟩ := h
  exact ⟨by simpa [Bay.modThr] using h1, h2, h3, forall_mem_modify hf h4 t.val⟩

@[simp] theorem Ctx.bays_modify {l : List Bay} (h : κ.Bays l) (i : Nat) {f : Bay → Bay} (hf : Ctx.KeepsBay f) : κ.Bays (l.modify i f) :=
  fun hm => ⟨by simpa using (h hm).1, forall_mem_modify hf (h hm).2 i⟩

@[simp] theorem Ctx.bays_map {l : List Bay} (h : κ.Bays l) {f : Bay → Bay} (hf : Ctx.KeepsBay f) : κ.Bays (l.map f) :=
  fun hm => ⟨by simpa using (h hm).1, List.forall_mem_map.mpr fun y hy => hf y ((h hm).2 y hy)⟩

@[simp] theorem Ctx.ports_modify {l : List Port} (h : κ.Ports l) (i : Nat) {f : Port → Port}
    (hf : Ctx.KeepsPort f) : κ.Ports (l.modify i f) :=
  fun hm => ⟨by simpa using (h hm).1,
    forall_mem_modify (P := fun p : Port => p.vcq.length = 4) hf (h hm).2 i⟩

@[simp] theorem Ctx.ports_map {l : List Port} (h : κ.Ports l) {f : Port → Port} (hf : Ctx.KeepsPort f) : κ.Ports (l.map f) :=
  fun hm => ⟨by simpa using (h hm).1, List.forall_mem_map.mpr fun p hp => hf p ((h hm).2 p hp)⟩

/-! ## The changes of one part of the state -/

section
variable {s : State} (h : κ.Sound s)
include h

@[simp] theorem State.modBay_sound (b : Fin 80) {f : Bay → Bay} (hf : Ctx.KeepsBay f) : κ.Sound (s.modBay b f) := by
  simp [State.modBay, h, hf]
@[simp] theorem State.modThr_sound (b : Fin 80) (t : Fin 128) {f : Thread → Thread} (hf : Ctx.KeepsThr f) : κ.Sound (s.modThr b t f) :=
  State.modBay_sound h b fun _ hy => Bay.shaped_modThr hy t hf
@[simp] theorem State.modPort_sound (n : Fin 12) {f : Port → Port} (hf : Ctx.KeepsPort f) : κ.Sound (s.modPort n f) := by
  simp [State.modPort, h, hf]
@[simp] theorem State.modHost_sound {f : HostSt → HostSt} (hf : κ.Has 16 (f s.host).pages) : κ.Sound (s.modHost f) := by
  simp [State.modHost, h, hf]
@[simp] theorem State.modPage_sound (n : Fin 16) (f : FnPage → FnPage) : κ.Sound (s.modPage n f) := by simp [State.modPage, h]
@[simp] theorem State.modClk_sound {f : Clk → Clk} (hf : κ.Has 4 (f s.clk).tiles) : κ.Sound (s.modClk f) := by
  simp [State.modClk, h, hf]
@[simp] theorem State.modTile_sound (n : Nat) (f : TileClk → TileClk) : κ.Sound (s.modTile n f) := by simp [State.modTile, h]
@[simp] theorem State.modBoot_sound {f : Boot → Boot} (hf : κ.Flash (f s.boot).flash) : κ.Sound (s.modBoot f) := by
  simp [State.modBoot, h, hf]
@[simp] theorem State.modStew_sound {f : Stew → Stew} (h1 : κ.Has 4 (f s.stew).tokens) (h2 : κ.Has 4 (f s.stew).tokensOut)
    (h3 : κ.Has 4 (f s.stew).tokenWait) (h4 : κ.Has 13 (f s.stew).gain) (h5 : κ.Has 8 (f s.stew).hbmStep) : κ.Sound (s.modStew f) := by
  simp [State.modStew, h, h1, h2, h3, h4, h5]
@[simp] theorem State.modMem_sound {f : Mem → Mem} (hf : κ.Cells (f s.mem).cells) : κ.Sound (s.modMem f) := by
  simp [State.modMem, h, hf]
@[simp] theorem State.modPlumb_sound {f : Plumb → Plumb} (hf : κ.Has 4 (f s.plumb).tiles) : κ.Sound (s.modPlumb f) := by
  simp [State.modPlumb, h, hf]
@[simp] theorem State.modPins_sound (f : Pins → Pins) : κ.Sound (s.modPins f) := by simp [State.modPins, h]
@[simp] theorem State.modTun_sound (f : Tun → Tun) : κ.Sound (s.modTun f) := by simp [State.modTun, h]
@[simp] theorem State.modReqs_sound (f : Reqs → Reqs) : κ.Sound (s.modReqs f) := by simp [State.modReqs, h]
@[simp] theorem State.modQuota_sound (f : Quota → Quota) : κ.Sound (s.modQuota f) := by simp [State.modQuota, h]
@[simp] theorem State.modStr_sound (f : Streams → Streams) : κ.Sound (s.modStr f) := by simp [State.modStr, h]
@[simp] theorem State.modKv_sound (f : Kv → Kv) : κ.Sound (s.modKv f) := by simp [State.modKv, h]
@[simp] theorem State.modNet_sound (f : Net → Net) : κ.Sound (s.modNet f) := by simp [State.modNet, h]
@[simp] theorem State.modAud_sound (f : Audit → Audit) : κ.Sound (s.modAud f) := by simp [State.modAud, h]
@[simp] theorem State.modSent_sound (f : Sent → Sent) : κ.Sound (s.modSent f) := by simp [State.modSent, h]
@[simp] theorem State.modCnt_sound (f : Cnt → Cnt) : κ.Sound (s.modCnt f) := by simp [State.modCnt, h]
@[simp] theorem State.modErr_sound (f : ErrLog → ErrLog) : κ.Sound (s.modErr f) := by simp [State.modErr, h]
@[simp] theorem State.modCxl_sound (f : Cxl → Cxl) : κ.Sound (s.modCxl f) := by simp [State.modCxl, h]
@[simp] theorem State.modHub_sound (f : Hub → Hub) : κ.Sound (s.modHub f) := by simp [State.modHub, h]
@[simp] theorem State.modBars_sound (f : Bars → Bars) : κ.Sound (s.modBars f) := by simp [State.modBars, h]

theorem State.foldl_sound {α : Type} {f : State → α → State} (hf : ∀ s x, κ.Sound s → κ.Sound (f s x)) (l : List α) :
    κ.Sound (l.foldl f s) := by
  induction l generalizing s with
  | nil => exact h
  | cons x l ih => exact ih (hf s x h)

theorem State.each_sound {α : Type} {f : State → α → State} (hf : ∀ s x, κ.Sound s → κ.Sound (f s x)) (l : List α) :
    κ.Sound (s.each l f) := State.foldl_sound h hf l
end

end Sys2Proof.Machine
end

section
/-! What the operations on one thread, bay, port or memory keep of its parts. -/
namespace Sys2Proof.Machine
open Sys2Proof
variable {κ : Ctx}

theorem Ctx.sound_elim {α : Type} (o : Option α) {s : State} {f : α → State} (h : κ.Sound s) (hf : ∀ x, κ.Sound (f x)) :
    κ.Sound (o.elim s f) := by
  cases o
  · exact h
  · exact hf _

/-- What a thread's instruction leaves is sound, whether it is done or waits. -/
def Ctx.SoundRan (κ : Ctx) : Ran → Prop
  | .done s => κ.Sound s
  | .wait s _ => κ.Sound s

@[simp] theorem Ctx.soundRan_done (s : State) : κ.SoundRan (.done s) ↔ κ.Sound s := .rfl
@[simp] theorem Ctx.soundRan_wait (s : State) (on : WaitOn) : κ.SoundRan (.wait s on) ↔ κ.Sound s := .rfl

theorem State.foldl_snd_sound {α β : Type} {f : β × State → α → β × State} (hf : ∀ a x, κ.Sound a.2 → κ.Sound (f a x).2) (l : List α)
    {a : β × State} (h : κ.Sound a.2) : κ.Sound (l.foldl f a).2 := by
  induction l generalizing a with
  | nil => exact h
  | cons x l ih => exact ih (hf a x h)

/-! ## Threads and bays -/

section
variable {t : Thread} (h : t.Shaped)
include h

theorem Thread.next_shaped : t.next.Shaped := h

theorem Thread.setG_shaped (n : BitVec 5) (x : Word) : (t.setG n x).Shaped := by
  unfold Thread.setG
  split
  · exact h
  · exact Thread.shaped_of_sublist h (by simp) rfl (.refl _) (Nat.le_refl _)

theorem Thread.setV_shaped (n : BitVec 5) (x : BitVec 512) : (t.setV n x).Shaped :=
  Thread.shaped_of_sublist h rfl (by simp [Thread.setV]) (.refl _) (Nat.le_refl _)

theorem Thread.setP_shaped (n : BitVec 3) (b : Bool) : (t.setP n b).Shaped := by
  unfold Thread.setP
  split <;> exact h

theorem Thread.combine_shaped (rd : BitVec 5) (r : Bool) : (t.combine rd r).Shaped := Thread.setP_shaped h ..

theorem Thread.loaded_shaped (vector signed : Bool) (rt : BitVec 5) (size : Nat) (bs : List Byte) :
    (t.loaded vector signed rt size bs).Shaped := by
  cases vector
  · exact Thread.setG_shaped h ..
  · exact Thread.setV_shaped h ..

theorem Thread.atomDone_shaped (op : AtomOp) (rd : BitVec 5) (old : Nat) : (t.atomDone op rd old).Shaped := by
  unfold Thread.atomDone
  split
  · exact h
  · exact Thread.setG_shaped h ..
end

theorem BufLine.put_length {l : BufLine} {off : Nat} {bs : List Byte} (h : off + bs.length ≤ l.bytes.length) :
    (l.put off bs).bytes.length = l.bytes.length := by
  simp [BufLine.put]
  omega

theorem Thread.bufStore_shaped {t u : Thread} (h : t.Shaped) {i : Fin 128} {line off : Nat} {bs : List Byte}
    (hbs : off + bs.length ≤ 64) (hu : t.bufStore i line off bs = some u) : u.Shaped := by
  obtain ⟨hg, hv, hbuf, hmbox, hline⟩ := h
  unfold Thread.bufStore at hu
  split at hu
  · cases hu
    refine ⟨hg, hv, by simpa using hbuf, hmbox, List.forall_mem_map.mpr fun l hl => ?_⟩
    split
    · rw [BufLine.put_length (by rw [hline l hl]; exact hbs), hline l hl]
    · exact hline l hl
  · split at hu
    · cases hu
      refine ⟨hg, hv, by simp; omega, hmbox, fun l hl => ?_⟩
      rcases List.mem_append.mp hl with hl | hl
      · exact hline l hl
      · rw [List.mem_singleton.mp hl, BufLine.put_length hbs]
        rfl
    · cases hu

theorem Bay.faultRamp_shaped {y : Bay} (h : y.Shaped) : y.faultRamp.Shaped := h

theorem Bay.share_shaped {y : Bay} (h : y.Shaped) (l : BufLine) : (y.share l).Shaped := by
  dsimp only [Bay.share]
  split <;> exact h

theorem Bay.cleared_shaped (y : Bay) (last : LastTenant) : (y.cleared last).Shaped := Bay.reset_shaped

/-! ## Memory and the flash -/

theorem Mem.markFresh_cells {x : Mem} (h : κ.Cells x.cells) (base size : Nat) : κ.Cells (x.markFresh base size).cells := by
  unfold Mem.markFresh
  split <;> exact h

theorem Mem.setTag_cells {x : Mem} (h : κ.Cells x.cells) (u : Nat) (v : BitVec 16) : κ.Cells (x.setTag u v).cells := h

theorem Mem.clearT0_cells {x : Mem} (h : κ.Cells x.cells) : κ.Cells x.clearT0.cells := fun hm => Memory.filter_wf 0 _ _ (h hm)

section
variable {b : Boot} (h : κ.Flash b.flash)
include h

theorem Boot.flashWrite_flash (a : Nat) (bs : List Byte) : κ.Flash (b.flashWrite a bs).flash := Ctx.canon_write h a bs
theorem Boot.flashErase_flash (a : Nat) : κ.Flash (b.flashErase a).flash := Ctx.canon_clear h _ _

theorem Boot.applyFlash_flash (o : FlashOp) : κ.Flash (b.applyFlash o).flash := by
  cases o <;> first | exact h | exact Boot.flashWrite_flash h _ _ | exact Boot.flashErase_flash h _

theorem Boot.planned_flash : κ.Flash b.planned.flash := by
  unfold Boot.planned
  induction b.flashOps generalizing b with
  | nil => exact h
  | cons o ops ih => exact ih (Boot.applyFlash_flash h o)

theorem Boot.startFlash_flash : κ.Flash b.startFlash.flash := by
  unfold Boot.startFlash
  split <;> exact h

theorem Boot.queueOps_flash (ops : List FlashOp) : κ.Flash (b.queueOps ops).flash := Boot.startFlash_flash (b := { b with flashQueue := _ }) h
theorem Boot.queueAnchorOps_flash (ops : List FlashOp) : κ.Flash (b.queueAnchorOps ops).flash :=
  Boot.startFlash_flash (b := { b with flashQueue := _ }) h
theorem Boot.queueAnchor_flash (a : Anchor) : κ.Flash (b.queueAnchor a).flash := Boot.queueAnchorOps_flash h _
theorem Boot.dropSector_flash (a : Nat) : κ.Flash (b.dropSector a).flash := h
theorem Boot.dropStaging_flash : κ.Flash b.dropStaging.flash := h
end

/-! ## Ports -/

theorem Port.vcq_feed (p : Port) (f : Flit) : (p.feed f).vcq = p.vcq := by
  unfold Port.feed
  extract_lets r
  split <;> rfl

theorem Port.vcq_emit (p : Port) (type seq vc valid16 : Nat) (eom : Bool) (payload : List Byte) :
    (p.emit type seq vc valid16 eom payload).1.vcq = p.vcq := by
  simp only [Port.emit, Port.vcq_feed]

theorem Port.vcq_emitSeq (p : Port) (now type vc valid16 : Nat) (eom : Bool) (payload : List Byte) :
    (p.emitSeq now type vc valid16 eom payload).vcq = p.vcq := by
  simp only [Port.emitSeq, Port.vcq_emit]

section
variable {p : Port} (hp : p.vcq.length = 4)
include hp

theorem Port.silence_vcq (reason : Nat) : (p.silence reason).vcq.length = 4 := hp
theorem Port.realign_vcq : p.realign.vcq.length = 4 := hp
theorem Port.sendWord_vcq (cw : List Sym) : (p.sendWord cw).vcq.length = 4 := hp

theorem Port.readWord_vcq (levels : LaneLevels) : (p.readWord levels).vcq.length = 4 := by
  unfold Port.readWord
  extract_lets w lanes cw q
  split <;> exact hp

theorem Port.emit_vcq (type seq vc valid16 : Nat) (eom : Bool) (payload : List Byte) :
    (p.emit type seq vc valid16 eom payload).1.vcq.length = 4 := by
  rwa [Port.vcq_emit]

theorem Port.emitSeq_vcq (now type vc valid16 : Nat) (eom : Bool) (payload : List Byte) :
    (p.emitSeq now type vc valid16 eom payload).vcq.length = 4 := by
  rwa [Port.vcq_emitSeq]

theorem Port.sendData_vcq (now v : Nat) : (p.sendData now v).1.vcq.length = 4 := by
  unfold Port.sendData
  split
  · exact hp
  · dsimp only
    generalize hq : p.emitSeq _ _ _ _ _ _ = q
    replace hq : q.vcq.length = 4 := by rw [← hq, Port.vcq_emitSeq, hp]
    split <;> simpa using hq

theorem Port.waited_vcq (ready : List Bool) (sent : Option Nat) : (p.waited ready sent).vcq.length = 4 := hp
theorem Port.queueLctl_vcq (x : List Byte) : (p.queueLctl x).vcq.length = 4 := hp
theorem Port.sendHealth_vcq : p.sendHealth.vcq.length = 4 := hp
theorem Port.silentNow_vcq (reason : Nat) : (p.silentNow reason).vcq.length = 4 := by
  unfold Port.silentNow
  induction List.range 4 generalizing p with
  | nil => exact hp
  | cons n l ih =>
    rw [List.foldl_cons]
    apply ih
    simpa only [Port.vcq_emit] using hp

theorem Port.ackTo_vcq (now a : Nat) : (p.ackTo now a).vcq.length = 4 := by
  unfold Port.ackTo
  extract_lets kept live
  split <;> exact hp

theorem Port.hear_vcq (now : Nat) (f : FlitHead) : (p.hear now f).vcq.length = 4 := by
  unfold Port.hear
  exact Port.ackTo_vcq hp now f.ack

theorem Port.unmeasured_vcq : p.unmeasured.vcq.length = 4 := hp
theorem Port.recovered_vcq : p.recovered.vcq.length = 4 := hp
theorem Port.drain_vcq (reason : Nat) : (p.drain reason).vcq.length = 4 := hp
theorem Port.restart_vcq : p.restart.vcq.length = 4 := hp
theorem Port.note_vcq (x : TrainSet) : (p.note x).vcq.length = 4 := hp
theorem Port.takePreset_vcq (lane : Fin 17) (x : TrainSet) : (p.takePreset lane x).vcq.length = 4 := hp
theorem Port.takePolarity_vcq (lane : Fin 17) (inverted : Bool) : (p.takePolarity lane inverted).vcq.length = 4 := hp
theorem Port.startAlign_vcq : p.startAlign.vcq.length = 4 := hp
theorem Port.gap_vcq : p.gap.vcq.length = 4 := by
  unfold Port.gap
  split <;> exact hp
theorem Port.buffer_vcq (f : FlitHead) (pl : List Byte) : (p.buffer f pl).vcq.length = 4 := hp
theorem Port.resendOne_vcq : p.resendOne.vcq.length = 4 := by
  unfold Port.resendOne
  split
  · exact hp
  · simpa only [Port.vcq_emit] using hp
theorem Port.closeWindow_vcq (c : PortCfg) : (p.closeWindow c).vcq.length = 4 := by
  unfold Port.closeWindow
  split <;> exact hp
end

theorem Port.clearLink_vcq (p : Port) : p.clearLink.vcq.length = 4 := rfl
theorem Port.requeue_vcq (p : Port) : p.requeue.vcq.length = 4 := rfl
theorem Port.resync_vcq (p : Port) : p.resync.vcq.length = 4 := rfl
theorem Port.start_vcq (p : Port) (c : PortCfg) : (p.start c).vcq.length = 4 := by
  unfold Port.start
  dsimp only
  split
  · rfl
  · split <;> rfl
theorem Port.afterSilent_vcq (p : Port) (c : PortCfg) : (p.afterSilent c).vcq.length = 4 := by
  unfold Port.afterSilent
  dsimp only
  split
  · rfl
  · split <;> rfl

/-! ## The clock block and the host's pages -/

@[simp] theorem Clk.tick_tiles (c : Clk) (ppm : Int) : (c.tick ppm).tiles = c.tiles := by unfold Clk.tick; split <;> rfl
@[simp] theorem Clk.keepMonitor_tiles (c old : Clk) : (c.keepMonitor old).tiles = c.tiles := rfl
@[simp] theorem Clk.qualify_tiles (c : Clk) : c.qualify.tiles = c.tiles := rfl
@[simp] theorem HostSt.linkDown_pages (h : HostSt) : h.linkDown.pages = h.pages := rfl

end Sys2Proof.Machine
end

section
/-! What the operations on time, accounts, the network tables, quotas, memory, streams and codec units keep. -/
namespace Sys2Proof.Machine
open Sys2Proof

-- One proof at a time: many short proofs elaborated side by side would cost the check its memory.
set_option Elab.async false

variable {κ : Ctx}

@[simp] theorem State.tick_sound {s : State} (h : κ.Sound s) : κ.Sound s.tick := by simp [State.tick, h]

theorem State.advance_sound {s : State} (h : κ.Sound s) (t : Nat) : κ.Sound (s.advance t) := by
  grind [State.advance, Ctx.sound_iff]

theorem State.addJob_sound {s : State} (h : κ.Sound s) (k : JobKind) : κ.Sound (s.addJob k) := by
  grind [State.addJob, State.modHub_sound, Ctx.sound_iff]

theorem State.draw_sound {s : State} (h : κ.Sound s) : κ.Sound (s.draw).2 := by
  grind [State.draw, Ctx.sound_iff]

theorem State.draw_sound_eq {s : State} (h : κ.Sound s) {x : BitVec 64} {u : State}
    (hu : s.draw = (x, u)) : κ.Sound u := by
  simpa [hu] using State.draw_sound h

theorem State.count_sound {s : State} (h : κ.Sound s) (i k : Nat) : κ.Sound (s.count i k) := by
  grind [State.count, State.modCnt_sound, Ctx.sound_iff]

theorem State.countBay_sound {s : State} (h : κ.Sound s) (b : Fin 80) (e k : Nat) : κ.Sound (s.countBay b e k) := by
  grind [State.countBay, State.count_sound]

theorem State.countTile_sound {s : State} (h : κ.Sound s) (t e k : Nat) : κ.Sound (s.countTile t e k) := by
  grind [State.countTile, State.count_sound]

theorem State.countPort_sound {s : State} (h : κ.Sound s) (n : Fin 12) (e k : Nat) : κ.Sound (s.countPort n e k) := by
  grind [State.countPort, State.count_sound]

theorem State.countHbm_sound {s : State} (h : κ.Sound s) (st e k : Nat) : κ.Sound (s.countHbm st e k) := by
  grind [State.countHbm, State.count_sound]

theorem State.countT2_sound {s : State} (h : κ.Sound s) (d e k : Nat) : κ.Sound (s.countT2 d e k) := by
  grind [State.countT2, State.count_sound]

theorem State.countFn_sound {s : State} (h : κ.Sound s) (f : Fin 16) (e k : Nat) : κ.Sound (s.countFn f e k) := by
  grind [State.countFn, State.count_sound]

theorem State.countProg_sound {s : State} (h : κ.Sound s) (p e k : Nat) : κ.Sound (s.countProg p e k) := by
  grind [State.countProg, State.count_sound]

theorem State.countDev_sound {s : State} (h : κ.Sound s) (e k : Nat) : κ.Sound (s.countDev e k) := by
  grind [State.countDev, State.count_sound]

theorem State.emit_sound {s : State} (h : κ.Sound s) (m : HostMsg) : κ.Sound (s.emit m) := by
  grind [State.emit, State.modHost_sound, Ctx.pages_of_sound, Ctx.has_modify, Ctx.has_set, Ctx.has_map, Ctx.sound_iff]

theorem State.sendMsix_sound {s : State} (h : κ.Sound s) (f : Fin 16) (v : Nat) : κ.Sound (s.sendMsix f v) := by
  grind [State.sendMsix, State.modPage_sound, State.emit_sound, Port.emit_vcq, Ctx.KeepsPort, State.countFn_sound, Ctx.sound_iff]

theorem State.sendQuiet_sound {s : State} (h : κ.Sound s) (f : Fin 16) (v : Nat) : κ.Sound (s.sendQuiet f v) := by
  grind [State.sendQuiet, State.sendMsix_sound, State.modPage_sound, Ctx.sound_iff]

theorem State.raise_sound {s : State} (h : κ.Sound s) (f : Fin 16) (v : Nat) : κ.Sound (s.raise f v) := by
  grind [State.raise, State.modPage_sound, State.sendQuiet_sound, State.sendMsix_sound, Ctx.sound_iff]

theorem State.latchWake_sound {s : State} (h : κ.Sound s) (bit : Nat) : κ.Sound (s.latchWake bit) := by
  grind [State.latchWake, State.modClk_sound, Ctx.tiles_of_sound, Ctx.has_modify, Ctx.has_set, Ctx.has_map, State.modPins_sound,
    Ctx.sound_iff]

theorem State.error_sound {s : State} (h : κ.Sound s) (e : ErrSpec) : κ.Sound (s.error e) := by
  grind [State.error, State.countDev_sound, State.modErr_sound, State.raise_sound, Ctx.sound_iff]

theorem State.lockViolation_sound {s : State} (h : κ.Sound s) (source inst addr : Nat) (asn : Option Nat) : κ.Sound
    (s.lockViolation source inst addr asn) := by
  grind [State.lockViolation, State.error_sound, State.countDev_sound, State.modBoot_sound, Ctx.flash_of_sound, Ctx.sound_iff]

theorem State.countAccess_sound {s : State} (h : κ.Sound s) (write : Bool) (a n : Nat) : κ.Sound (s.countAccess write a n) := by
  grind [State.countAccess, State.foldl_sound, State.count_sound, State.countHbm_sound, State.countT2_sound]

theorem State.noteRead_sound {s : State} (h : κ.Sound s) (a : Nat) (n : Nat) : κ.Sound (s.noteRead a n) := by
  unfold State.noteRead
  have hc := State.countAccess_sound h false a n
  dsimp only
  split
  · exact State.countHbm_sound hc ..
  · exact Ctx.sound_elim _ hc fun d => State.countT2_sound hc ..
  · exact Ctx.sound_elim _ hc fun d => State.countT2_sound hc ..
  · exact hc

theorem State.storeBytes_sound {s : State} (h : κ.Sound s) (a : Nat) (bs : List Byte) : κ.Sound (s.storeBytes a bs) := by
  have hfill : ∀ (s : State) (g : Nat), κ.Sound s → κ.Sound (match s.region (g * 4096) with
    | .t1 => s.countHbm (stackOf (g * 4096)) 15 1
    | .t2 => (s.t2Dev (g * 4096)).elim s fun d => s.countT2 d 11 1
    | _ => s) := by
    intro s g h
    split
    · exact State.countHbm_sound h ..
    · exact Ctx.sound_elim _ h fun d => State.countT2_sound h ..
    · exact h
  unfold State.storeBytes
  have hs := State.foldl_sound h hfill (s.mem.freshIn a bs.length)
  exact State.modMem_sound (State.countAccess_sound hs ..) (Ctx.canon_memWrite (Ctx.cells_of_sound (State.countAccess_sound hs ..)) _ _)

theorem State.memWrite_sound {s : State} (h : κ.Sound s) (a : Nat) (bs : List Byte) : κ.Sound (s.memWrite a bs) := by
  grind [State.memWrite, State.each_sound, State.storeBytes_sound]

theorem State.putMsg_sound {s : State} (h : κ.Sound s) (port : Fin 12) (vc : Nat) (bytes : List Byte) : κ.Sound (s.putMsg port vc bytes)
    := by
  grind [State.putMsg, State.modPort_sound, Ctx.KeepsPort, Ctx.sound_iff]

theorem State.route_sound {s : State} (h : κ.Sound s) (dst vc otag attempt : Nat) (bytes : List Byte) : κ.Sound
    (s.route dst vc otag attempt bytes) := by
  grind [State.route, State.putMsg_sound]

theorem State.transmit_sound {s : State} (h : κ.Sound s) (r : SendReq) : κ.Sound (s.transmit r) := by
  grind [State.transmit, Thread.next_shaped, State.modNet_sound, State.route_sound, Ctx.sound_iff]

theorem State.sendReq_sound {s : State} (h : κ.Sound s) (r : SendReq) : κ.Sound (s.sendReq r) := by
  grind [State.sendReq, State.modNet_sound, State.transmit_sound, Ctx.sound_iff]

theorem State.sendNext_sound {s : State} (h : κ.Sound s) (dst vc : Nat) : κ.Sound (s.sendNext dst vc) := by
  grind [State.sendNext, State.modNet_sound, State.transmit_sound, Ctx.sound_iff]

theorem State.sendMsgTo_sound {s : State} (h : κ.Sound s) (dst subtype : Nat) (body : List Byte) (purpose : Purpose) : κ.Sound
    (s.sendMsgTo dst subtype body purpose) := by
  grind [State.sendMsgTo, State.sendReq_sound]

theorem State.flood_sound {s : State} (h : κ.Sound s) (skip : Option Nat) (bytes : List Byte) : κ.Sound (s.flood skip bytes) := by
  grind [State.flood, State.foldl_sound, State.putMsg_sound]

theorem State.answer_sound {s : State} (hs : κ.Sound s) (h : Header) (vc : Nat) (b : List Byte) : κ.Sound (s.answer h vc b) := by
  grind [State.answer, State.modNet_sound, State.route_sound, Ctx.sound_iff]

theorem State.respond_sound {s : State} (hs : κ.Sound s) (h : Header) (vc mtype status : Nat) (data : List Byte) : κ.Sound
    (s.respond h vc mtype status data) := by
  grind [State.respond, State.answer_sound]

theorem State.respondRead_sound {s : State} (hs : κ.Sound s) (h : Header) (status arg : Nat) (data : List Byte) : κ.Sound
    (s.respondRead h status arg data) := by
  grind [State.respondRead, State.answer_sound]

theorem State.addUsed_sound {s : State} (h : κ.Sound s) (t : Fin 16) (x d : Nat) : κ.Sound (s.addUsed t x d) := by
  grind [State.addUsed, State.modQuota_sound, Ctx.sound_iff]

theorem State.subUsed_sound {s : State} (h : κ.Sound s) (t : Fin 16) (x d : Nat) : κ.Sound (s.subUsed t x d) := by
  grind [State.subUsed, State.modQuota_sound, Ctx.sound_iff]

theorem State.placeItem_sound {s : State} (h : κ.Sound s) (asn home : Nat) (t : Fin 16) (i : DemandItem) {x : PlacedItem} {u : State}
    (hu : s.placeItem asn home t i = some (u, x)) : κ.Sound u := by
  grind [State.placeItem, State.modQuota_sound, State.modMem_sound, Ctx.cells_of_sound, Mem.markFresh_cells, Ctx.sound_iff]

theorem State.placeAll_sound (asn home : Nat) (t : Fin 16) (items : List DemandItem) {s : State} (h : κ.Sound s)
    {x : List PlacedItem} {u : State} (hu : State.placeAll asn home t items s = some (u, x)) : κ.Sound u := by
  induction items generalizing s u x with
  | nil => cases hu; exact h
  | cons i items ih =>
    rw [State.placeAll] at hu
    split at hu
    · cases hu
    next s1 p hp =>
      split at hu
      · cases hu
      next s2 ps hps =>
        cases hu
        exact ih (State.placeItem_sound h asn home t i hp) hps

theorem State.reserveSlots_sound {s : State} (h : κ.Sound s) (asn home c g : Nat) {u : State} (hu : s.reserveSlots asn home c g = some u)
    : κ.Sound u := by
  grind [State.reserveSlots, Option.map_eq_some_iff, State.modStr_sound, Ctx.sound_iff]

theorem State.evalDemand_sound {s : State} (h : κ.Sound s) (asn home : Nat) (t : Fin 16) (items : List DemandItem)
    (gallery : Option (Nat × Nat)) {x : List PlacedItem} {u : State} (hu : s.evalDemand asn home t items gallery = some (u, x)) : κ.Sound
    u := by
  unfold State.evalDemand at hu
  extract_lets d1 d2 slots at hu
  have hslots : ∀ x, slots = some x → κ.Sound x := by grind [State.reserveSlots_sound]
  clear_value slots
  split at hu
  · nomatch hu
  cases slots with
  | none => nomatch hu
  | some s1 =>
    dsimp only at hu
    split at hu
    · nomatch hu
    next s2 ps hps =>
      cases hu
      exact State.addUsed_sound (State.addUsed_sound (State.placeAll_sound asn home t items (hslots s1 rfl) hps) ..) ..

theorem State.bare_sound {s : State} (h : κ.Sound s) : κ.Sound (s.bare) := by
  grind [State.bare, Option.map_eq_some_iff, Ctx.sound_iff]

theorem State.releaseHere_sound {s : State} (h : κ.Sound s) (home asn : Nat) : κ.Sound (s.releaseHere home asn) := by
  grind [State.releaseHere, Option.map_eq_some_iff, State.foldl_sound, State.subUsed_sound, State.modKv_sound, State.modQuota_sound,
    State.modStr_sound, Ctx.sound_iff]

theorem State.faultRamp_sound {s : State} (h : κ.Sound s) (b : Fin 80) : κ.Sound (s.faultRamp b) := by
  unfold State.faultRamp
  have hb := State.modBay_sound h b fun _ => Bay.faultRamp_shaped
  have hs : κ.Sound ((s.modBay b Bay.faultRamp).modStew fun t =>
      { t with tokenWait := t.tokenWait.modify (tileOf b).val fun w => w.filter (· != b) }) := by
    exact State.modStew_sound hb hb.tokens hb.tokensOut ((Ctx.has_modify ..).mpr hb.tokenWait) hb.gain hb.hbmStep
  dsimp only
  split
  · exact hs
  · exact State.countBay_sound hs ..

theorem State.silenceActive_sound {s : State} (h : κ.Sound s) (reason : Nat) : κ.Sound (s.silenceActive reason) := by
  grind [State.silenceActive, State.each_sound, State.modPort_sound, Ctx.KeepsPort, Port.silence_vcq]

theorem State.fatal_sound {s : State} (h : κ.Sound s) (code inst : Nat) (fenced : Option Nat) : κ.Sound (s.fatal code inst fenced) := by
  grind [State.fatal, State.draw_sound, State.draw_sound_eq, State.error_sound, State.modErr_sound, State.modPins_sound,
    State.each_sound, State.faultRamp_sound, Bay.faultRamp_shaped, State.silenceActive_sound, Ctx.sound_iff]

theorem State.remapGranule_sound {s : State} (h : κ.Sound s) (g : Nat) : κ.Sound (s.remapGranule g) := by
  grind [State.remapGranule, State.modMem_sound, Ctx.cells_of_sound, Ctx.sound_iff]

theorem State.remapReleased_sound {s : State} (h : κ.Sound s) (base size : Nat) : κ.Sound (s.remapReleased base size) := by
  grind [State.remapReleased, State.each_sound, Option.map_eq_some_iff, State.remapGranule_sound]

theorem State.fencePc_sound {s : State} (h : κ.Sound s) (g : Nat) : κ.Sound (s.fencePc g) := by
  unfold State.fencePc
  grind [State.modMem_sound, Ctx.cells_of_sound, State.error_sound, Option.map_eq_some_iff, State.each_sound, State.remapGranule_sound,
    State.fatal_sound, Ctx.sound_iff]

theorem State.retireGranule_sound {s : State} (h : κ.Sound s) (g : Nat) : κ.Sound (s.retireGranule g) := by
  grind [State.retireGranule, State.fencePc_sound, State.modMem_sound, Ctx.cells_of_sound, State.error_sound, State.countHbm_sound,
    State.remapGranule_sound, Ctx.sound_iff]

theorem State.hbmCorrected_sound {s : State} (h : κ.Sound s) (line : Nat) : κ.Sound (s.hbmCorrected line) := by
  grind [State.hbmCorrected, State.modMem_sound, Ctx.cells_of_sound, State.error_sound, State.countHbm_sound, State.retireGranule_sound,
    Ctx.sound_iff]

theorem State.hbmPoison_sound {s : State} (h : κ.Sound s) (line : Nat) : κ.Sound (s.hbmPoison line) := by
  grind [State.hbmPoison, State.modMem_sound, Ctx.cells_of_sound, State.error_sound, State.countHbm_sound, State.modBoot_sound,
    Ctx.flash_of_sound, State.retireGranule_sound, Ctx.sound_iff]

theorem State.plumbAdvance_sound {s : State} (h : κ.Sound s) (b : Fin 80) : κ.Sound (s.plumbAdvance b) := by
  unfold State.plumbAdvance
  simp [h]

theorem State.sramCorrected_sound {s : State} (h : κ.Sound s) (b : Fin 80) (addr : Nat) : κ.Sound (s.sramCorrected b addr) := by
  grind [State.sramCorrected, State.error_sound, State.countBay_sound, State.modMem_sound, Ctx.cells_of_sound, State.plumbAdvance_sound,
    Ctx.sound_iff]

theorem State.meet_sound {s : State} (h : κ.Sound s) (a n : Nat) : κ.Sound (s.meet a n) := by
  grind [State.meet, State.each_sound, State.sramCorrected_sound, State.hbmCorrected_sound, State.noteRead_sound]

theorem State.setEntry_sound {s : State} (h : κ.Sound s) (t : Fin 16) (id off n v : Nat) : κ.Sound (s.setEntry t id off n v) := by
  grind [State.setEntry, State.memWrite_sound]

theorem State.freeLease_sound {s : State} (h : κ.Sound s) (t : Fin 16) (id : Nat) : κ.Sound (s.freeLease t id) := by
  grind [State.freeLease, State.setEntry_sound]

theorem State.clearRes_sound {s : State} (h : κ.Sound s) (t : Fin 16) (id : Nat) : κ.Sound (s.clearRes t id) := by
  grind [State.clearRes, State.setEntry_sound, State.modStr_sound, Ctx.sound_iff]

theorem State.swapOut_sound {s : State} (h : κ.Sound s) (t : Fin 16) (id : Nat) : κ.Sound (s.swapOut t id) := by
  grind [State.swapOut, State.clearRes_sound, State.countDev_sound]

theorem State.idleSweep_sound {s : State} (h : κ.Sound s) : κ.Sound (s.idleSweep) := by
  grind [State.idleSweep, State.each_sound, State.swapOut_sound, State.countDev_sound]

theorem State.dropResidents_sound {s : State} (h : κ.Sound s) : κ.Sound (s.dropResidents) := by
  grind [State.dropResidents, State.each_sound, State.clearRes_sound]

theorem State.endLease_sound {s : State} (h : κ.Sound s) (t : Fin 16) (id asn : Nat) : κ.Sound (s.endLease t id asn) := by
  grind [State.endLease, State.modStr_sound, State.swapOut_sound, State.freeLease_sound, Ctx.sound_iff]

theorem State.takeBacking_sound {s : State} (h : κ.Sound s) (t : Fin 16) (slotSize : Nat) {x : Nat} {u : State}
    (hu : s.takeBacking t slotSize = some (x, u)) : κ.Sound u := by
  grind [State.takeBacking, State.modStr_sound, Option.map_eq_some_iff, Ctx.sound_iff]

theorem State.giveBacking_sound {s : State} (h : κ.Sound s) (t : Fin 16) (addr slotSize : Nat) : κ.Sound (s.giveBacking t addr slotSize)
    := by
  grind [State.giveBacking, State.modStr_sound, Ctx.sound_iff]

theorem State.meetTagged_sound {s : State} (h : κ.Sound s) (a n : Nat) : κ.Sound (s.meetTagged a n) := by
  grind [State.meetTagged, State.each_sound, State.meet_sound]

theorem State.writeCoded_sound {s : State} (h : κ.Sound s) (a : Nat) (tag : BitVec 16) (lines : List Byte) : κ.Sound
    (s.writeCoded a tag lines) := by
  grind [State.writeCoded, State.memWrite_sound, State.modMem_sound, Ctx.cells_of_sound, Mem.setTag_cells]

theorem State.writeUnit_sound {s : State} (h : κ.Sound s) (code wide : Bool) (a : Nat) (bytes : List Byte) : κ.Sound
    (s.writeUnit code wide a bytes) := by
  grind [State.writeUnit, State.writeCoded_sound, State.memWrite_sound, State.modMem_sound, Ctx.cells_of_sound, Mem.setTag_cells]

theorem State.writeTagged_sound {s : State} (h : κ.Sound s) (code wide : Bool) (a : Nat) (bytes : List Byte) : κ.Sound
    (s.writeTagged code wide a bytes) := by
  grind [State.writeTagged, State.each_sound, State.memWrite_sound, State.writeUnit_sound, State.modMem_sound, Ctx.cells_of_sound,
    Mem.setTag_cells]

theorem State.markTags_sound {s : State} (h : κ.Sound s) (a n mark : Nat) : κ.Sound (s.markTags a n mark) := by
  grind [State.markTags, State.each_sound, State.modMem_sound, Ctx.cells_of_sound, Mem.setTag_cells, Ctx.sound_iff]

end Sys2Proof.Machine
end

section
/-! What the operations on attention KV, work units and requests keep. -/
namespace Sys2Proof.Machine
open Sys2Proof

-- One proof at a time: many short proofs elaborated side by side would cost the check its memory.
set_option Elab.async false

variable {κ : Ctx}

theorem State.setLanding_sound {s : State} (h : κ.Sound s) (b : Fin 80) (j : Nat) (l : Landing) : κ.Sound (s.setLanding b j l) :=
  State.modBay_sound h b fun _ hy => hy

theorem State.modKvRec_sound {s : State} (h : κ.Sound s) (i : Nat) (f : KvRec → KvRec) : κ.Sound (s.modKvRec i f) := by
  grind [State.modKvRec, State.modKv_sound, Option.map_eq_some_iff, Ctx.sound_iff]

theorem State.grantBlock_sound {s : State} (h : κ.Sound s) (g : Grant) (bytes : Nat) : κ.Sound (s.grantBlock g bytes).2 := by
  grind [State.grantBlock, State.modKv_sound, Ctx.sound_iff]

theorem State.grantBlock_sound_eq {s : State} (h : κ.Sound s) (g : Grant) (bytes : Nat) {x : Nat} {u : State}
    (hu : s.grantBlock g bytes = (x, u)) : κ.Sound u := by
  simpa [hu] using State.grantBlock_sound h g bytes

theorem State.poolBlocks_sound {s : State} (h : κ.Sound s) (f : Fixed) (blk n : Nat) {x : Nat} {u : State}
    (hu : s.poolBlocks f blk n = some (x, u)) : κ.Sound u := by
  grind [State.poolBlocks, Option.map_eq_some_iff, State.modKv_sound, Ctx.sound_iff]

theorem State.returnBlocks_sound {s : State} (h : κ.Sound s) (f : Fixed) (idx : List Nat) : κ.Sound (s.returnBlocks f idx) := by
  grind [State.returnBlocks, State.modKv_sound, Option.map_eq_some_iff, Ctx.sound_iff]

theorem State.tailBlocks_sound {s : State} (h : κ.Sound s) (gr : Option Grant) (g : StageCfg) : κ.Sound (s.tailBlocks gr g).2 := by
  unfold State.tailBlocks
  split
  · exact h
  next gr =>
    exact State.foldl_snd_sound (β := List (Nat × Nat)) (a := ([], s))
      (fun _ _ ha => State.grantBlock_sound (State.grantBlock_sound ha gr g.pageBytes) gr g.pageBytes) _ h

theorem State.ensureRec_sound {s : State} (h : κ.Sound s) (home asn stage program : Nat) (t : Fin 16) (d : Desc) (g : StageCfg) (fuel : Nat)
    (key : Option (Nat × Nat)) : κ.Sound (State.ensureRec home asn stage program t d g fuel key s) := by
  induction fuel generalizing key s with
  | zero => exact h
  | succ fuel ih =>
    unfold State.ensureRec
    split
    · exact h
    extract_lets s1 par persist start
    have h1 : κ.Sound s1 := by
      simp only [s1]
      split
      · exact h
      · exact ih h _
    have h2 := State.tailBlocks_sound h1 (s1.kvGrant home asn stage) g
    clear_value s1
    exact State.modKv_sound h2 _

theorem State.parkResident_sound {s : State} (h : κ.Sound s) (x : ResTail) : κ.Sound (s.parkResident x) := by
  unfold State.parkResident
  dsimp only
  repeat' split
  all_goals grind [State.poolBlocks_sound, State.each_sound, State.writeTagged_sound, State.setLanding_sound, State.memWrite_sound,
    State.modKv_sound, State.countDev_sound, Ctx.sound_iff]

theorem State.askPark_sound {s : State} (h : κ.Sound s) (x : ResTail) : κ.Sound (s.askPark x) := by
  grind [State.askPark, State.addJob_sound]

theorem State.parkTail_sound {s : State} (h : κ.Sound s) (x : ResTail) : κ.Sound (s.parkTail x) := by
  grind [State.parkTail, State.parkResident_sound]

theorem State.makeRoom_sound {s : State} (h : κ.Sound s) (b : Fin 80) {u : State} (hu : s.makeRoom b = some u) : κ.Sound u := by
  grind [State.makeRoom, Option.map_eq_some_iff, State.askPark_sound]

theorem State.bindAt_sound {s : State} (h : κ.Sound s) (b : Fin 80) (task : Task) (r : KvRec) (row layer j : Nat) (named : Bool)
    (g : StageCfg) : κ.Sound (s.bindAt b task r row layer j named g) := by
  grind [State.bindAt, State.memWrite_sound, State.setLanding_sound, Option.map_eq_some_iff, State.modKvRec_sound, State.modKv_sound,
    Ctx.sound_iff]

theorem State.modWork_sound {s : State} (h : κ.Sound s) (w : KvWork) (f : KvWork → KvWork) : κ.Sound (s.modWork w f) := by
  grind [State.modWork, State.modKv_sound, Option.map_eq_some_iff, Ctx.sound_iff]

/-- The state of a binding that succeeded or waits is sound. -/
def Ctx.SoundBound (κ : Ctx) : Bound → Prop
  | .ok s => κ.Sound s
  | .waits s => κ.Sound s
  | .fails _ => True

theorem State.bindOne_sound {s : State} (h : κ.Sound s) (b : Fin 80) (task : Task) (r : KvRec) (row layer : Nat) (g : StageCfg) :
    κ.SoundBound (s.bindOne b task r row layer g) := by
  unfold State.bindOne
  split
  · exact State.bindAt_sound h ..
  split
  next u hu => exact State.makeRoom_sound h b hu
  · trivial

theorem State.bindRun_sound {s : State} (h : κ.Sound s) (b : Fin 80) (task : Task) (r : KvRec) (layer first : Nat) (g : StageCfg) :
    κ.Sound (s.bindRun b task r layer first g) := by
  grind [State.bindRun, State.each_sound, State.bindAt_sound, State.modKvRec_sound, Ctx.sound_iff]

theorem State.breakRun_sound {s : State} (h : κ.Sound s) (w : KvWork) : κ.Sound (s.breakRun w) := by
  grind [State.breakRun, State.setLanding_sound, State.modKvRec_sound, State.modKv_sound, Option.map_eq_some_iff, Ctx.sound_iff]

theorem State.bind_sound {s : State} (h : κ.Sound s) (b : Fin 80) (task : Task) (r : KvRec) (row layer : Nat) (g : StageCfg) :
    κ.SoundBound (s.bind b task r row layer g) := by
  unfold State.bind
  extract_lets mine full wantRun
  split
  · split
    · split
      · exact h
      · trivial
    split
    · trivial
    split
    · exact State.modWork_sound h ..
    · exact State.bindOne_sound (State.breakRun_sound h _) ..
  · split
    · trivial
    split
    · exact State.bindOne_sound h ..
    split
    · exact State.bindRun_sound h ..
    next u _ hu => exact State.makeRoom_sound h b hu
    · exact State.bindOne_sound h ..

theorem State.newPage_sound {s : State} (h : κ.Sound s) (r : KvRec) (g : StageCfg) {x : Nat} {u : State}
    (hu : s.newPage r g = some (x, u)) : κ.Sound u := by
  grind [State.newPage, State.poolBlocks_sound, Option.map_eq_some_iff, State.grantBlock_sound, State.grantBlock_sound_eq]

theorem State.flush_sound {s : State} (h : κ.Sound s) (b : Fin 80) (task : Task) (w : KvWork) (r : KvRec) (g : StageCfg) : κ.Sound
    (s.flush b task w r g) := by
  unfold State.flush
  dsimp only
  repeat' split
  all_goals grind [State.newPage_sound, State.writeTagged_sound, State.modWork_sound, State.modKv_sound, State.setLanding_sound,
    State.countBay_sound, Ctx.sound_iff]

theorem State.appendOne_sound {s : State} (h : κ.Sound s) (b : Fin 80) (task : Task) (w : KvWork) (r : KvRec) (g : StageCfg)
    (kRow vRow : List Byte) : κ.Sound (s.appendOne b task w r g kRow vRow) := by
  grind [State.appendOne, State.memWrite_sound, State.setLanding_sound, State.modWork_sound, State.flush_sound, Ctx.sound_iff]

theorem State.parkBay_sound {s : State} (h : κ.Sound s) (b : Fin 80) (task : Task) : κ.Sound (s.parkBay b task) := by
  unfold State.parkBay
  refine State.each_sound h (fun s w h => ?_) _
  split
  next r g _ _ =>
    extract_lets fill base dest
    have hdest : ∀ a u, dest = some (a, u) → κ.Sound u := by
      intro a u hu
      simp only [dest] at hu
      split at hu
      next t _ program _ _ =>
        split at hu
        · nomatch hu
        next f _ =>
          split at hu
          · cases hu; exact h
          · obtain ⟨p, hp, hu⟩ := Option.map_eq_some_iff.mp hu
            cases hu
            exact State.modKvRec_sound (State.poolBlocks_sound h f _ _ hp) ..
      · cases hu; exact h
    clear_value dest
    split
    · exact h
    split
    · exact State.modWork_sound h ..
    split
    · exact h
    next dst u =>
      exact State.modWork_sound (State.countBay_sound (State.memWrite_sound (hdest dst u rfl) ..) ..) ..
  · exact h

theorem State.joinTails_sound {s : State} (h : κ.Sound s) (i : Nat) : κ.Sound (s.joinTails i) := by
  unfold State.joinTails
  dsimp only
  repeat' split
  all_goals grind [State.each_sound, State.memWrite_sound, State.modKvRec_sound, Ctx.sound_iff]

theorem State.commitKv_sound {s : State} (h : κ.Sound s) (home : Nat) (wu : WuKey) : κ.Sound (s.commitKv home wu) := by
  grind [State.commitKv, State.each_sound, State.modKvRec_sound, State.setLanding_sound, State.foldl_sound, Option.map_eq_some_iff,
    State.joinTails_sound, State.modKv_sound, Ctx.sound_iff]

theorem State.abandonKv_sound {s : State} (h : κ.Sound s) (home : Nat) (wu : WuKey) : κ.Sound (s.abandonKv home wu) := by
  unfold State.abandonKv
  refine State.modKv_sound (State.each_sound h (fun s w h => ?_) _) _
  extract_lets s1 ctx s2
  have h1 : κ.Sound s1 := State.modKv_sound h _
  clear_value s1
  refine State.setLanding_sound ?_ ..
  simp only [s2]
  split
  · exact h1
  next r _ =>
    have h3 := fun f => State.modKvRec_sound h1 r.id f
    split
    · split
      · exact State.returnBlocks_sound (h3 _) ..
      · exact h3 _
    · split
      · exact State.modKv_sound (h3 _) _
      · exact h3 _

theorem State.freeKv_sound {s : State} (h : κ.Sound s) (home asn : Nat) (stage : Option Nat) : κ.Sound (s.freeKv home asn stage) := by
  unfold State.freeKv
  refine State.modKv_sound (State.each_sound h (fun s w h => ?_) _) _
  extract_lets own
  split
  · exact State.modKv_sound h _
  split
  next f g _ _ =>
    extract_lets extra s1 s2 s3
    have h2 : κ.Sound s2 := State.returnBlocks_sound (State.modKv_sound h _) ..
    clear_value s2
    have h3 : κ.Sound s3 := by grind [State.returnBlocks_sound]
    clear_value s3
    split
    · exact State.each_sound h3 (fun _ _ h => State.setLanding_sound h ..) _
    · exact h3
  · exact h

theorem State.kvPhase1_sound {s : State} (h : κ.Sound s) (home asn version : Nat) : κ.Sound (s.kvPhase1 home asn version) := by
  unfold State.kvPhase1
  grind [State.each_sound, State.poolBlocks_sound, State.memWrite_sound, Option.map_eq_some_iff]

theorem State.kvPhase2_sound {s : State} (h : κ.Sound s) (home asn version : Nat) : κ.Sound (s.kvPhase2 home asn version) := by
  unfold State.kvPhase2
  refine State.each_sound h (fun s r h => ?_) _
  have hfree : ∀ (s : State) (b : Fin 80) (k n : Nat), κ.Sound s →
      κ.Sound (s.each (List.range n) fun s l => s.setLanding b (k + l) .free) :=
    fun _ _ _ _ h => State.each_sound h (fun _ _ h => State.setLanding_sound h ..) _
  split
  · exact h
  split
  next e f g _ _ _ =>
    extract_lets w ours s1 residents s2 s3
    have h1 : κ.Sound s1 := by
      simp only [s1]
      split
      · exact h
      split
      · exact hfree _ _ _ _ h
      split
      · exact State.returnBlocks_sound h ..
      · exact h
    clear_value s1
    have h2 : κ.Sound s2 := State.modKv_sound h1 _
    clear_value s2
    refine State.modKvRec_sound ?_ ..
    simp only [s3]
    split
    · split
      · exact hfree _ _ _ _ h2
      · exact State.modKv_sound (State.each_sound h2 (fun _ _ h => State.setLanding_sound h ..) _) _
    · exact h2
  · exact h

theorem State.rollback_sound {s : State} (h : κ.Sound s) (x : ResTail) : κ.Sound (s.rollback x) := by
  grind [State.rollback, State.memWrite_sound, State.each_sound, State.setLanding_sound, State.modKv_sound, State.countDev_sound,
    Ctx.sound_iff]

theorem State.clearHere_sound {s : State} (h : κ.Sound s) (home asn : Nat) (m : Formation) (d : Desc) (t : Fin 16) : κ.Sound
    (s.clearHere home asn m d t) := by
  grind [State.clearHere, State.each_sound, State.memWrite_sound]

theorem State.clearLost_sound {s : State} (h : κ.Sound s) (r : Req) : κ.Sound (s.clearLost r) := by
  unfold State.clearLost
  cases r.formation with
  | none => exact h
  | some m => exact State.clearHere_sound h ..

theorem State.tellKv_sound {s : State} (h : κ.Sound s) (r : Req) (op version : Nat) : κ.Sound (s.tellKv r op version) := by
  grind [State.tellKv, State.each_sound, State.sendReq_sound, Option.map_eq_some_iff]

theorem State.kvOp_sound {s : State} (h : κ.Sound s) (home asn op version : Nat) : κ.Sound (s.kvOp home asn op version) := by
  grind [State.kvOp, State.modQuota_sound, Option.map_eq_some_iff, State.kvPhase1_sound, State.kvPhase2_sound, State.clearHere_sound,
    Ctx.sound_iff]

theorem State.notePlaces_sound {s : State} (h : κ.Sound s) (r : Req) : κ.Sound (s.notePlaces r) := by
  grind [State.notePlaces, State.each_sound, Option.map_eq_some_iff, State.modKv_sound, Ctx.sound_iff]

theorem State.modReq_sound {s : State} (h : κ.Sound s) (asn : Nat) (f : Req → Req) : κ.Sound (s.modReq asn f) := by
  grind [State.modReq, State.modReqs_sound, Option.map_eq_some_iff, Ctx.sound_iff]

theorem State.drawBytes_sound {s : State} (h : κ.Sound s) (n : Nat) : κ.Sound (s.drawBytes n).2 := by
  grind [State.drawBytes, Option.map_eq_some_iff, Ctx.sound_iff]

theorem State.drawBytes_sound_eq {s : State} (h : κ.Sound s) (n : Nat) {x : List Byte} {u : State}
    (hu : s.drawBytes n = (x, u)) : κ.Sound u := by
  simpa [hu] using State.drawBytes_sound h n

theorem State.tenantFill_sound {s : State} (h : κ.Sound s) (b : Fin 80) (t : Fin 16) : κ.Sound (s.tenantFill b t) := by
  unfold State.tenantFill
  extract_lets y fill s1
  have h1 : κ.Sound s1 := State.modBay_sound h b fun _ hy => hy
  split
  · exact State.countBay_sound (State.modMem_sound h1 (by exact Ctx.canon_clear h1.cells _ _)) ..
  · exact h1

theorem State.startTask_sound {s : State} (h : κ.Sound s) (c : Cand) (b : Fin 80) (i limit : Nat) : κ.Sound (s.startTask c b i limit) := by
  unfold State.startTask
  extract_lets s1
  have h1 : κ.Sound s1 := State.tenantFill_sound h ..
  clear_value s1
  have h2 := State.draw_sound h1
  split
  next s2 hd =>
  rw [hd] at h2
  extract_lets block args s3 wave task
  have h3 : κ.Sound s3 := State.memWrite_sound h2 ..
  refine State.addUsed_sound (State.modBay_sound h3 b fun y hy => ?_) ..
  refine ⟨by simp, by simp, by simp, fun t ht => ?_⟩
  rw [List.eq_of_mem_replicate ht]
  exact Thread.shaped_of_sublist Thread.reset_shaped rfl rfl (.refl _) (Nat.le_refl _)

theorem State.startWu_sound {s : State} (h : κ.Sound s) (c : Cand) (charge : Nat) : κ.Sound (s.startWu c charge) := by
  unfold State.startWu
  extract_lets bays
  split
  next tile dv _ =>
  extract_lets cdur w limit s1 s2 s3 s4
  have h1 : κ.Sound s1 := State.each_sound h (fun _ _ h => State.startTask_sound h ..) _
  clear_value s1
  have h2 : κ.Sound s2 := by
    simp only [s2]
    split
    · split
      · exact h1
      · exact State.each_sound h1 (fun _ _ h => State.ensureRec_sound h ..) _
    · exact h1
  have h4 : κ.Sound s4 := State.modStew_sound (State.modReqs_sound h2 _) h2.tokens h2.tokensOut h2.tokenWait h2.gain h2.hbmStep
  exact State.countDev_sound (State.countProg_sound (State.countProg_sound h4 ..) ..) ..

theorem State.landLine_sound {s : State} (h : κ.Sound s) (b : Fin 80) (l : BufLine) : κ.Sound (s.landLine b l) := by
  grind [State.landLine, State.each_sound, State.memWrite_sound, State.sendReq_sound]

theorem State.landShared_sound {s : State} (h : κ.Sound s) (b : Fin 80) (line : Nat) : κ.Sound (s.landShared b line) := by
  grind [State.landShared, State.landLine_sound, State.modBay_sound, Ctx.KeepsBay, Bay.Shaped, Ctx.sound_iff]

theorem State.drainLine_sound {s : State} (h : κ.Sound s) (b : Fin 80) (l : BufLine) : κ.Sound (s.drainLine b l) := by
  grind [State.drainLine, State.landShared_sound, State.landLine_sound]

theorem State.drainAll_sound {s : State} (h : κ.Sound s) (b : Fin 80) (t : Fin 128) : κ.Sound (s.drainAll b t) := by
  grind [State.drainAll, State.each_sound, State.landLine_sound, State.modBay_sound, Ctx.KeepsBay, Bay.Shaped, State.modThr_sound,
    Ctx.KeepsThr, Thread.Shaped, Ctx.sound_iff]

theorem State.drainBay_sound {s : State} (h : κ.Sound s) (b : Fin 80) (t : Fin 128) : κ.Sound (s.drainBay b t) := by
  grind [State.drainBay, State.each_sound, State.landLine_sound, State.modBay_sound, Ctx.KeepsBay, Bay.Shaped, Bay.share_shaped,
    State.modThr_sound, Ctx.KeepsThr, Thread.Shaped, Ctx.sound_iff]

theorem State.modRun_sound {s : State} (h : κ.Sound s) (home : Nat) (k : WuKey) (f : RunWu → RunWu) : κ.Sound (s.modRun home k f) := by
  grind [State.modRun, State.modReqs_sound, Option.map_eq_some_iff, Ctx.sound_iff]

theorem State.dropRun_sound {s : State} (h : κ.Sound s) (home : Nat) (k : WuKey) : κ.Sound (s.dropRun home k) := by
  grind [State.dropRun, State.modReqs_sound, State.modStew_sound, Ctx.tokens_of_sound, Ctx.tokensOut_of_sound, Ctx.tokenWait_of_sound,
    Ctx.gain_of_sound, Ctx.hbmStep_of_sound, Ctx.has_modify, Ctx.has_set, Ctx.has_map, State.modBars_sound, Ctx.sound_iff]

theorem State.forgetBay_sound {s : State} (h : κ.Sound s) (b : Fin 80) : κ.Sound (s.forgetBay b) := by
  grind [State.forgetBay, State.modNet_sound, Option.map_eq_some_iff, Ctx.sound_iff]

theorem State.freeBay_sound {s : State} (h : κ.Sound s) (b : Fin 80) : κ.Sound (s.freeBay b) := by
  unfold State.freeBay
  split
  · exact h
  refine State.countFn_sound (State.forgetBay_sound (State.subUsed_sound (State.modBay_sound h b fun y hy => ?_) ..) ..) ..
  obtain ⟨h1, h2, h3, h4⟩ := hy
  refine ⟨by simpa using h1, by simp, by simp, List.forall_mem_map.mpr fun t ht => ?_⟩
  exact Thread.shaped_of_sublist (h4 t ht) rfl rfl (by simp) (by simp)

theorem State.leaveFabricBars_sound {s : State} (h : κ.Sound s) (home asn : Nat) (bays : List (Fin 80)) : κ.Sound
    (s.leaveFabricBars home asn bays) := by
  grind [State.leaveFabricBars, State.modBars_sound, Option.map_eq_some_iff, State.count_sound, Ctx.sound_iff]

theorem State.stopWu_sound {s : State} (h : κ.Sound s) (home : Nat) (k : WuKey) (drain : Bool) : κ.Sound (s.stopWu home k drain) := by
  unfold State.stopWu
  dsimp only
  repeat' split
  all_goals grind [Option.map_eq_some_iff, Port.drain_vcq, Ctx.KeepsPort, State.each_sound, State.drainAll_sound,
    State.leaveFabricBars_sound, State.faultRamp_sound, Bay.faultRamp_shaped, State.freeBay_sound, State.abandonKv_sound,
    State.dropRun_sound]

theorem State.abandonWu_sound {s : State} (h : κ.Sound s) (home : Nat) (k : WuKey) : κ.Sound (s.abandonWu home k) := by
  grind [State.abandonWu, State.stopWu_sound, State.countProg_sound]

theorem State.learnWu_sound {s : State} (h : κ.Sound s) (w : RunWu) (duration : Nat) : κ.Sound (s.learnWu w duration) := by
  grind [State.learnWu, State.modStew_sound, Ctx.tokens_of_sound, Ctx.tokensOut_of_sound, Ctx.tokenWait_of_sound, Ctx.gain_of_sound,
    Ctx.hbmStep_of_sound, Ctx.has_modify, Ctx.has_set, Ctx.has_map, Ctx.sound_iff]

theorem State.deliverPush_sound {s : State} (h : κ.Sound s) (home : Nat) (k : WuKey) (src : Nat) : κ.Sound (s.deliverPush home k src) := by
  grind [State.deliverPush, State.modNet_sound, Ctx.sound_iff]

theorem State.sendStepAck_sound {s : State} (h : κ.Sound s) (dst : Nat) (k : WuKey) : κ.Sound (s.sendStepAck dst k) := by
  grind [State.sendStepAck, State.sendMsgTo_sound]

theorem State.ackInputs_sound {s : State} (h : κ.Sound s) (home asn : Nat) : κ.Sound (s.ackInputs home asn) := by
  grind [State.ackInputs, State.foldl_sound, State.modNet_sound, Option.map_eq_some_iff, State.sendStepAck_sound, Ctx.sound_iff]

theorem State.requestRecord_sound {s : State} (h : κ.Sound s) (asn status detail source inst addr : Nat) (info : List Byte) : κ.Sound
    (s.requestRecord asn status detail source inst addr info) := by
  grind [State.requestRecord, State.error_sound]

theorem State.openRecord_sound {s : State} (h : κ.Sound s) (asn status detail : Nat) (addr : Option Nat) : κ.Sound
    (s.openRecord asn status detail addr) := by
  grind [State.openRecord, State.draw_sound, State.draw_sound_eq, State.requestRecord_sound]

theorem State.finish_sound {s : State} (h : κ.Sound s) (asn status detail : Nat) : κ.Sound (s.finish asn status detail) := by
  unfold State.finish
  grind [State.endLease_sound, State.clearLost_sound, State.modStr_sound, State.modReq_sound, State.modHub_sound, State.modReqs_sound,
    Ctx.sound_iff]

theorem State.settleReq_sound {s : State} (h : κ.Sound s) (asn : Nat) : κ.Sound (s.settleReq asn) := by
  grind [State.settleReq, State.finish_sound, State.modReq_sound, State.addJob_sound, State.openRecord_sound, Ctx.sound_iff]

theorem State.failWith_sound {s : State} (h : κ.Sound s) (asn status detail : Nat) {record : State → State}
    (hrecord : ∀ s, κ.Sound s → κ.Sound (record s)) : κ.Sound (s.failWith asn status detail record) := by
  unfold State.failWith
  split
  · exact h
  next r _ =>
    split
    · exact h
    · have hsent := State.foldl_sound (hrecord s h) (f := fun s n => s.sendMsgTo n 0x21 (bytesLE 8 asn ++ bytesLE 1 status) (.steward asn))
        (fun _ _ h => State.sendMsgTo_sound h ..) (remoteTokens (record s) r)
      exact State.settleReq_sound (State.modReq_sound (State.modHub_sound hsent _) ..) ..

theorem State.failReqAt_sound {s : State} (h : κ.Sound s) (asn status detail source inst addr : Nat) (info : List Byte) : κ.Sound
    (s.failReqAt asn status detail source inst addr info) := by
  grind [State.failReqAt, State.failWith_sound, State.requestRecord_sound]

theorem State.failReq_sound {s : State} (h : κ.Sound s) (asn status detail : Nat) : κ.Sound (s.failReq asn status detail) := by
  grind [State.failReq, State.failReqAt_sound, State.failWith_sound, State.openRecord_sound]

theorem State.wuFault_sound {s : State} (h : κ.Sound s) (b : Fin 80) (info : List Byte) (status detail addr : Nat) : κ.Sound
    (s.wuFault b info status detail addr) := by
  grind [State.wuFault, State.stopWu_sound, Option.map_eq_some_iff, State.requestRecord_sound, State.failReqAt_sound, State.error_sound,
    State.modNet_sound, State.sendMsgTo_sound, Ctx.sound_iff]

theorem State.sendPush_sound {s : State} (h : κ.Sound s) (x : PushTx) : κ.Sound (s.sendPush x) := by
  grind [State.sendPush, State.each_sound, State.sendReq_sound]

theorem State.startPush_sound {s : State} (h : κ.Sound s) (x : PushTx) : κ.Sound (s.startPush x) := by
  grind [State.startPush, State.modNet_sound, State.sendPush_sound, Ctx.sound_iff]

theorem State.pushFails_sound {s : State} (h : κ.Sound s) (home asn : Nat) (why : Nat × Nat) : κ.Sound (s.pushFails home asn why) := by
  grind [State.pushFails, State.failReq_sound, State.openRecord_sound, State.sendMsgTo_sound]

theorem State.push_sound {s : State} (h : κ.Sound s) (home : Nat) (m : Formation) (k : WuKey) : κ.Sound (s.push home m k) := by
  grind [State.push, State.deliverPush_sound, State.draw_sound, State.draw_sound_eq, State.meetTagged_sound, State.startPush_sound,
    State.error_sound, State.pushFails_sound, State.drawBytes_sound, State.drawBytes_sound_eq, Ctx.sound_iff]

theorem State.pushNext_sound {s : State} (h : κ.Sound s) (home : Nat) (d : Desc) (m : Formation) (k : WuKey) : κ.Sound
    (s.pushNext home d m k) := by
  grind [State.pushNext, State.push_sound, Ctx.sound_iff]

theorem State.dropHome_sound {s : State} (h : κ.Sound s) (home asn : Nat) : κ.Sound (s.dropHome home asn) := by
  unfold State.dropHome
  grind [State.each_sound, State.abandonWu_sound, State.freeKv_sound, State.releaseHere_sound, State.remapReleased_sound,
    State.modReqs_sound, State.modBars_sound, State.modNet_sound, Ctx.sound_iff]

theorem State.dropReleased_sound {s : State} (h : κ.Sound s) (home asn : Nat) : κ.Sound (s.dropReleased home asn) := by
  grind [State.dropReleased, State.dropHome_sound]

theorem State.completeWu_sound {s : State} (h : κ.Sound s) (w : RunWu) : κ.Sound (s.completeWu w) := by
  unfold State.completeWu
  extract_lets duration s1 s2 s3 s4 s5 s6
  have h5 : κ.Sound s5 := State.dropReleased_sound (State.modReqs_sound (State.dropRun_sound (State.countFn_sound (State.countProg_sound (State.countProg_sound (State.learnWu_sound h ..) ..) ..) ..) ..) _) ..
  have h6 : κ.Sound s6 := by grind [State.modReq_sound]
  clear_value s6
  split
  · exact h6
  next m _ =>
  extract_lets s7 lastStep tells s8 s9 s10
  have h7 : κ.Sound s7 := by grind [State.pushNext_sound]
  have h8 : κ.Sound s8 := by grind [State.sendStepAck_sound]
  have h9 : κ.Sound s9 := State.ackInputs_sound h8 ..
  have h10 : κ.Sound s10 := by grind [State.modReq_sound]
  split
  · exact State.settleReq_sound h10 ..
  · exact h9

theorem State.tryContext_sound {s : State} (h : κ.Sound s) (asn : Nat) : κ.Sound (s.tryContext asn) := by
  grind [State.tryContext, State.push_sound]

end Sys2Proof.Machine
end

section
/-! What the operations on threads, bays, arrays, admission, the audit chain and streams keep. -/
namespace Sys2Proof.Machine
open Sys2Proof

-- One proof at a time: many short proofs elaborated side by side would cost the check its memory.
set_option Elab.async false

variable {κ : Ctx}

theorem State.exceptAt_sound {s : State} (h : κ.Sound s) (b : Fin 80) (t : Fin 128) (pc : Word) (status detail addr : Nat) : κ.Sound
    (s.exceptAt b t pc status detail addr) := by
  grind [State.exceptAt, State.wuFault_sound]

theorem State.except_sound {s : State} (h : κ.Sound s) (b : Fin 80) (t : Fin 128) (status detail addr : Nat) : κ.Sound
    (s.except b t status detail addr) := by
  grind [State.except, State.exceptAt_sound]

theorem State.forgetLoads_sound {s : State} (h : κ.Sound s) (w : Issue) (r : RegName) : κ.Sound (s.forgetLoads w r) := by
  grind [State.forgetLoads, State.modNet_sound, State.modThr_sound, Ctx.KeepsThr, Thread.Shaped, Ctx.sound_iff]

theorem State.issued_sound {s : State} (h : κ.Sound s) (w : Issue) : κ.Sound (s.issued w) := by
  grind [State.issued, State.modBay_sound, Ctx.KeepsBay, Bay.Shaped, State.countBay_sound, Ctx.sound_iff]

theorem State.startOf_sound {s : State} (h : κ.Sound s) (w : Issue) (write : Option RegName) : κ.Sound (s.startOf w write) := by
  unfold State.startOf
  grind [State.modThr_sound, Ctx.KeepsThr, Thread.Shaped, State.forgetLoads_sound, Ctx.sound_iff]

theorem State.issue_sound_of_legal {s : State} (h : κ.Sound s) (w : Issue) (legal : Bool) (reads : List RegName)
    (write : Option RegName) {run : State → Ran} (hrun : legal = true → ∀ s, κ.Sound s → κ.SoundRan (run s)) : κ.Sound
    (s.issue w legal reads write run) := by
  unfold State.issue
  split
  · exact h
  extract_lets t s1 s0
  have h1 : κ.Sound s1 := State.modThr_sound h _ _ fun _ ht => ht
  have hi := State.issued_sound h1 w
  split
  · exact State.except_sound hi ..
  split
  · exact State.except_sound hi ..
  split
  · exact State.modThr_sound hi _ _ fun _ ht => ht
  split
  · exact State.except_sound hi ..
  next hlegal =>
  split
  · exact State.modThr_sound h1 _ _ fun _ ht => ht
  · have h0 : κ.Sound s0 := by
      simp only [s0]
      split
      · exact State.forgetLoads_sound h1 ..
      · exact h1
    have hr := hrun (by simpa using hlegal) s0 h0
    split
    next s2 hs2 => exact State.issued_sound (by simpa [hs2] using hr) w
    next s2 on hs2 => exact State.modThr_sound (by simpa [hs2] using hr) _ _ fun _ ht => ht

theorem State.issue_sound {s : State} (h : κ.Sound s) (w : Issue) (legal : Bool) (reads : List RegName) (write : Option RegName)
    {run : State → Ran} (hrun : ∀ s, κ.Sound s → κ.SoundRan (run s)) : κ.Sound (s.issue w legal reads write run) :=
  State.issue_sound_of_legal h w legal reads write fun _ => hrun

theorem State.issueThr_sound {s : State} (h : κ.Sound s) (w : Issue) (legal : Bool) (reads : List RegName) (write : Option RegName)
    {f : Thread → Thread} (hf : Ctx.KeepsThr f) : κ.Sound (s.issueThr w legal reads write f) :=
  State.issue_sound h w legal reads write fun _ h => State.modThr_sound h _ _ hf

theorem State.issueAlu_sound {s : State} (h : κ.Sound s) (w : Issue) (rd ra rb : BitVec 5) (op : Word → Word → Word) : κ.Sound
    (s.issueAlu w rd ra rb op) := by
  grind [State.issueAlu, State.issueThr_sound, Ctx.KeepsThr, Thread.setG_shaped, Thread.next_shaped]

theorem State.issueCmp_sound {s : State} (h : κ.Sound s) (w : Issue) (rd ra rb : BitVec 5) (op : Word → Word → Bool) : κ.Sound
    (s.issueCmp w rd ra rb op) := by
  grind [State.issueCmp, State.issueThr_sound, Ctx.KeepsThr, Thread.combine_shaped, Thread.next_shaped]

theorem State.issueVop_sound {s : State} (h : κ.Sound s) (w : Issue) (legal : Bool) (ty : BitVec 3) (f : Nat) (rd ra rb : BitVec 5) :
    κ.Sound (s.issueVop w legal ty f rd ra rb) := by
  grind [State.issueVop, State.issueThr_sound, Ctx.KeepsThr, Thread.setV_shaped, Thread.next_shaped]

theorem State.refuseStore_sound {s : State} (h : κ.Sound s) (b : Fin 80) (addr : Nat) : κ.Sound (s.refuseStore b addr) := by
  grind [State.refuseStore, State.lockViolation_sound, Option.map_eq_some_iff]

theorem State.abandonLeft_sound {s : State} (h : κ.Sound s) (home : Nat) (k : WuKey) : κ.Sound (s.abandonLeft home k) := by
  grind [State.abandonLeft, State.abandonWu_sound, State.modReq_sound, Ctx.sound_iff]

theorem State.onTarget_sound {s : State} (h : κ.Sound s) (w : Issue) (addr : Word) (x : Target) {go : Nat → Nat → Ran}
    (hgo : ∀ n a, x = .here a ∨ x = .remote n a → κ.SoundRan (go n a)) : κ.SoundRan (s.onTarget w addr x go) := by
  cases x with
  | here l => exact hgo _ _ (.inl rfl)
  | remote n l => exact hgo _ _ (.inr rfl)
  | left =>
    dsimp only [State.onTarget]
    exact Ctx.sound_elim _ h fun t => State.abandonLeft_sound h ..
  | csrStore => exact State.modThr_sound (State.refuseStore_sound h ..) _ _ fun _ ht => ht
  | locked => exact State.except_sound (State.refuseStore_sound h ..) ..
  | misaligned => exact State.except_sound h ..
  | address => exact State.except_sound h ..

theorem State.drainOne_sound {s : State} (h : κ.Sound s) (w : Issue) (line : Nat) : κ.Sound (s.drainOne w line) := by
  grind [State.drainOne, State.landShared_sound, State.landLine_sound, State.modThr_sound, Ctx.KeepsThr, Thread.Shaped, Ctx.sound_iff]

theorem State.release_sound {s : State} (h : κ.Sound s) (w : Issue) (scope : Scope) {go : State → Ran}
    (hgo : ∀ s, κ.Sound s → κ.SoundRan (go s)) : κ.SoundRan (s.release w scope go) := by
  unfold State.release
  extract_lets s1
  have h1 : κ.Sound s1 := by grind [State.drainBay_sound, State.drainAll_sound]
  split
  · exact h1
  · exact hgo _ h1

theorem State.homeMeet_sound {s : State} (h : κ.Sound s) (a n : Nat) : κ.Sound (s.homeMeet a n) := by
  grind [State.homeMeet, State.meet_sound]

theorem State.raiseFault_sound {s : State} (h : κ.Sound s) (b : Fin 80) (t : Fin 128) (f : FaultInfo) : κ.Sound (s.raiseFault b t f) := by
  grind [State.raiseFault, State.except_sound]

theorem State.modMover_sound {s : State} (h : κ.Sound s) (b : Fin 80) (m : Fin 2) (f : Mover → Mover) : κ.Sound (s.modMover b m f) := by
  grind [State.modMover, State.modBay_sound, Ctx.KeepsBay, Bay.Shaped, Ctx.sound_iff]

theorem State.failTile_sound {s : State} (h : κ.Sound s) (b : Fin 80) (e : QEntry) (f : FaultInfo) : κ.Sound (s.failTile b e f) := by
  grind [State.failTile, State.modBay_sound, Ctx.KeepsBay, Bay.Shaped, State.raiseFault_sound, State.modThr_sound, Ctx.KeepsThr,
    Thread.Shaped, Ctx.sound_iff]

theorem State.failMove_sound {s : State} (h : κ.Sound s) (b : Fin 80) (e : QEntry) (f : FaultInfo) (own : Bool) : κ.Sound
    (s.failMove b e f own) := by
  grind [State.failMove, State.modBay_sound, Ctx.KeepsBay, Bay.Shaped, State.raiseFault_sound, State.modThr_sound, Ctx.KeepsThr,
    Thread.Shaped, Ctx.sound_iff]

theorem State.afterExit_sound {s : State} (h : κ.Sound s) (b : Fin 80) (t : Fin 128) : κ.Sound (s.afterExit b t) := by
  grind [State.afterExit, Port.drain_vcq, Ctx.KeepsPort, State.raiseFault_sound, State.parkBay_sound]

theorem State.wake_sound {s : State} (h : κ.Sound s) (p : Fin 80 × Fin 128) : κ.Sound (s.wake p) := by
  grind [State.wake, State.modThr_sound, Ctx.KeepsThr, Thread.Shaped, Thread.next_shaped]

theorem State.park_sound {s : State} (h : κ.Sound s) (p : Fin 80 × Fin 128) : κ.Sound (s.park p) := by
  grind [State.park, State.modThr_sound, Ctx.KeepsThr, Thread.Shaped, Ctx.sound_iff]

theorem State.arriveBay_sound {s : State} (h : κ.Sound s) (b : Fin 80) (t : Fin 128) (slot count : Nat) : κ.Sound
    (s.arriveBay b t slot count) := by
  grind [State.arriveBay, State.count_sound, State.modBay_sound, Ctx.KeepsBay, Bay.Shaped, State.each_sound, State.wake_sound,
    State.park_sound, Ctx.sound_iff]

theorem State.arriveNode_sound {s : State} (h : κ.Sound s) (task : Task) (b : Fin 80) (t : Fin 128) (slot count : Nat) : κ.Sound
    (s.arriveNode task b t slot count) := by
  grind [State.arriveNode, State.count_sound, State.modBars_sound, State.each_sound, State.wake_sound, State.park_sound, Ctx.sound_iff]

theorem State.setFabricBar_sound {s : State} (h : κ.Sound s) (f : FabricBar) : κ.Sound (s.setFabricBar f) := by
  grind [State.setFabricBar, State.modBars_sound, Ctx.sound_iff]

theorem State.releaseFabric_sound {s : State} (h : κ.Sound s) (f : FabricBar) (n : Nat) (later : List (Nat × Nat)) : κ.Sound
    (s.releaseFabric f n later) := by
  grind [State.releaseFabric, State.each_sound, State.wake_sound, State.count_sound, State.setFabricBar_sound, Ctx.sound_iff]

theorem State.settleFabric_sound {s : State} (h : κ.Sound s) (f : FabricBar) (from_ : Nat) (fuel : Nat) : κ.Sound
    (s.settleFabric f from_ fuel) := by
  induction fuel generalizing s f with
  | zero => exact State.setFabricBar_sound h ..
  | succ fuel ih =>
    unfold State.settleFabric
    extract_lets total excess mine s1 s2
    split
    · exact State.setFabricBar_sound h ..
    · have h1 : κ.Sound s1 := State.foldl_sound h (fun _ _ h => State.sendReq_sound h ..) _
      exact ih (State.releaseFabric_sound h1 ..) _

theorem State.arriveFabric_sound {s : State} (h : κ.Sound s) (task : Task) (b : Fin 80) (t : Fin 128) (slot count : Nat) : κ.Sound
    (s.arriveFabric task b t slot count) := by
  grind [State.arriveFabric, State.count_sound, State.park_sound, State.settleFabric_sound, State.setFabricBar_sound,
    State.sendReq_sound, Ctx.sound_iff]

theorem State.issueBar_sound {s : State} (h : κ.Sound s) (w : Issue) (scope : Scope) (rd ra : BitVec 5) (ord : BitVec 4)
    (slots maxCount : Nat)
    (cur : State → Task → Nat → Option Nat) {arrive : State → Task → Nat → Nat → State}
    (harrive : ∀ s t n c, κ.Sound s → κ.Sound (arrive s t n c)) : κ.Sound (s.issueBar w scope rd ra ord slots maxCount cur arrive) := by
  refine State.issue_sound h _ _ _ _ fun s h => ?_
  split
  · exact h
  extract_lets t slot count bad
  split
  · exact State.except_sound h ..
  · exact State.release_sound h w scope fun s h => State.countBay_sound (harrive _ _ _ _ h) ..

theorem State.meetOperand_sound {s : State} (h : κ.Sound s) (b : Fin 80) (src : Nat) (spans : List Span) : κ.Sound
    (s.meetOperand b src spans) := by
  grind [State.meetOperand, State.each_sound, State.meet_sound, State.countBay_sound]

theorem State.takeToken_sound {s : State} (h : κ.Sound s) (t : Fin 4) : κ.Sound (s.takeToken t) :=
  State.countTile_sound (State.modStew_sound h ((Ctx.has_modify ..).mpr h.tokens) ((Ctx.has_modify ..).mpr h.tokensOut) h.tokenWait h.gain
    h.hbmStep) ..

theorem State.waitToken_sound {s : State} (h : κ.Sound s) (b : Fin 80) : κ.Sound (s.waitToken b) :=
  State.modStew_sound h h.tokens h.tokensOut ((Ctx.has_modify ..).mpr h.tokenWait) h.gain h.hbmStep

theorem State.leaveWait_sound {s : State} (h : κ.Sound s) (b : Fin 80) : κ.Sound (s.leaveWait b) :=
  State.modStew_sound h h.tokens h.tokensOut ((Ctx.has_modify ..).mpr h.tokenWait) h.gain h.hbmStep

theorem State.rampUp_sound {s : State} (h : κ.Sound s) (b : Fin 80) : κ.Sound (s.rampUp b) := by
  grind [State.rampUp, State.takeToken_sound, State.modBay_sound, Ctx.KeepsBay, Bay.Shaped, State.countBay_sound, Ctx.sound_iff]

theorem State.rampDown_sound {s : State} (h : κ.Sound s) (b : Fin 80) : κ.Sound (s.rampDown b) := by
  grind [State.rampDown, State.takeToken_sound, State.modBay_sound, Ctx.KeepsBay, Bay.Shaped, State.countBay_sound, Ctx.sound_iff]

theorem State.readyArray_sound {s : State} (h : κ.Sound s) (b : Fin 80) : κ.Sound (s.readyArray b).1 := by
  grind [State.readyArray, State.leaveWait_sound, State.rampUp_sound, State.waitToken_sound]

theorem State.readyArray_sound_eq {s : State} (h : κ.Sound s) (b : Fin 80) {x : Bool} {u : State}
    (hu : s.readyArray b = (u, x)) : κ.Sound u := by
  simpa [hu] using State.readyArray_sound h b

theorem State.failHead_sound {s : State} (h : κ.Sound s) (b : Fin 80) (e : QEntry) (f : FaultInfo) (next : Option Drain) : κ.Sound
    (s.failHead b e f next) := by
  grind [State.failHead, State.modBay_sound, Ctx.KeepsBay, Bay.Shaped, Port.drain_vcq, Ctx.KeepsPort, Thread.next_shaped,
    State.failTile_sound, State.afterExit_sound, Ctx.sound_iff]

theorem State.meetWindow_sound {s : State} (h : κ.Sound s) (b : Fin 80) (d : TileDesc) : κ.Sound (s.meetWindow b d) := by
  grind [State.meetWindow, State.meet_sound]

theorem State.startTile_sound {s : State} (h : κ.Sound s) (b : Fin 80) (task : Task) (e : QEntry) (w : Window') (dr : Option Drain) :
    κ.Sound (s.startTile b task e w dr) := by
  grind [State.startTile, State.meetOperand_sound, State.each_sound, State.meet_sound, State.error_sound, State.modBay_sound,
    Ctx.KeepsBay, Bay.Shaped, Port.drain_vcq, Ctx.KeepsPort, State.countBay_sound, Ctx.sound_iff]

theorem State.headTile_sound {s : State} (h : κ.Sound s) (b : Fin 80) (conv : Bool) : κ.Sound (s.headTile b conv) := by
  unfold State.headTile
  extract_lets y
  split
  next task e rest _ _ _ =>
    extract_lets d w
    split
    · exact h
    split
    · exact State.failHead_sound (State.meetWindow_sound h ..) ..
    split
    · exact State.failHead_sound (State.meetWindow_sound h ..) ..
    split
    · exact State.failHead_sound (State.meetWindow_sound h ..) ..
    · have hr := State.readyArray_sound h b
      split
      next u ready hu =>
      rw [hu] at hr
      split
      · exact State.startTile_sound (State.meetWindow_sound hr ..) ..
      · exact hr
  · exact h

theorem State.headAny_sound {s : State} (h : κ.Sound s) (b : Fin 80) : κ.Sound (s.headAny b) := by
  grind [State.headAny, State.headTile_sound]

theorem doMmul_sound (bay : Fin 80) {s : State} (h : κ.Sound s) : κ.Sound (doMmul bay s) := by
  grind [doMmul, State.headTile_sound]

theorem doConv_sound (bay : Fin 80) {s : State} (h : κ.Sound s) : κ.Sound (doConv bay s) := by
  grind [doConv, State.headTile_sound]

theorem doTileTagComplete_sound (bay : Fin 80) {s : State} (h : κ.Sound s) : κ.Sound (doTileTagComplete bay s) := by
  unfold doTileTagComplete
  dsimp only
  repeat' split
  all_goals grind [State.modBay_sound, Ctx.KeepsBay, Bay.Shaped, Port.drain_vcq, Ctx.KeepsPort, State.modMem_sound, Ctx.cells_of_sound,
    State.failTile_sound, State.afterExit_sound, State.each_sound, State.memWrite_sound, State.countBay_sound, Ctx.sound_iff]

theorem doArrayRampDown_sound (bay : Fin 80) {s : State} (h : κ.Sound s) : κ.Sound (doArrayRampDown bay s) := by
  grind [doArrayRampDown, State.leaveWait_sound, State.rampDown_sound, State.waitToken_sound]

theorem doRampTokenReturn_sound (tile : Fin 4) {s : State} (h : κ.Sound s) : κ.Sound (doRampTokenReturn tile s) := by
  unfold doRampTokenReturn
  split
  · exact h
  extract_lets s1 keep s2
  have h1 : κ.Sound s1 := State.modStew_sound h ((Ctx.has_modify ..).mpr h.tokens) ((Ctx.has_modify ..).mpr h.tokensOut) h.tokenWait h.gain
    h.hbmStep
  have h2 : κ.Sound s2 := State.modStew_sound h1 h1.tokens h1.tokensOut ((Ctx.has_set ..).mpr h1.tokenWait) h1.gain h1.hbmStep
  clear_value s2 keep
  split
  · exact h2
  split
  · exact State.rampDown_sound (State.leaveWait_sound h2 _) _
  split
  · exact State.rampUp_sound (State.leaveWait_sound h2 _) _
  · exact State.headAny_sound h2 _

theorem doArrayOff_sound (bay : Fin 80) {s : State} (h : κ.Sound s) : κ.Sound (doArrayOff bay s) := by
  grind [doArrayOff, State.modBay_sound, Ctx.KeepsBay, Bay.Shaped, State.headAny_sound, Ctx.sound_iff]

theorem State.grantToken_sound {s : State} (h : κ.Sound s) (home asn : Nat) (t : Fin 16) (m : Formation) (desc : Desc)
    (items : List DemandItem) (gallery : Option (Nat × Nat)) {x : List PlacedItem} {u : State}
    (hu : s.grantToken home asn t m desc items gallery = some (u, x)) : κ.Sound u := by
  grind [State.grantToken, State.evalDemand_sound, State.modQuota_sound, Ctx.sound_iff]

theorem State.releaseTokens_sound {s : State} (h : κ.Sound s) (asn : Nat) : κ.Sound (s.releaseTokens asn) := by
  unfold State.releaseTokens
  grind [State.foldl_sound, State.sendMsgTo_sound, State.releaseHere_sound, State.each_sound, State.remapReleased_sound,
    State.modNet_sound, State.modReq_sound, Ctx.sound_iff]

theorem State.returnBacking_sound {s : State} (h : κ.Sound s) (asn : Nat) : κ.Sound (s.returnBacking asn) := by
  grind [State.returnBacking, State.giveBacking_sound, State.modReq_sound, Ctx.sound_iff]

theorem State.failAdmission_sound {s : State} (h : κ.Sound s) (asn status detail : Nat) : κ.Sound (s.failAdmission asn status detail) := by
  grind [State.failAdmission, State.releaseTokens_sound, State.returnBacking_sound, State.countFn_sound, State.finish_sound]

theorem State.refuseAttempt_sound {s : State} (h : κ.Sound s) (asn : Nat) : κ.Sound (s.refuseAttempt asn) := by
  grind [State.refuseAttempt, State.failAdmission_sound, State.releaseTokens_sound, State.returnBacking_sound, State.modReq_sound,
    State.countFn_sound, Ctx.sound_iff]

theorem State.stageInput_sound {s : State} (h : κ.Sound s) (r : Req) (data : List Byte) : κ.Sound (s.stageInput r data) := by
  grind [State.stageInput, State.writeTagged_sound, State.each_sound, State.sendReq_sound]

theorem State.copyRing_sound {s : State} (h : κ.Sound s) (r : Req) : κ.Sound (s.copyRing r) := by
  grind [State.copyRing, State.failReqAt_sound, State.modSent_sound, State.countDev_sound, State.stageInput_sound, State.modReq_sound,
    Ctx.sound_iff]

theorem State.startContext_sound {s : State} (h : κ.Sound s) (asn : Nat) : κ.Sound (s.startContext asn) := by
  unfold State.startContext
  grind [State.modReq_sound, State.failReq_sound, State.failReqAt_sound, State.copyRing_sound, State.addJob_sound,
    State.tryContext_sound, Ctx.sound_iff]

theorem State.askNodes_sound {s : State} (h : κ.Sound s) (asn fuel : Nat) : κ.Sound (State.askNodes asn fuel s) := by
  induction fuel generalizing s with
  | zero => exact h
  | succ fuel ih =>
    unfold State.askNodes
    split
    · exact h
    split
    · split
      · exact State.startContext_sound h ..
      · extract_lets nodes items gallery s1
        split
        · split
          · have h1 : κ.Sound s1 := State.countFn_sound h ..
            split
            · exact State.refuseAttempt_sound h1 ..
            · exact State.failAdmission_sound h1 ..
          next s1 ps hg => exact ih (State.modReq_sound (State.grantToken_sound h _ _ _ _ _ _ _ hg) ..)
        · exact State.sendMsgTo_sound h ..
    · exact h

theorem State.reserveBacking_sound {s : State} (h : κ.Sound s) (r : Req) {u : State} (hu : s.reserveBacking r = some u) : κ.Sound u := by
  grind [State.reserveBacking, State.takeBacking_sound, Option.map_eq_some_iff, State.modReq_sound, Ctx.sound_iff]

theorem State.admitFrom11_sound {s : State} (h : κ.Sound s) (asn : Nat) : κ.Sound (s.admitFrom11 asn) := by
  unfold State.admitFrom11
  split
  · exact h
  split
  · exact State.failAdmission_sound h ..
  split
  · exact h
  split
  · exact State.failAdmission_sound (State.modReq_sound h ..) ..
  extract_lets s1
  have h1 : κ.Sound s1 := State.modReq_sound h ..
  split
  · exact State.failAdmission_sound h1 ..
  split
  · exact State.refuseAttempt_sound h1 ..
  next s2 hs2 => exact State.askNodes_sound (State.reserveBacking_sound h1 _ hs2) ..

theorem State.admitRequest_sound {s : State} (h : κ.Sound s) (asn : Nat) : κ.Sound (s.admitRequest asn) := by
  grind [State.admitRequest, State.failAdmission_sound, State.admitFrom11_sound]

theorem State.submit_sound {s : State} (h : κ.Sound s) (f : Fin 16) (desc : Desc) (wake : Bool) : κ.Sound (s.submit f desc wake) := by
  grind [State.submit, State.wake_sound, State.modReqs_sound, State.admitRequest_sound, Ctx.sound_iff]

theorem State.writeAnchor_sound {s : State} (h : κ.Sound s) (reason : Nat) : κ.Sound (s.writeAnchor reason) := by
  grind [State.writeAnchor, State.modBoot_sound, Ctx.flash_of_sound, Boot.queueAnchor_flash]

theorem State.modHold_sound {s : State} (h : κ.Sound s) (recno : Nat) (g : Hold → Hold) : κ.Sound (s.modHold recno g) := by
  grind [State.modHold, State.modHost_sound, Ctx.pages_of_sound, Ctx.has_modify, Ctx.has_set, Ctx.has_map, Option.map_eq_some_iff,
    Ctx.sound_iff]

theorem State.deliverRecord_sound {s : State} (h : κ.Sound s) : κ.Sound (s.deliverRecord) := by
  grind [State.deliverRecord, Option.map_eq_some_iff, State.emit_sound, Port.emit_vcq, Ctx.KeepsPort, State.modPage_sound,
    State.modAud_sound, State.modHold_sound, State.countDev_sound, State.raise_sound, Ctx.sound_iff]

theorem State.deliverAllRecords_sound {s : State} (h : κ.Sound s) (fuel : Nat) : κ.Sound (State.deliverAllRecords fuel s) := by
  induction fuel generalizing s with
  | zero => exact h
  | succ fuel ih =>
    unfold State.deliverAllRecords
    split
    · exact ih (State.deliverRecord_sound h)
    · exact h

theorem State.writeCompletion_sound {s : State} (h : κ.Sound s) (e : Hold) : κ.Sound (s.writeCompletion e) := by
  grind [State.writeCompletion, State.emit_sound, Port.emit_vcq, Ctx.KeepsPort, State.modPage_sound, State.modHold_sound,
    State.countFn_sound, State.countDev_sound, State.sendQuiet_sound, Ctx.sound_iff]

theorem State.drainCompletions_sound {s : State} (h : κ.Sound s) (fuel : Nat) : κ.Sound (State.drainCompletions fuel s) := by
  induction fuel generalizing s with
  | zero => exact h
  | succ fuel ih =>
    unfold State.drainCompletions
    split
    · exact h
    · exact ih (State.writeCompletion_sound h ..)

theorem State.drainHold_sound {s : State} (h : κ.Sound s) : κ.Sound s.drainHold :=
  State.drainCompletions_sound (State.deliverAllRecords_sound h _) _

theorem State.forgetReq_sound {s : State} (h : κ.Sound s) (asn : Nat) : κ.Sound (s.forgetReq asn) := by
  grind [State.forgetReq, State.freeKv_sound, State.releaseTokens_sound, State.returnBacking_sound, State.modReqs_sound,
    State.modBars_sound, State.modNet_sound, Ctx.sound_iff]

theorem State.commitRecord_sound {s : State} (h : κ.Sound s) (r : Req) : κ.Sound (s.commitRecord r) := by
  unfold State.commitRecord
  extract_lets n bytes hash reopen s1 s2 s3 e s4 s5
  have h2 : κ.Sound s2 := State.countProg_sound (State.count_sound (State.countDev_sound (State.modAud_sound h _) ..) ..) ..
  have h3 : κ.Sound s3 := by grind [State.writeAnchor_sound]
  have hf := State.forgetReq_sound h3 r.asn
  have h5 : κ.Sound s5 := State.drainHold_sound (State.modHost_sound hf (by exact hf.pages))
  split
  · exact State.countDev_sound h5 ..
  · exact h5

theorem State.anchorWritten_sound {s : State} (h : κ.Sound s) (a : Anchor) : κ.Sound (s.anchorWritten a) := by
  grind [State.anchorWritten, State.modAud_sound, State.modBoot_sound, Ctx.flash_of_sound, State.countDev_sound, Ctx.sound_iff]

theorem State.queueSwap_sound {s : State} (h : κ.Sound s) (r : Req) (cls : Nat) (b : Fin 80) (slot node : Nat) : κ.Sound
    (s.queueSwap r cls b slot node) := by
  grind [State.queueSwap, State.modStr_sound, State.modReq_sound, State.addJob_sound, Ctx.sound_iff]

theorem State.startSwapThere_sound {s : State} (h : κ.Sound s) (r : Req) (node : Nat) : κ.Sound (s.startSwapThere r node) := by
  grind [State.startSwapThere, State.queueSwap_sound]

theorem State.startSwap_sound {s : State} (h : κ.Sound s) (r : Req) : κ.Sound (s.startSwap r) := by
  grind [State.startSwap, State.swapOut_sound, State.queueSwap_sound]

theorem State.writeLease_sound {s : State} (h : κ.Sound s) (r : Req) : κ.Sound (s.writeLease r) := by
  grind [State.writeLease, State.setEntry_sound]

theorem State.fetchState_sound {s : State} (h : κ.Sound s) (r : Req) : κ.Sound (s.fetchState r) := by
  grind [State.fetchState, State.modReq_sound, State.tryContext_sound, State.startSwap_sound, State.swapOut_sound,
    State.startSwapThere_sound, Ctx.sound_iff]

theorem State.grantLease_sound {s : State} (h : κ.Sound s) (r : Req) : κ.Sound (s.grantLease r) := by
  grind [State.grantLease, State.writeLease_sound, State.modReq_sound, State.failReqAt_sound, State.tellKv_sound, State.tryContext_sound,
    State.fetchState_sound, Ctx.sound_iff]

theorem State.copySwap_sound {s : State} (h : κ.Sound s) (x : Swap) : κ.Sound (s.copySwap x) := by
  grind [State.copySwap, State.meet_sound, State.countT2_sound, State.memWrite_sound, State.each_sound, State.sendReq_sound]

theorem State.sendSwap_sound {s : State} (h : κ.Sound s) (x : Swap) : κ.Sound (s.sendSwap x) := by
  grind [State.sendSwap, State.copySwap_sound, State.modStr_sound, Option.map_eq_some_iff, Ctx.sound_iff]

theorem State.finishSwap_sound {s : State} (h : κ.Sound s) (x : Swap) : κ.Sound (s.finishSwap x) := by
  grind [State.finishSwap, State.copySwap_sound, State.setEntry_sound, State.modStr_sound, Option.map_eq_some_iff, State.modReq_sound,
    State.countDev_sound, State.tryContext_sound, Ctx.sound_iff]

theorem State.failSwap_sound {s : State} (h : κ.Sound s) (x : Swap) (detail : Nat) : κ.Sound (s.failSwap x detail) := by
  grind [State.failSwap, State.modStr_sound, State.modReq_sound, State.failWith_sound, State.openRecord_sound, Ctx.sound_iff]

theorem State.commitPhase1_sound {s : State} (h : κ.Sound s) (r : Req) (moved : List Byte) : κ.Sound (s.commitPhase1 r moved) := by
  grind [State.commitPhase1, State.memWrite_sound, State.kvPhase1_sound, State.tellKv_sound, State.modStr_sound, Ctx.sound_iff]

theorem State.finishCommit_sound {s : State} (h : κ.Sound s) (asn : Nat) : κ.Sound (s.finishCommit asn) := by
  grind [State.finishCommit, State.finish_sound]

theorem State.commitPhase2_sound {s : State} (h : κ.Sound s) (r : Req) : κ.Sound (s.commitPhase2 r) := by
  unfold State.commitPhase2
  extract_lets t id ver word s1 s2 s3 kept s4 s5 s6 s7
  have h1 : κ.Sound s1 := by grind [State.setEntry_sound]
  have h2 : κ.Sound s2 := State.setEntry_sound h1 ..
  have h3 : κ.Sound s3 := by grind [State.modStr_sound]
  have h4 : κ.Sound s4 := by grind [State.modStr_sound]
  have h5 : κ.Sound s5 := State.notePlaces_sound (State.tellKv_sound (State.kvPhase2_sound h4 ..) ..) ..
  exact State.finishCommit_sound (State.modReq_sound (State.modStr_sound h5 _) ..) ..

end Sys2Proof.Machine
end

section
/-! What the operations on thread memory, the fabric tables, the scheduler, requests and the sentinel keep. -/
namespace Sys2Proof.Machine
open Sys2Proof

-- One proof at a time: many short proofs elaborated side by side would cost the check its memory.
set_option Elab.async false

variable {κ : Ctx}

theorem State.loadHere_sound {s : State} (h : κ.Sound s) (w : Issue) (vector signed : Bool) (rt : BitVec 5) (addr : Word) (a n : Nat) :
    κ.Sound (s.loadHere w vector signed rt addr a n) := by
  grind [State.loadHere, State.modThr_sound, Ctx.KeepsThr, Thread.Shaped, Thread.loaded_shaped, Option.map_eq_some_iff,
    Thread.next_shaped, State.homeMeet_sound, State.except_sound]

theorem State.loadThere_sound {s : State} (h : κ.Sound s) (w : Issue) (vector signed : Bool) (rt : BitVec 5) (node a n : Nat) : κ.Sound
    (s.loadThere w vector signed rt node a n) := by
  grind [State.loadThere, State.drainOne_sound, State.sendReq_sound, State.modThr_sound, Ctx.KeepsThr, Thread.Shaped, Thread.next_shaped]

theorem State.issueLoad_sound {s : State} (h : κ.Sound s) (w : Issue) (legal vector signed : Bool) (rt ra : BitVec 5) (sz : BitVec 3)
    (off : BitVec 9) : κ.Sound (s.issueLoad w legal vector signed rt ra sz off) := by
  refine State.issue_sound h _ _ _ _ fun s h => State.onTarget_sound (State.countBay_sound h ..) _ _ _ fun n a _ => ?_
  rw [Ctx.soundRan_done]
  split
  · exact State.loadHere_sound (State.countBay_sound h ..) ..
  · exact State.loadThere_sound (State.countBay_sound h ..) ..

/-- The size of an access divides a line. -/
theorem sizeOf_dvd (sz : BitVec 3) : sizeOf_ sz ∣ 64 := by
  revert sz
  decide

theorem State.targetHere_at {s : State} {task : Task} {k : AccKind} {l n a : Nat} (h : s.targetHere task k l n = .here a) : a = l := by
  unfold State.targetHere at h
  grind

theorem State.targetHere_not_remote (s : State) (task : Task) (k : AccKind) (l n node a : Nat) : s.targetHere task k l n ≠ .remote node a
    := by
  unfold State.targetHere
  grind

theorem State.targetThere_at {s : State} {task : Task} {k : AccKind} {node l n m a : Nat}
    (h : s.targetThere task k node l n = .remote m a) :
    a = l := by
  unfold State.targetThere at h
  grind

theorem State.targetThere_not_here (s : State) (task : Task) (k : AccKind) (node l n a : Nat) : s.targetThere task k node l n ≠ .here a :=
    by
  unfold State.targetThere
  grind

theorem State.target_aligned {s : State} {b : Fin 80} {k : AccKind} {addr : Word} {n : Nat} {node a : Nat}
    (h : s.target b k addr n = .here a ∨ s.target b k addr n = .remote node a) : addr.toNat % n = 0 ∧ a = localAddr addr.toNat := by
  unfold State.target at h
  grind [State.targetHere_at, State.targetHere_not_remote, State.targetThere_at, State.targetThere_not_here]

theorem localAddr_fits {addr n : Nat} (hn : n ∣ 64) (h : addr % n = 0) : localAddr addr % 64 + n ≤ 64 := by
  obtain ⟨k, hk⟩ := hn
  have h1 : n ∣ localAddr addr % 64 := by
    have h56 : (n : Nat) ∣ 2 ^ 56 := Nat.dvd_trans (show n ∣ 64 from ⟨k, hk⟩) (by decide)
    exact (Nat.dvd_mod_iff ⟨k, hk⟩).mpr ((Nat.dvd_mod_iff h56).mpr (Nat.dvd_of_mod_eq_zero h))
  obtain ⟨j, hj⟩ := h1
  have hlt : n * j < n * k := by rw [← hj, ← hk]; omega
  have := Nat.mul_le_mul_left n (Nat.succ_le_of_lt (Nat.lt_of_mul_lt_mul_left hlt))
  rw [Nat.mul_succ] at this
  omega

theorem getD_mem_of_lt {α : Type} {l : List α} {i : Nat} (h : i < l.length) (d : α) : l.getD i d ∈ l := by
  rw [List.getD_eq_getElem?_getD, List.getElem?_eq_getElem h]
  exact List.getElem_mem h

theorem State.thr_shaped {s : State} (h : κ.Sound s) (hm : κ.shape) (b : Fin 80) (t : Fin 128) : (s.thr b t).Shaped := by
  obtain ⟨hb, hall⟩ := h.bays hm
  have hy := hall (s.bay b) (getD_mem_of_lt (by rw [hb]; exact b.isLt) _)
  obtain ⟨ht, -, -, hthr⟩ := hy
  exact hthr _ (getD_mem_of_lt (by rw [ht]; exact t.isLt) _)

/-- A thread takes another thread's place. -/
theorem State.modThr_const_sound {s : State} (h : κ.Sound s) (b : Fin 80) (t : Fin 128) {u : Thread} (hu : κ.shape → u.Shaped) :
    κ.Sound (s.modThr b t fun _ => u) := by
  have hbays : κ.Bays (s.bays.modify b fun y => y.modThr t fun _ => u) := fun hm =>
    Ctx.bays_modify h.bays b (fun _ hy => Bay.shaped_modThr hy t fun _ _ => hu hm) hm
  simp [State.modThr, State.modBay, h, hbays]

theorem doLd_sound (w : Issue) (rt ra : BitVec 5) (sz : BitVec 3) (off : BitVec 9) {s : State} (h : κ.Sound s) : κ.Sound
    (doLd w rt ra sz off s) := by
  grind [doLd, State.issueLoad_sound]

theorem doLds_sound (w : Issue) (rt ra : BitVec 5) (sz : BitVec 3) (off : BitVec 9) {s : State} (h : κ.Sound s) : κ.Sound
    (doLds w rt ra sz off s) := by
  grind [doLds, State.issueLoad_sound]

theorem doVld_sound (w : Issue) (rt ra : BitVec 5) (sz : BitVec 3) (off : BitVec 9) {s : State} (h : κ.Sound s) : κ.Sound
    (doVld w rt ra sz off s) := by
  grind [doVld, State.issueLoad_sound]

theorem State.issueStore_sound {s : State} (h : κ.Sound s) (w : Issue) {legal vector : Bool} (rt ra : BitVec 5) {sz : BitVec 3}
    (off : BitVec 9) (hv : legal = true → vector = true → sizeOf_ sz = 64) : κ.Sound (s.issueStore w legal vector rt ra sz off) := by
  refine State.issue_sound_of_legal h _ _ _ _ fun hl s h => State.onTarget_sound h _ _ _ fun n a hx => ?_
  obtain ⟨hmod, rfl⟩ := State.target_aligned hx
  have hfit := localAddr_fits (sizeOf_dvd sz) hmod
  have hbs : ∀ t : Thread, (if vector = true then vecBytes (t.vr rt) else bytesLE (sizeOf_ sz) (t.gr rt).toNat).length = sizeOf_ sz := by
    intro t
    cases vector
    · exact bytesLE_length ..
    · exact (bytesLE_length ..).trans (hv hl rfl).symm
  split
  · exact h
  next t1 ht1 =>
    exact State.countBay_sound (State.modThr_const_sound h _ _ fun hm =>
      Thread.next_shaped (Thread.bufStore_shaped (State.thr_shaped h hm _ _) (by rwa [hbs]) ht1)) ..

theorem doSt_sound (w : Issue) (rt ra : BitVec 5) (sz : BitVec 3) (off : BitVec 9) {s : State} (h : κ.Sound s) : κ.Sound
    (doSt w rt ra sz off s) := by
  grind [doSt, State.issueStore_sound]

theorem doVst_sound (w : Issue) (rt ra : BitVec 5) (sz : BitVec 3) (off : BitVec 9) {s : State} (h : κ.Sound s) :
    κ.Sound (doVst w rt ra sz off s) := by
  refine State.issueStore_sound h w rt ra off fun hsz _ => ?_
  rw [beq_iff_eq.mp hsz]
  rfl

theorem doStoreLineDrain_sound (bay : Fin 80) (thread : Fin 128) (line : Fin 8) {s : State} (h : κ.Sound s) :
    κ.Sound (doStoreLineDrain bay thread line s) := by
  unfold doStoreLineDrain
  split
  · exact h
  extract_lets buf
  split
  · exact State.modThr_sound (State.drainLine_sound h ..) _ _ fun _ ht =>
      Thread.shaped_of_sublist ht rfl rfl (List.eraseIdx_sublist ..) (Nat.le_refl _)
  split
  · exact State.landShared_sound h ..
  · exact h

theorem State.atomHome_sound {s : State} (h : κ.Sound s) (op : AtomOp) (n a cmp new : Nat) : κ.Sound (s.atomHome op n a cmp new).2 := by
  grind [State.atomHome, State.meet_sound, State.countHbm_sound, Ctx.sound_elim, State.countT2_sound, State.memWrite_sound]

theorem State.atomHome_sound_eq {s : State} (h : κ.Sound s) (op : AtomOp) (n a cmp new : Nat) {x : Nat} {u : State}
    (hu : s.atomHome op n a cmp new = (x, u)) : κ.Sound u := by
  simpa [hu] using State.atomHome_sound h op n a cmp new

theorem State.issueAtom_sound {s : State} (h : κ.Sound s) (w : Issue) (legal : Bool) (op : AtomOp) (rd ra : BitVec 5) (ord : BitVec 4)
    (width : BitVec 2) : κ.Sound (s.issueAtom w legal op rd ra ord width) := by
  unfold State.issueAtom
  extract_lets n
  refine State.issue_sound h _ _ _ _ fun s h => ?_
  extract_lets t addr body go
  have hgo : ∀ (s : State) (node a : Nat), κ.Sound s → κ.SoundRan (go s node a) := by
    intro s node a h
    simp only [go]
    have hc := State.countBay_sound (State.drainOne_sound h w (s.lineAddr node a)) w.bay 5 1
    split
    · split
      · exact State.modThr_sound (State.atomHome_sound hc ..) _ _ fun _ ht => Thread.atomDone_shaped ht ..
      · exact State.except_sound (State.meet_sound hc ..) ..
      · exact State.except_sound (State.meet_sound hc ..) ..
    · exact State.modThr_sound (State.sendReq_sound hc ..) _ _ fun _ ht => ht
  refine State.onTarget_sound h _ _ _ fun n a _ => ?_
  split
  · exact State.release_sound h _ _ fun s h => hgo s n a h
  · exact hgo s n a h

theorem doAtomLd_sound (w : Issue) (rd ra : BitVec 5) (ord : BitVec 4) (width : BitVec 2) {s : State} (h : κ.Sound s) : κ.Sound
    (doAtomLd w rd ra ord width s) := by
  grind [doAtomLd, State.issueAtom_sound]

theorem doAtomSt_sound (w : Issue) (rd ra : BitVec 5) (ord : BitVec 4) (width : BitVec 2) {s : State} (h : κ.Sound s) : κ.Sound
    (doAtomSt w rd ra ord width s) := by
  grind [doAtomSt, State.issueAtom_sound]

theorem doAtomSwap_sound (w : Issue) (rd ra : BitVec 5) (ord : BitVec 4) (width : BitVec 2) {s : State} (h : κ.Sound s) : κ.Sound
    (doAtomSwap w rd ra ord width s) := by
  grind [doAtomSwap, State.issueAtom_sound]

theorem doAtomCas_sound (w : Issue) (rd ra : BitVec 5) (ord : BitVec 4) (width : BitVec 2) {s : State} (h : κ.Sound s) : κ.Sound
    (doAtomCas w rd ra ord width s) := by
  grind [doAtomCas, State.issueAtom_sound]

theorem doAtomAdd_sound (w : Issue) (rd ra : BitVec 5) (ord : BitVec 4) (width : BitVec 2) {s : State} (h : κ.Sound s) : κ.Sound
    (doAtomAdd w rd ra ord width s) := by
  grind [doAtomAdd, State.issueAtom_sound]

theorem doAtomAnd_sound (w : Issue) (rd ra : BitVec 5) (ord : BitVec 4) (width : BitVec 2) {s : State} (h : κ.Sound s) : κ.Sound
    (doAtomAnd w rd ra ord width s) := by
  grind [doAtomAnd, State.issueAtom_sound]

theorem doAtomOr_sound (w : Issue) (rd ra : BitVec 5) (ord : BitVec 4) (width : BitVec 2) {s : State} (h : κ.Sound s) : κ.Sound
    (doAtomOr w rd ra ord width s) := by
  grind [doAtomOr, State.issueAtom_sound]

theorem doAtomXor_sound (w : Issue) (rd ra : BitVec 5) (ord : BitVec 4) (width : BitVec 2) {s : State} (h : κ.Sound s) : κ.Sound
    (doAtomXor w rd ra ord width s) := by
  grind [doAtomXor, State.issueAtom_sound]

theorem doAtomMin_sound (w : Issue) (rd ra : BitVec 5) (ord : BitVec 4) (width : BitVec 2) {s : State} (h : κ.Sound s) : κ.Sound
    (doAtomMin w rd ra ord width s) := by
  grind [doAtomMin, State.issueAtom_sound]

theorem doAtomMax_sound (w : Issue) (rd ra : BitVec 5) (ord : BitVec 4) (width : BitVec 2) {s : State} (h : κ.Sound s) : κ.Sound
    (doAtomMax w rd ra ord width s) := by
  grind [doAtomMax, State.issueAtom_sound]

theorem doAtomMinu_sound (w : Issue) (rd ra : BitVec 5) (ord : BitVec 4) (width : BitVec 2) {s : State} (h : κ.Sound s) : κ.Sound
    (doAtomMinu w rd ra ord width s) := by
  grind [doAtomMinu, State.issueAtom_sound]

theorem doAtomMaxu_sound (w : Issue) (rd ra : BitVec 5) (ord : BitVec 4) (width : BitVec 2) {s : State} (h : κ.Sound s) : κ.Sound
    (doAtomMaxu w rd ra ord width s) := by
  grind [doAtomMaxu, State.issueAtom_sound]

theorem State.issueFence_sound {s : State} (h : κ.Sound s) (w : Issue) (scope : Scope) (rd ra : BitVec 5) (ord : BitVec 4) :
    κ.Sound (s.issueFence w scope rd ra ord) :=
  State.issue_sound h _ _ _ _ fun _ h => State.release_sound h _ _ fun _ h =>
    State.countBay_sound (State.modThr_sound h w.bay w.thread fun _ ht => Thread.next_shaped ht) w.bay 6 1

theorem doFenceB_sound (w : Issue) (rd ra : BitVec 5) (ord : BitVec 4) {s : State} (h : κ.Sound s) : κ.Sound (doFenceB w rd ra ord s) := by
  grind [doFenceB, State.issueFence_sound]

theorem doFenceN_sound (w : Issue) (rd ra : BitVec 5) (ord : BitVec 4) {s : State} (h : κ.Sound s) : κ.Sound (doFenceN w rd ra ord s) := by
  grind [doFenceN, State.issueFence_sound]

theorem doFenceG_sound (w : Issue) (rd ra : BitVec 5) (ord : BitVec 4) {s : State} (h : κ.Sound s) : κ.Sound (doFenceG w rd ra ord s) := by
  grind [doFenceG, State.issueFence_sound]

theorem State.judgeNew_sound {s : State} (h : κ.Sound s) (subtype origin seq : Nat) {u : State}
    (hu : s.judgeNew subtype origin seq = some u) : κ.Sound u := by
  grind [State.judgeNew, State.modNet_sound, Ctx.sound_iff]

theorem State.originate_sound {s : State} (h : κ.Sound s) : κ.Sound (s.originate) := by
  grind [State.originate, State.modNet_sound, State.flood_sound]

theorem State.raiseEpoch_sound {s : State} (h : κ.Sound s) : κ.Sound (s.raiseEpoch) := by
  grind [State.raiseEpoch, Option.map_eq_some_iff, State.modNet_sound, State.flood_sound]

theorem State.checkMembers_sound {s : State} (h : κ.Sound s) : κ.Sound (s.checkMembers) := by
  grind [State.checkMembers, State.raiseEpoch_sound]

theorem State.floodCaps_sound {s : State} (h : κ.Sound s) : κ.Sound (s.floodCaps) := by
  grind [State.floodCaps, State.modNet_sound, State.flood_sound, Ctx.sound_iff]

theorem State.floodLeave_sound {s : State} (h : κ.Sound s) (reason : Nat) : κ.Sound (s.floodLeave reason) := by
  grind [State.floodLeave, State.flood_sound]

theorem State.sendDatabase_sound {s : State} (h : κ.Sound s) (port : Fin 12) : κ.Sound (s.sendDatabase port) := by
  grind [State.sendDatabase, State.each_sound, State.putMsg_sound]

theorem State.isolate_sound {s : State} (h : κ.Sound s) : κ.Sound (s.isolate) := by
  grind [State.isolate, State.error_sound, State.modNet_sound, State.checkMembers_sound, Ctx.sound_iff]

theorem State.takeId_sound {s : State} (h : κ.Sound s) (id : Nat) : κ.Sound (s.takeId id) := by
  grind [State.takeId, State.modNet_sound, State.checkMembers_sound, State.originate_sound, State.floodCaps_sound, Ctx.sound_iff]

theorem State.noteAwaited_sound {s : State} (h : κ.Sound s) : κ.Sound (s.noteAwaited) := by
  grind [State.noteAwaited, State.modNet_sound, Option.map_eq_some_iff, Ctx.sound_iff]

theorem State.assignId_sound {s : State} (h : κ.Sound s) (excluded : List Nat) : κ.Sound (s.assignId excluded) := by
  grind [State.assignId, State.takeId_sound, State.noteAwaited_sound, State.isolate_sound]

theorem State.idConflict_sound {s : State} (h : κ.Sound s) (r : Lsa) : κ.Sound (s.idConflict r) := by
  grind [State.idConflict, State.isolate_sound, State.modNet_sound, State.takeId_sound]

theorem State.adjUp_sound {s : State} (hs : κ.Sound s) (port : Fin 12) (h : Hello) : κ.Sound (s.adjUp port h) := by
  grind [State.adjUp, State.modNet_sound, State.sendDatabase_sound, State.checkMembers_sound, State.originate_sound,
    State.floodCaps_sound, Ctx.sound_iff]

theorem State.adjDown_sound {s : State} (h : κ.Sound s) (port : Fin 12) : κ.Sound (s.adjDown port) := by
  grind [State.adjDown, State.modNet_sound, State.assignId_sound, State.originate_sound, State.checkMembers_sound, Ctx.sound_iff]

theorem State.feedJoiner_sound {s : State} (h : κ.Sound s) (port : Fin 12) (nonce : BitVec 64) : κ.Sound (s.feedJoiner port nonce) := by
  grind [State.feedJoiner, State.modNet_sound, State.sendDatabase_sound, Ctx.sound_iff]

theorem State.costChanged_sound {s : State} (h : κ.Sound s) (port : Fin 12) (before : Port) : κ.Sound (s.costChanged port before) := by
  grind [State.costChanged, State.originate_sound]

theorem State.fetchInput_sound {s : State} (h : κ.Sound s) (r : Req) (p : Program) : κ.Sound (s.fetchInput r p) := by
  grind [State.fetchInput, State.modReq_sound, State.modNet_sound, State.copyRing_sound, State.addJob_sound, State.tryContext_sound,
    Ctx.sound_iff]

theorem State.replayStage_sound {s : State} (h : κ.Sound s) (asn k : Nat) (deep : Bool) : κ.Sound (s.replayStage asn k deep) := by
  unfold State.replayStage
  grind [State.each_sound, State.modNet_sound, State.deliverPush_sound, State.sendPush_sound, State.fetchInput_sound, Ctx.sound_iff]

theorem State.voidLease_sound {s : State} (h : κ.Sound s) (r : Req) : κ.Sound (s.voidLease r) := by
  grind [State.voidLease, State.clearRes_sound, State.freeLease_sound, State.modReq_sound, Ctx.sound_iff]

theorem State.leaseAgain_sound {s : State} (h : κ.Sound s) (r : Req) : κ.Sound (s.leaseAgain r) := by
  grind [State.leaseAgain, State.writeLease_sound, State.fetchState_sound]

theorem State.tellFormation_sound {s : State} (h : κ.Sound s) (asn node : Nat) : κ.Sound (s.tellFormation asn node) := by
  grind [State.tellFormation, State.each_sound, State.sendMsgTo_sound]

theorem State.resendMoved_sound {s : State} (h : κ.Sound s) (home asn : Nat) : κ.Sound (s.resendMoved home asn) := by
  grind [State.resendMoved, State.each_sound, State.modNet_sound, State.deliverPush_sound, State.sendPush_sound, Ctx.sound_iff]

theorem State.replayGranted_sound {s : State} (h : κ.Sound s) (asn node : Nat) : κ.Sound (s.replayGranted asn node) := by
  unfold State.replayGranted
  split
  · exact h
  next r _ =>
  split
  · exact h
  extract_lets cell mine s1 waits ks deep s2
  have h1 : κ.Sound s1 := by
    simp only [s1]
    split
    · exact State.leaseAgain_sound h _
    · exact h
  exact State.each_sound (State.tellFormation_sound (State.modReq_sound h1 ..) ..) (fun _ _ h => State.replayStage_sound h ..) _

theorem State.resumeReplay_sound {s : State} (h : κ.Sound s) (asn : Nat) : κ.Sound (s.resumeReplay asn) := by
  grind [State.resumeReplay, State.replayGranted_sound]

theorem State.askReplay_sound {s : State} (h : κ.Sound s) (asn node : Nat) : κ.Sound (s.askReplay asn node) := by
  unfold State.askReplay
  dsimp only
  repeat' split
  all_goals grind [Option.map_eq_some_iff, State.grantToken_sound, State.failReq_sound, State.modReq_sound, State.replayGranted_sound,
    State.sendMsgTo_sound, Ctx.sound_iff]

theorem State.rePlace_sound {s : State} (h : κ.Sound s) (asn : Nat) (good : Nat → Bool) : κ.Sound (s.rePlace asn good) := by
  unfold State.rePlace
  split
  · exact h
  next r _ =>
  split
  next m p _ _ =>
    extract_lets old ks
    split
    · exact h
    split
    · exact State.failReqAt_sound h ..
    split
    · exact State.failReq_sound h ..
    extract_lets gone s1 s2 s3 s4 s5 asks
    have h1 : κ.Sound s1 := State.each_sound h (fun _ _ h => State.sendMsgTo_sound h ..) _
    have h2 : κ.Sound s2 := by grind [State.voidLease_sound]
    have h3 : κ.Sound s3 := State.modReq_sound h2 ..
    have h4 : κ.Sound s4 := by
      simp only [s4]
      split
      · exact State.modHub_sound h3 _
      · exact h3
    exact State.each_sound (State.modReqs_sound h4 _) (fun _ _ h => State.askReplay_sound h ..) _
  · exact h

theorem State.abandonLost_sound {s : State} (h : κ.Sound s) (gone : List Nat) : κ.Sound (s.abandonLost gone) := by
  grind [State.abandonLost, State.each_sound, State.abandonLeft_sound, State.modBars_sound, Option.map_eq_some_iff, Ctx.sound_iff]

theorem State.settleNow_sound {s : State} (h : κ.Sound s) : κ.Sound s.settleNow := by
  unfold State.settleNow
  extract_lets now gone s1 s2 homes s3 s4 admitted s5 stuck s6 waiting s7
  have h2 : κ.Sound s2 := State.abandonLost_sound (State.countDev_sound (State.modNet_sound h _) ..) _
  have h3 : κ.Sound s3 := State.each_sound h2 (fun _ _ h => State.dropHome_sound h ..) _
  have h4 : κ.Sound s4 := State.modNet_sound h3 _
  have h5 : κ.Sound s5 := State.each_sound h4 (fun _ _ h => State.finishCommit_sound (State.rePlace_sound h ..) _) _
  have h6 : κ.Sound s6 :=
    State.each_sound h5 (fun _ _ h => State.admitFrom11_sound (State.returnBacking_sound (State.releaseTokens_sound h _) _) _) _
  have h7 : κ.Sound s7 := State.each_sound h6 (fun _ _ h => State.admitFrom11_sound (State.modReq_sound h ..) _) _
  exact State.modNet_sound h7 _

theorem State.checkWeights_sound {s : State} (h : κ.Sound s) : κ.Sound (s.checkWeights) := by
  grind [State.checkWeights, State.modBoot_sound, Ctx.flash_of_sound, State.floodCaps_sound, Ctx.sound_iff]

theorem State.setWeight_sound {s : State} (h : κ.Sound s) (i : Nat) (w : WeightState) : κ.Sound (s.setWeight i w) := by
  grind [State.setWeight, State.modBoot_sound, Ctx.flash_of_sound, Ctx.sound_iff]

theorem State.weightFailed_sound {s : State} (h : κ.Sound s) (i : Nat) : κ.Sound (s.weightFailed i) := by
  grind [State.weightFailed, State.setWeight_sound, State.error_sound, State.checkWeights_sound]

theorem State.peerFailed_sound {s : State} (h : κ.Sound s) (i : Nat) : κ.Sound (s.peerFailed i) := by
  grind [State.peerFailed, State.setWeight_sound, State.weightFailed_sound]

theorem State.askPeer_sound {s : State} (h : κ.Sound s) (i after : Nat) : κ.Sound (s.askPeer i after) := by
  grind [State.askPeer, State.sendMsgTo_sound, State.peerFailed_sound]

theorem State.startWeight_sound {s : State} (h : κ.Sound s) (i : Nat) : κ.Sound (s.startWeight i) := by
  grind [State.startWeight, State.setWeight_sound, State.weightFailed_sound, State.askPeer_sound]

theorem State.setRunState_sound {s : State} (h : κ.Sound s) : κ.Sound (s.setRunState) := by
  grind [State.setRunState, State.modClk_sound, Ctx.tiles_of_sound, Ctx.has_modify, Ctx.has_set, Ctx.has_map, Ctx.sound_iff]

theorem State.leaveP2_sound {s : State} (h : κ.Sound s) : κ.Sound (s.leaveP2) := by
  grind [State.leaveP2, State.modClk_sound, Ctx.tiles_of_sound, Ctx.has_modify, Ctx.has_set, Ctx.has_map, Option.map_eq_some_iff,
    Ctx.sound_iff]

theorem State.debit_sound {s : State} (h : κ.Sound s) (cls p : Nat) : κ.Sound (s.debit cls p) := by
  grind [State.debit, State.modStew_sound, Ctx.tokens_of_sound, Ctx.tokensOut_of_sound, Ctx.tokenWait_of_sound, Ctx.gain_of_sound,
    Ctx.hbmStep_of_sound, Ctx.has_modify, Ctx.has_set, Ctx.has_map, Ctx.sound_iff]

theorem State.dispatchOne_sound {s u : State} (h : κ.Sound s) {r : Bool} (hu : s.dispatchOne = (some u, r)) : κ.Sound u := by
  unfold State.dispatchOne at hu
  extract_lets l at hu
  split at hu
  · cases hu
    exact State.debit_sound (State.startWu_sound h ..) ..
  split at hu
  next c q p d _ =>
    extract_lets x s1 at hu
    have h1 : κ.Sound s1 := State.countProg_sound (State.debit_sound (State.startWu_sound h ..) ..) ..
    cases hu
    split
    · exact h1
    · exact State.modStew_sound h1 h1.tokens h1.tokensOut h1.tokenWait h1.gain h1.hbmStep
  · cases hu

theorem State.noteRefusal_sound {s : State} (h : κ.Sound s) (r : Bool) : κ.Sound (s.noteRefusal r) := by
  grind [State.noteRefusal, State.modStew_sound, Ctx.tokens_of_sound, Ctx.tokensOut_of_sound, Ctx.tokenWait_of_sound, Ctx.gain_of_sound,
    Ctx.hbmStep_of_sound, Ctx.has_modify, Ctx.has_set, Ctx.has_map, State.countDev_sound, Ctx.sound_iff]

theorem State.dispatchLoop_sound {s : State} (h : κ.Sound s) (fuel : Nat) : κ.Sound (State.dispatchLoop fuel s) := by
  induction fuel generalizing s with
  | zero => exact h
  | succ fuel ih =>
    unfold State.dispatchLoop
    split
    next s1 r hs1 => exact ih (State.noteRefusal_sound (State.dispatchOne_sound h hs1) _)
    · exact State.noteRefusal_sound h _

theorem State.noteIdle_sound {s : State} (h : κ.Sound s) : κ.Sound (s.noteIdle) := by
  grind [State.noteIdle, State.modClk_sound, Ctx.tiles_of_sound, Ctx.has_modify, Ctx.has_set, Ctx.has_map, Ctx.sound_iff]

theorem State.dispatch_sound {s : State} (h : κ.Sound s) : κ.Sound s.dispatch := by
  unfold State.dispatch
  split
  · exact h
  · refine State.noteIdle_sound (State.dispatchLoop_sound ?_ _)
    split
    · exact h
    · exact State.leaveP2_sound h

theorem State.dispatchHuge_sound {s : State} (h : κ.Sound s) : κ.Sound (s.dispatchHuge) := by
  unfold State.dispatchHuge
  dsimp only
  repeat' split
  all_goals grind [State.startWu_sound, State.debit_sound, State.modStew_sound, Ctx.tokens_of_sound, Ctx.tokensOut_of_sound,
    Ctx.tokenWait_of_sound, Ctx.gain_of_sound, Ctx.hbmStep_of_sound, Ctx.has_modify, Ctx.has_set, Ctx.has_map, State.countDev_sound,
    Ctx.sound_iff]

theorem State.refuseTail_sound {s : State} (h : κ.Sound s) (f : Fin 16) : κ.Sound (s.refuseTail f) := by
  grind [State.refuseTail, State.modPage_sound, State.countFn_sound, State.raise_sound, Ctx.sound_iff]

theorem State.writeTail_sound {s : State} (h : κ.Sound s) (f : Fin 16) (value : BitVec 32) : κ.Sound (s.writeTail f value) := by
  grind [State.writeTail, State.refuseTail_sound, State.modPage_sound, Ctx.sound_iff]

theorem State.holdTlp_sound {s : State} (hs : κ.Sound s) (h : Held) : κ.Sound (s.holdTlp h) := by
  grind [State.holdTlp, State.latchWake_sound, State.modClk_sound, Ctx.tiles_of_sound, Ctx.has_modify, Ctx.has_set, Ctx.has_map,
    Ctx.sound_iff]

theorem State.hostWrite_sound {s : State} (h : κ.Sound s) (x : HeldTlp) {go : State → State} (hgo : ∀ s, κ.Sound s → κ.Sound (go s)) :
    κ.Sound (s.hostWrite x go) := by
  unfold State.hostWrite
  split
  · exact h
  split
  · exact State.holdTlp_sound h ..
  · exact hgo s h

theorem doReqTail_sound (f : Fin 16) (value : BitVec 32) {s : State} (h : κ.Sound s) : κ.Sound (doReqTail f value s) := by
  grind [doReqTail, State.hostWrite_sound, State.writeTail_sound]

theorem State.tryWake_sound {s : State} (h : κ.Sound s) : κ.Sound (s.tryWake) := by
  grind [State.tryWake, Option.map_eq_some_iff, State.modReqs_sound, State.submit_sound, Ctx.sound_iff]

theorem doDescriptorFetch_sound (desc : List Byte) {s : State} (h : κ.Sound s) : κ.Sound (doDescriptorFetch desc s) := by
  grind [doDescriptorFetch, State.modStew_sound, Ctx.tokens_of_sound, Ctx.tokensOut_of_sound, Ctx.tokenWait_of_sound, Ctx.gain_of_sound,
    Ctx.hbmStep_of_sound, Ctx.has_modify, Ctx.has_set, Ctx.has_map, State.modPage_sound, State.countFn_sound, State.countDev_sound,
    State.submit_sound, Ctx.sound_iff]

theorem State.missDeadline_sound {s : State} (h : κ.Sound s) (r : Req) : κ.Sound (s.missDeadline r) := by
  grind [State.missDeadline, State.modStr_sound, State.modHub_sound, State.modReq_sound, State.settleReq_sound, Ctx.sound_iff]

theorem doDeadlinePassed_sound (asn : BitVec 64) (at_ : Nat) {s : State} (h : κ.Sound s) : κ.Sound (doDeadlinePassed asn at_ s) := by
  grind [doDeadlinePassed, State.advance_sound, State.missDeadline_sound]

theorem doDispatchOpportunity_sound {s : State} (h : κ.Sound s) : κ.Sound (doDispatchOpportunity s) := by
  grind [doDispatchOpportunity, State.dispatch_sound]

theorem State.endTask_sound {s : State} (h : κ.Sound s) (b : Fin 80) (t : Task) (w : RunWu) (energy : Nat) : κ.Sound
    (s.endTask b t w energy) := by
  grind [State.endTask, State.freeBay_sound, State.modRun_sound, State.completeWu_sound, Ctx.sound_iff]

theorem doBayTaskEnd_sound (bay : Fin 80) (at_ energy : Nat) {s : State} (h : κ.Sound s) : κ.Sound (doBayTaskEnd bay at_ energy s) := by
  grind [doBayTaskEnd, State.advance_sound, State.endTask_sound, State.noteIdle_sound]

theorem doHubMoverJob_sound {s : State} (h : κ.Sound s) : κ.Sound (doHubMoverJob s) := by
  grind [doHubMoverJob, State.modHub_sound, Option.map_eq_some_iff, Ctx.sound_iff]

theorem State.hubRead_sound {s : State} (h : κ.Sound s) (a n : Nat) : κ.Sound (s.hubRead a n).2 := by
  grind [State.hubRead, State.meetTagged_sound, State.modMem_sound, Ctx.cells_of_sound, Ctx.sound_iff]

theorem State.hubRead_sound_eq {s : State} (h : κ.Sound s) (a n : Nat) {x : Except (Nat × Nat) (List Byte)} {u : State}
    (hu : s.hubRead a n = (x, u)) : κ.Sound u := by
  simpa [hu] using State.hubRead_sound h a n

theorem State.stepOutput_sound {s : State} (h : κ.Sound s) (r : Req) (step : Nat) (moved : List Byte) : κ.Sound
    (s.stepOutput r step moved).2 := by
  grind [State.stepOutput, State.hubRead_sound, State.hubRead_sound_eq]

theorem State.stepOutput_sound_eq {s : State} (h : κ.Sound s) (r : Req) (step : Nat) (moved : List Byte)
    {x : Except (Nat × Nat) (List Byte)} {u : State}
    (hu : s.stepOutput r step moved = (x, u)) : κ.Sound u := by
  simpa [hu] using State.stepOutput_sound h r step moved

theorem State.hostFault_sound {s : State} (h : κ.Sound s) (r : Req) (status detail : Nat) : κ.Sound (s.hostFault r status detail) := by
  grind [State.hostFault, State.emit_sound, Port.emit_vcq, Ctx.KeepsPort, State.failReq_sound]

theorem State.jobOff_sound {s : State} (h : κ.Sound s) (asn : Nat) : κ.Sound (s.jobOff asn) := by
  grind [State.jobOff, State.modReq_sound, Ctx.sound_iff]

theorem State.outputDone_sound {s : State} (h : κ.Sound s) (r : Req) (step : Nat) (result : JobResult) (moved : List Byte) : κ.Sound
    (s.outputDone r step result moved) := by
  unfold State.outputDone
  dsimp only
  repeat' split
  all_goals grind [State.jobOff_sound, State.settleReq_sound, State.hostFault_sound, State.failReq_sound, State.stepOutput_sound,
    State.stepOutput_sound_eq, State.error_sound, State.emit_sound, Port.emit_vcq, Ctx.KeepsPort, State.countFn_sound,
    State.countDev_sound, State.modReq_sound, Ctx.sound_iff]

theorem State.inputDone_sound {s : State} (h : κ.Sound s) (r : Req) (result : JobResult) (data : List Byte) : κ.Sound
    (s.inputDone r result data) := by
  unfold State.inputDone
  grind [State.jobOff_sound, State.settleReq_sound, State.hostFault_sound, State.failReq_sound, State.stageInput_sound,
    State.countFn_sound, State.countDev_sound, State.modReq_sound, State.tryContext_sound, Ctx.sound_iff]

theorem State.commitDone_sound {s : State} (h : κ.Sound s) (r : Req) (result : JobResult) (moved : List Byte) : κ.Sound
    (s.commitDone r result moved) := by
  grind [State.commitDone, State.jobOff_sound, State.settleReq_sound, State.failReq_sound, State.commitPhase1_sound]

theorem State.jobDone_sound {s : State} (h : κ.Sound s) (k : JobKind) (result : JobResult) (data : List Byte) : κ.Sound
    (s.jobDone k result data) := by
  unfold State.jobDone
  grind [Ctx.sound_elim, State.outputDone_sound, State.inputDone_sound, State.commitDone_sound, State.failSwap_sound, State.park_sound,
    State.parkTail_sound, State.hubRead_sound, State.hubRead_sound_eq, State.writeTagged_sound, State.error_sound]

theorem doHubMoverJobDone_sound (job : Nat) (result : JobResult) (data : List Byte) {s : State} (h : κ.Sound s) : κ.Sound
    (doHubMoverJobDone job result data s) := by
  grind [doHubMoverJobDone, State.modHub_sound, State.jobDone_sound, Ctx.sound_iff]

theorem doStreamCommitPhase2_sound (asn : BitVec 64) {s : State} (h : κ.Sound s) : κ.Sound (doStreamCommitPhase2 asn s) := by
  grind [doStreamCommitPhase2, State.commitPhase2_sound]

theorem doStreamLeaseGrant_sound (asn : BitVec 64) {s : State} (h : κ.Sound s) : κ.Sound (doStreamLeaseGrant asn s) := by
  grind [doStreamLeaseGrant, State.grantLease_sound]

theorem doStreamSwapInDone_sound (asn : BitVec 64) (poisoned : Bool) {s : State} (h : κ.Sound s) : κ.Sound
    (doStreamSwapInDone asn poisoned s) := by
  grind [doStreamSwapInDone, State.modHub_sound, State.finishSwap_sound, State.resumeReplay_sound, State.failSwap_sound,
    State.sendSwap_sound, Ctx.sound_iff]

theorem State.tryDrain_sound {s : State} (h : κ.Sound s) : κ.Sound (s.tryDrain) := by
  grind [State.tryDrain, State.drainHold_sound, State.each_sound, State.countFn_sound]

theorem doAuditRecordCommit_sound {s : State} (h : κ.Sound s) : κ.Sound (doAuditRecordCommit s) := by
  grind [doAuditRecordCommit, State.modReqs_sound, State.commitRecord_sound, Ctx.sound_iff]

theorem doAnchorRetry_sound (at_ : Nat) {s : State} (h : κ.Sound s) : κ.Sound (doAnchorRetry at_ s) := by
  grind [doAnchorRetry, State.advance_sound, State.modAud_sound, State.modBoot_sound, Ctx.flash_of_sound, Boot.queueAnchor_flash,
    Ctx.sound_iff]

theorem doAuditRecordDelivery_sound {s : State} (h : κ.Sound s) : κ.Sound (doAuditRecordDelivery s) := by
  grind [doAuditRecordDelivery, State.deliverRecord_sound]

theorem doHoldQueueDrain_sound {s : State} (h : κ.Sound s) : κ.Sound (doHoldQueueDrain s) := by
  grind [doHoldQueueDrain, State.tryDrain_sound]

theorem State.chain_sound {s : State} (h : κ.Sound s) (cfg : SentCfg) (pdm : List Byte) : κ.Sound (s.chain cfg pdm).1 := by
  grind [State.chain, Option.map_eq_some_iff, State.modSent_sound, Ctx.sound_iff]

theorem State.chain_sound_eq {s : State} (h : κ.Sound s) (cfg : SentCfg) (pdm : List Byte) {x : List (List Int) × List (List Int)}
    {u : State}
    (hu : s.chain cfg pdm = (u, x)) : κ.Sound u := by
  simpa [hu] using State.chain_sound h cfg pdm

theorem State.glassFrame_sound {s : State} (h : κ.Sound s) (cfg : SentCfg) (n : Nat) (flex shatter : List Int) : κ.Sound
    (s.glassFrame cfg n flex shatter).1 := by
  grind [State.glassFrame, Option.map_eq_some_iff, State.modSent_sound, Ctx.sound_iff]

theorem State.glassFrame_sound_eq {s : State} (h : κ.Sound s) (cfg : SentCfg) (n : Nat) (flex shatter : List Int) {x : Option Detection}
    {u : State}
    (hu : s.glassFrame cfg n flex shatter = (u, x)) : κ.Sound u := by
  simpa [hu] using State.glassFrame_sound h cfg n flex shatter

theorem State.toneFrame_sound {s : State} (h : κ.Sound s) (cfg : SentCfg) (energy : List (List Int)) : κ.Sound (s.toneFrame cfg energy).1
    := by
  grind [State.toneFrame, Option.map_eq_some_iff, State.modSent_sound, Ctx.sound_iff]

theorem State.toneFrame_sound_eq {s : State} (h : κ.Sound s) (cfg : SentCfg) (energy : List (List Int)) {x : List Detection} {u : State}
    (hu : s.toneFrame cfg energy = (u, x)) : κ.Sound u := by
  simpa [hu] using State.toneFrame_sound h cfg energy

theorem State.sentRecord_sound {s : State} (h : κ.Sound s) (kind tone : Nat) (beams : BitVec 4) (woke inWindow : Bool) (margin : Nat) :
    κ.Sound (s.sentRecord kind tone beams woke inWindow margin) := by
  grind [State.sentRecord, State.modSent_sound, Ctx.sound_iff]

theorem State.pulseWake_sound {s : State} (h : κ.Sound s) (cfg : SentCfg) : κ.Sound (s.pulseWake cfg) := by
  grind [State.pulseWake, State.modPins_sound, State.modSent_sound, Ctx.sound_iff]

theorem State.wakeVector_sound {s : State} (h : κ.Sound s) : κ.Sound (s.wakeVector) := by
  grind [State.wakeVector, State.raise_sound, State.modHost_sound, Ctx.pages_of_sound, Ctx.has_modify, Ctx.has_set, Ctx.has_map,
    Ctx.sound_iff]

theorem State.sentWake_sound {s : State} (h : κ.Sound s) (cfg : SentCfg) : κ.Sound (s.sentWake cfg) := by
  grind [State.sentWake, State.pulseWake_sound, State.latchWake_sound, State.modClk_sound, Ctx.tiles_of_sound, Ctx.has_modify,
    Ctx.has_set, Ctx.has_map, State.modSent_sound, State.wakeVector_sound, Ctx.sound_iff]

theorem State.report_sound {s : State} (h : κ.Sound s) (cfg : SentCfg) (ds : List Detection) : κ.Sound (s.report cfg ds) := by
  unfold State.report
  grind [State.sentRecord_sound, State.foldl_sound, State.countDev_sound, State.pulseWake_sound, State.sentWake_sound]

theorem State.frameEnd_sound {s : State} (h : κ.Sound s) (cfg : SentCfg) (pdm : List Byte) : κ.Sound (s.frameEnd cfg pdm) := by
  grind [State.frameEnd, State.chain_sound, State.chain_sound_eq, Option.map_eq_some_iff, State.modSent_sound, State.glassFrame_sound,
    State.glassFrame_sound_eq, State.toneFrame_sound, State.toneFrame_sound_eq, State.report_sound, Ctx.sound_iff]

theorem doSentinelFrameEnd_sound (at_ : Nat) (pdm : List Byte) {s : State} (h : κ.Sound s) : κ.Sound (doSentinelFrameEnd at_ pdm s) := by
  grind [doSentinelFrameEnd, State.advance_sound, State.frameEnd_sound]

theorem doWakePulseEnd_sound (at_ : Nat) {s : State} (h : κ.Sound s) : κ.Sound (doWakePulseEnd at_ s) := by
  grind [doWakePulseEnd, State.advance_sound, State.modPins_sound, State.modSent_sound, Ctx.sound_iff]

theorem State.freeze_sound {s : State} (h : κ.Sound s) (cfg : SentCfg) : κ.Sound (s.freeze cfg) := by
  grind [State.freeze, State.modSent_sound, State.modReqs_sound, State.tryWake_sound, Ctx.sound_iff]

theorem doPrerollFreeze_sound (at_ : Nat) {s : State} (h : κ.Sound s) : κ.Sound (doPrerollFreeze at_ s) := by
  grind [doPrerollFreeze, State.advance_sound, State.freeze_sound]

theorem doWakeWindowClose_sound (at_ : Nat) {s : State} (h : κ.Sound s) : κ.Sound (doWakeWindowClose at_ s) := by
  grind [doWakeWindowClose, State.advance_sound, State.modSent_sound]

theorem State.muteReq_sound {s : State} (h : κ.Sound s) (r : Req) : κ.Sound (s.muteReq r) := by
  grind [State.muteReq, State.stageInput_sound, State.failReqAt_sound]

theorem doMute_sound {s : State} (h : κ.Sound s) : κ.Sound (doMute s) := by
  grind [doMute, State.modPins_sound, State.modSent_sound, State.each_sound, State.muteReq_sound, State.modReqs_sound,
    State.tryWake_sound, Ctx.sound_iff]

theorem doMuteEraseDone_sound {s : State} (h : κ.Sound s) : κ.Sound (doMuteEraseDone s) := by
  grind [doMuteEraseDone, State.modSent_sound, State.sentRecord_sound, Ctx.sound_iff]

theorem doUnmute_sound (at_ : Nat) {s : State} (h : κ.Sound s) : κ.Sound (doUnmute at_ s) := by
  grind [doUnmute, State.advance_sound, State.modPins_sound, State.modSent_sound, Ctx.sound_iff]

theorem doPdmClkStart_sound (at_ : Nat) {s : State} (h : κ.Sound s) : κ.Sound (doPdmClkStart at_ s) := by
  grind [doPdmClkStart, State.advance_sound, State.modPins_sound, State.modSent_sound, Ctx.sound_elim, State.sentRecord_sound,
    Ctx.sound_iff]

theorem State.checkChan_sound {s : State} (h : κ.Sound s) (cfg : SentCfg) (c : Nat) (m : ChanMeasure) : κ.Sound (s.checkChan cfg c m) := by
  grind [State.checkChan, State.modSent_sound, State.error_sound, Ctx.sound_iff]

theorem doMicSelfCheck_sound (at_ : Nat) (chans : List ChanMeasure) {s : State} (h : κ.Sound s) : κ.Sound (doMicSelfCheck at_ chans s) := by
  grind [doMicSelfCheck, State.advance_sound, State.foldl_sound, State.checkChan_sound]

end Sys2Proof.Machine
end

section
/-! What the operations on fences, the plumb test, ports, the mailbox, counters, the host and the Steward keep. -/
namespace Sys2Proof.Machine
open Sys2Proof

-- One proof at a time: many short proofs elaborated side by side would cost the check its memory.
set_option Elab.async false

variable {κ : Ctx}

theorem State.replayLocal_sound {s : State} (h : κ.Sound s) (home asn k : Nat) : κ.Sound (s.replayLocal home asn k) := by
  grind [State.replayLocal, State.each_sound, State.abandonWu_sound, State.freeKv_sound, State.modReqs_sound, Ctx.sound_iff]

theorem State.endNoSlots_sound {s : State} (h : κ.Sound s) (b : Fin 80) (home asn : Nat) : κ.Sound (s.endNoSlots b home asn) := by
  grind [State.endNoSlots, State.failReqAt_sound, State.error_sound, State.dropHome_sound, State.sendMsgTo_sound]

theorem State.moveSlots_sound {s : State} (h : κ.Sound s) (b : Fin 80) (x : Nat × Nat × Nat × Nat) : κ.Sound (s.moveSlots b x) := by
  unfold State.moveSlots
  split
  next home asn cls n =>
  split
  · exact State.endNoSlots_sound h ..
  next u hu =>
    have hslots := State.reserveSlots_sound h _ _ _ _ hu
    extract_lets s1 swap s2
    have h1 : κ.Sound s1 := by
      simp only [s1]
      split
      · exact State.modReq_sound hslots ..
      · exact hslots
    clear_value s1
    have h2 : κ.Sound s2 := by
      simp only [s2]
      split
      · exact State.startSwap_sound (State.modHub_sound (State.modStr_sound h1 _) _) _
      · exact h1
    clear_value s2
    split
    · exact State.replayLocal_sound h2 ..
    · exact h2

theorem State.rereadStream_sound {s : State} (h : κ.Sound s) (b : Fin 80) (r : Req) : κ.Sound (s.rereadStream b r) := by
  unfold State.rereadStream
  split
  · extract_lets s1
    have h1 : κ.Sound s1 := State.startSwap_sound (State.modReq_sound h ..) _
    clear_value s1
    split
    · exact State.replayLocal_sound h1 ..
    · exact h1
  · exact h

theorem State.capsAfterFence_sound {s : State} (h : κ.Sound s) (before : List Nat) : κ.Sound (s.capsAfterFence before) := by
  grind [State.capsAfterFence, State.floodCaps_sound, State.each_sound, State.rePlace_sound]

theorem State.abandonHit_sound {s : State} (h : κ.Sound s) (b : Fin 80) : κ.Sound (s.abandonHit b) := by
  grind [State.abandonHit, State.abandonWu_sound, State.countProg_sound]

theorem State.dropBay_sound {s : State} (h : κ.Sound s) (b : Fin 80) : κ.Sound (s.dropBay b) := by
  grind [State.dropBay, State.each_sound, State.rollback_sound, State.clearRes_sound, State.modStr_sound, Ctx.sound_iff]

theorem State.moveAll_sound {s : State} (h : κ.Sound s) (b : Fin 80) (lost : List (Nat × Nat × Nat × Nat)) (readers : List Req)
    (held : List KvRec) : κ.Sound (s.moveAll b lost readers held) := by
  grind [State.moveAll, State.each_sound, State.moveSlots_sound, State.rereadStream_sound, State.replayLocal_sound]

theorem State.fenceEffects_sound {s : State} (h : κ.Sound s) (b : Fin 80) : κ.Sound (s.fenceEffects b) := by
  unfold State.fenceEffects
  grind [State.abandonHit_sound, State.faultRamp_sound, Bay.faultRamp_shaped, State.modBay_sound, Ctx.KeepsBay, Bay.Shaped,
    Option.map_eq_some_iff, State.dropBay_sound, State.moveAll_sound, State.capsAfterFence_sound, State.fatal_sound, Ctx.sound_iff]

theorem State.fenceBay_sound {s : State} (h : κ.Sound s) (b : Fin 80) (code : Nat) (info : List Byte) : κ.Sound (s.fenceBay b code info)
    := by
  grind [State.fenceBay, State.error_sound, State.fenceEffects_sound]

theorem State.bayFault_sound {s : State} (h : κ.Sound s) (b : Fin 80) : κ.Sound (s.bayFault b) := by
  grind [State.bayFault, State.fenceBay_sound]

theorem State.modPlumbTile_sound {s : State} (h : κ.Sound s) (t : Fin 4) (f : PlumbTile → PlumbTile) : κ.Sound (s.modPlumbTile t f) := by
  grind [State.modPlumbTile, State.modPlumb_sound, Ctx.plumb_of_sound, Ctx.has_modify, Ctx.has_set, Ctx.has_map, Ctx.sound_iff]

theorem State.holdRound_sound {s : State} (h : κ.Sound s) (t : Fin 4) (r : Nat) : κ.Sound (s.holdRound t r) := by
  grind [State.holdRound, State.modBay_sound, Ctx.KeepsBay, Bay.Shaped, State.modPlumbTile_sound, State.advance_sound, Ctx.sound_iff]

theorem State.scanSpares_sound {s : State} (h : κ.Sound s) : κ.Sound (s.scanSpares) := by
  grind [State.scanSpares, State.each_sound, State.error_sound, State.modPort_sound, Ctx.KeepsPort, Ctx.sound_iff]

theorem State.startRun_sound {s : State} (h : κ.Sound s) : κ.Sound (s.startRun) := by
  grind [State.startRun, State.modPlumb_sound, Ctx.plumb_of_sound, Ctx.has_modify, Ctx.has_set, Ctx.has_map, State.each_sound,
    State.holdRound_sound, State.countDev_sound, Ctx.sound_iff]

theorem State.triggerRun_sound {s : State} (h : κ.Sound s) : κ.Sound (s.triggerRun) := by
  grind [State.triggerRun, State.modPlumb_sound, Ctx.plumb_of_sound, Ctx.has_modify, Ctx.has_set, Ctx.has_map, State.startRun_sound,
    Ctx.sound_iff]

theorem State.endRun_sound {s : State} (h : κ.Sound s) : κ.Sound (s.endRun) := by
  grind [State.endRun, State.modPlumb_sound, State.scanSpares_sound, Ctx.plumb_of_sound, Ctx.has_modify, Ctx.has_set, Ctx.has_map,
    State.startRun_sound, Ctx.sound_iff]

theorem State.endRound_sound {s : State} (h : κ.Sound s) (t : Fin 4) : κ.Sound (s.endRound t) := by
  grind [State.endRound, State.modBay_sound, Ctx.KeepsBay, Bay.Shaped, State.holdRound_sound, State.endRun_sound, Ctx.sound_iff]

theorem State.abandonRun_sound {s : State} (h : κ.Sound s) : κ.Sound (s.abandonRun) := by
  grind [State.abandonRun, State.each_sound, State.modBay_sound, Ctx.KeepsBay, Bay.Shaped, State.modPlumb_sound, Ctx.plumb_of_sound,
    Ctx.has_modify, Ctx.has_set, Ctx.has_map, Option.map_eq_some_iff, State.advance_sound, Ctx.sound_iff]

theorem State.marchZero_sound {s : State} (h : κ.Sound s) (b : Fin 80) : κ.Sound (s.marchZero b) :=
  State.modBay_sound (State.modMem_sound h (by exact Ctx.canon_clear h.cells _ _)) _ fun _ hy => hy

theorem State.port_vcq {s : State} (h : κ.Sound s) (hm : κ.shape) (n : Fin 12) : (s.port n).vcq.length = 4 := by
  obtain ⟨hp, hall⟩ := h.ports hm
  exact hall _ (getD_mem_of_lt (by rw [hp]; exact n.isLt) _)

/-- A port takes another port's place. -/
theorem State.modPort_const_sound {s : State} (h : κ.Sound s) (n : Fin 12) {p : Port} (hp : κ.shape → p.vcq.length = 4) :
    κ.Sound (s.modPort n fun _ => p) := by
  have hports : κ.Ports (s.truss.modify n fun _ => p) := fun hm => Ctx.ports_modify h.ports n (fun _ _ => hp hm) hm
  simp [State.modPort, h, hports]

theorem State.fenceEngine_sound {s : State} (h : κ.Sound s) (e : Nat) : κ.Sound (s.fenceEngine e) := by
  grind [State.fenceEngine, State.error_sound, State.modMem_sound, Ctx.cells_of_sound, State.fatal_sound, Ctx.sound_iff]

theorem State.checkEngines_sound {s : State} (h : κ.Sound s) (r : Nat) (fails : BitVec 32) : κ.Sound (s.checkEngines r fails) := by
  grind [State.checkEngines, State.each_sound, State.fenceEngine_sound]

theorem State.stepEnd_sound {s : State} (h : κ.Sound s) (t : Fin 4) (b : Fin 80) (passed : Bool) (group : Nat) : κ.Sound
    (s.stepEnd t b passed group) := by
  grind [State.stepEnd, State.error_sound, State.marchZero_sound, State.modPlumb_sound, Ctx.plumb_of_sound, Ctx.has_modify, Ctx.has_set,
    Ctx.has_map, State.endRound_sound, State.modPlumbTile_sound, State.fenceBay_sound, Ctx.sound_iff]

theorem State.readWords_sound {s : State} (h : κ.Sound s) (n : Fin 12) (words : List LaneLevels) : κ.Sound (s.readWords n words) := by
  have hq : ∀ p : Port, p.vcq.length = 4 → (words.foldl Port.readWord p).vcq.length = 4 := by
    induction words with
    | nil => exact fun _ h => h
    | cons w l ih =>
      intro p hp
      rw [List.foldl_cons]
      exact ih _ (Port.readWord_vcq hp w)
  unfold State.readWords
  extract_lets p q
  have hpq : κ.shape → q.vcq.length = 4 := fun hm => hq p (State.port_vcq h hm n)
  clear_value q p
  exact State.countPort_sound (State.countPort_sound (State.modPort_const_sound h n hpq) ..) ..

theorem State.reroute_sound {s : State} (h : κ.Sound s) (skip : Fin 12) (vc : Nat) (bytes : List Byte) : κ.Sound (s.reroute skip vc bytes)
    := by
  grind [State.reroute, State.putMsg_sound]

theorem State.returnMsgs_sound {s : State} (h : κ.Sound s) (n : Fin 12) : κ.Sound (s.returnMsgs n) := by
  grind [State.returnMsgs, State.modPort_sound, Ctx.KeepsPort, State.each_sound, State.reroute_sound, Ctx.sound_iff]

theorem State.linkDown_sound {s : State} (h : κ.Sound s) (n : Fin 12) : κ.Sound (s.linkDown n) := by
  grind [State.linkDown, State.adjDown_sound, State.returnMsgs_sound]

theorem State.portReset_sound {s : State} (h : κ.Sound s) (n : Fin 12) (tell : Bool) : κ.Sound (s.portReset n tell) := by
  grind [State.portReset, State.modPort_sound, Ctx.KeepsPort, State.linkDown_sound, HostSt.linkDown_pages, State.error_sound,
    State.countPort_sound, Port.clearLink_vcq, Port.drain_vcq, Ctx.sound_iff]

theorem State.enterRecovery_sound {s : State} (h : κ.Sound s) (n : Fin 12) (k : RecoveryKind) : κ.Sound (s.enterRecovery n k) := by
  grind [State.enterRecovery, State.modPort_sound, Ctx.KeepsPort, Port.realign_vcq, Port.unmeasured_vcq, State.countPort_sound,
    Ctx.sound_iff]

theorem State.replayRecovery_sound {s : State} (h : κ.Sound s) (n : Fin 12) : κ.Sound (s.replayRecovery n) := by
  grind [State.replayRecovery, State.modPort_sound, Ctx.KeepsPort, State.enterRecovery_sound, State.portReset_sound, Ctx.sound_iff]

theorem State.replay_sound {s : State} (h : κ.Sound s) (n : Fin 12) : κ.Sound (s.replay n) := by
  grind [State.replay, State.modPort_sound, Ctx.KeepsPort, State.countPort_sound, State.replayRecovery_sound, Ctx.sound_iff]

theorem State.reconfigure_sound {s : State} (h : κ.Sound s) (n : Fin 12) (rate width group : Nat) : κ.Sound
    (s.reconfigure n rate width group) := by
  grind [State.reconfigure, State.modPort_sound, Ctx.KeepsPort, State.costChanged_sound, State.enterRecovery_sound, Ctx.sound_iff]

theorem State.freeIndex_sound {s : State} (h : κ.Sound s) (n : Fin 12) : κ.Sound (s.freeIndex n).2 := by
  grind [State.freeIndex, State.draw_sound, State.draw_sound_eq]

theorem State.freeIndex_sound_eq {s : State} (h : κ.Sound s) (n : Fin 12) {x : Nat} {u : State}
    (hu : s.freeIndex n = (x, u)) : κ.Sound u := by
  simpa [hu] using State.freeIndex_sound h n

theorem State.degradedRecord_sound {s : State} (h : κ.Sound s) (n : Fin 12) (code event : Nat) : κ.Sound (s.degradedRecord n code event)
    := by
  grind [State.degradedRecord, State.error_sound, State.countPort_sound, State.modPort_sound, Ctx.KeepsPort, Ctx.sound_iff]

theorem State.laneAct_sound {s : State} (h : κ.Sound s) (n : Fin 12) : κ.Sound (s.laneAct n) := by
  grind [State.laneAct, State.freeIndex_sound, State.freeIndex_sound_eq, State.modPort_sound, Ctx.KeepsPort, Port.queueLctl_vcq,
    State.degradedRecord_sound, State.portReset_sound]

theorem State.judgeLanes_sound {s : State} (h : κ.Sound s) (n : Fin 12) : κ.Sound (s.judgeLanes n) := by
  grind [State.judgeLanes, State.laneAct_sound, State.reconfigure_sound]

theorem State.silenceNow_sound {s : State} (h : κ.Sound s) (n : Fin 12) (reason : Nat) : κ.Sound (s.silenceNow n reason) := by
  grind [State.silenceNow, Port.drain_vcq, Ctx.KeepsPort, State.modPort_sound, Port.silentNow_vcq, State.linkDown_sound,
    HostSt.linkDown_pages, Port.afterSilent_vcq, Ctx.sound_iff]

theorem State.askReset_sound {s : State} (h : κ.Sound s) (r : ResetReq) : κ.Sound (s.askReset r) := by
  unfold State.askReset
  grind [State.modClk_sound, Ctx.tiles_of_sound, Ctx.has_modify, Ctx.has_set, Ctx.has_map, Ctx.sound_iff]

theorem State.askWarm_sound {s : State} (h : κ.Sound s) (cause : Nat) : κ.Sound (s.askWarm cause) := by
  grind [State.askWarm, State.askReset_sound]

theorem State.mbxPost_sound {s : State} (h : κ.Sound s) (j : MbxJob) (code : Nat) (res : List Byte) : κ.Sound (s.mbxPost j code res) := by
  grind [State.mbxPost, State.modHost_sound, Ctx.pages_of_sound, Ctx.has_modify, Ctx.has_set, Ctx.has_map, State.modPage_sound,
    State.raise_sound, Ctx.sound_iff]

theorem State.mbxSetTunable_sound {s : State} (h : κ.Sound s) (j : MbxJob) : κ.Sound (s.mbxSetTunable j) := by
  grind [State.mbxSetTunable, State.mbxPost_sound, State.modTun_sound, Ctx.sound_iff]

theorem State.quiescePost_sound {s : State} (h : κ.Sound s) (j : MbxJob) (admitted : Nat) : κ.Sound (s.quiescePost j admitted) := by
  grind [State.quiescePost, State.writeAnchor_sound, State.mbxPost_sound]

theorem State.mbxQuiesce_sound {s : State} (h : κ.Sound s) (j : MbxJob) : κ.Sound (s.mbxQuiesce j) := by
  grind [State.mbxQuiesce, State.mbxPost_sound, State.modReqs_sound, State.quiescePost_sound, Ctx.sound_iff]

theorem State.mbxResume_sound {s : State} (h : κ.Sound s) (j : MbxJob) : κ.Sound (s.mbxResume j) := by
  grind [State.mbxResume, State.modReqs_sound, State.mbxPost_sound, State.tryWake_sound, Ctx.sound_iff]

theorem State.mbxStage_sound {s : State} (h : κ.Sound s) (j : MbxJob) : κ.Sound (s.mbxStage j) := by
  grind [State.mbxStage, State.mbxPost_sound, Boot.planned_flash, State.modBoot_sound, Ctx.flash_of_sound, Boot.queueOps_flash,
    State.countDev_sound]

theorem State.mbxCommit_sound {s : State} (h : κ.Sound s) (j : MbxJob) : κ.Sound (s.mbxCommit j) := by
  grind [State.mbxCommit, State.mbxPost_sound, State.modBoot_sound, Ctx.flash_of_sound, Boot.queueOps_flash]

theorem State.mbxWarmReset_sound {s : State} (h : κ.Sound s) (j : MbxJob) : κ.Sound (s.mbxWarmReset j) := by
  grind [State.mbxWarmReset, State.mbxPost_sound, State.askWarm_sound, State.modClk_sound, Ctx.tiles_of_sound, Ctx.has_modify,
    Ctx.has_set, Ctx.has_map, Ctx.sound_iff]

theorem State.mbxSnapshot_sound {s : State} (h : κ.Sound s) (j : MbxJob) : κ.Sound (s.mbxSnapshot j) := by
  grind [State.mbxSnapshot, State.modCnt_sound, Ctx.sound_iff]

theorem State.mbxPlumbNow_sound {s : State} (h : κ.Sound s) (j : MbxJob) : κ.Sound (s.mbxPlumbNow j) := by
  grind [State.mbxPlumbNow, State.mbxPost_sound, State.triggerRun_sound]

theorem State.mbxSentinelRead_sound {s : State} (h : κ.Sound s) (j : MbxJob) : κ.Sound (s.mbxSentinelRead j) := by
  grind [State.mbxSentinelRead, State.mbxPost_sound, State.emit_sound, Port.emit_vcq, Ctx.KeepsPort, State.countDev_sound,
    State.modSent_sound, Ctx.sound_iff]

theorem State.mbxExport_sound {s : State} (h : κ.Sound s) (j : MbxJob) : κ.Sound (s.mbxExport j) := by
  grind [State.mbxExport, State.mbxPost_sound, State.emit_sound, Port.emit_vcq, Ctx.KeepsPort, State.countDev_sound]

theorem State.mbxSetTimeOffset_sound {s : State} (h : κ.Sound s) (j : MbxJob) : κ.Sound (s.mbxSetTimeOffset j) := by
  grind [State.mbxSetTimeOffset, State.mbxPost_sound, State.modHost_sound, Ctx.pages_of_sound, Ctx.has_modify, Ctx.has_set, Ctx.has_map,
    State.modClk_sound, Ctx.tiles_of_sound, Ctx.sound_iff]

theorem State.mbxLeave_sound {s : State} (h : κ.Sound s) (j : MbxJob) : κ.Sound (s.mbxLeave j) := by
  grind [State.mbxLeave, State.floodLeave_sound, State.modNet_sound, State.checkMembers_sound, State.each_sound, State.modPort_sound,
    Ctx.KeepsPort, Port.drain_vcq, Port.clearLink_vcq, State.failReq_sound, State.mbxPost_sound, Ctx.sound_iff]

theorem State.mbxRun_sound {s : State} (h : κ.Sound s) (j : MbxJob) : κ.Sound (s.mbxRun j) := by
  unfold State.mbxRun
  extract_lets s1
  have h1 : κ.Sound s1 := State.countFn_sound h ..
  clear_value s1
  split
  · exact State.mbxPost_sound h1 ..
  simp only [Ctx.sound_ite]
  exact ⟨fun _ => State.mbxPost_sound h1 .., fun _ => ⟨
    fun _ => State.mbxSetTunable_sound h1 .., fun _ => ⟨
    fun _ => State.mbxQuiesce_sound h1 .., fun _ => ⟨
    fun _ => State.mbxResume_sound h1 .., fun _ => ⟨
    fun _ => State.mbxStage_sound h1 .., fun _ => ⟨
    fun _ => State.mbxCommit_sound h1 .., fun _ => ⟨
    fun _ => State.mbxWarmReset_sound h1 .., fun _ => ⟨
    fun _ => State.mbxSnapshot_sound h1 .., fun _ => ⟨
    fun _ => State.mbxPlumbNow_sound h1 .., fun _ => ⟨
    fun _ => State.mbxSentinelRead_sound h1 .., fun _ => ⟨
    fun _ => State.mbxExport_sound h1 .., fun _ => ⟨
    fun _ => State.mbxSetTimeOffset_sound h1 .., fun _ => State.mbxLeave_sound h1 ..⟩⟩⟩⟩⟩⟩⟩⟩⟩⟩⟩⟩

theorem State.mbxNext_sound {s : State} (h : κ.Sound s) (fuel : Nat) : κ.Sound (State.mbxNext fuel s) := by
  induction fuel generalizing s with
  | zero => exact h
  | succ fuel ih =>
    unfold State.mbxNext
    split
    · exact ih (State.mbxRun_sound (State.modHost_sound h h.pages) _)
    · exact h

theorem State.mbxGo_sound {s : State} (h : κ.Sound s) : κ.Sound s.mbxGo := State.mbxNext_sound h _

theorem State.mbxFinish_sound {s : State} (h : κ.Sound s) (j : MbxJob) (code : Nat) (res : List Byte) : κ.Sound (s.mbxFinish j code res)
    := by
  grind [State.mbxFinish, State.mbxPost_sound, State.mbxGo_sound]

theorem State.writeMbxCmd_sound {s : State} (h : κ.Sound s) (f : Fin 16) (v : Nat) (dma : Option (List Byte)) : κ.Sound
    (s.writeMbxCmd f v dma) := by
  grind [State.writeMbxCmd, State.modPage_sound, State.modHost_sound, Ctx.pages_of_sound, Ctx.has_modify, Ctx.has_set, Ctx.has_map,
    State.mbxGo_sound, Ctx.sound_iff]

theorem State.flashResult_sound {s : State} (h : κ.Sound s) (code : Nat) (res : List Byte) : κ.Sound (s.flashResult code res) := by
  grind [State.flashResult, State.mbxFinish_sound]

theorem State.anchorFailed_sound {s : State} (h : κ.Sound s) (a : Anchor) : κ.Sound (s.anchorFailed a) := by
  grind [State.anchorFailed, State.error_sound, State.modAud_sound, Ctx.sound_iff]

theorem State.flashEnded_sound {s : State} (h : κ.Sound s) (o : FlashOp) (ok : Bool) : κ.Sound (s.flashEnded o ok) := by
  unfold State.flashEnded
  grind [State.anchorWritten_sound, State.tryDrain_sound, State.anchorFailed_sound, State.each_sound, State.modBoot_sound,
    Ctx.flash_of_sound, Boot.dropSector_flash, Option.map_eq_some_iff, State.flashResult_sound, Boot.queueOps_flash, Boot.planned_flash,
    Boot.dropStaging_flash, Ctx.sound_iff]

theorem State.pulse_sound {s : State} (h : κ.Sound s) : κ.Sound (s.pulse) := by
  grind [State.pulse, State.modCnt_sound, State.mbxFinish_sound, Ctx.sound_iff]

theorem State.loadRecord_sound {s : State} (h : κ.Sound s) (k : Nat) : κ.Sound (s.loadRecord k) := by
  grind [State.loadRecord, State.modCnt_sound, Option.map_eq_some_iff, Ctx.sound_iff]

theorem State.writeSnapCtrl_sound {s : State} (h : κ.Sound s) (v : Nat) : κ.Sound (s.writeSnapCtrl v) := by
  grind [State.writeSnapCtrl, State.modCnt_sound, State.loadRecord_sound, Ctx.sound_iff]

theorem State.restartWindows_sound {s : State} (h : κ.Sound s) (len base done : Nat) : κ.Sound (s.restartWindows len base done) := by
  grind [State.restartWindows, State.modCnt_sound, Option.map_eq_some_iff, Ctx.sound_iff]

theorem State.endWindow_sound {s : State} (h : κ.Sound s) : κ.Sound (s.endWindow) := by
  grind [State.endWindow, State.modCnt_sound, Option.map_eq_some_iff, Ctx.sound_iff]

theorem State.ringSlotsToHold_sound {s : State} (h : κ.Sound s) : κ.Sound (s.ringSlotsToHold) := by
  grind [State.ringSlotsToHold, State.modReqs_sound, Option.map_eq_some_iff, State.modHost_sound, Ctx.pages_of_sound, Ctx.has_modify,
    Ctx.has_set, Ctx.has_map, Ctx.sound_iff]

theorem State.disarm_sound {s : State} (h : κ.Sound s) (f : Fin 16) : κ.Sound (s.disarm f) := by
  grind [State.disarm, State.modPage_sound, State.ringSlotsToHold_sound, Ctx.sound_iff]

theorem State.writeRingCtrl_sound {s : State} (h : κ.Sound s) (f : Fin 16) (v : Nat) : κ.Sound (s.writeRingCtrl f v) := by
  grind [State.writeRingCtrl, State.modPage_sound, State.disarm_sound, State.tryDrain_sound, Ctx.sound_iff]

theorem State.writeCplHead_sound {s : State} (h : κ.Sound s) (f : Fin 16) (value : BitVec 32) : κ.Sound (s.writeCplHead f value) := by
  grind [State.writeCplHead, State.modPage_sound, State.each_sound, State.sendQuiet_sound, State.tryDrain_sound, Ctx.sound_iff]

theorem State.writeAudHead_sound {s : State} (h : κ.Sound s) (value : BitVec 32) : κ.Sound (s.writeAudHead value) := by
  grind [State.writeAudHead, State.modPage_sound, State.sendQuiet_sound, State.tryDrain_sound, Ctx.sound_iff]

theorem State.writeBase_sound {s : State} (h : κ.Sound s) (f : Fin 16) (o v : Nat) : κ.Sound (s.writeBase f o v) := by
  grind [State.writeBase, State.modPage_sound, Ctx.sound_iff]

theorem State.writePage_sound {s : State} (h : κ.Sound s) (f : Fin 16) (o v : Nat) (dma : Option (List Byte)) : κ.Sound
    (s.writePage f o v dma) := by
  grind [State.writePage, State.writeBase_sound, State.writeRingCtrl_sound, State.writeTail_sound, State.writeCplHead_sound,
    State.writeAudHead_sound, State.modPage_sound, State.writeMbxCmd_sound, Ctx.sound_iff]

theorem State.writeCsr_sound {s : State} (h : κ.Sound s) (o v : Nat) (dma : Option (List Byte)) : κ.Sound (s.writeCsr o v dma) := by
  grind [State.writeCsr, State.writePage_sound, State.writeSnapCtrl_sound, State.lockViolation_sound]

theorem State.writeWord_sound {s : State} (hs : κ.Sound s) (h : HeldTlp) (o v : Nat) : κ.Sound (s.writeWord h o v) := by
  grind [State.writeWord, State.writePage_sound, State.writeCsr_sound]

theorem State.writeReg_sound {s : State} (hs : κ.Sound s) (h : HeldTlp) : κ.Sound (s.writeReg h) := by
  grind [State.writeReg, State.writeWord_sound]

theorem State.hostReg_sound {s : State} (hs : κ.Sound s) (h : HeldTlp) : κ.Sound (s.hostReg h) := by
  grind [State.hostReg, State.hostWrite_sound, State.writeReg_sound]

theorem State.clearPage_sound {s : State} (h : κ.Sound s) (f : Fin 16) (keepVf : Bool) : κ.Sound (s.clearPage f keepVf) := by
  grind [State.clearPage, Option.map_eq_some_iff, State.modPage_sound, State.modHost_sound, Ctx.pages_of_sound, Ctx.has_modify,
    Ctx.has_set, Ctx.has_map, State.ringSlotsToHold_sound, Ctx.sound_iff]

theorem State.hostLinkReset_sound {s : State} (h : κ.Sound s) : κ.Sound (s.hostLinkReset) := by
  grind [State.hostLinkReset, State.each_sound, State.clearPage_sound, State.modHost_sound, Ctx.pages_of_sound, Ctx.has_modify,
    Ctx.has_set, Ctx.has_map, State.linkDown_sound, HostSt.linkDown_pages]

theorem State.stepTo_sound {s : State} (h : κ.Sound s) (t d : Nat) : κ.Sound (s.stepTo t d) := by
  grind [State.stepTo, State.modTile_sound, State.countTile_sound, Ctx.sound_iff]

theorem State.lowerVoltage_sound {s : State} (h : κ.Sound s) (t : Nat) : κ.Sound (s.lowerVoltage t) := by
  grind [State.lowerVoltage, State.modTile_sound, State.countTile_sound, Ctx.sound_iff]

theorem State.dropRise_sound {s : State} (h : κ.Sound s) (t : Nat) : κ.Sound (s.dropRise t) := by
  grind [State.dropRise, State.modTile_sound, State.countTile_sound, Ctx.sound_iff]

theorem State.pursue_sound {s : State} (h : κ.Sound s) (t : Nat) : κ.Sound (s.pursue t) := by
  grind [State.pursue, State.stepTo_sound, State.dropRise_sound]

theorem State.enterHold_sound {s : State} (h : κ.Sound s) (t : Nat) (lost : Bool) : κ.Sound (s.enterHold t lost) := by
  grind [State.enterHold, State.dropRise_sound, State.modTile_sound, State.countTile_sound, State.stepTo_sound, State.lowerVoltage_sound,
    State.error_sound, Ctx.sound_iff]

theorem State.leaveHold_sound {s : State} (h : κ.Sound s) (t : Nat) : κ.Sound (s.leaveHold t) := by
  grind [State.leaveHold, State.modTile_sound, State.error_sound, Ctx.sound_iff]

theorem State.readSensors_sound {s : State} (h : κ.Sound s) (sensors : List (Option Int)) : κ.Sound (s.readSensors sensors) := by
  grind [State.readSensors, Option.map_eq_some_iff, State.modStew_sound, Ctx.tokens_of_sound, Ctx.tokensOut_of_sound,
    Ctx.tokenWait_of_sound, Ctx.gain_of_sound, Ctx.hbmStep_of_sound, Ctx.has_modify, Ctx.has_set, Ctx.has_map, State.each_sound,
    State.error_sound, State.count_sound, Ctx.sound_iff]

theorem State.loseSensors_sound {s : State} (h : κ.Sound s) (t : Nat) : κ.Sound (s.loseSensors t) := by
  grind [State.loseSensors, State.modTile_sound, State.error_sound, Ctx.sound_iff]

theorem State.holds_sound {s : State} (h : κ.Sound s) : κ.Sound (s.holds) := by
  grind [State.holds, State.each_sound, State.enterHold_sound, State.loseSensors_sound, State.leaveHold_sound]

theorem State.pressureStep_sound {s : State} (h : κ.Sound s) : κ.Sound (s.pressureStep) := by
  grind [State.pressureStep, Option.map_eq_some_iff, State.foldl_sound, State.modStew_sound, Ctx.tokens_of_sound, Ctx.tokensOut_of_sound,
    Ctx.tokenWait_of_sound, Ctx.gain_of_sound, Ctx.hbmStep_of_sound, Ctx.has_modify, Ctx.has_set, Ctx.has_map, Ctx.sound_iff]

theorem State.closeWindow_sound {s : State} (h : κ.Sound s) (measured : Nat) : κ.Sound (s.closeWindow measured) := by
  grind [State.closeWindow, State.countDev_sound, State.modStew_sound, Ctx.tokens_of_sound, Ctx.tokensOut_of_sound,
    Ctx.tokenWait_of_sound, Ctx.gain_of_sound, Ctx.hbmStep_of_sound, Ctx.has_modify, Ctx.has_set, Ctx.has_map, Ctx.sound_iff]

theorem State.openWindow_sound {s : State} (h : κ.Sound s) (baseline : Nat) : κ.Sound (s.openWindow baseline) := by
  grind [State.openWindow, Option.map_eq_some_iff, State.countDev_sound, State.modStew_sound, Ctx.tokens_of_sound,
    Ctx.tokensOut_of_sound, Ctx.tokenWait_of_sound, Ctx.gain_of_sound, Ctx.hbmStep_of_sound, Ctx.has_modify, Ctx.has_set, Ctx.has_map,
    Ctx.sound_iff]

theorem State.applyTunables_sound {s : State} (h : κ.Sound s) (boundary : Nat) : κ.Sound (s.applyTunables boundary) := by
  unfold State.applyTunables
  dsimp only
  repeat' split
  all_goals grind [State.foldl_sound, State.modTun_sound, State.modReqs_sound, Option.map_eq_some_iff, State.restartWindows_sound,
    Ctx.sound_iff]

theorem State.flushSuppressed_sound {s : State} (h : κ.Sound s) : κ.Sound (s.flushSuppressed) := by
  grind [State.flushSuppressed, State.each_sound, State.modErr_sound, State.push_sound, Ctx.sound_iff]

theorem State.kvIdleSweep_sound {s : State} (h : κ.Sound s) : κ.Sound (s.kvIdleSweep) := by
  grind [State.kvIdleSweep, State.each_sound, State.askPark_sound]

theorem State.retryAdmissions_sound {s : State} (h : κ.Sound s) : κ.Sound (s.retryAdmissions) := by
  grind [State.retryAdmissions, Option.map_eq_some_iff, State.each_sound, State.admitFrom11_sound, State.failAdmission_sound]

theorem State.dropDisabled_sound {s : State} (h : κ.Sound s) : κ.Sound (s.dropDisabled) := by
  grind [State.dropDisabled, State.each_sound, State.failAdmission_sound]

end Sys2Proof.Machine
end

section
/-! What the operations on the ports and boot keep. -/
namespace Sys2Proof.Machine
open Sys2Proof

-- One proof at a time: many short proofs elaborated side by side would cost the check its memory.
set_option Elab.async false

variable {κ : Ctx}

theorem State.sendFrame_sound {s : State} (h : κ.Sound s) (n : Fin 12) (lane : Nat) : κ.Sound (s.sendFrame n lane) := by
  grind [State.sendFrame, State.draw_sound, State.draw_sound_eq, State.modPort_sound, Ctx.KeepsPort, Ctx.sound_iff]

theorem State.sendFrames_sound {s : State} (h : κ.Sound s) (n : Fin 12) (lanes : List Nat) : κ.Sound (s.sendFrames n lanes) := by
  grind [State.sendFrames, State.each_sound, State.sendFrame_sound]

theorem State.sendBurst_sound {s : State} (h : κ.Sound s) (n : Fin 12) (lanes : List Nat) : κ.Sound (s.sendBurst n lanes) := by
  grind [State.sendBurst, State.sendFrames_sound, State.modPort_sound, Ctx.KeepsPort, Ctx.sound_iff]

theorem doDetectBurst_sound (port : Fin 12) {s : State} (h : κ.Sound s) : κ.Sound (doDetectBurst port s) := by
  grind [doDetectBurst, State.sendBurst_sound, State.modPort_sound, Ctx.KeepsPort, Ctx.sound_iff]

theorem State.entropy_sound {s : State} (h : κ.Sound s) : κ.Sound (s.entropy).2 := by
  grind [State.entropy, Ctx.sound_iff]

theorem State.entropy_sound_eq {s : State} (h : κ.Sound s) {x : BitVec 64} {u : State}
    (hu : s.entropy = (x, u)) : κ.Sound u := by
  simpa [hu] using State.entropy_sound h

theorem doPeerSignalDetect_sound (port : Fin 12) (at_ : Nat) {s : State} (h : κ.Sound s) : κ.Sound (doPeerSignalDetect port at_ s) := by
  grind [doPeerSignalDetect, State.advance_sound, State.entropy_sound, State.entropy_sound_eq, State.modPort_sound, Ctx.KeepsPort,
    Port.clearLink_vcq]

theorem State.becomeActive_sound {s : State} (h : κ.Sound s) (n : Fin 12) : κ.Sound (s.becomeActive n) := by
  grind [State.becomeActive, State.modPort_sound, Ctx.KeepsPort, Port.restart_vcq]

theorem State.leadNegotiate_sound {s : State} (h : κ.Sound s) (n : Fin 12) : κ.Sound (s.leadNegotiate n) := by
  grind [State.leadNegotiate, State.modPort_sound, Ctx.KeepsPort, Port.clearLink_vcq, Ctx.sound_iff]

theorem State.followNegotiate_sound {s : State} (h : κ.Sound s) (n : Fin 12) (t : TrainSet) : κ.Sound (s.followNegotiate n t) := by
  grind [State.followNegotiate, State.modPort_sound, Ctx.KeepsPort, Ctx.sound_iff]

theorem State.endRateChange_sound {s : State} (h : κ.Sound s) (n : Fin 12) (t : TrainSet) : κ.Sound (s.endRateChange n t) := by
  grind [State.endRateChange, State.modPort_sound, Ctx.KeepsPort, Port.recovered_vcq, State.costChanged_sound, State.portReset_sound,
    Ctx.sound_iff]

theorem State.negotiate_sound {s : State} (h : κ.Sound s) (n : Fin 12) (t : TrainSet) : κ.Sound (s.negotiate n t) := by
  grind [State.negotiate, State.modPort_sound, Ctx.KeepsPort, Port.note_vcq, State.leadNegotiate_sound, State.entropy_sound,
    State.entropy_sound_eq, State.followNegotiate_sound, Ctx.sound_iff]

theorem doTrainingSet_sound (port : Fin 12) (set : LaneSet) {s : State} (h : κ.Sound s) : κ.Sound (doTrainingSet port set s) := by
  grind [doTrainingSet, State.modPort_sound, Ctx.KeepsPort, Port.clearLink_vcq, Port.note_vcq, Port.takePreset_vcq,
    Port.takePolarity_vcq, State.negotiate_sound, State.becomeActive_sound, State.enterRecovery_sound, State.replay_sound,
    State.endRateChange_sound, Port.recovered_vcq, Port.drain_vcq, Ctx.sound_iff]

theorem doEqTimeout_sound (port : Fin 12) {s : State} (h : κ.Sound s) : κ.Sound (doEqTimeout port s) := by
  grind [doEqTimeout, State.modPort_sound, Ctx.KeepsPort, Port.startAlign_vcq, Port.clearLink_vcq, Ctx.sound_iff]

theorem doTrainingTimeout_sound (port : Fin 12) {s : State} (h : κ.Sound s) : κ.Sound (doTrainingTimeout port s) := by
  grind [doTrainingTimeout, State.modPort_sound, Ctx.KeepsPort, Port.clearLink_vcq]

theorem State.countDiscard_sound {s : State} (h : κ.Sound s) (n : Fin 12) : κ.Sound (s.countDiscard n) := by
  grind [State.countDiscard, State.modPort_sound, Ctx.KeepsPort, State.countPort_sound, Ctx.sound_iff]

theorem State.discardFlit_sound {s : State} (h : κ.Sound s) (n : Fin 12) : κ.Sound (s.discardFlit n) := by
  grind [State.discardFlit, State.countDiscard_sound, State.modPort_sound, Ctx.KeepsPort, Ctx.sound_iff]

theorem State.takeFlit_sound {s : State} (h : κ.Sound s) (n : Fin 12) (f : Flit) {run : State → FlitHead → List Byte → State}
    (hrun : ∀ s f l, κ.Sound s → κ.Sound (run s f l)) : κ.Sound (s.takeFlit n f run) := by
  unfold State.takeFlit
  extract_lets st s1 s2 p
  have h1 : κ.Sound s1 := by
    simp only [s1]
    split
    · exact State.becomeActive_sound h n
    split
    · exact State.modPort_sound h n fun _ hp => Port.recovered_vcq hp
    · exact h
  have h2 : κ.Sound s2 := State.modPort_sound h1 n fun _ hp => Port.hear_vcq hp ..
  clear_value s2
  split
  · split
    · exact hrun _ _ _ (State.modPort_sound h2 n fun _ hp => hp)
    split
    · exact State.countDiscard_sound h2 n
    · exact State.countDiscard_sound (State.modPort_sound h2 n fun _ hp => Port.gap_vcq hp) n
  · exact hrun _ _ _ h2

theorem Port.nextFlit_vcq {p : Port} (hp : p.vcq.length = 4) {f : Flit} {whole : Bool} {q : Port}
    (h : p.nextFlit = some (f, whole, q)) : q.vcq.length = 4 := by
  unfold Port.nextFlit at h
  split at h
  · cases h
  · cases h
    exact hp

theorem State.rxFlit_sound {s : State} (h : κ.Sound s) (n : Fin 12) (words : List LaneLevels) (mine : FlitHead → List Byte → Bool)
    {run : State → FlitHead → List Byte → State} (hrun : ∀ s f l, κ.Sound s → κ.Sound (run s f l)) : κ.Sound (s.rxFlit n words mine run) := by
  unfold State.rxFlit
  extract_lets p x
  have hx : κ.Sound x := State.readWords_sound h n words
  clear_value x
  split
  · exact h
  split
  · exact State.modPort_sound h n fun _ hp => hp
  split
  · exact h
  split
  · exact hx
  next f whole q hq =>
    extract_lets y
    have hy : κ.Sound y := State.modPort_const_sound hx n fun hm => Port.nextFlit_vcq (State.port_vcq hx hm n) hq
    clear_value y
    split
    · exact State.discardFlit_sound hy n
    split
    · exact h
    · exact State.takeFlit_sound hy n f hrun

theorem State.msgArrived_sound {s : State} (h : κ.Sound s) (n : Fin 12) (vc : Nat) (raw : List Byte) : κ.Sound (s.msgArrived n vc raw) := by
  grind [State.msgArrived, State.countPort_sound, State.modNet_sound, State.putMsg_sound, Ctx.sound_iff]

theorem State.takeData_sound {s : State} (hs : κ.Sound s) (n : Fin 12) (h : FlitHead) (pl : List Byte) : κ.Sound (s.takeData n h pl) := by
  grind [State.takeData, State.modPort_sound, Ctx.KeepsPort, Port.buffer_vcq, State.countPort_sound, State.msgArrived_sound]

theorem doDataFlit_sound (port : Fin 12) (words : List LaneLevels) {s : State} (h : κ.Sound s) : κ.Sound (doDataFlit port words s) := by
  grind [doDataFlit, State.rxFlit_sound, State.takeData_sound]

theorem doIdle_sound (port : Fin 12) (words : List LaneLevels) {s : State} (h : κ.Sound s) : κ.Sound (doIdle port words s) := by
  grind [doIdle, State.rxFlit_sound, State.modPort_sound, Ctx.KeepsPort, Port.gap_vcq]

theorem doNak_sound (port : Fin 12) (words : List LaneLevels) {s : State} (h : κ.Sound s) : κ.Sound (doNak port words s) := by
  grind [doNak, State.rxFlit_sound, State.countPort_sound, State.replay_sound]

theorem doSilent_sound (port : Fin 12) (words : List LaneLevels) {s : State} (h : κ.Sound s) : κ.Sound (doSilent port words s) := by
  grind [doSilent, State.rxFlit_sound, State.countPort_sound, State.modPort_sound, Ctx.KeepsPort, State.linkDown_sound,
    HostSt.linkDown_pages, Port.clearLink_vcq, State.portReset_sound, Ctx.sound_iff]

theorem doHealth_sound (port : Fin 12) (words : List LaneLevels) {s : State} (h : κ.Sound s) : κ.Sound (doHealth port words s) := by
  grind [doHealth, State.rxFlit_sound, State.modPort_sound, Ctx.KeepsPort, State.peerFailed_sound, State.judgeLanes_sound, Ctx.sound_iff]

theorem State.restoreRecord_sound {s : State} (h : κ.Sound s) (n : Fin 12) : κ.Sound (s.restoreRecord n) := by
  grind [State.restoreRecord, State.error_sound, State.countPort_sound]

theorem doSpare_sound (port : Fin 12) (words : List LaneLevels) {s : State} (h : κ.Sound s) : κ.Sound (doSpare port words s) := by
  grind [doSpare, State.rxFlit_sound, State.modPort_sound, Ctx.KeepsPort, State.degradedRecord_sound, Ctx.sound_iff]

theorem doUnspare_sound (port : Fin 12) (words : List LaneLevels) {s : State} (h : κ.Sound s) : κ.Sound (doUnspare port words s) := by
  grind [doUnspare, State.rxFlit_sound, State.modPort_sound, Ctx.KeepsPort, State.restoreRecord_sound, Ctx.sound_iff]

theorem doReconfig_sound (port : Fin 12) (words : List LaneLevels) {s : State} (h : κ.Sound s) : κ.Sound (doReconfig port words s) := by
  grind [doReconfig, State.rxFlit_sound, State.degradedRecord_sound, State.restoreRecord_sound, State.reconfigure_sound]

theorem doResync_sound (port : Fin 12) (words : List LaneLevels) {s : State} (h : κ.Sound s) : κ.Sound (doResync port words s) := by
  grind [doResync, State.rxFlit_sound, State.modPort_sound, Ctx.KeepsPort, Port.resync_vcq, Port.queueLctl_vcq, Ctx.sound_iff]

theorem State.sendSilent_sound {s : State} (h : κ.Sound s) (n : Fin 12) : κ.Sound (s.sendSilent n) := by
  grind [State.sendSilent, State.modPort_sound, Ctx.KeepsPort, State.emit_sound, Port.emit_vcq, State.linkDown_sound,
    HostSt.linkDown_pages, Port.afterSilent_vcq]

theorem State.sendLctl_sound {s : State} (h : κ.Sound s) (n : Fin 12) : κ.Sound (s.sendLctl n) := by
  grind [State.sendLctl, State.modPort_sound, Ctx.KeepsPort, Port.emitSeq_vcq, State.reconfigure_sound, Port.resync_vcq, Ctx.sound_iff]

theorem State.flitSlot_sound {s : State} (h : κ.Sound s) (port : Fin 12) (replayUe : Bool) : κ.Sound (s.flitSlot port replayUe) := by
  unfold State.flitSlot
  extract_lets p ready room wait
  have hwait : ∀ s v, κ.Sound s → κ.Sound (wait s v) := fun s v h => State.modPort_sound h port fun _ hp => Port.waited_vcq hp ..
  split
  · split
    · exact State.portReset_sound h ..
    · have h1 := State.modPort_sound h port fun _ hp => Port.resendOne_vcq hp
      exact hwait _ _ (State.countPort_sound h1 ..)
  split
  · exact State.sendSilent_sound h port
  split
  · exact hwait _ _ (State.countPort_sound (State.modPort_sound h port fun _ hp => by simpa only [Port.vcq_emit] using hp) ..)
  split
  · exact hwait _ _ (State.sendLctl_sound h port)
  split
  next v _ =>
    have hq : κ.shape → (p.sendData s.clk.devTime v).1.vcq.length = 4 := fun hm => Port.sendData_vcq (State.port_vcq h hm port) ..
    split
    next q valid hqv =>
    rw [hqv] at hq
    exact hwait _ _ (State.countPort_sound (State.countPort_sound (State.countPort_sound (State.countPort_sound
      (State.modPort_const_sound h port hq) ..) ..) ..) ..)
  · exact hwait _ _ (State.countPort_sound (State.modPort_sound h port fun _ hp => by simpa only [Port.vcq_emit] using hp) ..)

theorem Port.hearSelf_vcq (now fuel : Nat) {p : Port} (hp : p.vcq.length = 4) : (Port.hearSelf now fuel p).vcq.length = 4 := by
  induction fuel generalizing p with
  | zero => exact hp
  | succ fuel ih =>
    unfold Port.hearSelf
    split
    next f q hq => exact ih (Port.hear_vcq (Port.nextFlit_vcq hp hq) ..)
    next f q hq => exact ih (Port.nextFlit_vcq hp hq)
    · exact hp

theorem State.loopSlot_sound {s : State} (h : κ.Sound s) (n : Fin 12) : κ.Sound (s.loopSlot n) := by
  unfold State.loopSlot
  extract_lets before s1
  have h1 : κ.Sound s1 := State.countPort_sound (State.modPort_sound h n fun _ hp => by simpa only [Port.vcq_emit] using hp) ..
  clear_value s1
  split
  · exact h1
  · exact State.modPort_sound (State.readWords_sound h1 n _) n fun _ hp => Port.hearSelf_vcq _ _ hp

theorem doFlitSlot_sound (slot : SendSlot) {s : State} (h : κ.Sound s) : κ.Sound (doFlitSlot slot s) := by
  grind [doFlitSlot, Port.drain_vcq, Ctx.KeepsPort, State.flitSlot_sound, State.sendFrames_sound, State.loopSlot_sound]

theorem doNakRepeat_sound (port : Fin 12) {s : State} (h : κ.Sound s) : κ.Sound (doNakRepeat port s) := by
  grind [doNakRepeat, State.modPort_sound, Ctx.KeepsPort, Ctx.sound_iff]

theorem doReplayTimeout_sound (port : Fin 12) (at_ : Nat) {s : State} (h : κ.Sound s) : κ.Sound (doReplayTimeout port at_ s) := by
  grind [doReplayTimeout, State.advance_sound, Port.drain_vcq, Ctx.KeepsPort, State.modPort_sound, State.replay_sound, Ctx.sound_iff]

theorem doRecoveryTimeout_sound (port : Fin 12) {s : State} (h : κ.Sound s) : κ.Sound (doRecoveryTimeout port s) := by
  grind [doRecoveryTimeout, State.portReset_sound]

theorem State.critLanes_sound {s : State} (h : κ.Sound s) (n : Fin 12) (ms : List Int) : κ.Sound (s.critLanes n ms) := by
  grind [State.critLanes, State.modPort_sound, Ctx.KeepsPort, Port.sendHealth_vcq, State.judgeLanes_sound, Ctx.sound_iff]

theorem doMarginUpdate_sound (port : Fin 12) (margins : List Int) {s : State} (h : κ.Sound s) : κ.Sound (doMarginUpdate port margins s) :=
    by
  grind [doMarginUpdate, Option.map_eq_some_iff, State.modPort_sound, Ctx.KeepsPort, Port.startAlign_vcq, State.critLanes_sound,
    Ctx.sound_iff]

theorem doEvaluationWindowEnd_sound (port : Fin 12) (at_ : Nat) {s : State} (h : κ.Sound s) : κ.Sound (doEvaluationWindowEnd port at_ s)
    := by
  grind [doEvaluationWindowEnd, State.advance_sound, State.modPort_sound, Ctx.KeepsPort, State.closeWindow_sound, Port.closeWindow_vcq,
    Port.sendHealth_vcq, State.judgeLanes_sound]

theorem doLaneFailure_sound (port : Fin 12) (lane : Fin 17) {s : State} (h : κ.Sound s) : κ.Sound (doLaneFailure port lane s) := by
  grind [doLaneFailure, State.modPort_sound, Ctx.KeepsPort, Port.sendHealth_vcq, State.judgeLanes_sound, Ctx.sound_iff]

theorem doSpareSwitchEffective_sound (port : Fin 12) {s : State} (h : κ.Sound s) : κ.Sound (doSpareSwitchEffective port s) := by
  grind [doSpareSwitchEffective, State.modPort_sound, Ctx.KeepsPort, Ctx.sound_iff]

theorem State.undo_sound {s : State} (h : κ.Sound s) (n : Fin 12) (d : Degrade) : κ.Sound (s.undo n d) := by
  unfold State.undo
  grind [State.freeIndex_sound, State.freeIndex_sound_eq, State.modPort_sound, Ctx.KeepsPort, Port.queueLctl_vcq]

theorem doPortRestore_sound (port : Fin 12) (at_ : Nat) {s : State} (h : κ.Sound s) : κ.Sound (doPortRestore port at_ s) := by
  grind [doPortRestore, State.advance_sound, State.undo_sound, State.modPort_sound, Ctx.KeepsPort, State.restoreRecord_sound,
    Ctx.sound_iff]

theorem doDrainEnd_sound (port : Fin 12) {s : State} (h : κ.Sound s) : κ.Sound (doDrainEnd port s) := by
  grind [doDrainEnd, Port.drain_vcq, Ctx.KeepsPort, State.linkDown_sound, HostSt.linkDown_pages, State.modPort_sound,
    State.returnMsgs_sound, Port.queueLctl_vcq, Ctx.sound_iff]

theorem doCodewordLockLoss_sound (port : Fin 12) {s : State} (h : κ.Sound s) : κ.Sound (doCodewordLockLoss port s) := by
  grind [doCodewordLockLoss, Port.drain_vcq, Ctx.KeepsPort, State.portReset_sound]

theorem State.trainCxl_sound {s : State} (h : κ.Sound s) (strap : BitVec 2) (p : Nat) (t : Option CxlTrain) : κ.Sound
    (s.trainCxl strap p t) := by
  unfold State.trainCxl
  grind [State.modCxl_sound, State.error_sound, Ctx.sound_iff]

theorem State.enumerate_sound {s : State} (h : κ.Sound s) (d : CxlFound) : κ.Sound (s.enumerate d) := by
  grind [State.enumerate, State.error_sound, State.modCxl_sound, Option.map_eq_some_iff, State.countT2_sound]

theorem State.cxlBoot_sound {s : State} (h : κ.Sound s) (strap : BitVec 2) (ports : List CxlTrain) (devs : List CxlFound) : κ.Sound
    (s.cxlBoot strap ports devs) := by
  grind [State.cxlBoot, State.each_sound, State.trainCxl_sound, State.enumerate_sound]

/-- A cold reset leaves the reset state with the flash of before. -/
theorem State.clearCold_sound {s : State} (h : κ.Sound s) : κ.Sound s.clearCold := by
  have hports : κ.Ports (s.truss.map fun p => { Port.reset with out := p.out, wire := p.wire, frames := p.frames, bursts := p.bursts }) :=
    Ctx.ports_map h.ports fun _ _ => rfl
  have hbays : κ.Bays (List.replicate 80 Bay.reset) := fun _ =>
    ⟨List.length_replicate, fun y hy => by rw [List.eq_of_mem_replicate hy]; exact Bay.reset_shaped⟩
  exact { queue := h.queue, cells := fun _ => rfl, flash := h.flash, bays := hbays, ports := hports, pages := fun _ => rfl, tiles := fun _ => rfl,
          plumb := fun _ => rfl, tokens := fun _ => rfl, tokensOut := fun _ => rfl, tokenWait := fun _ => rfl, gain := fun _ => rfl,
          hbmStep := fun _ => rfl }

theorem State.leaveCold_sound {s : State} (h : κ.Sound s) : κ.Sound (s.leaveCold) := by
  grind [State.leaveCold, State.each_sound, State.silenceNow_sound]

theorem State.keepTrip_sound {s : State} (h : κ.Sound s) (old : State) : κ.Sound (s.keepTrip old) :=
  State.modPins_sound (State.modClk_sound h (by simpa using h.tiles)) _

theorem State.btnStuck_sound {s : State} (h : κ.Sound s) : κ.Sound (s.btnStuck) := by
  grind [State.btnStuck, State.error_sound, State.modClk_sound, Ctx.tiles_of_sound, Ctx.has_modify, Ctx.has_set, Ctx.has_map,
    Ctx.sound_iff]

theorem State.coldStart_sound {s : State} (h : κ.Sound s) (straps : Straps) (btnLow : Bool) (ports : List CxlTrain) (devs : List CxlFound)
    (cause : Nat) : κ.Sound (s.coldStart straps btnLow ports devs cause) := by
  unfold State.coldStart
  extract_lets x1 x2 x3 x4
  have h1 : κ.Sound x1 := by
    refine State.keepTrip_sound (State.clearCold_sound ?_) _
    split
    · exact State.leaveCold_sound h
    · exact h
  have h3 : κ.Sound x3 := by
    refine State.modClk_sound (State.modPins_sound (State.modBoot_sound h1 h1.flash) _) ?_
    exact h1.tiles
  have h4 : κ.Sound x4 := by grind [State.cxlBoot_sound]
  clear_value x4
  split
  · exact State.btnStuck_sound h4
  · exact h4

theorem State.holdReset_sound {s : State} (h : κ.Sound s) : κ.Sound s.holdReset := by
  have h1 := State.keepTrip_sound (State.clearCold_sound h) s
  exact State.modClk_sound (State.modBoot_sound h1 h1.flash) h1.tiles

theorem State.powerOff_sound {s : State} (h : κ.Sound s) : κ.Sound s.powerOff := by
  have h1 := State.clearCold_sound h
  unfold State.powerOff
  extract_lets x
  have h2 : κ.Sound x := State.modPins_sound (State.modBoot_sound h1 h1.flash) _
  exact State.modClk_sound h2 fun _ => rfl

theorem State.restartBoot_sound {s : State} (h : κ.Sound s) : κ.Sound s.restartBoot := by
  have h1 := State.keepTrip_sound (State.clearCold_sound h) s
  unfold State.restartBoot
  extract_lets x y
  have h2 : κ.Sound y := (Ctx.sound_iff y).mpr ((Ctx.sound_iff x).mp h1)
  exact State.modClk_sound (State.modPins_sound h2 _) h1.tiles

theorem State.causeRecord_sound {s : State} (h : κ.Sound s) : κ.Sound (s.causeRecord) := by
  grind [State.causeRecord, State.draw_sound, State.draw_sound_eq, State.error_sound]

theorem State.checkButton_sound {s : State} (h : κ.Sound s) : κ.Sound (s.checkButton) := by
  grind [State.checkButton, State.btnStuck_sound]

theorem State.enterSafe_sound {s : State} (h : κ.Sound s) : κ.Sound (s.enterSafe) := by
  grind [State.enterSafe, State.modBoot_sound, Ctx.flash_of_sound, State.modPins_sound, State.modHost_sound, Ctx.pages_of_sound,
    Ctx.has_modify, Ctx.has_set, Ctx.has_map, Option.map_eq_some_iff, State.checkButton_sound, Ctx.sound_iff]

theorem State.placeImage_sound {s : State} (h : κ.Sound s) (x : ImageBytes) : κ.Sound (s.placeImage x) := by
  grind [State.placeImage, State.each_sound, State.memWrite_sound]

theorem State.placeFixed_sound {s : State} (h : κ.Sound s) (t : Fin 16) (e : Nat × FixedKind × Nat) : κ.Sound (s.placeFixed t e) := by
  grind [State.placeFixed, State.modQuota_sound, State.modMem_sound, Ctx.cells_of_sound, Mem.markFresh_cells, Ctx.sound_iff]

theorem State.placeAllFixed_sound {s : State} (h : κ.Sound s) : κ.Sound (s.placeAllFixed) := by
  grind [State.placeAllFixed, State.each_sound, State.placeFixed_sound]

theorem State.startSentinel_sound {s : State} (h : κ.Sound s) : κ.Sound (s.startSentinel) := by
  grind [State.startSentinel, State.modSent_sound, State.modPins_sound, Ctx.sound_iff]

theorem State.resumeChain_sound {s : State} (h : κ.Sound s) : κ.Sound (s.resumeChain) := by
  grind [State.resumeChain, State.modAud_sound, Port.gap_vcq, Ctx.KeepsPort, State.modBoot_sound, Ctx.flash_of_sound, Ctx.sound_iff]

theorem State.startPorts_sound {s : State} (h : κ.Sound s) : κ.Sound (s.startPorts) := by
  grind [State.startPorts, State.entropy_sound, State.entropy_sound_eq, State.modNet_sound, State.each_sound, State.modPort_sound,
    Ctx.KeepsPort, Port.start_vcq, Ctx.sound_iff]

theorem State.carveBays_sound {s : State} (h : κ.Sound s) : κ.Sound s.carveBays := by
  have hbays : κ.Bays (s.bays.map fun y => { y with landing := if y.fenced then [] else List.replicate (s.cfg.pers.landingKib / 32) Landing.free }) :=
    Ctx.bays_map h.bays fun _ hy => hy
  unfold State.carveBays
  simp [h, hbays]

theorem State.applyConfig_sound {s : State} (h : κ.Sound s) (c : Cfg) : κ.Sound (s.applyConfig c) := by
  unfold State.applyConfig
  extract_lets s1 s2 s3 s4 s5 s6
  have h1 : κ.Sound s1 := by simp [s1, h]
  have h2 : κ.Sound s2 := State.modBoot_sound h1 h1.flash
  have h3 : κ.Sound s3 := State.carveBays_sound (State.placeAllFixed_sound (State.placeImage_sound h2 _))
  have h4 : κ.Sound s4 := by grind [State.error_sound]
  have h5 : κ.Sound s5 := State.startPorts_sound (State.resumeChain_sound (State.startSentinel_sound (State.restartWindows_sound h4 ..)))
  have h6 : κ.Sound s6 := State.modBoot_sound h5 h5.flash
  exact State.checkWeights_sound (State.each_sound h6 (fun _ _ h => State.startWeight_sound h _) _)

theorem State.bootTile_sound {s : State} (h : κ.Sound s) (t : Nat) : κ.Sound (s.bootTile t) := by
  grind [State.bootTile, State.modTile_sound, Ctx.sound_iff]

theorem State.bootTiles_sound {s : State} (h : κ.Sound s) : κ.Sound (s.bootTiles) := by
  grind [State.bootTiles, State.each_sound, State.bootTile_sound]

theorem State.blowFuse_sound {s : State} (h : κ.Sound s) : κ.Sound (s.blowFuse) := by
  grind [State.blowFuse, State.modBoot_sound, Ctx.flash_of_sound, Ctx.sound_iff]

theorem State.idleCycle_sound {s : State} (h : κ.Sound s) : κ.Sound (s.idleCycle) := by
  grind [State.idleCycle, State.blowFuse_sound, State.tick_sound, Clk.tick_tiles]

theorem doPwrOkRise_sound (straps : Straps) (btnLow : Bool) (ports : List CxlTrain) (devs : List CxlFound) {s : State} (h : κ.Sound s) :
    κ.Sound (doPwrOkRise straps btnLow ports devs s) := by
  grind [doPwrOkRise, State.coldStart_sound]

theorem doPwrOkFall_sound {s : State} (h : κ.Sound s) : κ.Sound (doPwrOkFall s) := by
  grind [doPwrOkFall, State.powerOff_sound]

theorem doColdResetPerform_sound (straps : Straps) (btnLow : Bool) (ports : List CxlTrain) (devs : List CxlFound) {s : State}
    (h : κ.Sound s) : κ.Sound (doColdResetPerform straps btnLow ports devs s) := by
  grind [doColdResetPerform, State.coldStart_sound]

theorem doSysRstNLow_sound {s : State} (h : κ.Sound s) : κ.Sound (doSysRstNLow s) := by
  grind [doSysRstNLow, State.holdReset_sound]

theorem doSysRstNRelease_sound (straps : Straps) (btnLow : Bool) (ports : List CxlTrain) (devs : List CxlFound) {s : State}
    (h : κ.Sound s) : κ.Sound (doSysRstNRelease straps btnLow ports devs s) := by
  grind [doSysRstNRelease, State.coldStart_sound]

theorem State.regain_sound {s : State} (h : κ.Sound s) : κ.Sound (s.regain) := by
  grind [State.regain, State.modClk_sound, Ctx.tiles_of_sound, Ctx.has_modify, Ctx.has_set, Ctx.has_map, State.modPins_sound,
    State.restartBoot_sound, Clk.qualify_tiles, State.modBoot_sound, Ctx.flash_of_sound, Ctx.sound_iff]

theorem doRefQualified_sound (at_ : Nat) {s : State} (h : κ.Sound s) : κ.Sound (doRefQualified at_ s) := by
  grind [doRefQualified, State.advance_sound, State.modClk_sound, Ctx.tiles_of_sound, Ctx.has_modify, Ctx.has_set, Ctx.has_map,
    State.regain_sound, Clk.qualify_tiles, State.modBoot_sound, Ctx.flash_of_sound, Ctx.sound_iff]

theorem doPllLock_sound (at_ : Nat) {s : State} (h : κ.Sound s) : κ.Sound (doPllLock at_ s) := by
  grind [doPllLock, State.advance_sound, State.modClk_sound, Ctx.tiles_of_sound, Ctx.has_modify, Ctx.has_set, Ctx.has_map,
    State.modBoot_sound, Ctx.flash_of_sound, State.askReset_sound, Ctx.sound_iff]

theorem State.bistBay_sound {s : State} (h : κ.Sound s) (b : Fin 80) : κ.Sound (s.bistBay b) := by
  grind [State.bistBay, State.error_sound, State.modBay_sound, Ctx.KeepsBay, Bay.Shaped, Ctx.sound_iff]

theorem State.releaseCxl_sound {s : State} (h : κ.Sound s) : κ.Sound (s.releaseCxl) := by
  grind [State.releaseCxl, State.modPins_sound, Option.map_eq_some_iff, Ctx.sound_iff]

theorem doPowerOnBist_sound (failBays : List (Fin 80)) (hubFail rcDead : Bool) {s : State} (h : κ.Sound s) : κ.Sound
    (doPowerOnBist failBays hubFail rcDead s) := by
  grind [doPowerOnBist, State.each_sound, State.bistBay_sound, State.releaseCxl_sound, State.causeRecord_sound, State.fatal_sound,
    State.enterSafe_sound, State.modBoot_sound, Ctx.flash_of_sound, Ctx.sound_iff]

theorem doSlotVerify_sound (timeoutA timeoutB : Option Nat) {s : State} (h : κ.Sound s) : κ.Sound (doSlotVerify timeoutA timeoutB s) := by
  grind [doSlotVerify, State.modBoot_sound, Ctx.flash_of_sound, State.error_sound, State.enterSafe_sound, Ctx.sound_iff]

theorem doHbmTrainingDone_sound {s : State} (h : κ.Sound s) : κ.Sound (doHbmTrainingDone s) := by
  grind [doHbmTrainingDone, State.applyConfig_sound]

theorem State.weightArrived_sound {s : State} (h : κ.Sound s) (i : Nat) (e : ManifestEntry) (peer delivered : Bool) (data : List Byte) :
    κ.Sound (s.weightArrived i e peer delivered data) := by
  grind [State.weightArrived, State.writeTagged_sound, State.setWeight_sound, State.checkWeights_sound, State.peerFailed_sound,
    State.weightFailed_sound]

theorem doWeightFetchDone_sound (entry : Nat) (peer delivered : Bool) (data : List Byte) {s : State} (h : κ.Sound s) : κ.Sound
    (doWeightFetchDone entry peer delivered data s) := by
  grind [doWeightFetchDone, State.weightArrived_sound]

theorem State.codeListed_sound {s : State} (h : κ.Sound s) (e : ManifestEntry) (w : CodedWeight) : κ.Sound (s.codeListed e w) := by
  grind [State.codeListed, State.each_sound, State.writeUnit_sound]

theorem doWeightCodingDone_sound (entry : Nat) {s : State} (h : κ.Sound s) : κ.Sound (doWeightCodingDone entry s) := by
  grind [doWeightCodingDone, State.each_sound, State.codeListed_sound, State.setWeight_sound, State.checkWeights_sound]

theorem doBootReady_sound {s : State} (h : κ.Sound s) : κ.Sound (doBootReady s) := by
  unfold doBootReady
  split
  · exact h
  extract_lets s1 s2
  have h0 := State.each_sound h (f := State.pursue) (fun _ _ h => State.pursue_sound h _) (List.range 4)
  have h1 : κ.Sound s1 := State.modBoot_sound h0 h0.flash
  have h2 : κ.Sound s2 := State.modStew_sound h1 h1.tokens h1.tokensOut h1.tokenWait h1.gain h1.hbmStep
  exact State.noteIdle_sound (State.checkButton_sound (State.assignId_sound (State.setRunState_sound (State.modClk_sound h2 h2.tiles)) _))

end Sys2Proof.Machine
end

section
/-! What the operations on fabric messages, SPDM and the host commands keep. -/
namespace Sys2Proof.Machine
open Sys2Proof

-- One proof at a time: many short proofs elaborated side by side would cost the check its memory.
set_option Elab.async false

variable {κ : Ctx}

theorem doHelloSend_sound (port : Fin 12) {s : State} (h : κ.Sound s) : κ.Sound (doHelloSend port s) := by
  grind [doHelloSend, State.putMsg_sound, State.countPort_sound]

theorem doHello_sound (port : Fin 12) (h : Hello) (at_ : Nat) {s : State} (hs : κ.Sound s) : κ.Sound (doHello port h at_ s) := by
  grind [doHello, State.advance_sound, State.countPort_sound, State.modNet_sound, State.adjUp_sound, State.feedJoiner_sound,
    Option.map_eq_some_iff, State.assignId_sound, State.adjDown_sound, Ctx.sound_iff]

theorem doHelloTimeout_sound (port : Fin 12) {s : State} (h : κ.Sound s) : κ.Sound (doHelloTimeout port s) := by
  grind [doHelloTimeout, State.adjDown_sound]

theorem State.holdLsa_sound {s : State} (h : κ.Sound s) (r : Lsa) : κ.Sound (s.holdLsa r) := by
  grind [State.holdLsa, State.modNet_sound]

theorem doLsa_sound (port : Fin 12) (r : Lsa) (at_ : Nat) {s : State} (h : κ.Sound s) : κ.Sound (doLsa port r at_ s) := by
  grind [doLsa, State.advance_sound, State.flood_sound, State.idConflict_sound, State.checkMembers_sound, State.holdLsa_sound,
    State.assignId_sound]

theorem doLsaRefresh_sound (at_ : Nat) {s : State} (h : κ.Sound s) : κ.Sound (doLsaRefresh at_ s) := by
  grind [doLsaRefresh, State.advance_sound, State.originate_sound]

theorem doLsaAgeOut_sound (origin : BitVec 8) {s : State} (h : κ.Sound s) : κ.Sound (doLsaAgeOut origin s) := by
  grind [doLsaAgeOut, State.modNet_sound, State.checkMembers_sound, Ctx.sound_iff]

theorem doRouteCompute_sound {s : State} (h : κ.Sound s) : κ.Sound (doRouteCompute s) := by
  grind [doRouteCompute, State.modNet_sound, Ctx.sound_iff]

theorem State.adopt_sound {s : State} (h : κ.Sound s) (r : EpochRec) : κ.Sound (s.adopt r) := by
  unfold State.adopt
  split
  · exact h
  · exact State.modNet_sound h _

theorem doEpoch_sound (port : Fin 12) (r : EpochRec) (at_ : Nat) {s : State} (h : κ.Sound s) : κ.Sound (doEpoch port r at_ s) := by
  unfold doEpoch
  extract_lets s1
  have h1 : κ.Sound s1 := State.advance_sound h _
  clear_value s1
  split
  · exact h1
  split
  · exact h1
  next s2 hs2 =>
    have h2 := State.flood_sound (State.judgeNew_sound h1 _ _ _ hs2) (some port.val) (s2.recordMsg r.origin.toNat 0x03 (epochBytes r))
    exact State.checkMembers_sound (State.assignId_sound (State.adopt_sound (State.modNet_sound h2 _) r) _)

theorem doEpochSettle_sound (at_ : Nat) {s : State} (h : κ.Sound s) : κ.Sound (doEpochSettle at_ s) := by
  grind [doEpochSettle, State.advance_sound, State.settleNow_sound]

theorem doCaps_sound (port : Fin 12) (r : Caps) {s : State} (h : κ.Sound s) : κ.Sound (doCaps port r s) := by
  grind [doCaps, State.judgeNew_sound, State.flood_sound, State.modNet_sound, State.each_sound, State.rePlace_sound, Ctx.sound_iff]

theorem doLeave_sound (port : Fin 12) (r : LeaveRec) {s : State} (h : κ.Sound s) : κ.Sound (doLeave port r s) := by
  grind [doLeave, State.judgeNew_sound, State.flood_sound, State.modNet_sound, State.checkMembers_sound, Ctx.sound_iff]

theorem State.takeTxn_sound {s : State} (h : κ.Sound s) (dst vc tseq : Nat) {x : Txn} {u : State}
    (hu : s.takeTxn dst vc tseq = some (x, u)) : κ.Sound u := by
  grind [State.takeTxn, State.modNet_sound, State.sendNext_sound, Ctx.sound_iff]

theorem State.okMsg_sound {s : State} (hs : κ.Sound s) (h : Header) : κ.Sound (s.okMsg h) := by
  grind [State.okMsg, State.respond_sound]

theorem State.refuseMsg_sound {s : State} (hs : κ.Sound s) (h : Header) (asn reason : Nat) : κ.Sound (s.refuseMsg h asn reason) := by
  grind [State.refuseMsg, State.respond_sound]

theorem State.mergeTokens_sound {s : State} (h : κ.Sound s) (home asn : Nat) : κ.Sound (s.mergeTokens home asn) := by
  grind [State.mergeTokens, State.modQuota_sound, Ctx.sound_iff]

theorem State.judgeToken_sound {s : State} (hs : κ.Sound s) (h : Header) (b : TokenReq) : κ.Sound (s.judgeToken h b) := by
  unfold State.judgeToken
  dsimp only
  repeat' split
  all_goals grind [State.refuseMsg_sound, State.grantToken_sound, State.countFn_sound, State.mergeTokens_sound, State.modNet_sound,
    State.resendMoved_sound, State.respond_sound, Option.map_eq_some_iff, Ctx.sound_iff]

theorem doToken_sound (h : Header) (asn number : BitVec 64) (bases : List (Nat × Nat)) {s : State} (hs : κ.Sound s) : κ.Sound
    (doToken h asn number bases s) := by
  unfold doToken
  dsimp only
  repeat' split
  all_goals grind [State.takeTxn_sound, State.sendMsgTo_sound, State.modNet_sound, Option.map_eq_some_iff, State.modReq_sound,
    State.askNodes_sound, State.replayGranted_sound, Ctx.sound_iff]

theorem State.waitSettle_sound {s : State} (h : κ.Sound s) (asn : Nat) : κ.Sound (s.waitSettle asn) := by
  grind [State.waitSettle, State.releaseTokens_sound, State.returnBacking_sound, State.modReq_sound, State.countFn_sound, Ctx.sound_iff]

theorem doTokenRefuse_sound (h : Header) (asn : BitVec 64) (reason : BitVec 8) {s : State} (hs : κ.Sound s) : κ.Sound
    (doTokenRefuse h asn reason s) := by
  grind [doTokenRefuse, State.takeTxn_sound, State.waitSettle_sound, State.failAdmission_sound, State.refuseAttempt_sound,
    State.failReq_sound]

theorem State.runTokenRelease_sound {s : State} (hs : κ.Sound s) (h : Header) (asn : BitVec 64) : κ.Sound (s.runTokenRelease h asn) := by
  grind [State.runTokenRelease, State.modQuota_sound, Option.map_eq_some_iff, State.dropHome_sound, State.modNet_sound, Ctx.sound_iff]

theorem State.runStepAck_sound {s : State} (hs : κ.Sound s) (h : Header) (wu : WuKey) : κ.Sound (s.runStepAck h wu) := by
  unfold State.runStepAck
  dsimp only
  repeat' split
  all_goals grind [State.modNet_sound, Option.map_eq_some_iff, State.each_sound, State.ackInputs_sound, State.modReqs_sound,
    State.modReq_sound, State.settleReq_sound, Ctx.sound_iff]

theorem State.runAbort_sound {s : State} (hs : κ.Sound s) (h : Header) (asn : BitVec 64) (status : BitVec 8) : κ.Sound
    (s.runAbort h asn status) := by
  unfold State.runAbort
  dsimp only
  repeat' split
  all_goals grind [State.each_sound, State.abandonWu_sound, State.modNet_sound, State.failReqAt_sound, Ctx.sound_iff]

theorem State.runWeightQuery_sound {s : State} (hs : κ.Sound s) (h : Header) (object : BitVec 32) (hash : BitVec 384) : κ.Sound
    (s.runWeightQuery h object hash) := by
  grind [State.runWeightQuery, State.holds_sound, State.sendMsgTo_sound]

theorem State.runWeightHave_sound {s : State} (hs : κ.Sound s) (h : Header) (object : BitVec 32) (holds : Bool) : κ.Sound
    (s.runWeightHave h object holds) := by
  grind [State.runWeightHave, State.holds_sound, Option.map_eq_some_iff, State.askPeer_sound]

theorem State.runRead_sound {s : State} (hs : κ.Sound s) (h : Header) : κ.Sound (s.runRead h) := by
  grind [State.runRead, State.respond_sound, State.homeMeet_sound, State.respondRead_sound]

theorem State.runWrite_sound {s : State} (hs : κ.Sound s) (h : Header) (data : List Byte) : κ.Sound (s.runWrite h data) := by
  grind [State.runWrite, State.lockViolation_sound, State.respond_sound, State.memWrite_sound, State.markTags_sound]

theorem State.runAtomic_sound {s : State} (hs : κ.Sound s) (h : Header) (xf : BitVec 8) (operand compare : BitVec 64) : κ.Sound
    (s.runAtomic h xf operand compare) := by
  grind [State.runAtomic, State.respond_sound, State.atomHome_sound, State.atomHome_sound_eq, State.meet_sound]

theorem State.landUnit_sound {s : State} (h : κ.Sound s) (a : Nat) (tag : BitVec 16) (bytes : List Byte) : κ.Sound
    (s.landUnit a tag bytes) := by
  grind [State.landUnit, State.memWrite_sound, State.writeCoded_sound, State.modMem_sound, Ctx.cells_of_sound, Mem.setTag_cells]

theorem State.landPush_sound {s : State} (h : κ.Sound s) (arg : BitVec 64) (p : PushHeader) (data : List Byte) :
    κ.Sound (s.landPush arg p data) := by
  unfold State.landPush
  extract_lets a
  split
  · exact h
  split
  · generalize codedBody 4 data = l
    have hl : ∀ x : State × Nat, κ.Sound x.1 → κ.Sound (l.foldl (fun x u => (x.1.landUnit x.2 u.1 u.2, x.2 + unitBytes)) x).1 := by
      induction l with
      | nil => exact fun _ hx => hx
      | cons u l ih => exact fun _ hx => ih _ (State.landUnit_sound hx ..)
    exact hl (s, a) h
  · exact State.writeTagged_sound h ..

theorem State.takePush_sound {s : State} (h : κ.Sound s) (src : Nat) (arg : BitVec 64) (p : PushHeader) (data : List Byte) : κ.Sound
    (s.takePush src arg p data) := by
  grind [State.takePush, Option.map_eq_some_iff, State.landPush_sound, State.modNet_sound, Ctx.sound_iff]

theorem State.useLease_sound {s : State} (hs : κ.Sound s) (h : Header) (key : LeaseKey) : κ.Sound (s.useLease h key) := by
  grind [State.useLease, State.respond_sound, State.kvOp_sound]

theorem State.runLease_sound {s : State} (hs : κ.Sound s) (h : Header) (op : LeaseOp) (key : LeaseKey) (leaseEpoch : BitVec 32) : κ.Sound
    (s.runLease h op key leaseEpoch) := by
  unfold State.runLease
  grind [State.modNet_sound, State.respond_sound, State.release_sound, State.useLease_sound, Ctx.sound_iff]

theorem State.runBarrier_sound {s : State} (hs : κ.Sound s) (h : Header) (asn : BitVec 64) (slot : Fin 16)
    (generation arrived count : BitVec 32) (isRelease : Bool) : κ.Sound (s.runBarrier h asn slot generation arrived count isRelease) := by
  unfold State.runBarrier
  dsimp only
  repeat' split
  all_goals grind [State.respond_sound, State.releaseFabric_sound, State.count_sound, State.failReqAt_sound, State.settleFabric_sound,
    Ctx.sound_iff]

theorem doBarrierBatchSend_sound (at_ : Nat) {s : State} (h : κ.Sound s) : κ.Sound (doBarrierBatchSend at_ s) := by
  grind [doBarrierBatchSend, State.advance_sound, Option.map_eq_some_iff, State.each_sound, State.sendReq_sound, State.count_sound,
    State.setFabricBar_sound, Ctx.sound_iff]

theorem State.correctTime_sound {s : State} (h : κ.Sound s) (offset : Int) : κ.Sound (s.correctTime offset) := by
  grind [State.correctTime, State.modNet_sound, State.modClk_sound, Ctx.tiles_of_sound, Ctx.has_modify, Ctx.has_set, Ctx.has_map,
    State.draw_sound, State.draw_sound_eq, Ctx.sound_iff]

theorem State.timeAnswered_sound {s : State} (hs : κ.Sound s) (h : Header) (t1 t2 t3 t4 : Int) : κ.Sound (s.timeAnswered h t1 t2 t3 t4) :=
    by
  grind [State.timeAnswered, State.takeTxn_sound, State.correctTime_sound]

theorem doTimeSyncSend_sound (at_ : Nat) {s : State} (h : κ.Sound s) : κ.Sound (doTimeSyncSend at_ s) := by
  unfold doTimeSyncSend
  extract_lets s1
  have h1 : κ.Sound s1 := State.advance_sound h _
  clear_value s1
  split
  · exact h1
  split
  · exact h1
  · exact State.sendReq_sound h1 _

theorem State.runMsg_sound {s : State} (hs : κ.Sound s) (h : Header) (m : Message) : κ.Sound (s.runMsg h m) := by
  cases m with
  | read => exact State.runRead_sound hs h
  | write data => exact State.runWrite_sound hs h data
  | atomic xf operand compare => exact State.runAtomic_sound hs ..
  | actPush p data => exact State.respond_sound (State.takePush_sound hs ..) ..
  | tokenReq body => exact State.judgeToken_sound hs ..
  | tokenRelease asn => exact State.okMsg_sound (State.runTokenRelease_sound hs ..) h
  | stepAck wu => exact State.okMsg_sound (State.runStepAck_sound hs ..) h
  | abort asn status => exact State.okMsg_sound (State.runAbort_sound hs ..) h
  | weightQuery object hash => exact State.okMsg_sound (State.runWeightQuery_sound hs ..) h
  | weightHave object holds => exact State.okMsg_sound (State.runWeightHave_sound hs ..) h
  | lease op key leaseEpoch => exact State.runLease_sound hs ..
  | barrier asn slot generation arrived count isRelease => exact State.runBarrier_sound hs ..
  | time t2 t3 => exact State.respond_sound hs ..

theorem State.accept_sound {s : State} (hs : κ.Sound s) (h : Header) (m : Message) : κ.Sound (s.accept h m) :=
  State.runMsg_sound (State.modNet_sound hs _) h m

theorem State.deliver_sound {s : State} (h : κ.Sound s) (src vc fuel : Nat) : κ.Sound (s.deliver src vc fuel) := by
  induction fuel generalizing s with
  | zero => exact h
  | succ fuel ih =>
    unfold State.deliver
    split
    · exact h
    · exact ih (State.accept_sound h ..)

theorem State.receive_sound {s : State} (hs : κ.Sound s) (h : Header) (m : Message) : κ.Sound (s.receive h m) := by
  grind [State.receive, State.route_sound, State.modNet_sound, State.accept_sound, State.deliver_sound]

theorem doRead_sound (h : Header) {s : State} (hs : κ.Sound s) : κ.Sound (doRead h s) := by
  grind [doRead, State.receive_sound]

theorem doWrite_sound (h : Header) (data : List Byte) {s : State} (hs : κ.Sound s) : κ.Sound (doWrite h data s) := by
  grind [doWrite, State.receive_sound]

theorem doAtomic_sound (h : Header) (ord : BitVec 4) (xf : BitVec 8) (operand compare : BitVec 64) {s : State} (hs : κ.Sound s) : κ.Sound
    (doAtomic h ord xf operand compare s) := by
  grind [doAtomic, State.receive_sound]

theorem doActPush_sound (h : Header) (p : PushHeader) (data : List Byte) {s : State} (hs : κ.Sound s) : κ.Sound (doActPush h p data s) := by
  grind [doActPush, State.receive_sound]

theorem doTokenReq_sound (h : Header) (body : TokenReq) {s : State} (hs : κ.Sound s) : κ.Sound (doTokenReq h body s) := by
  grind [doTokenReq, State.receive_sound]

theorem doTokenRelease_sound (h : Header) (asn : BitVec 64) {s : State} (hs : κ.Sound s) : κ.Sound (doTokenRelease h asn s) := by
  grind [doTokenRelease, State.receive_sound]

theorem doStepAck_sound (h : Header) (wu : WuKey) {s : State} (hs : κ.Sound s) : κ.Sound (doStepAck h wu s) := by
  grind [doStepAck, State.receive_sound]

theorem doAbort_sound (h : Header) (asn : BitVec 64) (status : BitVec 8) {s : State} (hs : κ.Sound s) : κ.Sound (doAbort h asn status s)
    := by
  grind [doAbort, State.receive_sound]

theorem doWeightQuery_sound (h : Header) (object : BitVec 32) (hash : BitVec 384) {s : State} (hs : κ.Sound s) : κ.Sound
    (doWeightQuery h object hash s) := by
  grind [doWeightQuery, State.receive_sound]

theorem doWeightHave_sound (h : Header) (object : BitVec 32) (holds : Bool) {s : State} (hs : κ.Sound s) : κ.Sound
    (doWeightHave h object holds s) := by
  grind [doWeightHave, State.receive_sound, State.holds_sound]

theorem doLease_sound (h : Header) (op : LeaseOp) (key : LeaseKey) (leaseEpoch : BitVec 32) {s : State} (hs : κ.Sound s) : κ.Sound
    (doLease h op key leaseEpoch s) := by
  grind [doLease, State.receive_sound]

theorem doBarrier_sound (h : Header) (asn : BitVec 64) (slot : Fin 16) (generation arrived count : BitVec 32) (isRelease : Bool)
    {s : State} (hs : κ.Sound s) : κ.Sound (doBarrier h asn slot generation arrived count isRelease s) := by
  grind [doBarrier, State.receive_sound, State.count_sound]

theorem doTime_sound (h : Header) (isResponse : Bool) (t1 t2 t3 t4 : Int) {s : State} (hs : κ.Sound s) : κ.Sound
    (doTime h isResponse t1 t2 t3 t4 s) := by
  grind [doTime, State.receive_sound, State.timeAnswered_sound]

theorem State.accessFault_sound {s : State} (h : κ.Sound s) (b : Fin 80) (t : Fin 128) (pc : Word) (status addr : Nat) : κ.Sound
    (s.accessFault b t pc status addr) := by
  grind [State.accessFault, State.exceptAt_sound]

theorem State.loadArrives_sound {s : State} (h : κ.Sound s) (b : Fin 80) (t : Fin 128) (reg n : Nat) (sg vec : Bool) (data : List Byte) :
    κ.Sound (s.loadArrives b t reg n sg vec data) := by
  grind [State.loadArrives, State.modThr_sound, Ctx.KeepsThr, Thread.Shaped, Thread.loaded_shaped, Ctx.sound_iff]

theorem State.answered_sound {s : State} (h : κ.Sound s) (x : Txn) (status epoch : Nat) (arg : BitVec 64) (data : List Byte) : κ.Sound
    (s.answered x status epoch arg data) := by
  grind [State.answered, State.loadArrives_sound, State.accessFault_sound, State.modThr_sound, Ctx.KeepsThr, Thread.Shaped,
    Thread.setG_shaped, Thread.next_shaped, State.modMover_sound, State.modNet_sound, State.push_sound, Option.map_eq_some_iff,
    State.ackInputs_sound, State.finishCommit_sound, State.failReqAt_sound, State.modReq_sound, State.tryContext_sound, Ctx.sound_iff]

theorem doTransportResponse_sound (h : Header) (vc : BitVec 2) (data : List Byte) {s : State} (hs : κ.Sound s) : κ.Sound
    (doTransportResponse h vc data s) := by
  grind [doTransportResponse, State.takeTxn_sound, State.answered_sound]

theorem State.txnFails_sound {s : State} (h : κ.Sound s) (x : Txn) : κ.Sound (s.txnFails x) := by
  grind [State.txnFails, State.modNet_sound, State.exceptAt_sound, State.except_sound, State.modMover_sound, State.failReq_sound,
    State.push_sound, State.sendMsgTo_sound, State.askPeer_sound, State.finishCommit_sound, Ctx.sound_iff]

theorem State.txnLeft_sound {s : State} (h : κ.Sound s) (x : Txn) : κ.Sound (s.txnLeft x) := by
  grind [State.txnLeft, State.abandonLeft_sound, State.finishCommit_sound]

theorem doRequestTimeout_sound (dst : BitVec 8) (vc : BitVec 2) (tseq : BitVec 32) (at_ : Nat) {s : State} (h : κ.Sound s) : κ.Sound
    (doRequestTimeout dst vc tseq at_ s) := by
  grind [doRequestTimeout, State.advance_sound, State.modNet_sound, Option.map_eq_some_iff, State.route_sound, State.txnFails_sound,
    State.sendNext_sound, State.txnLeft_sound, Ctx.sound_iff]

theorem doTransitDrop_sound (port : Fin 12) (vc : BitVec 2) {s : State} (h : κ.Sound s) : κ.Sound (doTransitDrop port vc s) := by
  grind [doTransitDrop, State.modPort_sound, Ctx.KeepsPort, State.modNet_sound, Ctx.sound_iff]

theorem State.drawNonce_sound {s : State} (h : κ.Sound s) : κ.Sound (s.drawNonce).2 := by
  grind [State.drawNonce, State.entropy_sound, State.entropy_sound_eq, Ctx.sound_iff]

theorem State.drawNonce_sound_eq {s : State} (h : κ.Sound s) {x : List Byte} {u : State}
    (hu : s.drawNonce = (x, u)) : κ.Sound u := by
  simpa [hu] using State.drawNonce_sound h

theorem State.drawSignature_sound {s : State} (h : κ.Sound s) : κ.Sound (s.drawSignature).2 := by
  grind [State.drawSignature, State.drawBytes_sound, State.drawBytes_sound_eq]

theorem State.drawSignature_sound_eq {s : State} (h : κ.Sound s) {x : List Byte} {u : State}
    (hu : s.drawSignature = (x, u)) : κ.Sound u := by
  simpa [hu] using State.drawSignature_sound h

theorem State.sendDoe_sound {s : State} (h : κ.Sound s) (bytes : List Byte) : κ.Sound (s.sendDoe bytes) := by
  grind [State.sendDoe, State.emit_sound, Port.emit_vcq, Ctx.KeepsPort]

theorem State.doeVersion_sound {s : State} (h : κ.Sound s) : κ.Sound (s.doeVersion) := by
  grind [State.doeVersion, State.modHost_sound, Ctx.pages_of_sound, Ctx.has_modify, Ctx.has_set, Ctx.has_map, State.sendDoe_sound,
    Ctx.sound_iff]

theorem State.doeCapabilities_sound {s : State} (h : κ.Sound s) : κ.Sound (s.doeCapabilities) := by
  grind [State.doeCapabilities, State.drawBytes_sound, State.drawBytes_sound_eq, State.modHost_sound, Ctx.pages_of_sound, Ctx.has_modify,
    Ctx.has_set, Ctx.has_map, State.sendDoe_sound, Ctx.sound_iff]

theorem State.doeAlgorithms_sound {s : State} (h : κ.Sound s) (p384 sha : Bool) : κ.Sound (s.doeAlgorithms p384 sha) := by
  grind [State.doeAlgorithms, State.modHost_sound, Ctx.pages_of_sound, Ctx.has_modify, Ctx.has_set, Ctx.has_map, State.sendDoe_sound,
    Ctx.sound_iff]

theorem State.doeCertificate_sound {s : State} (h : κ.Sound s) (slot offset length : Nat) : κ.Sound (s.doeCertificate slot offset length)
    := by
  grind [State.doeCertificate, State.sendDoe_sound]

theorem State.doeChallenge_sound {s : State} (h : κ.Sound s) (slot : Nat) : κ.Sound (s.doeChallenge slot) := by
  grind [State.doeChallenge, State.sendDoe_sound, State.drawNonce_sound, State.drawNonce_sound_eq, State.drawSignature_sound,
    State.drawSignature_sound_eq]

theorem State.doeMeasurements_sound {s : State} (h : κ.Sound s) (index : Nat) (sign : Bool) : κ.Sound (s.doeMeasurements index sign) := by
  grind [State.doeMeasurements, State.sendDoe_sound, State.drawNonce_sound, State.drawNonce_sound_eq, State.drawSignature_sound,
    State.drawSignature_sound_eq]

theorem State.doeAnswer_sound {s : State} (h : κ.Sound s) (r : DoeReq) : κ.Sound (s.doeAnswer r) := by
  unfold State.doeAnswer
  grind [State.sendDoe_sound, State.doeVersion_sound, State.doeCapabilities_sound, State.doeAlgorithms_sound, State.doeCertificate_sound,
    State.doeChallenge_sound, State.doeMeasurements_sound]

theorem State.doe_sound {s : State} (h : κ.Sound s) (r : DoeReq) : κ.Sound (s.doe r) := by
  grind [State.doe, State.holdTlp_sound, State.doeAnswer_sound]

theorem doArm_sound (f : Fin 16) (value : BitVec 32) {s : State} (h : κ.Sound s) : κ.Sound (doArm f value s) := by
  grind [doArm, State.hostReg_sound]

theorem doDisarm_sound (f : Fin 16) {s : State} (h : κ.Sound s) : κ.Sound (doDisarm f s) := by
  grind [doDisarm, State.hostReg_sound]

theorem doTailErrClear_sound (f : Fin 16) {s : State} (h : κ.Sound s) : κ.Sound (doTailErrClear f s) := by
  grind [doTailErrClear, State.hostReg_sound]

theorem doCplHead_sound (f : Fin 16) (value : BitVec 32) {s : State} (h : κ.Sound s) : κ.Sound (doCplHead f value s) := by
  grind [doCplHead, State.hostReg_sound]

theorem doAudHead_sound (value : BitVec 32) {s : State} (h : κ.Sound s) : κ.Sound (doAudHead value s) := by
  grind [doAudHead, State.hostReg_sound]

theorem doIrqCauseClear_sound (f : Fin 16) (value : BitVec 32) {s : State} (h : κ.Sound s) : κ.Sound (doIrqCauseClear f value s) := by
  grind [doIrqCauseClear, State.hostReg_sound]

theorem doTake_sound {s : State} (h : κ.Sound s) : κ.Sound (doTake s) := by
  grind [doTake, State.hostReg_sound]

theorem doLoad_sound (index : BitVec 10) {s : State} (h : κ.Sound s) : κ.Sound (doLoad index s) := by
  grind [doLoad, State.hostReg_sound]

theorem doRegisterWrite_sound (f : Fin 16) (win : Window) (offset width : Nat) (value : BitVec 64) (dma : Option (List Byte)) {s : State}
    (h : κ.Sound s) : κ.Sound (doRegisterWrite f win offset width value dma s) := by
  grind [doRegisterWrite, State.hostReg_sound]

theorem doFlr_sound (f : Fin 16) {s : State} (h : κ.Sound s) : κ.Sound (doFlr f s) := by
  grind [doFlr, State.holdTlp_sound, State.clearPage_sound]

theorem doPerstNAssert_sound {s : State} (h : κ.Sound s) : κ.Sound (doPerstNAssert s) := by
  grind [doPerstNAssert, State.modPins_sound, State.hostLinkReset_sound, Ctx.sound_iff]

theorem doPerstNDeassert_sound {s : State} (h : κ.Sound s) : κ.Sound (doPerstNDeassert s) := by
  grind [doPerstNDeassert, State.modPins_sound, Ctx.sound_iff]

theorem State.sendPending_sound {s : State} (h : κ.Sound s) (f : Fin 16) : κ.Sound (s.sendPending f) := by
  grind [State.sendPending, State.modPage_sound, State.each_sound, State.sendMsix_sound, Ctx.sound_iff]

theorem State.configure_sound {s : State} (h : κ.Sound s) (w : ConfigWrite) : κ.Sound (s.configure w) := by
  unfold State.configure
  grind [State.modPage_sound, State.sendPending_sound, State.tryDrain_sound, State.each_sound, State.clearPage_sound, Ctx.sound_iff]

theorem doConfigSpaceWrite_sound (w : ConfigWrite) {s : State} (h : κ.Sound s) : κ.Sound (doConfigSpaceWrite w s) := by
  grind [doConfigSpaceWrite, State.holdTlp_sound, State.configure_sound]

theorem doPcieLinkUp_sound {s : State} (h : κ.Sound s) : κ.Sound (doPcieLinkUp s) := by
  grind [doPcieLinkUp, State.draw_sound, State.draw_sound_eq, State.modHost_sound, Ctx.pages_of_sound, Ctx.has_modify, Ctx.has_set,
    Ctx.has_map, State.raise_sound, State.tryDrain_sound, Ctx.sound_iff]

theorem doDoeDiscovery_sound (index : BitVec 8) {s : State} (h : κ.Sound s) : κ.Sound (doDoeDiscovery index s) := by
  grind [doDoeDiscovery, State.doe_sound]

theorem doGetVersion_sound {s : State} (h : κ.Sound s) : κ.Sound (doGetVersion s) := by
  grind [doGetVersion, State.doe_sound]

theorem doGetCapabilities_sound {s : State} (h : κ.Sound s) : κ.Sound (doGetCapabilities s) := by
  grind [doGetCapabilities, State.doe_sound]

theorem doNegotiateAlgorithms_sound (ecdsaP384 sha384 : Bool) {s : State} (h : κ.Sound s) : κ.Sound
    (doNegotiateAlgorithms ecdsaP384 sha384 s) := by
  grind [doNegotiateAlgorithms, State.doe_sound]

theorem doGetDigests_sound {s : State} (h : κ.Sound s) : κ.Sound (doGetDigests s) := by
  grind [doGetDigests, State.doe_sound]

theorem doGetCertificate_sound (slot : BitVec 8) (offset length : BitVec 16) {s : State} (h : κ.Sound s) : κ.Sound
    (doGetCertificate slot offset length s) := by
  grind [doGetCertificate, State.doe_sound]

theorem doChallenge_sound (slot : BitVec 8) (nonce : BitVec 256) {s : State} (h : κ.Sound s) : κ.Sound (doChallenge slot nonce s) := by
  grind [doChallenge, State.doe_sound]

theorem doGetMeasurements_sound (index : BitVec 8) (sign : Bool) (nonce : BitVec 256) {s : State} (h : κ.Sound s) : κ.Sound
    (doGetMeasurements index sign nonce s) := by
  grind [doGetMeasurements, State.doe_sound]

theorem doUnsupportedRequest_sound (r : ForeignReq) {s : State} (h : κ.Sound s) : κ.Sound (doUnsupportedRequest r s) := by
  unfold doUnsupportedRequest
  grind [State.doe_sound, State.holdTlp_sound, State.emit_sound, Port.emit_vcq, Ctx.KeepsPort]

theorem State.smbAnswer_sound {s : State} (h : κ.Sound s) (bytes : List Byte) : κ.Sound (s.smbAnswer bytes) := by
  grind [State.smbAnswer, State.modPins_sound, Ctx.sound_iff]

theorem doSmbusStatus_sound {s : State} (h : κ.Sound s) : κ.Sound (doSmbusStatus s) := by
  grind [doSmbusStatus, State.smbAnswer_sound]

theorem doSmbusTmax_sound {s : State} (h : κ.Sound s) : κ.Sound (doSmbusTmax s) := by
  grind [doSmbusTmax, State.smbAnswer_sound]

theorem doSmbusModulePower_sound {s : State} (h : κ.Sound s) : κ.Sound (doSmbusModulePower s) := by
  grind [doSmbusModulePower, State.smbAnswer_sound]

theorem doSmbusHbmTemp_sound {s : State} (h : κ.Sound s) : κ.Sound (doSmbusHbmTemp s) := by
  grind [doSmbusHbmTemp, State.smbAnswer_sound, State.foldl_sound]

theorem doSmbusNodeEpoch_sound {s : State} (h : κ.Sound s) : κ.Sound (doSmbusNodeEpoch s) := by
  grind [doSmbusNodeEpoch, State.smbAnswer_sound]

theorem doSmbusDegradedCount_sound {s : State} (h : κ.Sound s) : κ.Sound (doSmbusDegradedCount s) := by
  grind [doSmbusDegradedCount, State.smbAnswer_sound]

theorem doSmbusStepping_sound {s : State} (h : κ.Sound s) : κ.Sound (doSmbusStepping s) := by
  grind [doSmbusStepping, State.smbAnswer_sound]

theorem doSmbusBusTimeout_sound {s : State} (h : κ.Sound s) : κ.Sound (doSmbusBusTimeout s) := by
  grind [doSmbusBusTimeout, State.modPins_sound, Ctx.sound_iff]

theorem doCxlEventPoll_sound (at_ : Nat) (events : List CxlEvent) {s : State} (h : κ.Sound s) : κ.Sound (doCxlEventPoll at_ events s) := by
  grind [doCxlEventPoll, State.advance_sound, Option.map_eq_some_iff, State.each_sound, State.countT2_sound, State.error_sound]

theorem doCxlDeviceLost_sound (dev : Fin 4) {s : State} (h : κ.Sound s) : κ.Sound (doCxlDeviceLost dev s) := by
  grind [doCxlDeviceLost, State.modCxl_sound, State.error_sound, Ctx.sound_iff]

theorem doTapInstruction_sound (i : TapInstr) {s : State} (h : κ.Sound s) : κ.Sound (doTapInstruction i s) := by
  grind [doTapInstruction, State.modPins_sound, Ctx.sound_iff]

end Sys2Proof.Machine
end

section
/-! What the operations on the mailbox, the movers and cell steps keep. -/
namespace Sys2Proof.Machine
open Sys2Proof

-- One proof at a time: many short proofs elaborated side by side would cost the check its memory.
set_option Elab.async false

variable {κ : Ctx}

theorem doStageImage_sound (f : Fin 16) (seq : BitVec 16) (dma : Option (List Byte)) {s : State} (h : κ.Sound s) : κ.Sound
    (doStageImage f seq dma s) := by
  grind [doStageImage, State.hostReg_sound]

theorem doCommitImage_sound (f : Fin 16) (seq : BitVec 16) {s : State} (h : κ.Sound s) : κ.Sound (doCommitImage f seq s) := by
  grind [doCommitImage, State.hostReg_sound]

theorem doGetInfo_sound (f : Fin 16) (seq : BitVec 16) {s : State} (h : κ.Sound s) : κ.Sound (doGetInfo f seq s) := by
  grind [doGetInfo, State.hostReg_sound]

theorem doSetTunable_sound (f : Fin 16) (seq : BitVec 16) {s : State} (h : κ.Sound s) : κ.Sound (doSetTunable f seq s) := by
  grind [doSetTunable, State.hostReg_sound]

theorem doQuiesce_sound (f : Fin 16) (seq : BitVec 16) {s : State} (h : κ.Sound s) : κ.Sound (doQuiesce f seq s) := by
  grind [doQuiesce, State.hostReg_sound]

theorem doResume_sound (f : Fin 16) (seq : BitVec 16) {s : State} (h : κ.Sound s) : κ.Sound (doResume f seq s) := by
  grind [doResume, State.hostReg_sound]

theorem doWarmReset_sound (f : Fin 16) (seq : BitVec 16) {s : State} (h : κ.Sound s) : κ.Sound (doWarmReset f seq s) := by
  grind [doWarmReset, State.hostReg_sound]

theorem doSnapshot_sound (f : Fin 16) (seq : BitVec 16) {s : State} (h : κ.Sound s) : κ.Sound (doSnapshot f seq s) := by
  grind [doSnapshot, State.hostReg_sound]

theorem doPlumbNow_sound (f : Fin 16) (seq : BitVec 16) {s : State} (h : κ.Sound s) : κ.Sound (doPlumbNow f seq s) := by
  grind [doPlumbNow, State.hostReg_sound]

theorem doSentinelRead_sound (f : Fin 16) (seq : BitVec 16) {s : State} (h : κ.Sound s) : κ.Sound (doSentinelRead f seq s) := by
  grind [doSentinelRead, State.hostReg_sound]

theorem doExportPubkey_sound (f : Fin 16) (seq : BitVec 16) {s : State} (h : κ.Sound s) : κ.Sound (doExportPubkey f seq s) := by
  grind [doExportPubkey, State.hostReg_sound]

theorem doSetTimeOffset_sound (f : Fin 16) (seq : BitVec 16) {s : State} (h : κ.Sound s) : κ.Sound (doSetTimeOffset f seq s) := by
  grind [doSetTimeOffset, State.hostReg_sound]

theorem doLeaveFabric_sound (f : Fin 16) (seq : BitVec 16) {s : State} (h : κ.Sound s) : κ.Sound (doLeaveFabric f seq s) := by
  grind [doLeaveFabric, State.hostReg_sound]

theorem doQuiesceComplete_sound {s : State} (h : κ.Sound s) : κ.Sound (doQuiesceComplete s) := by
  grind [doQuiesceComplete, State.modReqs_sound, State.quiescePost_sound, State.mbxGo_sound, Ctx.sound_iff]

theorem doFlashOperationDone_sound (ok : Bool) (at_ : Nat) {s : State} (h : κ.Sound s) : κ.Sound (doFlashOperationDone ok at_ s) := by
  grind [doFlashOperationDone, State.advance_sound, State.modBoot_sound, Ctx.flash_of_sound, Boot.applyFlash_flash,
    State.flashEnded_sound, Boot.startFlash_flash]

theorem doSnapshotPulse_sound {s : State} (h : κ.Sound s) : κ.Sound (doSnapshotPulse s) := by
  grind [doSnapshotPulse, State.pulse_sound]

theorem doPeriodicSnapshot_sound (at_ : Nat) {s : State} (h : κ.Sound s) : κ.Sound (doPeriodicSnapshot at_ s) := by
  grind [doPeriodicSnapshot, State.advance_sound, State.modCnt_sound, Ctx.sound_iff]

theorem doBandwidthWindowEnd_sound (at_ : Nat) {s : State} (h : κ.Sound s) : κ.Sound (doBandwidthWindowEnd at_ s) := by
  grind [doBandwidthWindowEnd, State.advance_sound, State.endWindow_sound]

theorem State.moveSend_sound {s : State} (h : κ.Sound s) (b : Fin 80) (m : Fin 2) (node a mark : Nat) (bs : List Byte) : κ.Sound
    (s.moveSend b m node a mark bs) := by
  grind [State.moveSend, State.each_sound, State.sendReq_sound]

theorem State.moveWrite_sound {s : State} (h : κ.Sound s) (b : Fin 80) (m : Fin 2) (tag : Bool) (node a : Nat) (bs : List Byte)
    {u : State} (hu : s.moveWrite b m tag node a bs = .ok u) : κ.Sound u := by
  grind [State.moveWrite, State.moveSend_sound, State.countBay_sound, State.error_sound, State.writeTagged_sound, State.memWrite_sound]

theorem State.moveWriteUnit_sound {s : State} (h : κ.Sound s) (b : Fin 80) (m : Fin 2) (code wide : Bool) (node a : Nat) (tag : BitVec 16)
    (stored : List Byte) {u : State} (hu : s.moveWriteUnit b m code wide node a tag stored = .ok u) : κ.Sound u := by
  grind [State.moveWriteUnit, State.moveSend_sound, State.countBay_sound, State.error_sound, State.writeCoded_sound,
    State.writeUnit_sound, State.memWrite_sound]

theorem State.foldl_ok_sound {α : Type} {f : Except FaultInfo State → α → Except FaultInfo State}
    (hf : ∀ a x u, (∀ s, a = .ok s → κ.Sound s) → f a x = .ok u → κ.Sound u) (l : List α) {a : Except FaultInfo State}
    (ha : ∀ s, a = .ok s → κ.Sound s) {u : State} (hu : l.foldl f a = .ok u) : κ.Sound u := by
  induction l generalizing a with
  | nil => exact ha u hu
  | cons x l ih => exact ih (fun s hs => hf a x s ha hs) hu

theorem State.moveWriteTile_sound {s : State} (h : κ.Sound s) (b : Fin 80) (m : Fin 2) (code wide : Bool) (node a : Nat)
    (us : List (BitVec 16 × List Byte)) {u : State} (hu : s.moveWriteTile b m code wide node a us = .ok u) : κ.Sound u := by
  refine State.foldl_ok_sound (fun a x u ha hu => ?_) _ (fun t ht => by cases ht; exact h) hu
  split at hu
  · cases hu
  next s => exact State.moveWriteUnit_sound (ha s rfl) _ _ _ _ _ _ _ _ hu

theorem State.runUnits_sound {α : Type} {step : State → α → Except FaultInfo State}
    (hstep : ∀ s x u, κ.Sound s → step s x = .ok u → κ.Sound u) (l : List α) {s : State} (h : κ.Sound s) :
    κ.Sound (State.runUnits step l s).1 := by
  induction l generalizing s with
  | nil => exact h
  | cons x l ih =>
    unfold State.runUnits
    split
    next u hu => exact ih (hstep s x u h hu)
    · exact h

theorem State.meetMove_sound {s : State} (h : κ.Sound s) (b : Fin 80) (mode : TagMode) (node a n : Nat) : κ.Sound
    (s.meetMove b mode node a n) := by
  unfold State.meetMove
  grind [State.meet_sound, State.meetTagged_sound, State.countBay_sound]

theorem State.runLinear_sound {s : State} (h : κ.Sound s) (b : Fin 80) (m : Fin 2) (mv : Mover) (d : MoveDesc) (sn dn : Nat) :
    κ.Sound (s.runLinear b m mv d sn dn).1 := by
  unfold State.runLinear
  extract_lets a e n good0
  split
  next bs f _ =>
  extract_lets good room s1
  have h1 : κ.Sound s1 := State.meetMove_sound h ..
  clear_value s1
  split
  · exact h1
  next u hu => exact State.moveWrite_sound h1 _ _ _ _ _ _ hu

theorem State.runTileMove_sound {s : State} (h : κ.Sound s) (b : Fin 80) (m : Fin 2) (mv : Mover) (d : MoveDesc) (sn dn : Nat)
    (code : Bool) : κ.Sound (s.runTileMove b m mv d sn dn code).1 := by
  refine State.runUnits_sound (fun s i u h hu => ?_) _ h
  dsimp only at hu
  split at hu
  · cases hu
  · exact State.moveWriteTile_sound (State.meetMove_sound h ..) _ _ _ _ _ _ _ hu

theorem State.runPack_sound {s : State} (h : κ.Sound s) (b : Fin 80) (m : Fin 2) (mv : Mover) (d : MoveDesc) (sn dn : Nat)
    (code : Bool) : κ.Sound (s.runPack b m mv d sn dn code).1 := by
  refine State.runUnits_sound (fun s i u h hu => ?_) _ h
  dsimp only at hu
  split at hu
  · cases hu
  · exact State.moveWriteTile_sound (State.each_sound h (fun _ _ h => State.meetMove_sound h ..) _) _ _ _ _ _ _ _ hu

theorem State.runUnpack_sound {s : State} (h : κ.Sound s) (b : Fin 80) (m : Fin 2) (mv : Mover) (d : MoveDesc) (sn dn : Nat) :
    κ.Sound (s.runUnpack b m mv d sn dn).1 := by
  refine State.runUnits_sound (fun s i u h hu => ?_) _ h
  dsimp only at hu
  split at hu
  · cases hu
  · refine State.foldl_ok_sound (fun a x u ha hu => ?_) _ (fun t ht => by cases ht; exact State.meetMove_sound h ..) hu
    split at hu
    · cases hu
    next s => exact State.moveWrite_sound (ha s rfl) _ _ _ _ _ _ hu

theorem State.meetCell_sound {s : State} (h : κ.Sound s) (b : Fin 80) (task : Task) (d : CellDesc) (refs : List SlotRef) : κ.Sound
    (s.meetCell b task d refs) := by
  grind [State.meetCell, Option.map_eq_some_iff, State.meetOperand_sound]

theorem State.putRow_sound {s : State} (h : κ.Sound s) (d : CellDesc) (addr m : Nat) (parts : List (List Nat)) : κ.Sound
    (s.putRow d addr m parts) := by
  grind [State.putRow, State.each_sound, State.memWrite_sound]

theorem State.runCell_sound {s : State} (h : κ.Sound s) (b : Fin 80) (task : Task) (d : CellDesc) : κ.Sound (s.runCell b task d).1 := by
  unfold State.runCell
  dsimp only
  repeat' split
  all_goals grind [State.meetCell_sound, State.error_sound, Option.map_eq_some_iff, State.each_sound, State.memWrite_sound,
    State.putRow_sound, State.countBay_sound, State.holds_sound, State.modReq_sound, Ctx.sound_iff]

theorem State.runCell_sound_eq {s : State} (h : κ.Sound s) (b : Fin 80) (task : Task) (d : CellDesc) {x : Option FaultInfo} {u : State}
    (hu : s.runCell b task d = (u, x)) : κ.Sound u := by
  simpa [hu] using State.runCell_sound h b task d

theorem State.entryRan_sound {s : State} (h : κ.Sound s) (b : Fin 80) (m : Fin 2) (t2 : Option Nat) (f : Option FaultInfo) :
    κ.Sound (s.entryRan b m t2 f) := by
  unfold State.entryRan
  extract_lets s1
  have h1 : κ.Sound s1 := State.modMover_sound h ..
  clear_value s1
  split
  next x =>
    extract_lets s2
    have h2 : κ.Sound s2 := by
      simp only [s2]
      split
      · exact State.modMem_sound h1 h1.cells
      · exact h1
    split
    · cases t2 with
      | none => exact h2
      | some d => exact State.countT2_sound h2 ..
    · exact h2
  · exact h1

theorem State.headEntry_sound {s : State} (h : κ.Sound s) (b : Fin 80) (m : Fin 2) (kind : Nat → Bool)
    {go : State → Task → Mover → QEntry → State} (hgo : ∀ s t v e, κ.Sound s → κ.Sound (go s t v e)) : κ.Sound (s.headEntry b m kind go) := by
  unfold State.headEntry
  dsimp only
  split
  · split
    · exact hgo _ _ _ _ h
    · exact h
  · exact h

theorem State.askRemote_sound {s : State} (h : κ.Sound s) (b : Fin 80) (m : Fin 2) (node : Nat) (d : MoveDesc) : κ.Sound
    (s.askRemote b m node d) := by
  grind [State.askRemote, State.foldl_sound, State.sendReq_sound, State.modMover_sound, Ctx.sound_iff]

theorem State.runMove_sound {s : State} (h : κ.Sound s) (b : Fin 80) (m : Fin 2) (kind : Nat → Bool) : κ.Sound (s.runMove b m kind) := by
  refine State.headEntry_sound h _ _ _ fun s task mv e h => ?_
  dsimp only
  split
  · split
    · exact State.abandonLeft_sound h ..
    · refine State.entryRan_sound ?_ ..
      split
      · exact State.lockViolation_sound h ..
      · exact h
  split
  · split
    · exact State.askRemote_sound h ..
    split
    · exact h
    refine State.entryRan_sound ?_ ..
    split
    · exact State.runLinear_sound h ..
    split
    · exact State.runTileMove_sound h ..
    split
    · exact State.runPack_sound h ..
    · exact State.runUnpack_sound h ..
  · exact h

theorem doLinear_sound (bay : Fin 80) (mover : Fin 2) {s : State} (h : κ.Sound s) : κ.Sound (doLinear bay mover s) := by
  grind [doLinear, State.runMove_sound]

theorem doTile_sound (bay : Fin 80) (mover : Fin 2) {s : State} (h : κ.Sound s) : κ.Sound (doTile bay mover s) := by
  grind [doTile, State.runMove_sound]

theorem doPack_sound (bay : Fin 80) (mover : Fin 2) {s : State} (h : κ.Sound s) : κ.Sound (doPack bay mover s) := by
  grind [doPack, State.runMove_sound]

theorem doUnpack_sound (bay : Fin 80) (mover : Fin 2) {s : State} (h : κ.Sound s) : κ.Sound (doUnpack bay mover s) := by
  grind [doUnpack, State.runMove_sound]

theorem doMoverTagComplete_sound (bay : Fin 80) (mover : Fin 2) {s : State} (h : κ.Sound s) : κ.Sound (doMoverTagComplete bay mover s) := by
  grind [doMoverTagComplete, State.modMover_sound, State.failMove_sound, State.afterExit_sound, State.countBay_sound, Ctx.sound_iff]

theorem doCellStep_sound (bay : Fin 80) (mover : Fin 2) {s : State} (h : κ.Sound s) : κ.Sound (doCellStep bay mover s) := by
  grind [doCellStep, State.headEntry_sound, State.entryRan_sound, Port.drain_vcq, Ctx.KeepsPort, State.modBay_sound, Ctx.KeepsBay,
    Bay.Shaped, State.readyArray_sound, State.readyArray_sound_eq, State.runCell_sound, State.runCell_sound_eq, Ctx.sound_iff]

theorem State.appendRows_sound {s : State} (h : κ.Sound s) (b : Fin 80) (task : Task) (rid row layer : Nat) (g : StageCfg)
    (l : List (List Byte × List Byte)) : κ.Sound (s.appendRows b task rid row layer g l) := by
  induction l generalizing s with
  | nil => exact h
  | cons x l ih =>
    obtain ⟨k, v⟩ := x
    unfold State.appendRows
    split
    · exact ih (State.appendOne_sound h ..)
    · exact h

theorem State.meetPosition_sound {s : State} (h : κ.Sound s) (w : KvWork) (r : KvRec) (g : StageCfg) (vPart : Bool) (p : Nat) : κ.Sound
    (s.meetPosition w r g vPart p) := by
  grind [State.meetPosition, State.meet_sound, State.meetTagged_sound]

theorem State.runKv_sound {s : State} (h : κ.Sound s) (b : Fin 80) (m : Fin 2) (append : Bool) : κ.Sound (s.runKv b m append) := by
  refine State.headEntry_sound h _ _ _ fun s task _ e h => ?_
  dsimp only
  split
  · exact State.entryRan_sound h ..
  next g _ =>
  split
  · exact State.entryRan_sound h ..
  · exact State.entryRan_sound h ..
  next r0 _ _ =>
  have hbind := fun row layer => State.bind_sound h b task r0 row layer g
  split
  · exact State.entryRan_sound h ..
  next s1 hs1 => simpa [hs1, Ctx.SoundBound] using hbind (KvDesc.row e.desc) (KvDesc.layer e.desc)
  next s1 hs1 =>
    have h1 : κ.Sound s1 := by simpa [hs1, Ctx.SoundBound] using hbind (KvDesc.row e.desc) (KvDesc.layer e.desc)
    split
    next w r _ _ =>
      split
      · split
        · exact h
        split
        · exact State.entryRan_sound (State.countBay_sound (State.appendRows_sound
            (State.each_sound h1 (fun _ _ h => State.meet_sound h ..) _) ..) ..) ..
        · exact State.entryRan_sound h1 ..
        · exact State.entryRan_sound h1 ..
      · split
        · exact State.entryRan_sound (State.countBay_sound (State.each_sound (State.each_sound h1
            (fun _ _ h => State.meetPosition_sound (State.meetPosition_sound h ..) ..) _) (fun _ _ h => State.memWrite_sound h ..) _) ..) ..
        · exact State.entryRan_sound h1 ..
        · exact State.entryRan_sound h1 ..
    · exact h

theorem doKvAppend_sound (bay : Fin 80) (mover : Fin 2) {s : State} (h : κ.Sound s) : κ.Sound (doKvAppend bay mover s) := by
  grind [doKvAppend, State.runKv_sound]

theorem doKvGather_sound (bay : Fin 80) (mover : Fin 2) {s : State} (h : κ.Sound s) : κ.Sound (doKvGather bay mover s) := by
  grind [doKvGather, State.runKv_sound]

theorem doKvRecordCommit_sound (wu : WuKey) {s : State} (h : κ.Sound s) : κ.Sound (doKvRecordCommit wu s) := by
  unfold doKvRecordCommit
  grind [State.each_sound, State.parkBay_sound, State.commitKv_sound, State.modRun_sound, Ctx.sound_iff]

end Sys2Proof.Machine
end

section
/-! What the operations on the plumb test, resets, power, the Steward and thread instructions keep. -/
namespace Sys2Proof.Machine
open Sys2Proof

-- One proof at a time: many short proofs elaborated side by side would cost the check its memory.
set_option Elab.async false

variable {κ : Ctx}

theorem doPlumbRunStart_sound (trigger : PlumbTrigger) (at_ : Nat) {s : State} (h : κ.Sound s) : κ.Sound (doPlumbRunStart trigger at_ s)
    := by
  unfold doPlumbRunStart
  grind [State.advance_sound, State.triggerRun_sound, State.plumbAdvance_sound, State.startRun_sound]

theorem doPlumbRoundStart_sound (tile : Fin 4) {s : State} (h : κ.Sound s) : κ.Sound (doPlumbRoundStart tile s) := by
  grind [doPlumbRoundStart, State.modBay_sound, Ctx.KeepsBay, Bay.Shaped, State.modPlumbTile_sound, Ctx.sound_iff]

theorem doPlumbSegmentEnd_sound (tile : Fin 4) (starved : Bool) {s : State} (h : κ.Sound s) : κ.Sound (doPlumbSegmentEnd tile starved s)
    := by
  grind [doPlumbSegmentEnd, State.modBay_sound, Ctx.KeepsBay, Bay.Shaped, State.modPlumbTile_sound, Ctx.sound_iff]

theorem doPlumbStepDone_sound (tile : Fin 4) (passed : Bool) (group : BitVec 16) (hubFail : BitVec 32) {s : State} (h : κ.Sound s) :
    κ.Sound (doPlumbStepDone tile passed group hubFail s) := by
  grind [doPlumbStepDone, State.checkEngines_sound, State.stepEnd_sound]

theorem doPatrolScrub_sound (addr : Nat) (result : ScrubResult) {s : State} (h : κ.Sound s) : κ.Sound (doPatrolScrub addr result s) := by
  grind [doPatrolScrub, State.countHbm_sound, State.modPlumb_sound, Ctx.plumb_of_sound, Ctx.has_modify, Ctx.has_set, Ctx.has_map,
    State.hbmCorrected_sound, State.hbmPoison_sound, Ctx.sound_iff]

theorem doBayFence_sound (bay : Fin 80) {s : State} (h : κ.Sound s) : κ.Sound (doBayFence bay s) := by
  grind [doBayFence, State.stepEnd_sound, State.bayFault_sound, State.endRound_sound]

theorem doWuTimeout_sound (bay : Fin 80) (at_ : Nat) {s : State} (h : κ.Sound s) : κ.Sound (doWuTimeout bay at_ s) := by
  grind [doWuTimeout, State.advance_sound, State.wuFault_sound, State.plumbAdvance_sound]

theorem doFatalFault_sound (code : BitVec 16) {s : State} (h : κ.Sound s) : κ.Sound (doFatalFault code s) := by
  grind [doFatalFault, State.draw_sound, State.draw_sound_eq, State.fatal_sound, State.abandonRun_sound]

theorem State.stopAll_sound {s : State} (h : κ.Sound s) : κ.Sound (s.stopAll) := by
  grind [State.stopAll, State.each_sound, State.stopWu_sound, State.faultRamp_sound, Bay.faultRamp_shaped]

theorem State.dropForeign_sound {s : State} (h : κ.Sound s) : κ.Sound (s.dropForeign) := by
  grind [State.dropForeign, State.each_sound, State.dropHome_sound, State.modQuota_sound, Ctx.sound_iff]

theorem State.failReset_sound {s : State} (h : κ.Sound s) (status : Nat) (r : Req) : κ.Sound (s.failReset status r) := by
  grind [State.failReset, State.finish_sound, State.openRecord_sound]

theorem State.failAll_sound {s : State} (h : κ.Sound s) (status : Nat) : κ.Sound (s.failAll status) := by
  grind [State.failAll, State.each_sound, State.failReset_sound]

theorem State.clearBays_sound {s : State} (h : κ.Sound s) (last : LastTenant) : κ.Sound (s.clearBays last) := by
  have hbays : κ.Bays (s.bays.map fun y => y.cleared last) := Ctx.bays_map h.bays fun y _ => Bay.cleared_shaped y last
  unfold State.clearBays
  extract_lets s1
  have h1 : κ.Sound s1 := by simp [s1, h, hbays]
  exact State.modStew_sound h1 (fun _ => rfl) (fun _ => rfl) (fun _ => rfl) h1.gain h1.hbmStep

theorem State.modStewRestart_sound {s : State} (h : κ.Sound s) : κ.Sound (s.modStew Stew.restart) :=
  State.modStew_sound h h.tokens h.tokensOut h.tokenWait h.gain h.hbmStep

theorem State.loseResidents_sound {s : State} (h : κ.Sound s) : κ.Sound (s.loseResidents) := by
  grind [State.loseResidents, State.each_sound, State.rollback_sound, State.dropResidents_sound, State.modStr_sound, Ctx.sound_iff]

theorem State.clearRings_sound {s : State} (h : κ.Sound s) : κ.Sound (s.clearRings) := by
  grind [State.clearRings, State.ringSlotsToHold_sound, State.modHost_sound, Ctx.pages_of_sound, Ctx.has_modify, Ctx.has_set,
    Ctx.has_map, Option.map_eq_some_iff, State.modReqs_sound, State.modCnt_sound, State.modBoot_sound, Ctx.flash_of_sound,
    Boot.dropStaging_flash, State.modHub_sound, Ctx.sound_iff]

theorem State.leaveWarm_sound {s : State} (h : κ.Sound s) : κ.Sound (s.leaveWarm) := by
  grind [State.leaveWarm, State.floodLeave_sound, State.modNet_sound, State.each_sound, State.modPort_sound, Ctx.KeepsPort,
    Port.drain_vcq, Port.start_vcq, Ctx.sound_iff]

theorem State.retryWeights_sound {s : State} (h : κ.Sound s) : κ.Sound (s.retryWeights) := by
  grind [State.retryWeights, State.modBoot_sound, Ctx.flash_of_sound, State.each_sound, State.startWeight_sound,
    State.checkWeights_sound, Ctx.sound_iff]

theorem State.warmReset_sound {s : State} (h : κ.Sound s) (cause : Nat) : κ.Sound (s.warmReset cause) := by
  unfold State.warmReset
  extract_lets status s1 s2 s3 s4 s5 s6
  have h1 : κ.Sound s1 := State.modClk_sound h h.tiles
  have h3 : κ.Sound s3 := State.leaveWarm_sound (State.clearRings_sound (State.loseResidents_sound (State.dropForeign_sound
    (State.stopAll_sound (State.modPins_sound (State.modErr_sound h1 _) _)))))
  have hb := State.clearBays_sound (State.failAll_sound h3 status) .none
  have h4 : κ.Sound s4 := State.modMem_sound hb (Mem.clearT0_cells hb.cells)
  have h5 : κ.Sound s5 := State.modStewRestart_sound (State.abandonRun_sound h4)
  exact State.causeRecord_sound (State.retryWeights_sound (State.bootTiles_sound (State.modReqs_sound h5 _)))

theorem State.sleepPort_sound {s : State} (h : κ.Sound s) (n : Fin 12) : κ.Sound (s.sleepPort n) := by
  grind [State.sleepPort, Port.drain_vcq, Ctx.KeepsPort, State.modPort_sound, State.silenceNow_sound]

theorem doResetBtnPress_sound {s : State} (h : κ.Sound s) : κ.Sound (doResetBtnPress s) := by
  grind [doResetBtnPress, State.modClk_sound, Ctx.tiles_of_sound, Ctx.has_modify, Ctx.has_set, Ctx.has_map, State.draw_sound,
    State.draw_sound_eq, State.error_sound, State.latchWake_sound, Ctx.sound_iff]

theorem doResetBtnRelease_sound {s : State} (h : κ.Sound s) : κ.Sound (doResetBtnRelease s) := by
  grind [doResetBtnRelease, State.modClk_sound, Ctx.tiles_of_sound, Ctx.has_modify, Ctx.has_set, Ctx.has_map, State.askWarm_sound,
    Ctx.sound_iff]

theorem doResetBtnHold_sound {s : State} (h : κ.Sound s) : κ.Sound (doResetBtnHold s) := by
  grind [doResetBtnHold, State.writeAnchor_sound, State.askReset_sound, State.modClk_sound, Ctx.tiles_of_sound, Ctx.has_modify,
    Ctx.has_set, Ctx.has_map, Ctx.sound_iff]

theorem doButtonRearm_sound {s : State} (h : κ.Sound s) : κ.Sound (doButtonRearm s) := by
  grind [doButtonRearm, State.modClk_sound, Ctx.tiles_of_sound, Ctx.has_modify, Ctx.has_set, Ctx.has_map, Ctx.sound_iff]

theorem doWatchdogExpiry_sound (_core : Fin 4) {s : State} (h : κ.Sound s) : κ.Sound (doWatchdogExpiry _core s) := by
  grind [doWatchdogExpiry, State.askWarm_sound]

theorem doWarmResetPerform_sound {s : State} (h : κ.Sound s) : κ.Sound (doWarmResetPerform s) := by
  grind [doWarmResetPerform, State.advance_sound, State.fatal_sound, State.warmReset_sound, State.modClk_sound, Ctx.tiles_of_sound,
    Ctx.has_modify, Ctx.has_set, Ctx.has_map, Ctx.sound_iff]

theorem doWarmResetComplete_sound {s : State} (h : κ.Sound s) : κ.Sound (doWarmResetComplete s) := by
  grind [doWarmResetComplete, State.modClk_sound, Ctx.tiles_of_sound, Ctx.has_modify, Ctx.has_set, Ctx.has_map, State.assignId_sound,
    State.originate_sound, State.checkMembers_sound, State.tryWake_sound, State.noteIdle_sound, Ctx.sound_iff]

theorem doSafeCommitReset_sound (at_ : Nat) {s : State} (h : κ.Sound s) : κ.Sound (doSafeCommitReset at_ s) := by
  grind [doSafeCommitReset, State.advance_sound, State.modBoot_sound, Ctx.flash_of_sound, State.writeAnchor_sound, State.askReset_sound,
    Ctx.sound_iff]

theorem doThermtrip_sound (_sensor : Fin 96) {s : State} (h : κ.Sound s) : κ.Sound (doThermtrip _sensor s) := by
  grind [doThermtrip, State.modClk_sound, Ctx.tiles_of_sound, Ctx.has_modify, Ctx.has_set, Ctx.has_map, Option.map_eq_some_iff,
    State.modPins_sound, State.modHost_sound, Ctx.pages_of_sound, State.linkDown_sound, HostSt.linkDown_pages, Ctx.sound_iff]

theorem State.degradeTime_sound {s : State} (h : κ.Sound s) : κ.Sound (s.degradeTime) := by
  grind [State.degradeTime, State.modClk_sound, Ctx.tiles_of_sound, Ctx.has_modify, Ctx.has_set, Ctx.has_map, State.modReqs_sound,
    Option.map_eq_some_iff, Ctx.sound_iff]

theorem State.selfRefresh_sound {s : State} (h : κ.Sound s) : κ.Sound (s.selfRefresh) := by
  grind [State.selfRefresh, State.each_sound, State.countHbm_sound, State.modStew_sound, Ctx.tokens_of_sound, Ctx.tokensOut_of_sound,
    Ctx.tokenWait_of_sound, Ctx.gain_of_sound, Ctx.hbmStep_of_sound, Ctx.has_modify, Ctx.has_set, Ctx.has_map, Ctx.sound_iff]

theorem State.clockStop_sound {s : State} (h : κ.Sound s) : κ.Sound s.clockStop := by
  unfold State.clockStop
  extract_lets s1 s2 s3 s4
  have h1 : κ.Sound s1 := by
    refine State.each_sound h (fun s n h => ?_) _
    split
    · exact State.silenceNow_sound h ..
    · exact h
  have h2 : κ.Sound s2 := State.raise_sound (State.error_sound (State.stopAll_sound h1) _) ..
  have h3 : κ.Sound s3 := by grind [State.selfRefresh_sound]
  have h4 : κ.Sound s4 := State.modClk_sound h3 ((Ctx.has_map ..).mpr h3.tiles)
  have h5 := State.degradeTime_sound h4
  exact State.modHost_sound h5 h5.pages

theorem State.loseRef_sound {s : State} (h : κ.Sound s) : κ.Sound (s.loseRef) := by
  grind [State.loseRef, State.modClk_sound, Ctx.tiles_of_sound, Ctx.has_modify, Ctx.has_set, Ctx.has_map, State.degradeTime_sound,
    State.clockStop_sound, Ctx.sound_iff]

theorem doRefGlitch_sound (at_ : Nat) {s : State} (h : κ.Sound s) : κ.Sound (doRefGlitch at_ s) := by
  grind [doRefGlitch, State.advance_sound, State.modClk_sound, Ctx.tiles_of_sound, Ctx.has_modify, Ctx.has_set, Ctx.has_map,
    State.error_sound, State.countDev_sound, State.loseRef_sound, Ctx.sound_iff]

theorem State.pursueAll_sound {s : State} (h : κ.Sound s) : κ.Sound (s.pursueAll) := by
  grind [State.pursueAll, State.each_sound, State.pursue_sound]

theorem doRefDrift_sound (fast : Bool) {s : State} (h : κ.Sound s) : κ.Sound (doRefDrift fast s) := by
  grind [doRefDrift, State.modClk_sound, Ctx.tiles_of_sound, Ctx.has_modify, Ctx.has_set, Ctx.has_map, State.error_sound,
    State.raise_sound, State.pursueAll_sound, Ctx.sound_iff]

theorem doRefDriftClear_sound {s : State} (h : κ.Sound s) : κ.Sound (doRefDriftClear s) := by
  grind [doRefDriftClear, State.modClk_sound, Ctx.tiles_of_sound, Ctx.has_modify, Ctx.has_set, Ctx.has_map, State.pursueAll_sound,
    Ctx.sound_iff]

theorem doRefLost_sound {s : State} (h : κ.Sound s) : κ.Sound (doRefLost s) := by
  grind [doRefLost, State.loseRef_sound]

theorem doP2Entry_sound (at_ : Nat) {s : State} (h : κ.Sound s) : κ.Sound (doP2Entry at_ s) := by
  grind [doP2Entry, State.advance_sound, State.modClk_sound, Ctx.tiles_of_sound, Ctx.has_modify, Ctx.has_set, Ctx.has_map,
    Option.map_eq_some_iff, Ctx.sound_iff]

theorem State.enterP3_sound {s : State} (h : κ.Sound s) : κ.Sound (s.enterP3) := by
  grind [State.enterP3, State.modClk_sound, Ctx.tiles_of_sound, Ctx.has_modify, Ctx.has_set, Ctx.has_map, Option.map_eq_some_iff,
    State.each_sound, State.countTile_sound, State.modPins_sound, State.selfRefresh_sound, Ctx.sound_iff]

theorem State.beginP3_sound {s : State} (h : κ.Sound s) : κ.Sound (s.beginP3) := by
  grind [State.beginP3, State.modClk_sound, Ctx.tiles_of_sound, Ctx.has_modify, Ctx.has_set, Ctx.has_map, State.each_sound,
    State.askPark_sound, State.writeAnchor_sound, State.floodLeave_sound, State.sleepPort_sound, State.modHost_sound, Ctx.pages_of_sound,
    Ctx.sound_iff]

theorem State.endP3_sound {s : State} (h : κ.Sound s) : κ.Sound (s.endP3) := by
  unfold State.endP3
  grind [State.each_sound, State.rollback_sound, State.clearBays_sound, State.dropResidents_sound, State.abandonRun_sound,
    State.enterP3_sound]

theorem doP3Entry_sound (at_ : Nat) {s : State} (h : κ.Sound s) : κ.Sound (doP3Entry at_ s) := by
  grind [doP3Entry, State.advance_sound, State.beginP3_sound, State.endP3_sound]

theorem doAonTimerExpiry_sound (at_ : Nat) {s : State} (h : κ.Sound s) : κ.Sound (doAonTimerExpiry at_ s) := by
  grind [doAonTimerExpiry, State.advance_sound, State.modClk_sound, Ctx.tiles_of_sound, Ctx.has_modify, Ctx.has_set, Ctx.has_map,
    State.latchWake_sound, Ctx.sound_iff]

theorem doPcieWake_sound {s : State} (h : κ.Sound s) : κ.Sound (doPcieWake s) := by
  grind [doPcieWake, State.latchWake_sound]

theorem doTrussListenWake_sound (port : Fin 12) {s : State} (h : κ.Sound s) : κ.Sound (doTrussListenWake port s) := by
  grind [doTrussListenWake, State.latchWake_sound, State.modClk_sound, Ctx.tiles_of_sound, Ctx.has_modify, Ctx.has_set, Ctx.has_map,
    Ctx.sound_iff]

theorem State.serve_sound {s : State} (hs : κ.Sound s) (h : Held) : κ.Sound (s.serve h) := by
  unfold State.serve
  grind [State.hostReg_sound, State.doe_sound, State.doeAnswer_sound, State.configure_sound, State.emit_sound, Port.emit_vcq,
    Ctx.KeepsPort, State.clearPage_sound]

theorem State.wakePorts_sound {s : State} (h : κ.Sound s) : κ.Sound (s.wakePorts) := by
  grind [State.wakePorts, State.each_sound, State.modPort_sound, Ctx.KeepsPort, Port.start_vcq]

theorem State.leaveP3_sound {s : State} (h : κ.Sound s) : κ.Sound s.leaveP3 := by
  unfold State.leaveP3
  extract_lets s1 s2 s3 s4 s5 held s6 s7 s8 late s9
  have h1 : κ.Sound s1 := State.modClk_sound h h.tiles
  have h2 : κ.Sound s2 := State.modHost_sound h1 h1.pages
  have h3 : κ.Sound s3 := State.bootTiles_sound (State.modStew_sound h2 h2.tokens h2.tokensOut h2.tokenWait h2.gain h2.hbmStep)
  have h4 : κ.Sound s4 := State.restartWindows_sound (State.wakePorts_sound h3) ..
  have h5 : κ.Sound s5 := by
    refine State.each_sound h4 (fun s d h => ?_) _
    split
    · exact h
    · exact State.countT2_sound h ..
  have h6 : κ.Sound s6 := State.setRunState_sound (State.modClk_sound h5 h5.tiles)
  have h7 : κ.Sound s7 := State.raise_sound (State.each_sound h6 (fun _ _ h => State.serve_sound h _) _) ..
  have h8 : κ.Sound s8 := by
    simp only [s8]
    split
    · exact State.raise_sound (State.modHost_sound h7 h7.pages) ..
    · exact h7
  have h9 : κ.Sound s9 := State.modClk_sound h8 h8.tiles
  refine State.noteIdle_sound ?_
  split
  · exact State.askWarm_sound h9 ..
  · exact State.tryWake_sound h9

theorem doP3ExitComplete_sound (at_ : Nat) {s : State} (h : κ.Sound s) : κ.Sound (doP3ExitComplete at_ s) := by
  grind [doP3ExitComplete, State.advance_sound, State.leaveP3_sound]

theorem doSwRailMinLowEnd_sound (at_ : Nat) {s : State} (h : κ.Sound s) : κ.Sound (doSwRailMinLowEnd at_ s) := by
  grind [doSwRailMinLowEnd, State.advance_sound, State.modClk_sound, Ctx.tiles_of_sound, Ctx.has_modify, Ctx.has_set, Ctx.has_map,
    State.modPins_sound, Ctx.sound_iff]

theorem doAvsTargetReached_sound (tile : Fin 4) {s : State} (h : κ.Sound s) : κ.Sound (doAvsTargetReached tile s) := by
  grind [doAvsTargetReached, State.modTile_sound, State.countTile_sound, State.pursue_sound, Ctx.sound_iff]

theorem doAvsTimeout_sound (tile : Fin 4) {s : State} (h : κ.Sound s) : κ.Sound (doAvsTimeout tile s) := by
  grind [doAvsTimeout, State.modTile_sound, State.countTile_sound, State.error_sound, State.pursue_sound, Ctx.sound_iff]

theorem doBudgetWindowStart_sound (at_ : Nat) (sensors : List (Option Int)) (rails base : List Nat) {s : State} (h : κ.Sound s) :
    κ.Sound (doBudgetWindowStart at_ sensors rails base s) := by
  unfold doBudgetWindowStart
  extract_lets s1 measured baseline s2 s3 s4 s5 s6 s7
  have h1 : κ.Sound s1 := State.advance_sound h _
  have h2 : κ.Sound s2 := State.closeWindow_sound h1 _
  have h3 : κ.Sound s3 := by grind [State.applyTunables_sound]
  have h4 : κ.Sound s4 := State.pressureStep_sound (State.holds_sound (State.readSensors_sound h3 _))
  have h5 : κ.Sound s5 := State.each_sound h4 (fun _ _ h => State.pursue_sound h _) _
  have h6 : κ.Sound s6 := State.setRunState_sound (State.openWindow_sound h5 _)
  have h7 : κ.Sound s7 := by grind [State.leaveP2_sound]
  split
  · exact h1
  split
  · exact h6
  · exact State.dispatch_sound (State.dispatchHuge_sound h7)

theorem doSchedulerEpochBoundary_sound (at_ : Nat) {s : State} (h : κ.Sound s) : κ.Sound (doSchedulerEpochBoundary at_ s) := by
  unfold doSchedulerEpochBoundary
  extract_lets s1 s2 s3 s4 s5
  have h1 : κ.Sound s1 := State.advance_sound h _
  have h2 : κ.Sound s2 := State.setRunState_sound (State.flushSuppressed_sound (State.applyTunables_sound h1 _))
  have h4 : κ.Sound s4 := State.kvIdleSweep_sound (State.idleSweep_sound (State.modStr_sound h2 _))
  have h5 : κ.Sound s5 := by grind [State.dropDisabled_sound, State.retryAdmissions_sound, State.tryWake_sound]
  split
  · exact h1
  · exact State.dispatch_sound h5

theorem State.newGain_sound {s : State} (h : κ.Sound s) (vrm est : Nat) : κ.Sound (s.newGain vrm est).2 := by
  grind [State.newGain, State.draw_sound, State.draw_sound_eq]

theorem State.newGain_sound_eq {s : State} (h : κ.Sound s) (vrm est : Nat) {x : Nat} {u : State}
    (hu : s.newGain vrm est = (x, u)) : κ.Sound u := by
  simpa [hu] using State.newGain_sound h vrm est

theorem State.takeReadings_sound {s : State} (h : κ.Sound s) (part : Readings) : κ.Sound (s.takeReadings part) := by
  grind [State.takeReadings, State.modStew_sound, Ctx.tokens_of_sound, Ctx.tokensOut_of_sound, Ctx.tokenWait_of_sound, Ctx.gain_of_sound,
    Ctx.hbmStep_of_sound, Ctx.has_modify, Ctx.has_set, Ctx.has_map, State.each_sound, State.modBay_sound, Ctx.KeepsBay, Bay.Shaped,
    Option.map_eq_some_iff, Ctx.sound_iff]

theorem doEstimatorRecalibration_sound (at_ : Nat) (vrm : List (Option Nat)) (est : List Nat) (part : Readings) {s : State}
    (h : κ.Sound s) : κ.Sound (doEstimatorRecalibration at_ vrm est part s) := by
  grind [doEstimatorRecalibration, State.advance_sound, State.takeReadings_sound, State.modStew_sound, Ctx.tokens_of_sound,
    Ctx.tokensOut_of_sound, Ctx.tokenWait_of_sound, Ctx.gain_of_sound, Ctx.hbmStep_of_sound, Ctx.has_modify, Ctx.has_set, Ctx.has_map,
    State.each_sound, State.error_sound, State.newGain_sound, State.newGain_sound_eq, Ctx.sound_iff]

theorem doVrmTelemetryStale_sound (at_ : Nat) {s : State} (h : κ.Sound s) : κ.Sound (doVrmTelemetryStale at_ s) := by
  grind [doVrmTelemetryStale, State.advance_sound, State.modStew_sound, Ctx.tokens_of_sound, Ctx.tokensOut_of_sound,
    Ctx.tokenWait_of_sound, Ctx.gain_of_sound, Ctx.hbmStep_of_sound, Ctx.has_modify, Ctx.has_set, Ctx.has_map, Ctx.sound_iff]

theorem State.hbmReading_sound {s : State} (h : κ.Sound s) (k temp : Nat) : κ.Sound (s.hbmReading k temp) := by
  grind [State.hbmReading, State.modStew_sound, Ctx.tokens_of_sound, Ctx.tokensOut_of_sound, Ctx.tokenWait_of_sound, Ctx.gain_of_sound,
    Ctx.hbmStep_of_sound, Ctx.has_modify, Ctx.has_set, Ctx.has_map, State.count_sound, Ctx.sound_iff]

theorem doHbmTempPoll_sound (at_ : Nat) (temps : List (Option Nat)) {s : State} (h : κ.Sound s) : κ.Sound (doHbmTempPoll at_ temps s) := by
  grind [doHbmTempPoll, State.advance_sound, State.each_sound, State.hbmReading_sound]

theorem doHbmTempTimeout_sound (stack : Fin 8) (at_ : Nat) {s : State} (h : κ.Sound s) : κ.Sound (doHbmTempTimeout stack at_ s) := by
  grind [doHbmTempTimeout, State.advance_sound, State.modStew_sound, Ctx.tokens_of_sound, Ctx.tokensOut_of_sound, Ctx.tokenWait_of_sound,
    Ctx.gain_of_sound, Ctx.hbmStep_of_sound, Ctx.has_modify, Ctx.has_set, Ctx.has_map, Ctx.sound_iff]

theorem doAluAdd_sound (w : Issue) (rd ra rb : BitVec 5) {s : State} (h : κ.Sound s) : κ.Sound (doAluAdd w rd ra rb s) := by
  grind [doAluAdd, State.issueAlu_sound]

theorem doAluSub_sound (w : Issue) (rd ra rb : BitVec 5) {s : State} (h : κ.Sound s) : κ.Sound (doAluSub w rd ra rb s) := by
  grind [doAluSub, State.issueAlu_sound]

theorem doAluAnd_sound (w : Issue) (rd ra rb : BitVec 5) {s : State} (h : κ.Sound s) : κ.Sound (doAluAnd w rd ra rb s) := by
  grind [doAluAnd, State.issueAlu_sound]

theorem doAluOr_sound (w : Issue) (rd ra rb : BitVec 5) {s : State} (h : κ.Sound s) : κ.Sound (doAluOr w rd ra rb s) := by
  grind [doAluOr, State.issueAlu_sound]

theorem doAluXor_sound (w : Issue) (rd ra rb : BitVec 5) {s : State} (h : κ.Sound s) : κ.Sound (doAluXor w rd ra rb s) := by
  grind [doAluXor, State.issueAlu_sound]

theorem doAluMul_sound (w : Issue) (rd ra rb : BitVec 5) {s : State} (h : κ.Sound s) : κ.Sound (doAluMul w rd ra rb s) := by
  grind [doAluMul, State.issueAlu_sound]

theorem doAluSll_sound (w : Issue) (rd ra rb : BitVec 5) {s : State} (h : κ.Sound s) : κ.Sound (doAluSll w rd ra rb s) := by
  grind [doAluSll, State.issueAlu_sound]

theorem doAluSrl_sound (w : Issue) (rd ra rb : BitVec 5) {s : State} (h : κ.Sound s) : κ.Sound (doAluSrl w rd ra rb s) := by
  grind [doAluSrl, State.issueAlu_sound]

theorem doAluSra_sound (w : Issue) (rd ra rb : BitVec 5) {s : State} (h : κ.Sound s) : κ.Sound (doAluSra w rd ra rb s) := by
  grind [doAluSra, State.issueAlu_sound]

theorem doAluMulhu_sound (w : Issue) (rd ra rb : BitVec 5) {s : State} (h : κ.Sound s) : κ.Sound (doAluMulhu w rd ra rb s) := by
  grind [doAluMulhu, State.issueAlu_sound]

theorem doAluDivu_sound (w : Issue) (rd ra rb : BitVec 5) {s : State} (h : κ.Sound s) : κ.Sound (doAluDivu w rd ra rb s) := by
  grind [doAluDivu, State.issueAlu_sound]

theorem doAluRemu_sound (w : Issue) (rd ra rb : BitVec 5) {s : State} (h : κ.Sound s) : κ.Sound (doAluRemu w rd ra rb s) := by
  grind [doAluRemu, State.issueAlu_sound]

theorem doAluMinu_sound (w : Issue) (rd ra rb : BitVec 5) {s : State} (h : κ.Sound s) : κ.Sound (doAluMinu w rd ra rb s) := by
  grind [doAluMinu, State.issueAlu_sound]

theorem doAluMaxu_sound (w : Issue) (rd ra rb : BitVec 5) {s : State} (h : κ.Sound s) : κ.Sound (doAluMaxu w rd ra rb s) := by
  grind [doAluMaxu, State.issueAlu_sound]

theorem doAluMin_sound (w : Issue) (rd ra rb : BitVec 5) {s : State} (h : κ.Sound s) : κ.Sound (doAluMin w rd ra rb s) := by
  grind [doAluMin, State.issueAlu_sound]

theorem doAluMax_sound (w : Issue) (rd ra rb : BitVec 5) {s : State} (h : κ.Sound s) : κ.Sound (doAluMax w rd ra rb s) := by
  grind [doAluMax, State.issueAlu_sound]

theorem doPcmpEq_sound (w : Issue) (rd ra rb : BitVec 5) {s : State} (h : κ.Sound s) : κ.Sound (doPcmpEq w rd ra rb s) := by
  grind [doPcmpEq, State.issueCmp_sound]

theorem doPcmpNe_sound (w : Issue) (rd ra rb : BitVec 5) {s : State} (h : κ.Sound s) : κ.Sound (doPcmpNe w rd ra rb s) := by
  grind [doPcmpNe, State.issueCmp_sound]

theorem doPcmpLt_sound (w : Issue) (rd ra rb : BitVec 5) {s : State} (h : κ.Sound s) : κ.Sound (doPcmpLt w rd ra rb s) := by
  grind [doPcmpLt, State.issueCmp_sound]

theorem doPcmpGe_sound (w : Issue) (rd ra rb : BitVec 5) {s : State} (h : κ.Sound s) : κ.Sound (doPcmpGe w rd ra rb s) := by
  grind [doPcmpGe, State.issueCmp_sound]

theorem doPcmpLtu_sound (w : Issue) (rd ra rb : BitVec 5) {s : State} (h : κ.Sound s) : κ.Sound (doPcmpLtu w rd ra rb s) := by
  grind [doPcmpLtu, State.issueCmp_sound]

theorem doPcmpGeu_sound (w : Issue) (rd ra rb : BitVec 5) {s : State} (h : κ.Sound s) : κ.Sound (doPcmpGeu w rd ra rb s) := by
  grind [doPcmpGeu, State.issueCmp_sound]

theorem doAddi_sound (w : Issue) (rd ra : BitVec 5) (imm : BitVec 12) {s : State} (h : κ.Sound s) : κ.Sound (doAddi w rd ra imm s) := by
  grind [doAddi, State.issueThr_sound, Ctx.KeepsThr, Thread.setG_shaped, Thread.next_shaped]

theorem doAndi_sound (w : Issue) (rd ra : BitVec 5) (imm : BitVec 12) {s : State} (h : κ.Sound s) : κ.Sound (doAndi w rd ra imm s) := by
  grind [doAndi, State.issueThr_sound, Ctx.KeepsThr, Thread.setG_shaped, Thread.next_shaped]

theorem doOri_sound (w : Issue) (rd ra : BitVec 5) (imm : BitVec 12) {s : State} (h : κ.Sound s) : κ.Sound (doOri w rd ra imm s) := by
  grind [doOri, State.issueThr_sound, Ctx.KeepsThr, Thread.setG_shaped, Thread.next_shaped]

theorem doLih_sound (w : Issue) (rd ra : BitVec 5) (imm : BitVec 12) {s : State} (h : κ.Sound s) : κ.Sound (doLih w rd ra imm s) := by
  grind [doLih, State.issueThr_sound, Ctx.KeepsThr, Thread.setG_shaped, Thread.next_shaped]

theorem doVopAdd_sound (w : Issue) (ty : BitVec 3) (rd ra rb : BitVec 5) {s : State} (h : κ.Sound s) : κ.Sound (doVopAdd w ty rd ra rb s)
    := by
  grind [doVopAdd, State.issueVop_sound]

theorem doVopSub_sound (w : Issue) (ty : BitVec 3) (rd ra rb : BitVec 5) {s : State} (h : κ.Sound s) : κ.Sound (doVopSub w ty rd ra rb s)
    := by
  grind [doVopSub, State.issueVop_sound]

theorem doVopMul_sound (w : Issue) (ty : BitVec 3) (rd ra rb : BitVec 5) {s : State} (h : κ.Sound s) : κ.Sound (doVopMul w ty rd ra rb s)
    := by
  grind [doVopMul, State.issueVop_sound]

theorem doVopMin_sound (w : Issue) (ty : BitVec 3) (rd ra rb : BitVec 5) {s : State} (h : κ.Sound s) : κ.Sound (doVopMin w ty rd ra rb s)
    := by
  grind [doVopMin, State.issueVop_sound]

theorem doVopMax_sound (w : Issue) (ty : BitVec 3) (rd ra rb : BitVec 5) {s : State} (h : κ.Sound s) : κ.Sound (doVopMax w ty rd ra rb s)
    := by
  grind [doVopMax, State.issueVop_sound]

theorem doVopFma_sound (w : Issue) (ty : BitVec 3) (rd ra rb : BitVec 5) {s : State} (h : κ.Sound s) : κ.Sound (doVopFma w ty rd ra rb s)
    := by
  grind [doVopFma, State.issueVop_sound]

theorem doVopAnd_sound (w : Issue) (ty : BitVec 3) (rd ra rb : BitVec 5) {s : State} (h : κ.Sound s) : κ.Sound (doVopAnd w ty rd ra rb s)
    := by
  grind [doVopAnd, State.issueVop_sound]

theorem doVopOr_sound (w : Issue) (ty : BitVec 3) (rd ra rb : BitVec 5) {s : State} (h : κ.Sound s) : κ.Sound (doVopOr w ty rd ra rb s) :=
    by
  grind [doVopOr, State.issueVop_sound]

theorem doVopXor_sound (w : Issue) (ty : BitVec 3) (rd ra rb : BitVec 5) {s : State} (h : κ.Sound s) : κ.Sound (doVopXor w ty rd ra rb s)
    := by
  grind [doVopXor, State.issueVop_sound]

theorem doVopShl_sound (w : Issue) (ty : BitVec 3) (rd ra rb : BitVec 5) {s : State} (h : κ.Sound s) : κ.Sound (doVopShl w ty rd ra rb s)
    := by
  grind [doVopShl, State.issueVop_sound]

theorem doVopShr_sound (w : Issue) (ty : BitVec 3) (rd ra rb : BitVec 5) {s : State} (h : κ.Sound s) : κ.Sound (doVopShr w ty rd ra rb s)
    := by
  grind [doVopShr, State.issueVop_sound]

theorem doVopExp_sound (w : Issue) (ty : BitVec 3) (rd ra rb : BitVec 5) {s : State} (h : κ.Sound s) : κ.Sound (doVopExp w ty rd ra rb s)
    := by
  grind [doVopExp, State.issueVop_sound]

theorem doVcvt_sound (w : Issue) (fn : BitVec 7) (rd ra rb : BitVec 5) {s : State} (h : κ.Sound s) : κ.Sound (doVcvt w fn rd ra rb s) := by
  grind [doVcvt, State.issueThr_sound, Ctx.KeepsThr, Thread.setV_shaped, Thread.next_shaped]

theorem doVredSum_sound (w : Issue) (ty : BitVec 3) (rd ra rb : BitVec 5) {s : State} (h : κ.Sound s) : κ.Sound
    (doVredSum w ty rd ra rb s) := by
  grind [doVredSum, State.issueThr_sound, Ctx.KeepsThr, Thread.setG_shaped, Thread.next_shaped]

theorem doVredMax_sound (w : Issue) (ty : BitVec 3) (rd ra rb : BitVec 5) {s : State} (h : κ.Sound s) : κ.Sound
    (doVredMax w ty rd ra rb s) := by
  grind [doVredMax, State.issueThr_sound, Ctx.KeepsThr, Thread.setG_shaped, Thread.next_shaped]

theorem doVredMin_sound (w : Issue) (ty : BitVec 3) (rd ra rb : BitVec 5) {s : State} (h : κ.Sound s) : κ.Sound
    (doVredMin w ty rd ra rb s) := by
  grind [doVredMin, State.issueThr_sound, Ctx.KeepsThr, Thread.setG_shaped, Thread.next_shaped]

theorem doVget_sound (w : Issue) (rd ra rb : BitVec 5) {s : State} (h : κ.Sound s) : κ.Sound (doVget w rd ra rb s) := by
  grind [doVget, State.issueThr_sound, Ctx.KeepsThr, Thread.setG_shaped, Thread.next_shaped]

theorem doVput_sound (w : Issue) (rd ra rb : BitVec 5) {s : State} (h : κ.Sound s) : κ.Sound (doVput w rd ra rb s) := by
  grind [doVput, State.issueThr_sound, Ctx.KeepsThr, Thread.setV_shaped, Thread.next_shaped]

theorem doVbcast_sound (w : Issue) (rd ra rb : BitVec 5) {s : State} (h : κ.Sound s) : κ.Sound (doVbcast w rd ra rb s) := by
  grind [doVbcast, State.issueThr_sound, Ctx.KeepsThr, Thread.setV_shaped, Thread.next_shaped]

theorem doBr_sound (w : Issue) (off : BitVec 22) {s : State} (h : κ.Sound s) : κ.Sound (doBr w off s) :=
  State.issueThr_sound h _ _ _ _ fun _ ht => ht

theorem doCall_sound (w : Issue) (off : BitVec 22) {s : State} (h : κ.Sound s) : κ.Sound (doCall w off s) :=
  State.issueThr_sound h _ _ _ _ fun t ht => Thread.setG_shaped ht 31 (t.pc + 4)

theorem doJr_sound (w : Issue) (rd ra rb : BitVec 5) (fn : BitVec 7) {s : State} (h : κ.Sound s) : κ.Sound (doJr w rd ra rb fn s) :=
  State.issueThr_sound h _ _ _ _ fun t ht => Thread.setG_shaped ht rd (t.pc + 4)

theorem doCtx_sound (w : Issue) (rd ra : BitVec 5) (ord : BitVec 4) (xf : BitVec 8) {s : State} (h : κ.Sound s) :
    κ.Sound (doCtx w rd ra ord xf s) := by
  refine State.issue_sound h _ _ _ _ fun s h => ?_
  split
  · exact h
  · exact State.modThr_sound h _ _ fun t ht => Thread.next_shaped (Thread.setG_shaped ht ..)

theorem doPhilox_sound (w : Issue) (rd ra : BitVec 5) (ord : BitVec 4) (xf : BitVec 8) {s : State} (h : κ.Sound s) :
    κ.Sound (doPhilox w rd ra ord xf s) := by
  refine State.issue_sound h _ _ _ _ fun s h => ?_
  dsimp only
  split
  · exact State.except_sound h ..
  split
  · exact h
  · exact State.modThr_sound h _ _ fun t ht => Thread.next_shaped (Thread.setV_shaped ht ..)

theorem doIllegalInstr_sound (w : Issue) (word : BitVec 32) {s : State} (h : κ.Sound s) : κ.Sound (doIllegalInstr w word s) := by
  unfold doIllegalInstr
  split
  · exact h
  · exact State.issue_sound h _ _ _ _ fun _ h => h

theorem doYield_sound (w : Issue) (rd ra : BitVec 5) (ord : BitVec 4) {s : State} (h : κ.Sound s) : κ.Sound (doYield w rd ra ord s) := by
  grind [doYield, State.issueThr_sound, Ctx.KeepsThr, Thread.next_shaped]

theorem doTrap_sound (w : Issue) (rd ra : BitVec 5) (ord : BitVec 4) {s : State} (h : κ.Sound s) : κ.Sound (doTrap w rd ra ord s) :=
  State.issue_sound h _ _ _ _ fun _ h => State.except_sound h ..

theorem doExit_sound (w : Issue) (rd ra : BitVec 5) (_ord : BitVec 4) {s : State} (h : κ.Sound s) : κ.Sound (doExit w rd ra _ord s) := by
  refine State.issue_sound h _ _ _ _ fun s h => ?_
  dsimp only
  split
  · exact State.raiseFault_sound h ..
  · exact State.raiseFault_sound h ..
  · refine State.afterExit_sound (State.modThr_sound h _ _ fun t ht => ?_) ..
    obtain ⟨hg, hv, hbuf, -, hline⟩ := ht
    exact ⟨hg, hv, hbuf, Nat.zero_le _, hline⟩

theorem doBarBay_sound (w : Issue) (rd ra : BitVec 5) (ord : BitVec 4) {s : State} (h : κ.Sound s) : κ.Sound (doBarBay w rd ra ord s) := by
  grind [doBarBay, State.issueBar_sound, Option.map_eq_some_iff, State.count_sound, State.arriveBay_sound]

theorem doBarNode_sound (w : Issue) (rd ra : BitVec 5) (ord : BitVec 4) {s : State} (h : κ.Sound s) : κ.Sound (doBarNode w rd ra ord s) :=
    by
  grind [doBarNode, State.issueBar_sound, Option.map_eq_some_iff, State.count_sound, State.arriveNode_sound]

theorem doBarFabric_sound (w : Issue) (rd ra : BitVec 5) (ord : BitVec 4) {s : State} (h : κ.Sound s) : κ.Sound
    (doBarFabric w rd ra ord s) := by
  grind [doBarFabric, State.issueBar_sound, State.count_sound, State.arriveFabric_sound]

theorem State.takeDesc_sound {s : State} (h : κ.Sound s) (w : Issue) (addr : Word) (a : Nat) {go : State → List Byte → State}
    (hgo : ∀ s bs, κ.Sound s → κ.Sound (go s bs)) : κ.Sound (s.takeDesc w addr a go) := by
  unfold State.takeDesc
  split
  · exact hgo _ _ (State.meet_sound h ..)
  · exact State.except_sound (State.meet_sound h ..) ..
  · exact State.except_sound (State.meet_sound h ..) ..

theorem doTissue_sound (w : Issue) (rd ra : BitVec 5) (_ord : BitVec 4) {s : State} (h : κ.Sound s) : κ.Sound (doTissue w rd ra _ord s) :=
    by
  refine State.issue_sound h _ _ _ _ fun s h => State.onTarget_sound h _ _ _ fun _ a _ => ?_
  split
  · exact State.raiseFault_sound h ..
  · refine State.release_sound h _ _ fun s h => State.takeDesc_sound h _ _ _ fun s bs h => ?_
    refine State.modThr_sound (State.modBay_sound h _ ?_) _ _ fun t ht => Thread.next_shaped (Thread.setG_shaped ht ..)
    exact fun _ hy => hy

theorem doMq_sound (w : Issue) (rd ra : BitVec 5) (ord : BitVec 4) {s : State} (h : κ.Sound s) : κ.Sound (doMq w rd ra ord s) := by
  unfold doMq
  extract_lets m
  clear_value m
  refine State.issue_sound h _ _ _ _ fun s h => State.onTarget_sound h _ _ _ fun _ a _ => ?_
  split
  · exact State.raiseFault_sound h ..
  · refine State.release_sound h _ _ fun s h => State.takeDesc_sound h _ _ _ fun s bs h => ?_
    refine State.modThr_sound (State.modBay_sound (State.modMover_sound h ..) _ ?_) _ _ fun t ht => Thread.next_shaped (Thread.setG_shaped ht ..)
    exact fun _ hy => hy

theorem List.modify_congr_at {α : Type} {f g : α → α} {l : List α} {i : Nat} (h : ∀ x, l[i]? = some x → f x = g x) :
    l.modify i f = l.modify i g := by
  induction l generalizing i with
  | nil => simp
  | cons x l ih =>
    cases i with
    | zero => simp [h x rfl]
    | succ i => simpa using ih h

theorem State.modThr_eq_const (s : State) (b : Fin 80) (t : Fin 128) (f : Thread → Thread) :
    s.modThr b t f = s.modThr b t fun _ => f (s.thr b t) := by
  have hbays : s.bays.modify b (fun y => y.modThr t f) = s.bays.modify b fun y => y.modThr t fun _ => f (s.thr b t) := by
    refine List.modify_congr_at fun y hy => ?_
    have hthr : y.threads.modify t f = y.threads.modify t fun _ => f (s.thr b t) := by
      refine List.modify_congr_at fun u hu => ?_
      simp [State.thr, State.bay, Bay.thr, List.getD, hy, hu]
    simp only [Bay.modThr, hthr]
  simp only [State.modThr, State.modBay, hbays]

/-- A change of one thread that keeps the parts of the thread it finds. -/
theorem State.modThr_found_sound {s : State} (h : κ.Sound s) (b : Fin 80) (t : Fin 128) {f : Thread → Thread}
    (hf : κ.shape → (f (s.thr b t)).Shaped) : κ.Sound (s.modThr b t f) := by
  rw [State.modThr_eq_const]
  exact State.modThr_const_sound h b t hf

theorem State.waitTag_sound {s : State} (h : κ.Sound s) (w : Issue) (tag : Nat) (pending : Option FaultInfo) (issued beyond : Nat)
    (failed : List (Nat × FaultInfo)) (open_ : Bool) (on : WaitOn) :
    κ.SoundRan (s.waitTag w tag pending issued beyond failed open_ on) := by
  have hnext : κ.SoundRan (.done (s.modThr w.bay w.thread Thread.next)) := State.modThr_sound h _ _ fun _ ht => ht
  unfold State.waitTag
  split
  · exact State.raiseFault_sound h ..
  split
  · exact hnext
  split
  · exact State.raiseFault_sound h ..
  split
  · exact State.raiseFault_sound h ..
  split
  · exact h
  · exact hnext

theorem doTwait_sound (w : Issue) (_rd ra : BitVec 5) (_ord : BitVec 4) {s : State} (h : κ.Sound s) : κ.Sound (doTwait w _rd ra _ord s) :=
    by
  grind [doTwait, State.issue_sound, State.waitTag_sound]

theorem doMwait_sound (w : Issue) (_rd ra : BitVec 5) (_ord : BitVec 4) {s : State} (h : κ.Sound s) : κ.Sound (doMwait w _rd ra _ord s) :=
    by
  grind [doMwait, State.issue_sound, State.waitTag_sound]

theorem doSend_sound (w : Issue) (rd ra : BitVec 5) (_ord : BitVec 4) {s : State} (h : κ.Sound s) : κ.Sound (doSend w rd ra _ord s) := by
  refine State.issue_sound h _ _ _ _ fun s h => ?_
  dsimp only
  split
  · exact h
  split
  · exact State.except_sound h ..
  · exact State.modThr_sound h _ _ fun _ ht => Thread.next_shaped ht
  split
  · exact State.modThr_sound h _ _ fun _ ht => Thread.next_shaped ht
  split
  · exact h
  next hlen =>
    refine State.modThr_sound (State.modThr_found_sound h _ _ fun hm => ?_) _ _ fun _ ht => Thread.next_shaped ht
    obtain ⟨hg, hv, hbuf, hmbox, hline⟩ := State.thr_shaped h hm _ _
    exact ⟨hg, hv, hbuf, by simp at hlen ⊢; omega, hline⟩

theorem doRecv_sound (w : Issue) (rd _ra : BitVec 5) (_ord : BitVec 4) {s : State} (h : κ.Sound s) : κ.Sound (doRecv w rd _ra _ord s) := by
  refine State.issue_sound h _ _ _ _ fun s h => ?_
  split
  · exact h
  next m rest hm =>
    refine State.modThr_found_sound h _ _ fun hs => Thread.next_shaped (Thread.setV_shaped ?_ ..)
    refine Thread.shaped_of_sublist (State.thr_shaped h hs _ _) rfl rfl (.refl _) ?_
    rw [hm]
    simp

end Sys2Proof.Machine
end

section
/-! Every command keeps what a step keeps, and the two invariants that follow: the canonical byte stores, and the parts with the
queue's rest. -/
namespace Sys2Proof.Machine
open Sys2Proof
variable {κ : Ctx}

theorem Ctx.sound_of_next {s t : State} (h : κ.Sound s) (ht : (.next s : Host.Outcome State Fault Refusal) = .next t) : κ.Sound t := by
  cases ht
  exact h

theorem exec_sound (c : Instr) {s t : State} (hs : κ.Sound s) (ht : exec c s = .next t) : κ.Sound t := by
  cases c with
  | reqTail f value => exact Ctx.sound_of_next (doReqTail_sound f value hs) ht
  | descriptorFetch desc => exact Ctx.sound_of_next (doDescriptorFetch_sound desc hs) ht
  | deadlinePassed asn at_ => exact Ctx.sound_of_next (doDeadlinePassed_sound asn at_ hs) ht
  | dispatchOpportunity => exact Ctx.sound_of_next (doDispatchOpportunity_sound hs) ht
  | bayTaskEnd bay at_ energy => exact Ctx.sound_of_next (doBayTaskEnd_sound bay at_ energy hs) ht
  | hubMoverJob => exact Ctx.sound_of_next (doHubMoverJob_sound hs) ht
  | hubMoverJobDone job result data => exact Ctx.sound_of_next (doHubMoverJobDone_sound job result data hs) ht
  | streamCommitPhase2 asn => exact Ctx.sound_of_next (doStreamCommitPhase2_sound asn hs) ht
  | auditRecordCommit => exact Ctx.sound_of_next (doAuditRecordCommit_sound hs) ht
  | anchorRetry at_ => exact Ctx.sound_of_next (doAnchorRetry_sound at_ hs) ht
  | auditRecordDelivery => exact Ctx.sound_of_next (doAuditRecordDelivery_sound hs) ht
  | holdQueueDrain => exact Ctx.sound_of_next (doHoldQueueDrain_sound hs) ht
  | streamLeaseGrant asn => exact Ctx.sound_of_next (doStreamLeaseGrant_sound asn hs) ht
  | streamSwapInDone asn poisoned => exact Ctx.sound_of_next (doStreamSwapInDone_sound asn poisoned hs) ht
  | kvAppend bay mover => exact Ctx.sound_of_next (doKvAppend_sound bay mover hs) ht
  | kvGather bay mover => exact Ctx.sound_of_next (doKvGather_sound bay mover hs) ht
  | kvRecordCommit wu => exact Ctx.sound_of_next (doKvRecordCommit_sound wu hs) ht
  | mmul bay => exact Ctx.sound_of_next (doMmul_sound bay hs) ht
  | conv bay => exact Ctx.sound_of_next (doConv_sound bay hs) ht
  | tileTagComplete bay => exact Ctx.sound_of_next (doTileTagComplete_sound bay hs) ht
  | arrayRampDown bay => exact Ctx.sound_of_next (doArrayRampDown_sound bay hs) ht
  | rampTokenReturn tile => exact Ctx.sound_of_next (doRampTokenReturn_sound tile hs) ht
  | linear bay mover => exact Ctx.sound_of_next (doLinear_sound bay mover hs) ht
  | tile bay mover => exact Ctx.sound_of_next (doTile_sound bay mover hs) ht
  | pack bay mover => exact Ctx.sound_of_next (doPack_sound bay mover hs) ht
  | unpack bay mover => exact Ctx.sound_of_next (doUnpack_sound bay mover hs) ht
  | cellStep bay mover => exact Ctx.sound_of_next (doCellStep_sound bay mover hs) ht
  | moverTagComplete bay mover => exact Ctx.sound_of_next (doMoverTagComplete_sound bay mover hs) ht
  | exit_ w rd ra ord => exact Ctx.sound_of_next (doExit_sound w rd ra ord hs) ht
  | yield_ w rd ra ord => exact Ctx.sound_of_next (doYield_sound w rd ra ord hs) ht
  | trap w rd ra ord => exact Ctx.sound_of_next (doTrap_sound w rd ra ord hs) ht
  | aluAdd w rd ra rb => exact Ctx.sound_of_next (doAluAdd_sound w rd ra rb hs) ht
  | aluSub w rd ra rb => exact Ctx.sound_of_next (doAluSub_sound w rd ra rb hs) ht
  | aluAnd w rd ra rb => exact Ctx.sound_of_next (doAluAnd_sound w rd ra rb hs) ht
  | aluOr w rd ra rb => exact Ctx.sound_of_next (doAluOr_sound w rd ra rb hs) ht
  | aluXor w rd ra rb => exact Ctx.sound_of_next (doAluXor_sound w rd ra rb hs) ht
  | aluSll w rd ra rb => exact Ctx.sound_of_next (doAluSll_sound w rd ra rb hs) ht
  | aluSrl w rd ra rb => exact Ctx.sound_of_next (doAluSrl_sound w rd ra rb hs) ht
  | aluSra w rd ra rb => exact Ctx.sound_of_next (doAluSra_sound w rd ra rb hs) ht
  | aluMul w rd ra rb => exact Ctx.sound_of_next (doAluMul_sound w rd ra rb hs) ht
  | aluMulhu w rd ra rb => exact Ctx.sound_of_next (doAluMulhu_sound w rd ra rb hs) ht
  | aluDivu w rd ra rb => exact Ctx.sound_of_next (doAluDivu_sound w rd ra rb hs) ht
  | aluRemu w rd ra rb => exact Ctx.sound_of_next (doAluRemu_sound w rd ra rb hs) ht
  | aluMinu w rd ra rb => exact Ctx.sound_of_next (doAluMinu_sound w rd ra rb hs) ht
  | aluMaxu w rd ra rb => exact Ctx.sound_of_next (doAluMaxu_sound w rd ra rb hs) ht
  | aluMin w rd ra rb => exact Ctx.sound_of_next (doAluMin_sound w rd ra rb hs) ht
  | aluMax w rd ra rb => exact Ctx.sound_of_next (doAluMax_sound w rd ra rb hs) ht
  | pcmpEq w rd ra rb => exact Ctx.sound_of_next (doPcmpEq_sound w rd ra rb hs) ht
  | pcmpNe w rd ra rb => exact Ctx.sound_of_next (doPcmpNe_sound w rd ra rb hs) ht
  | pcmpLt w rd ra rb => exact Ctx.sound_of_next (doPcmpLt_sound w rd ra rb hs) ht
  | pcmpGe w rd ra rb => exact Ctx.sound_of_next (doPcmpGe_sound w rd ra rb hs) ht
  | pcmpLtu w rd ra rb => exact Ctx.sound_of_next (doPcmpLtu_sound w rd ra rb hs) ht
  | pcmpGeu w rd ra rb => exact Ctx.sound_of_next (doPcmpGeu_sound w rd ra rb hs) ht
  | addi w rd ra imm => exact Ctx.sound_of_next (doAddi_sound w rd ra imm hs) ht
  | andi w rd ra imm => exact Ctx.sound_of_next (doAndi_sound w rd ra imm hs) ht
  | ori w rd ra imm => exact Ctx.sound_of_next (doOri_sound w rd ra imm hs) ht
  | lih w rd ra imm => exact Ctx.sound_of_next (doLih_sound w rd ra imm hs) ht
  | vopAdd w ty rd ra rb => exact Ctx.sound_of_next (doVopAdd_sound w ty rd ra rb hs) ht
  | vopSub w ty rd ra rb => exact Ctx.sound_of_next (doVopSub_sound w ty rd ra rb hs) ht
  | vopMul w ty rd ra rb => exact Ctx.sound_of_next (doVopMul_sound w ty rd ra rb hs) ht
  | vopMin w ty rd ra rb => exact Ctx.sound_of_next (doVopMin_sound w ty rd ra rb hs) ht
  | vopMax w ty rd ra rb => exact Ctx.sound_of_next (doVopMax_sound w ty rd ra rb hs) ht
  | vopFma w ty rd ra rb => exact Ctx.sound_of_next (doVopFma_sound w ty rd ra rb hs) ht
  | vopAnd w ty rd ra rb => exact Ctx.sound_of_next (doVopAnd_sound w ty rd ra rb hs) ht
  | vopOr w ty rd ra rb => exact Ctx.sound_of_next (doVopOr_sound w ty rd ra rb hs) ht
  | vopXor w ty rd ra rb => exact Ctx.sound_of_next (doVopXor_sound w ty rd ra rb hs) ht
  | vopShl w ty rd ra rb => exact Ctx.sound_of_next (doVopShl_sound w ty rd ra rb hs) ht
  | vopShr w ty rd ra rb => exact Ctx.sound_of_next (doVopShr_sound w ty rd ra rb hs) ht
  | vopExp w ty rd ra rb => exact Ctx.sound_of_next (doVopExp_sound w ty rd ra rb hs) ht
  | vcvt w fn rd ra rb => exact Ctx.sound_of_next (doVcvt_sound w fn rd ra rb hs) ht
  | vredSum w ty rd ra rb => exact Ctx.sound_of_next (doVredSum_sound w ty rd ra rb hs) ht
  | vredMax w ty rd ra rb => exact Ctx.sound_of_next (doVredMax_sound w ty rd ra rb hs) ht
  | vredMin w ty rd ra rb => exact Ctx.sound_of_next (doVredMin_sound w ty rd ra rb hs) ht
  | vget w rd ra rb => exact Ctx.sound_of_next (doVget_sound w rd ra rb hs) ht
  | vput w rd ra rb => exact Ctx.sound_of_next (doVput_sound w rd ra rb hs) ht
  | vbcast w rd ra rb => exact Ctx.sound_of_next (doVbcast_sound w rd ra rb hs) ht
  | ld w rt ra sz off => exact Ctx.sound_of_next (doLd_sound w rt ra sz off hs) ht
  | lds w rt ra sz off => exact Ctx.sound_of_next (doLds_sound w rt ra sz off hs) ht
  | st w rt ra sz off => exact Ctx.sound_of_next (doSt_sound w rt ra sz off hs) ht
  | vld w rt ra sz off => exact Ctx.sound_of_next (doVld_sound w rt ra sz off hs) ht
  | vst w rt ra sz off => exact Ctx.sound_of_next (doVst_sound w rt ra sz off hs) ht
  | storeLineDrain bay thread line => exact Ctx.sound_of_next (doStoreLineDrain_sound bay thread line hs) ht
  | br w off => exact Ctx.sound_of_next (doBr_sound w off hs) ht
  | call w off => exact Ctx.sound_of_next (doCall_sound w off hs) ht
  | jr w rd ra rb fn => exact Ctx.sound_of_next (doJr_sound w rd ra rb fn hs) ht
  | atomLd w rd ra ord width => exact Ctx.sound_of_next (doAtomLd_sound w rd ra ord width hs) ht
  | atomSt w rd ra ord width => exact Ctx.sound_of_next (doAtomSt_sound w rd ra ord width hs) ht
  | atomSwap w rd ra ord width => exact Ctx.sound_of_next (doAtomSwap_sound w rd ra ord width hs) ht
  | atomCas w rd ra ord width => exact Ctx.sound_of_next (doAtomCas_sound w rd ra ord width hs) ht
  | atomAdd w rd ra ord width => exact Ctx.sound_of_next (doAtomAdd_sound w rd ra ord width hs) ht
  | atomAnd w rd ra ord width => exact Ctx.sound_of_next (doAtomAnd_sound w rd ra ord width hs) ht
  | atomOr w rd ra ord width => exact Ctx.sound_of_next (doAtomOr_sound w rd ra ord width hs) ht
  | atomXor w rd ra ord width => exact Ctx.sound_of_next (doAtomXor_sound w rd ra ord width hs) ht
  | atomMin w rd ra ord width => exact Ctx.sound_of_next (doAtomMin_sound w rd ra ord width hs) ht
  | atomMax w rd ra ord width => exact Ctx.sound_of_next (doAtomMax_sound w rd ra ord width hs) ht
  | atomMinu w rd ra ord width => exact Ctx.sound_of_next (doAtomMinu_sound w rd ra ord width hs) ht
  | atomMaxu w rd ra ord width => exact Ctx.sound_of_next (doAtomMaxu_sound w rd ra ord width hs) ht
  | fenceB w rd ra ord => exact Ctx.sound_of_next (doFenceB_sound w rd ra ord hs) ht
  | fenceN w rd ra ord => exact Ctx.sound_of_next (doFenceN_sound w rd ra ord hs) ht
  | fenceG w rd ra ord => exact Ctx.sound_of_next (doFenceG_sound w rd ra ord hs) ht
  | barBay w rd ra ord => exact Ctx.sound_of_next (doBarBay_sound w rd ra ord hs) ht
  | barNode w rd ra ord => exact Ctx.sound_of_next (doBarNode_sound w rd ra ord hs) ht
  | barFabric w rd ra ord => exact Ctx.sound_of_next (doBarFabric_sound w rd ra ord hs) ht
  | tissue w rd ra ord => exact Ctx.sound_of_next (doTissue_sound w rd ra ord hs) ht
  | twait w rd ra ord => exact Ctx.sound_of_next (doTwait_sound w rd ra ord hs) ht
  | mq w rd ra ord => exact Ctx.sound_of_next (doMq_sound w rd ra ord hs) ht
  | mwait w rd ra ord => exact Ctx.sound_of_next (doMwait_sound w rd ra ord hs) ht
  | send w rd ra ord => exact Ctx.sound_of_next (doSend_sound w rd ra ord hs) ht
  | recv w rd ra ord => exact Ctx.sound_of_next (doRecv_sound w rd ra ord hs) ht
  | philox w rd ra ord xf => exact Ctx.sound_of_next (doPhilox_sound w rd ra ord xf hs) ht
  | ctx w rd ra ord xf => exact Ctx.sound_of_next (doCtx_sound w rd ra ord xf hs) ht
  | pwrOkRise straps btnLow cxlPorts cxlDevs => exact Ctx.sound_of_next (doPwrOkRise_sound straps btnLow cxlPorts cxlDevs hs) ht
  | pwrOkFall => exact Ctx.sound_of_next (doPwrOkFall_sound hs) ht
  | coldResetPerform straps btnLow cxlPorts cxlDevs => exact Ctx.sound_of_next (doColdResetPerform_sound straps btnLow cxlPorts cxlDevs hs) ht
  | refQualified at_ => exact Ctx.sound_of_next (doRefQualified_sound at_ hs) ht
  | pllLock at_ => exact Ctx.sound_of_next (doPllLock_sound at_ hs) ht
  | powerOnBist failBays hubFail rcDead => exact Ctx.sound_of_next (doPowerOnBist_sound failBays hubFail rcDead hs) ht
  | slotVerify timeoutA timeoutB => exact Ctx.sound_of_next (doSlotVerify_sound timeoutA timeoutB hs) ht
  | hbmTrainingDone => exact Ctx.sound_of_next (doHbmTrainingDone_sound hs) ht
  | weightFetchDone entry peer delivered data => exact Ctx.sound_of_next (doWeightFetchDone_sound entry peer delivered data hs) ht
  | weightCodingDone entry => exact Ctx.sound_of_next (doWeightCodingDone_sound entry hs) ht
  | bootReady => exact Ctx.sound_of_next (doBootReady_sound hs) ht
  | sysRstNLow => exact Ctx.sound_of_next (doSysRstNLow_sound hs) ht
  | resetBtnPress => exact Ctx.sound_of_next (doResetBtnPress_sound hs) ht
  | resetBtnRelease => exact Ctx.sound_of_next (doResetBtnRelease_sound hs) ht
  | resetBtnHold => exact Ctx.sound_of_next (doResetBtnHold_sound hs) ht
  | buttonRearm => exact Ctx.sound_of_next (doButtonRearm_sound hs) ht
  | watchdogExpiry core => exact Ctx.sound_of_next (doWatchdogExpiry_sound core hs) ht
  | warmResetPerform => exact Ctx.sound_of_next (doWarmResetPerform_sound hs) ht
  | warmResetComplete => exact Ctx.sound_of_next (doWarmResetComplete_sound hs) ht
  | safeCommitReset at_ => exact Ctx.sound_of_next (doSafeCommitReset_sound at_ hs) ht
  | thermtrip sensor => exact Ctx.sound_of_next (doThermtrip_sound sensor hs) ht
  | fatalFault code => exact Ctx.sound_of_next (doFatalFault_sound code hs) ht
  | refGlitch at_ => exact Ctx.sound_of_next (doRefGlitch_sound at_ hs) ht
  | refDrift fast => exact Ctx.sound_of_next (doRefDrift_sound fast hs) ht
  | refDriftClear => exact Ctx.sound_of_next (doRefDriftClear_sound hs) ht
  | refLost => exact Ctx.sound_of_next (doRefLost_sound hs) ht
  | avsTargetReached tile => exact Ctx.sound_of_next (doAvsTargetReached_sound tile hs) ht
  | avsTimeout tile => exact Ctx.sound_of_next (doAvsTimeout_sound tile hs) ht
  | p2Entry at_ => exact Ctx.sound_of_next (doP2Entry_sound at_ hs) ht
  | p3Entry at_ => exact Ctx.sound_of_next (doP3Entry_sound at_ hs) ht
  | aonTimerExpiry at_ => exact Ctx.sound_of_next (doAonTimerExpiry_sound at_ hs) ht
  | pcieWake => exact Ctx.sound_of_next (doPcieWake_sound hs) ht
  | trussListenWake port => exact Ctx.sound_of_next (doTrussListenWake_sound port hs) ht
  | p3ExitComplete at_ => exact Ctx.sound_of_next (doP3ExitComplete_sound at_ hs) ht
  | swRailMinLowEnd at_ => exact Ctx.sound_of_next (doSwRailMinLowEnd_sound at_ hs) ht
  | budgetWindowStart at_ sensors rails base => exact Ctx.sound_of_next (doBudgetWindowStart_sound at_ sensors rails base hs) ht
  | schedulerEpochBoundary at_ => exact Ctx.sound_of_next (doSchedulerEpochBoundary_sound at_ hs) ht
  | estimatorRecalibration at_ vrm est part => exact Ctx.sound_of_next (doEstimatorRecalibration_sound at_ vrm est part hs) ht
  | vrmTelemetryStale at_ => exact Ctx.sound_of_next (doVrmTelemetryStale_sound at_ hs) ht
  | hbmTempPoll at_ temps => exact Ctx.sound_of_next (doHbmTempPoll_sound at_ temps hs) ht
  | hbmTempTimeout stack at_ => exact Ctx.sound_of_next (doHbmTempTimeout_sound stack at_ hs) ht
  | wuTimeout bay at_ => exact Ctx.sound_of_next (doWuTimeout_sound bay at_ hs) ht
  | bayFence bay => exact Ctx.sound_of_next (doBayFence_sound bay hs) ht
  | stageImage f seq dma => exact Ctx.sound_of_next (doStageImage_sound f seq dma hs) ht
  | commitImage f seq => exact Ctx.sound_of_next (doCommitImage_sound f seq hs) ht
  | flashOperationDone ok at_ => exact Ctx.sound_of_next (doFlashOperationDone_sound ok at_ hs) ht
  | getInfo f seq => exact Ctx.sound_of_next (doGetInfo_sound f seq hs) ht
  | setTunable f seq => exact Ctx.sound_of_next (doSetTunable_sound f seq hs) ht
  | quiesce f seq => exact Ctx.sound_of_next (doQuiesce_sound f seq hs) ht
  | quiesceComplete => exact Ctx.sound_of_next (doQuiesceComplete_sound hs) ht
  | resume f seq => exact Ctx.sound_of_next (doResume_sound f seq hs) ht
  | warmReset f seq => exact Ctx.sound_of_next (doWarmReset_sound f seq hs) ht
  | snapshot f seq => exact Ctx.sound_of_next (doSnapshot_sound f seq hs) ht
  | plumbNow f seq => exact Ctx.sound_of_next (doPlumbNow_sound f seq hs) ht
  | sentinelRead f seq => exact Ctx.sound_of_next (doSentinelRead_sound f seq hs) ht
  | exportPubkey f seq => exact Ctx.sound_of_next (doExportPubkey_sound f seq hs) ht
  | setTimeOffset f seq => exact Ctx.sound_of_next (doSetTimeOffset_sound f seq hs) ht
  | leaveFabric f seq => exact Ctx.sound_of_next (doLeaveFabric_sound f seq hs) ht
  | arm f value => exact Ctx.sound_of_next (doArm_sound f value hs) ht
  | disarm f => exact Ctx.sound_of_next (doDisarm_sound f hs) ht
  | tailErrClear f => exact Ctx.sound_of_next (doTailErrClear_sound f hs) ht
  | cplHead f value => exact Ctx.sound_of_next (doCplHead_sound f value hs) ht
  | audHead value => exact Ctx.sound_of_next (doAudHead_sound value hs) ht
  | irqCauseClear f value => exact Ctx.sound_of_next (doIrqCauseClear_sound f value hs) ht
  | take => exact Ctx.sound_of_next (doTake_sound hs) ht
  | load index => exact Ctx.sound_of_next (doLoad_sound index hs) ht
  | registerWrite f win offset width value dma => exact Ctx.sound_of_next (doRegisterWrite_sound f win offset width value dma hs) ht
  | flr f => exact Ctx.sound_of_next (doFlr_sound f hs) ht
  | perstNAssert => exact Ctx.sound_of_next (doPerstNAssert_sound hs) ht
  | perstNDeassert => exact Ctx.sound_of_next (doPerstNDeassert_sound hs) ht
  | doeDiscovery index => exact Ctx.sound_of_next (doDoeDiscovery_sound index hs) ht
  | getVersion => exact Ctx.sound_of_next (doGetVersion_sound hs) ht
  | getCapabilities => exact Ctx.sound_of_next (doGetCapabilities_sound hs) ht
  | negotiateAlgorithms ecdsaP384 sha384 => exact Ctx.sound_of_next (doNegotiateAlgorithms_sound ecdsaP384 sha384 hs) ht
  | getDigests => exact Ctx.sound_of_next (doGetDigests_sound hs) ht
  | getCertificate slot offset length => exact Ctx.sound_of_next (doGetCertificate_sound slot offset length hs) ht
  | challenge slot nonce => exact Ctx.sound_of_next (doChallenge_sound slot nonce hs) ht
  | getMeasurements index sign nonce => exact Ctx.sound_of_next (doGetMeasurements_sound index sign nonce hs) ht
  | smbusStatus => exact Ctx.sound_of_next (doSmbusStatus_sound hs) ht
  | smbusTmax => exact Ctx.sound_of_next (doSmbusTmax_sound hs) ht
  | smbusModulePower => exact Ctx.sound_of_next (doSmbusModulePower_sound hs) ht
  | smbusHbmTemp => exact Ctx.sound_of_next (doSmbusHbmTemp_sound hs) ht
  | smbusNodeEpoch => exact Ctx.sound_of_next (doSmbusNodeEpoch_sound hs) ht
  | smbusDegradedCount => exact Ctx.sound_of_next (doSmbusDegradedCount_sound hs) ht
  | smbusStepping => exact Ctx.sound_of_next (doSmbusStepping_sound hs) ht
  | cxlEventPoll at_ events => exact Ctx.sound_of_next (doCxlEventPoll_sound at_ events hs) ht
  | cxlDeviceLost dev => exact Ctx.sound_of_next (doCxlDeviceLost_sound dev hs) ht
  | detectBurst port => exact Ctx.sound_of_next (doDetectBurst_sound port hs) ht
  | peerSignalDetect port at_ => exact Ctx.sound_of_next (doPeerSignalDetect_sound port at_ hs) ht
  | trainingSet port set => exact Ctx.sound_of_next (doTrainingSet_sound port set hs) ht
  | eqTimeout port => exact Ctx.sound_of_next (doEqTimeout_sound port hs) ht
  | trainingTimeout port => exact Ctx.sound_of_next (doTrainingTimeout_sound port hs) ht
  | dataFlit port words => exact Ctx.sound_of_next (doDataFlit_sound port words hs) ht
  | idle port words => exact Ctx.sound_of_next (doIdle_sound port words hs) ht
  | nak port words => exact Ctx.sound_of_next (doNak_sound port words hs) ht
  | silent port words => exact Ctx.sound_of_next (doSilent_sound port words hs) ht
  | health port words => exact Ctx.sound_of_next (doHealth_sound port words hs) ht
  | spare port words => exact Ctx.sound_of_next (doSpare_sound port words hs) ht
  | unspare port words => exact Ctx.sound_of_next (doUnspare_sound port words hs) ht
  | reconfig port words => exact Ctx.sound_of_next (doReconfig_sound port words hs) ht
  | resync port words => exact Ctx.sound_of_next (doResync_sound port words hs) ht
  | nakRepeat port => exact Ctx.sound_of_next (doNakRepeat_sound port hs) ht
  | replayTimeout port at_ => exact Ctx.sound_of_next (doReplayTimeout_sound port at_ hs) ht
  | recoveryTimeout port => exact Ctx.sound_of_next (doRecoveryTimeout_sound port hs) ht
  | evaluationWindowEnd port at_ => exact Ctx.sound_of_next (doEvaluationWindowEnd_sound port at_ hs) ht
  | laneFailure port lane => exact Ctx.sound_of_next (doLaneFailure_sound port lane hs) ht
  | marginUpdate port margins => exact Ctx.sound_of_next (doMarginUpdate_sound port margins hs) ht
  | spareSwitchEffective port => exact Ctx.sound_of_next (doSpareSwitchEffective_sound port hs) ht
  | portRestore port at_ => exact Ctx.sound_of_next (doPortRestore_sound port at_ hs) ht
  | drainEnd port => exact Ctx.sound_of_next (doDrainEnd_sound port hs) ht
  | codewordLockLoss port => exact Ctx.sound_of_next (doCodewordLockLoss_sound port hs) ht
  | helloSend port => exact Ctx.sound_of_next (doHelloSend_sound port hs) ht
  | hello port h at_ => exact Ctx.sound_of_next (doHello_sound port h at_ hs) ht
  | helloTimeout port => exact Ctx.sound_of_next (doHelloTimeout_sound port hs) ht
  | lsa port r at_ => exact Ctx.sound_of_next (doLsa_sound port r at_ hs) ht
  | lsaRefresh at_ => exact Ctx.sound_of_next (doLsaRefresh_sound at_ hs) ht
  | lsaAgeOut origin => exact Ctx.sound_of_next (doLsaAgeOut_sound origin hs) ht
  | routeCompute => exact Ctx.sound_of_next (doRouteCompute_sound hs) ht
  | epoch port r at_ => exact Ctx.sound_of_next (doEpoch_sound port r at_ hs) ht
  | epochSettle at_ => exact Ctx.sound_of_next (doEpochSettle_sound at_ hs) ht
  | caps port r => exact Ctx.sound_of_next (doCaps_sound port r hs) ht
  | leave port r => exact Ctx.sound_of_next (doLeave_sound port r hs) ht
  | tokenReq h body => exact Ctx.sound_of_next (doTokenReq_sound h body hs) ht
  | token h asn number bases => exact Ctx.sound_of_next (doToken_sound h asn number bases hs) ht
  | tokenRefuse h asn reason => exact Ctx.sound_of_next (doTokenRefuse_sound h asn reason hs) ht
  | tokenRelease h asn => exact Ctx.sound_of_next (doTokenRelease_sound h asn hs) ht
  | stepAck h wu => exact Ctx.sound_of_next (doStepAck_sound h wu hs) ht
  | abort h asn status => exact Ctx.sound_of_next (doAbort_sound h asn status hs) ht
  | weightQuery h object hash => exact Ctx.sound_of_next (doWeightQuery_sound h object hash hs) ht
  | weightHave h object holds => exact Ctx.sound_of_next (doWeightHave_sound h object holds hs) ht
  | read h => exact Ctx.sound_of_next (doRead_sound h hs) ht
  | write h data => exact Ctx.sound_of_next (doWrite_sound h data hs) ht
  | atomic h ord xf operand compare => exact Ctx.sound_of_next (doAtomic_sound h ord xf operand compare hs) ht
  | actPush h p data => exact Ctx.sound_of_next (doActPush_sound h p data hs) ht
  | lease h op key leaseEpoch => exact Ctx.sound_of_next (doLease_sound h op key leaseEpoch hs) ht
  | barrier h asn slot generation arrived count isRelease =>
    exact Ctx.sound_of_next (doBarrier_sound h asn slot generation arrived count isRelease hs) ht
  | barrierBatchSend at_ => exact Ctx.sound_of_next (doBarrierBatchSend_sound at_ hs) ht
  | time h isResponse t1 t2 t3 t4 => exact Ctx.sound_of_next (doTime_sound h isResponse t1 t2 t3 t4 hs) ht
  | timeSyncSend at_ => exact Ctx.sound_of_next (doTimeSyncSend_sound at_ hs) ht
  | transportResponse h vc data => exact Ctx.sound_of_next (doTransportResponse_sound h vc data hs) ht
  | requestTimeout dst vc tseq at_ => exact Ctx.sound_of_next (doRequestTimeout_sound dst vc tseq at_ hs) ht
  | transitDrop port vc => exact Ctx.sound_of_next (doTransitDrop_sound port vc hs) ht
  | sentinelFrameEnd at_ pdm => exact Ctx.sound_of_next (doSentinelFrameEnd_sound at_ pdm hs) ht
  | wakePulseEnd at_ => exact Ctx.sound_of_next (doWakePulseEnd_sound at_ hs) ht
  | prerollFreeze at_ => exact Ctx.sound_of_next (doPrerollFreeze_sound at_ hs) ht
  | wakeWindowClose at_ => exact Ctx.sound_of_next (doWakeWindowClose_sound at_ hs) ht
  | mute => exact Ctx.sound_of_next (doMute_sound hs) ht
  | muteEraseDone => exact Ctx.sound_of_next (doMuteEraseDone_sound hs) ht
  | unmute at_ => exact Ctx.sound_of_next (doUnmute_sound at_ hs) ht
  | pdmClkStart at_ => exact Ctx.sound_of_next (doPdmClkStart_sound at_ hs) ht
  | micSelfCheck at_ chans => exact Ctx.sound_of_next (doMicSelfCheck_sound at_ chans hs) ht
  | snapshotPulse => exact Ctx.sound_of_next (doSnapshotPulse_sound hs) ht
  | periodicSnapshot at_ => exact Ctx.sound_of_next (doPeriodicSnapshot_sound at_ hs) ht
  | bandwidthWindowEnd at_ => exact Ctx.sound_of_next (doBandwidthWindowEnd_sound at_ hs) ht
  | plumbRunStart trigger at_ => exact Ctx.sound_of_next (doPlumbRunStart_sound trigger at_ hs) ht
  | plumbRoundStart tile => exact Ctx.sound_of_next (doPlumbRoundStart_sound tile hs) ht
  | plumbSegmentEnd tile starved => exact Ctx.sound_of_next (doPlumbSegmentEnd_sound tile starved hs) ht
  | plumbStepDone tile passed group hubFail => exact Ctx.sound_of_next (doPlumbStepDone_sound tile passed group hubFail hs) ht
  | patrolScrub addr result => exact Ctx.sound_of_next (doPatrolScrub_sound addr result hs) ht
  | sysRstNRelease straps btnLow cxlPorts cxlDevs => exact Ctx.sound_of_next (doSysRstNRelease_sound straps btnLow cxlPorts cxlDevs hs) ht
  | flitSlot slot => exact Ctx.sound_of_next (doFlitSlot_sound slot hs) ht
  | configSpaceWrite w => exact Ctx.sound_of_next (doConfigSpaceWrite_sound w hs) ht
  | pcieLinkUp => exact Ctx.sound_of_next (doPcieLinkUp_sound hs) ht
  | unsupportedRequest r => exact Ctx.sound_of_next (doUnsupportedRequest_sound r hs) ht
  | smbusBusTimeout => exact Ctx.sound_of_next (doSmbusBusTimeout_sound hs) ht
  | tapInstruction ins => exact Ctx.sound_of_next (doTapInstruction_sound ins hs) ht
  | illegalInstr w word => exact Ctx.sound_of_next (doIllegalInstr_sound w word hs) ht
  | arrayOff bay => exact Ctx.sound_of_next (doArrayOff_sound bay hs) ht

/-- A step's state is sound for what is assumed of the state it starts in, and the rest of its queue. -/
theorem step_sound {s t : State} (ht : step s = .next t) :
    Ctx.Sound ⟨Safety.canonical s, Safety.shaped s, s.pending.tail⟩ t := by
  have hstart := Ctx.sound_start s s.pending.tail
  unfold step at ht
  split at ht
  next hq =>
    cases ht
    have hs : { s with pending := s.pending.tail } = s := by rw [hq, List.tail_nil, ← hq]
    rw [hs] at hstart
    exact State.blowFuse_sound (State.tick_sound hstart)
  next c rest hq =>
    rw [hq] at hstart ⊢
    exact exec_sound c hstart ht

/-- Settles O59: each operation of the model keeps the canonical form, so every command does. -/
theorem stepsKeepMemoryCanonical : Obligations.StepsKeepMemoryCanonical :=
  fun _ _ h ht => (step_sound ht).canonical h

/-- Settles O60: each operation of the model keeps the parts and the queue, so every command does. -/
theorem stepsKeepTheParts : Obligations.StepsKeepTheParts :=
  fun _ _ h ht => ⟨(step_sound ht).shaped h, (step_sound ht).queue⟩

end Sys2Proof.Machine
end

section
/-! Instructions on registers (05, R126 to R130, Table 5.2): what issuing does when the instruction takes no effect, and the effects of the
comparisons, branches, calls and jumps. -/
namespace Sys2Proof.Machine
open Sys2Proof

/-! ## The parts of intermediate states -/

/-- The assumptions under which everything that is known of one state holds of it. -/
def Ctx.ofState (s : State) : Ctx := ⟨Safety.canonical s, Safety.shaped s, s.pending⟩

theorem Ctx.sound_ofState (s : State) : (Ctx.ofState s).Sound s := Ctx.sound_start s s.pending

/-! ## Issue -/

/-- A change of the state issues an instruction of this legality. -/
def IssuesAs (w : Issue) (legal : Bool) (f : State → State) : Prop :=
  ∃ reads write run, ∀ s : State, f s = s.issue w legal reads write run

section
variable (w : Issue)

theorem issuesAs_issue (legal : Bool) (reads : List RegName) (write : Option RegName) (run : State → Ran) :
    IssuesAs w legal fun s => s.issue w legal reads write run := ⟨_, _, _, fun _ => rfl⟩
theorem issuesAs_issueThr (legal : Bool) (reads : List RegName) (write : Option RegName) (f : Thread → Thread) :
    IssuesAs w legal fun s => s.issueThr w legal reads write f := ⟨_, _, _, fun _ => rfl⟩
theorem issuesAs_issueAlu (rd ra rb : BitVec 5) (op : Word → Word → Word) :
    IssuesAs w true fun s => s.issueAlu w rd ra rb op := issuesAs_issueThr ..
theorem issuesAs_issueCmp (rd ra rb : BitVec 5) (op : Word → Word → Bool) :
    IssuesAs w (rd.extractLsb' 3 2 != 3#2) fun s => s.issueCmp w rd ra rb op := issuesAs_issueThr ..
theorem issuesAs_issueVop (legal : Bool) (ty : BitVec 3) (f : Nat) (rd ra rb : BitVec 5) :
    IssuesAs w legal fun s => s.issueVop w legal ty f rd ra rb := issuesAs_issueThr ..
theorem issuesAs_issueLoad (legal vector signed : Bool) (rt ra : BitVec 5) (sz : BitVec 3) (off : BitVec 9) :
    IssuesAs w legal fun s => s.issueLoad w legal vector signed rt ra sz off := ⟨_, _, _, fun _ => rfl⟩
theorem issuesAs_issueStore (legal vector : Bool) (rt ra : BitVec 5) (sz : BitVec 3) (off : BitVec 9) :
    IssuesAs w legal fun s => s.issueStore w legal vector rt ra sz off := ⟨_, _, _, fun _ => rfl⟩
theorem issuesAs_issueAtom (legal : Bool) (op : AtomOp) (rd ra : BitVec 5) (ord : BitVec 4) (width : BitVec 2) :
    IssuesAs w legal fun s => s.issueAtom w legal op rd ra ord width := by
  unfold State.issueAtom
  exact issuesAs_issue ..
theorem issuesAs_issueFence (scope : Scope) (rd ra : BitVec 5) (ord : BitVec 4) :
    IssuesAs w (rd == 0#5 && ra == 0#5 && ord == 0#4) fun s => s.issueFence w scope rd ra ord := ⟨_, _, _, fun _ => rfl⟩
theorem issuesAs_issueBar (scope : Scope) (rd ra : BitVec 5) (ord : BitVec 4) (slots maxCount : Nat)
    (cur : State → Task → Nat → Option Nat) (arrive : State → Task → Nat → Nat → State) :
    IssuesAs w (ord == 0#4) fun s => s.issueBar w scope rd ra ord slots maxCount cur arrive := ⟨_, _, _, fun _ => rfl⟩
theorem issuesAs_doMq (rd ra : BitVec 5) (ord : BitVec 4) : IssuesAs w true (doMq w rd ra ord) := by
  unfold doMq
  exact issuesAs_issue ..
end

theorem exec_issuesAs {i : Instr} {w : Issue} {x : BitVec 32} (hx : encodeThread i = some x) (hw : i.issue = some w) :
    ∃ f, IssuesAs w i.threadLegal f ∧ ∀ s, exec i s = .next (f s) := by
  cases i with
  | exit_ => cases hw; exact ⟨_, issuesAs_issue .., fun _ => rfl⟩
  | yield_ => cases hw; exact ⟨_, issuesAs_issueThr .., fun _ => rfl⟩
  | trap => cases hw; exact ⟨_, issuesAs_issue .., fun _ => rfl⟩
  | aluAdd => cases hw; exact ⟨_, issuesAs_issueAlu .., fun _ => rfl⟩
  | aluSub => cases hw; exact ⟨_, issuesAs_issueAlu .., fun _ => rfl⟩
  | aluAnd => cases hw; exact ⟨_, issuesAs_issueAlu .., fun _ => rfl⟩
  | aluOr => cases hw; exact ⟨_, issuesAs_issueAlu .., fun _ => rfl⟩
  | aluXor => cases hw; exact ⟨_, issuesAs_issueAlu .., fun _ => rfl⟩
  | aluSll => cases hw; exact ⟨_, issuesAs_issueAlu .., fun _ => rfl⟩
  | aluSrl => cases hw; exact ⟨_, issuesAs_issueAlu .., fun _ => rfl⟩
  | aluSra => cases hw; exact ⟨_, issuesAs_issueAlu .., fun _ => rfl⟩
  | aluMul => cases hw; exact ⟨_, issuesAs_issueAlu .., fun _ => rfl⟩
  | aluMulhu => cases hw; exact ⟨_, issuesAs_issueAlu .., fun _ => rfl⟩
  | aluDivu => cases hw; exact ⟨_, issuesAs_issueAlu .., fun _ => rfl⟩
  | aluRemu => cases hw; exact ⟨_, issuesAs_issueAlu .., fun _ => rfl⟩
  | aluMinu => cases hw; exact ⟨_, issuesAs_issueAlu .., fun _ => rfl⟩
  | aluMaxu => cases hw; exact ⟨_, issuesAs_issueAlu .., fun _ => rfl⟩
  | aluMin => cases hw; exact ⟨_, issuesAs_issueAlu .., fun _ => rfl⟩
  | aluMax => cases hw; exact ⟨_, issuesAs_issueAlu .., fun _ => rfl⟩
  | pcmpEq => cases hw; exact ⟨_, issuesAs_issueCmp .., fun _ => rfl⟩
  | pcmpNe => cases hw; exact ⟨_, issuesAs_issueCmp .., fun _ => rfl⟩
  | pcmpLt => cases hw; exact ⟨_, issuesAs_issueCmp .., fun _ => rfl⟩
  | pcmpGe => cases hw; exact ⟨_, issuesAs_issueCmp .., fun _ => rfl⟩
  | pcmpLtu => cases hw; exact ⟨_, issuesAs_issueCmp .., fun _ => rfl⟩
  | pcmpGeu => cases hw; exact ⟨_, issuesAs_issueCmp .., fun _ => rfl⟩
  | addi => cases hw; exact ⟨_, issuesAs_issueThr .., fun _ => rfl⟩
  | andi => cases hw; exact ⟨_, issuesAs_issueThr .., fun _ => rfl⟩
  | ori => cases hw; exact ⟨_, issuesAs_issueThr .., fun _ => rfl⟩
  | lih => cases hw; exact ⟨_, issuesAs_issueThr .., fun _ => rfl⟩
  | vopAdd => cases hw; exact ⟨_, issuesAs_issueVop .., fun _ => rfl⟩
  | vopSub => cases hw; exact ⟨_, issuesAs_issueVop .., fun _ => rfl⟩
  | vopMul => cases hw; exact ⟨_, issuesAs_issueVop .., fun _ => rfl⟩
  | vopMin => cases hw; exact ⟨_, issuesAs_issueVop .., fun _ => rfl⟩
  | vopMax => cases hw; exact ⟨_, issuesAs_issueVop .., fun _ => rfl⟩
  | vopFma => cases hw; exact ⟨_, issuesAs_issueVop .., fun _ => rfl⟩
  | vopAnd => cases hw; exact ⟨_, issuesAs_issueVop .., fun _ => rfl⟩
  | vopOr => cases hw; exact ⟨_, issuesAs_issueVop .., fun _ => rfl⟩
  | vopXor => cases hw; exact ⟨_, issuesAs_issueVop .., fun _ => rfl⟩
  | vopShl => cases hw; exact ⟨_, issuesAs_issueVop .., fun _ => rfl⟩
  | vopShr => cases hw; exact ⟨_, issuesAs_issueVop .., fun _ => rfl⟩
  | vopExp => cases hw; exact ⟨_, issuesAs_issueVop .., fun _ => rfl⟩
  | vcvt => cases hw; exact ⟨_, issuesAs_issueThr .., fun _ => rfl⟩
  | vredSum => cases hw; exact ⟨_, issuesAs_issueThr .., fun _ => rfl⟩
  | vredMax => cases hw; exact ⟨_, issuesAs_issueThr .., fun _ => rfl⟩
  | vredMin => cases hw; exact ⟨_, issuesAs_issueThr .., fun _ => rfl⟩
  | vget => cases hw; exact ⟨_, issuesAs_issueThr .., fun _ => rfl⟩
  | vput => cases hw; exact ⟨_, issuesAs_issueThr .., fun _ => rfl⟩
  | vbcast => cases hw; exact ⟨_, issuesAs_issueThr .., fun _ => rfl⟩
  | ld => cases hw; exact ⟨_, issuesAs_issueLoad .., fun _ => rfl⟩
  | lds => cases hw; exact ⟨_, issuesAs_issueLoad .., fun _ => rfl⟩
  | st => cases hw; exact ⟨_, issuesAs_issueStore .., fun _ => rfl⟩
  | vld => cases hw; exact ⟨_, issuesAs_issueLoad .., fun _ => rfl⟩
  | vst => cases hw; exact ⟨_, issuesAs_issueStore .., fun _ => rfl⟩
  | br => cases hw; exact ⟨_, issuesAs_issueThr .., fun _ => rfl⟩
  | call => cases hw; exact ⟨_, issuesAs_issueThr .., fun _ => rfl⟩
  | jr => cases hw; exact ⟨_, issuesAs_issueThr .., fun _ => rfl⟩
  | atomLd => cases hw; exact ⟨_, issuesAs_issueAtom .., fun _ => rfl⟩
  | atomSt => cases hw; exact ⟨_, issuesAs_issueAtom .., fun _ => rfl⟩
  | atomSwap => cases hw; exact ⟨_, issuesAs_issueAtom .., fun _ => rfl⟩
  | atomCas => cases hw; exact ⟨_, issuesAs_issueAtom .., fun _ => rfl⟩
  | atomAdd => cases hw; exact ⟨_, issuesAs_issueAtom .., fun _ => rfl⟩
  | atomAnd => cases hw; exact ⟨_, issuesAs_issueAtom .., fun _ => rfl⟩
  | atomOr => cases hw; exact ⟨_, issuesAs_issueAtom .., fun _ => rfl⟩
  | atomXor => cases hw; exact ⟨_, issuesAs_issueAtom .., fun _ => rfl⟩
  | atomMin => cases hw; exact ⟨_, issuesAs_issueAtom .., fun _ => rfl⟩
  | atomMax => cases hw; exact ⟨_, issuesAs_issueAtom .., fun _ => rfl⟩
  | atomMinu => cases hw; exact ⟨_, issuesAs_issueAtom .., fun _ => rfl⟩
  | atomMaxu => cases hw; exact ⟨_, issuesAs_issueAtom .., fun _ => rfl⟩
  | fenceB => cases hw; exact ⟨_, issuesAs_issueFence .., fun _ => rfl⟩
  | fenceN => cases hw; exact ⟨_, issuesAs_issueFence .., fun _ => rfl⟩
  | fenceG => cases hw; exact ⟨_, issuesAs_issueFence .., fun _ => rfl⟩
  | barBay => cases hw; exact ⟨_, issuesAs_issueBar .., fun _ => rfl⟩
  | barNode => cases hw; exact ⟨_, issuesAs_issueBar .., fun _ => rfl⟩
  | barFabric => cases hw; exact ⟨_, issuesAs_issueBar .., fun _ => rfl⟩
  | tissue => cases hw; exact ⟨_, issuesAs_issue .., fun _ => rfl⟩
  | twait => cases hw; exact ⟨_, issuesAs_issue .., fun _ => rfl⟩
  | mq => cases hw; exact ⟨_, issuesAs_doMq .., fun _ => rfl⟩
  | mwait => cases hw; exact ⟨_, issuesAs_issue .., fun _ => rfl⟩
  | send => cases hw; exact ⟨_, issuesAs_issue .., fun _ => rfl⟩
  | recv => cases hw; exact ⟨_, issuesAs_issue .., fun _ => rfl⟩
  | philox => cases hw; exact ⟨_, issuesAs_issue .., fun _ => rfl⟩
  | ctx => cases hw; exact ⟨_, issuesAs_issue .., fun _ => rfl⟩
  | _ => nomatch hx


/-! ## Instructions that take no effect (R127, R128, R506) -/

section
variable {s : State} {w : Issue} {legal : Bool} {f : State → State}

theorem IssuesAs.misaligned (hf : IssuesAs w legal f) (hc : s.canIssue w = true) (hp : (s.thr w.bay w.thread).pc.toNat % 4 ≠ 0) :
    f s = ((s.modThr w.bay w.thread fun t => { t with wait := .ready }).issued w).except w.bay w.thread 0x31 0x0502
      (s.thr w.bay w.thread).pc.toNat := by
  obtain ⟨reads, write, run, hrun⟩ := hf
  rw [hrun]
  unfold State.issue
  simp only [hc, hp, Bool.not_true, Bool.false_eq_true, if_false, ne_eq, not_false_eq_true, if_true]
  rfl

theorem IssuesAs.illegal (hf : IssuesAs w false f) (hi : Safety.issues s w) :
    f s = ((s.modThr w.bay w.thread fun t => { t with wait := .ready }).issued w).except w.bay w.thread 0x31 0x0501 0 := by
  obtain ⟨reads, write, run, hrun⟩ := hf
  obtain ⟨hc, hp, hfetch, hg⟩ := hi
  have hfetch' : (s.modThr w.bay w.thread fun t => { t with wait := .ready }).fetchable (s.thr w.bay w.thread).pc = true := hfetch
  rw [hrun]
  unfold State.issue
  simp only [hc, hp, hfetch', hg, Bool.not_true, Bool.not_false, Bool.false_eq_true, if_false, ne_eq, not_true_eq_false, if_true]
  rfl

theorem IssuesAs.unguarded (hf : IssuesAs w legal f) (hs : Safety.shaped s) (hc : s.canIssue w = true)
    (hp : (s.thr w.bay w.thread).pc.toNat % 4 = 0) (hfetch : s.fetchable (s.thr w.bay w.thread).pc = true)
    (hg : (s.thr w.bay w.thread).guard w = false) :
    (f s).thr w.bay w.thread = { s.thr w.bay w.thread with pc := (s.thr w.bay w.thread).pc + 4, wait := .ready } ∧
      Frame.outside s (f s) w := by
  obtain ⟨reads, write, run, hrun⟩ := hf
  have hfetch' : (s.startOf w none).fetchable (s.thr w.bay w.thread).pc = true := hfetch
  have hf : f s = ((s.startOf w none).issued w).modThr w.bay w.thread Thread.next := by
    rw [hrun]
    unfold State.issue
    simp only [hc, hp, hg, Bool.not_true, Bool.not_false, Bool.false_eq_true, if_false, ne_eq, not_true_eq_false, if_true]
    exact if_neg (Bool.not_eq_true _ ▸ congrArg (!·) hfetch')
  have hstart := State.startOf_spec s w none hs
  have hshape : Safety.shaped (s.startOf w none) := (State.startOf_sound (Ctx.sound_ofState s) w none).shaped hs
  have hissued := Frame.outside_issued s _ w hshape.1 hstart.2
  have hshape' : Safety.shaped ((s.startOf w none).issued w) :=
    (State.issued_sound (State.startOf_sound (Ctx.sound_ofState s) w none) w).shaped hs
  obtain ⟨hout, hthr⟩ := Frame.outside_modThr s _ w Thread.next hshape'.1 (Safety.shaped_bay hshape' w.bay).1 hissued.1
  rw [hf]
  exact ⟨by rw [hthr, hissued.2, hstart.1]; rfl, hout⟩
end

/-! ## Predicates (Table 5.2) -/

section
variable (t : Thread)
@[simp] theorem Thread.setP_pc (n : BitVec 3) (b : Bool) : (t.setP n b).pc = t.pc := by unfold Thread.setP; split <;> rfl
@[simp] theorem Thread.next_pred (n : BitVec 3) : t.next.pred n = t.pred n := rfl
@[simp] theorem Thread.started_pred (write : Option RegName) (n : BitVec 3) : (t.started write).pred n = t.pred n := rfl

theorem Thread.setP_eq_update_p (n : BitVec 3) (b : Bool) : t.setP n b = { t with p := (t.setP n b).p } := by
  unfold Thread.setP; split <;> rfl

theorem Thread.setP_of_ne_zero {n : BitVec 3} (h : n ≠ 0) (b : Bool) :
    (t.setP n b).p = if b then t.p ||| (1#8 <<< n.toNat) else t.p &&& ~~~ (1#8 <<< n.toNat) := by
  rw [Thread.setP, if_neg h]

theorem Thread.pred_of_ne_zero {n : BitVec 3} (h : n ≠ 0) : t.pred n = t.p.getLsbD n.toNat := by
  rw [Thread.pred, beq_false_of_ne h, Bool.false_or]

theorem Thread.pred_setP_same (n : BitVec 3) (b : Bool) : (t.setP n b).pred n = if n = 0 then true else b := by
  have hn : n.toNat < 8 := n.isLt
  by_cases h : n = 0
  · subst h; rfl
  · rw [Thread.pred_of_ne_zero _ h, Thread.setP_of_ne_zero _ h, if_neg h]
    cases b <;> simp [hn]

theorem Thread.pred_setP_other {n m : BitVec 3} (h : m ≠ n) (b : Bool) : (t.setP n b).pred m = t.pred m := by
  have hm : m.toNat < 8 := m.isLt
  have hbit : (1#8 <<< n.toNat).getLsbD m.toNat = false := by
    have hne : m.toNat ≠ n.toNat := fun e => h (BitVec.eq_of_toNat_eq e)
    rw [BitVec.getLsbD_shiftLeft]
    by_cases hlt : m.toNat < n.toNat
    · simp [hlt]
    · simp [show m.toNat - n.toNat ≠ 0 by omega]
  by_cases hn : n = 0
  · rw [Thread.setP, if_pos hn]
  · by_cases hm0 : m = 0
    · subst hm0; rfl
    · rw [Thread.pred_of_ne_zero _ hm0, Thread.pred_of_ne_zero _ hm0, Thread.setP_of_ne_zero _ hn]
      cases b <;> simp only [if_true, Bool.false_eq_true, if_false, BitVec.getLsbD_or, BitVec.getLsbD_and, BitVec.getLsbD_not, hbit, hm] <;>
        simp

theorem Thread.combine_eq_setP (cb : BitVec 2) (pd : BitVec 3) (r : Bool) : t.combine (cb ++ pd) r =
    t.setP pd (if cb = 0 then r else if cb = 1 then t.pred pd && r else t.pred pd || r) := by
  have hd : (cb ++ pd).extractLsb' 0 3 = pd := BitVec.extractLsb'_append_eq_right
  have hc : (cb ++ pd).extractLsb' 3 2 = cb := BitVec.extractLsb'_append_eq_left
  simp only [Thread.combine, hd, hc]
end

/-! ## Comparisons (O4) -/

theorem Frame.predicate_setP_next (t : Thread) (pd : BitVec 3) (b : Bool) : Frame.predicate t ((t.started none).setP pd b).next pd := by
  refine ⟨?_, fun n hn => ?_⟩
  · rw [Thread.setP_eq_update_p]; rfl
  · rw [Thread.next_pred, Thread.pred_setP_other _ hn, Thread.started_pred]

theorem State.issueCmp_eq_issueThr (s : State) (w : Issue) {cb : BitVec 2} (hcb : cb ≠ 3) (pd : BitVec 3) (ra rb : BitVec 5)
    (op : Word → Word → Bool) : s.issueCmp w (cb ++ pd) ra rb op = s.issueThr w true [.g ra, .g rb] none fun t =>
      (t.setP pd (if cb = 0 then op (t.gr ra) (t.gr rb) else
        if cb = 1 then t.pred pd && op (t.gr ra) (t.gr rb) else t.pred pd || op (t.gr ra) (t.gr rb))).next := by
  have hc : ((cb ++ pd).extractLsb' 3 2 != 3#2) = true := by
    rw [show (cb ++ pd).extractLsb' 3 2 = cb from BitVec.extractLsb'_append_eq_left]
    simpa using hcb
  simp only [State.issueCmp, hc, Thread.combine_eq_setP]

/-- Settles O4. Each comparison is `State.issueCmp` of a test with the listed value, which sets one predicate of the issuing thread. -/
theorem comparisonResults : Obligations.ComparisonResults := by
  intro s w pd cb ra rb hs hi hl hcb th x y rd c hc
  have hcmp : ∃ op, exec c.1 s = .next (s.issueCmp w rd ra rb op) ∧ op x y = c.2 := by
    simp only [List.mem_cons, List.not_mem_nil, or_false] at hc
    rcases hc with rfl | rfl | rfl | rfl | rfl | rfl
    · exact ⟨_, rfl, rfl⟩
    · exact ⟨_, rfl, by simp [cmpNe, bne, Bool.beq_eq_decide_eq]⟩
    · exact ⟨_, rfl, rfl⟩
    · exact ⟨_, rfl, by simp [cmpGe, BitVec.slt, ← decide_not]⟩
    · exact ⟨_, rfl, rfl⟩
    · exact ⟨_, rfl, by simp [cmpGeu, BitVec.ult, ← decide_not]⟩
  obtain ⟨op, hexec, hop⟩ := hcmp
  rw [State.issueCmp_eq_issueThr s w hcb] at hexec
  obtain ⟨hthr, hout⟩ := State.issueThr_spec s w [.g ra, .g rb] none _ hs hi hl
  refine ⟨_, hexec, ?_, ?_, ?_, hout⟩ <;> rw [hthr]
  · rw [Thread.next_pred, Thread.pred_setP_same, ← hop]; rfl
  · simp; rfl
  · exact Frame.predicate_setP_next _ _ _

/-! ## Branches, calls and YIELD (O7) -/

/-- A jump that keeps a value of its thread in g[RD]. -/
theorem State.issueThr_jump {s : State} {w : Issue} {reads : List RegName} (rd : BitVec 5) (v target : Thread → Word) (hs : Safety.shaped s)
    (hi : Safety.issues s w) (hl : Safety.loaded s w reads) :
    let th := (s.thr w.bay w.thread).started (some (.g rd))
    let t := s.issueThr w true reads (some (.g rd)) fun t => { t.setG rd (v t) with pc := target t }
    (t.thr w.bay w.thread).pc = target th ∧ (t.thr w.bay w.thread).gr rd = (if rd = 0 then 0 else v th) ∧
      Frame.general (s.thr w.bay w.thread) (t.thr w.bay w.thread) rd ∧ Frame.outside s t w := by
  intro th t
  obtain ⟨hthr, hout⟩ :=
    State.issueThr_spec s w reads (some (.g rd)) (fun t => { t.setG rd (v t) with pc := target t }) hs hi hl
  have hlen : th.g.length = 32 := (Safety.shaped_thr hs w.bay w.thread).1
  refine ⟨?_, ?_, ⟨?_, fun n hn => ?_⟩, hout⟩ <;> rw [hthr]
  · exact Thread.gr_setG_same th rd (v th) hlen
  · rw [Thread.setG_eq_update_g]; rfl
  · exact Thread.gr_setG_other th rd n (v th) hn

/-- Settles O7. A branch is `State.issueThr` of an update of its thread; an instruction whose guard is false is `IssuesAs.unguarded`. -/
theorem branchAndGuardResults : Obligations.BranchAndGuardResults := by
  refine ⟨fun s w rd ra off ord hs hi hl => ?_, fun s i w x hs hx hw hc hp hf hg => ?_⟩
  · intro th target
    have hnil : Safety.loaded s w [] := Safety.loaded_mono hl (by simp)
    refine ⟨?_, ?_, ?_, ?_⟩
    · obtain ⟨hthr, hout⟩ := State.issueThr_spec s w [] none _ hs hi hnil
      exact ⟨_, rfl, hthr, hout⟩
    · obtain ⟨hpc, hg, hframe⟩ := State.issueThr_jump 31 (fun t => t.pc + 4) (fun t => branchTarget t.pc off) hs hi hnil
      exact ⟨_, rfl, hpc, hg, hframe⟩
    · exact ⟨_, rfl, State.issueThr_jump rd (fun t => t.pc + 4) (fun t => t.gr ra) hs hi hl⟩
    · obtain ⟨hthr, hout⟩ := State.issueThr_spec s w [] none _ hs hi hnil
      exact ⟨_, rfl, hthr, hout⟩
  · obtain ⟨f, hf', hexec⟩ := exec_issuesAs hx hw
    exact ⟨_, hexec s, hf'.unguarded hs hc hp hf hg⟩

end Sys2Proof.Machine
end

section
/-! What an operation leaves as it was: a view of the state that reads none of the parts which an operation changes shows the value it had. -/
namespace Sys2Proof.Machine
open Sys2Proof

/-- The view `π` shows the same of `s` as of `s₀`. -/
def Keeps {α : Type} (π : State → α) (s₀ s : State) : Prop := π s = π s₀

/-- The view does not read what this change of the state changes. -/
def Ignores {α β : Type} (π : State → α) (change : State → (β → β) → State) : Prop := ∀ s f, π (change s f) = π s

section
variable {α : Type} (π : State → α)
/-- The view does not read the configuration. -/
def IgnoresCfg : Prop := ∀ s c, π { s with cfg := c } = π s
/-- The view reads of the bays at most their fences. -/
def IgnoresBays : Prop :=
  ∀ (s : State) (f : Nat → Bay → Bay), π { s with bays := s.bays.mapIdx fun i y => { f i y with fenced := y.fenced } } = π s
/-- The view reads of the bays at most their tasks and fences. -/
def IgnoresBayThr : Prop :=
  ∀ (s : State) (b : Fin 80) (f : Bay → Bay), π (s.modBay b fun y => { f y with task := y.task, fenced := y.fenced }) = π s
/-- The view reads of the bays at most their tasks, threads and fences. -/
def IgnoresBayRest : Prop :=
  ∀ (s : State) (b : Fin 80) (f : Bay → Bay),
    π (s.modBay b fun y => { f y with task := y.task, threads := y.threads, fenced := y.fenced }) = π s
/-- The view does not read the ports. -/
def IgnoresPorts : Prop := ∀ s l, π { s with truss := l } = π s
/-- The view does not read the queue of commands. -/
def IgnoresPending : Prop := ∀ s q, π { s with pending := q } = π s
/-- The view does not read the count of the free values. -/
def IgnoresFree : Prop := ∀ s n, π { s with freeCtr := n } = π s
/-- The view reads of the clocks at most the device time. -/
def IgnoresClk : Prop := ∀ (s : State) (c : Clk), π { s with clk := { c with devTime := s.clk.devTime } } = π s
/-- The view reads of the network state at most the node's ID. -/
def IgnoresNet : Prop := ∀ (s : State) (n : Net), π { s with net := { n with nodeId := s.net.nodeId } } = π s
/-- The view reads of the Steward's state none of what dispatch and the work units change: the charges, the tokens and the estimates. -/
def IgnoresStew : Prop :=
  ∀ (s : State) (x : Stew),
    π { s with stew := { s.stew with remain := x.remain, overdraft := x.overdraft, carries := x.carries, used := x.used,
                                     pressured := x.pressured, kE := x.kE, kD := x.kD, t0 := x.t0, tokens := x.tokens,
                                     tokenWait := x.tokenWait, tokensOut := x.tokensOut } } = π s
/-- The view reads of the streams' state at most the count of scheduler epochs. -/
def IgnoresStr : Prop := ∀ (s : State) (x : Streams), π { s with str := { x with epochCount := s.str.epochCount } } = π s
/-- The view reads of the host's state neither the messages on their way nor what an interrupt other than wake-done changes in a page. -/
def IgnoresHost : Prop :=
  (∀ (s : State) (h : HostSt), π { s with host := { s.host with out := h.out } } = π s) ∧
  ∀ (s : State) (n : Fin 16) (m : BitVec 32) (f : FnPage → FnPage), m.getLsbD 4 = false →
    π (s.modPage n fun p => { p with irqCause := p.irqCause ||| m, msixPending := (f p).msixPending, quiet := (f p).quiet }) = π s
/-- The view reads of the error log at most the fatal causes. -/
def IgnoresErr : Prop := ∀ (s : State) (l : ErrLog), π { s with err := { l with fatal := s.err.fatal } } = π s
/-- The view reads of the boot's state neither the queue of flash operations nor the weights' progress. -/
def IgnoresBoot : Prop :=
  ∀ (s : State) (b : Boot),
    π { s with boot := { s.boot with flashBusy := b.flashBusy, flashQueue := b.flashQueue, weights := b.weights,
                                     weightsDone := b.weightsDone, retrying := b.retrying } } = π s
/-- The view reads of the requests' state at most the table and the running work units. -/
def IgnoresReqs : Prop := ∀ (s : State) (q : Reqs), π { s with req := { q with table := s.req.table, running := s.req.running } } = π s
/-- The view reads of the requests' state at most the table. -/
def IgnoresRun : Prop := ∀ (s : State) (q : Reqs), π { s with req := { q with table := s.req.table } } = π s
/-- The view does not read the values of the event counters. -/
def IgnoresCnt : Prop := ∀ (s : State) (c : Cnt), π { s with cnt := { s.cnt with values := c.values } } = π s
end

section
variable {α : Type} {π : State → α} {s₀ s : State}

theorem Keeps.refl (s : State) : Keeps π s s := rfl
theorem Keeps.eq (h : Keeps π s₀ s) : π s = π s₀ := h

/-! ## Changes of one part -/

variable (h : Keeps π s₀ s)
  (hClk : IgnoresClk π)
  (hClkT : Ignores π State.modClk)
  (hPins : Ignores π State.modPins)
  (hBoot : IgnoresBoot π)
  (hBootT : Ignores π State.modBoot)
  (hCfg : IgnoresCfg π)
  (hTun : Ignores π State.modTun)
  (hStew : IgnoresStew π)
  (hStewT : Ignores π State.modStew)
  (hReqs : IgnoresReqs π)
  (hRun : IgnoresRun π)
  (hTable : Ignores π State.modReqs)
  (hBayRest : IgnoresBayRest π)
  (hBayThr : IgnoresBayThr π)
  (hBays : IgnoresBays π)
  (hBaysT : ∀ s l, π { s with bays := l } = π s)
  (hBars : Ignores π State.modBars)
  (hMem : Ignores π State.modMem)
  (hQuota : Ignores π State.modQuota)
  (hStr : IgnoresStr π)
  (hStrT : Ignores π State.modStr)
  (hKv : Ignores π State.modKv)
  (hPorts : IgnoresPorts π)
  (hNet : IgnoresNet π)
  (hNetN : Ignores π State.modNet)
  (hHost : IgnoresHost π)
  (hHostT : Ignores π State.modHost)
  (hAud : Ignores π State.modAud)
  (hSent : Ignores π State.modSent)
  (hCnt : IgnoresCnt π)
  (hCntT : Ignores π State.modCnt)
  (hErr : IgnoresErr π)
  (hErrT : Ignores π State.modErr)
  (hPlumb : Ignores π State.modPlumb)
  (hCxl : Ignores π State.modCxl)
  (hHub : Ignores π State.modHub)
  (hPending : IgnoresPending π)
  (hFree : IgnoresFree π)
include h hPins in
theorem State.modPins_keeps (f : Pins → Pins) : Keeps π s₀ (s.modPins f) := (hPins s f).trans h
include h hBootT in
theorem State.modBoot_keeps_all (f : Boot → Boot) : Keeps π s₀ (s.modBoot f) := (hBootT s f).trans h
include h hBoot in
theorem State.modBoot_keeps {f : Boot → Boot}
    (hf : f s.boot =
      { s.boot with flashBusy := (f s.boot).flashBusy, flashQueue := (f s.boot).flashQueue, weights := (f s.boot).weights,
                    weightsDone := (f s.boot).weightsDone, retrying := (f s.boot).retrying }) : Keeps π s₀ (s.modBoot f) := by
  have hs := hBoot s (f s.boot)
  rw [← hf] at hs
  exact hs.trans h
include h hTun in
theorem State.modTun_keeps (f : Tun → Tun) : Keeps π s₀ (s.modTun f) := (hTun s f).trans h
include h hStewT in
theorem State.modStew_keeps_all (f : Stew → Stew) : Keeps π s₀ (s.modStew f) := (hStewT s f).trans h
include h hStew in
theorem State.modStew_keeps {f : Stew → Stew}
    (hf : f s.stew =
      { s.stew with remain := (f s.stew).remain, overdraft := (f s.stew).overdraft, carries := (f s.stew).carries,
                    used := (f s.stew).used, pressured := (f s.stew).pressured, kE := (f s.stew).kE, kD := (f s.stew).kD,
                    t0 := (f s.stew).t0, tokens := (f s.stew).tokens, tokenWait := (f s.stew).tokenWait,
                    tokensOut := (f s.stew).tokensOut }) : Keeps π s₀ (s.modStew f) := by
  have hs := hStew s (f s.stew)
  rw [← hf] at hs
  exact hs.trans h
include h hBars in
theorem State.modBars_keeps (f : Bars → Bars) : Keeps π s₀ (s.modBars f) := (hBars s f).trans h
include h hMem in
theorem State.modMem_keeps (f : Mem → Mem) : Keeps π s₀ (s.modMem f) := (hMem s f).trans h
include h hQuota in
theorem State.modQuota_keeps (f : Quota → Quota) : Keeps π s₀ (s.modQuota f) := (hQuota s f).trans h
include h hStrT in
theorem State.modStr_keeps_all (f : Streams → Streams) : Keeps π s₀ (s.modStr f) := (hStrT s f).trans h
include h hStr in
theorem State.modStr_keeps {f : Streams → Streams} (hf : (f s.str).epochCount = s.str.epochCount) : Keeps π s₀ (s.modStr f) := by
  have hs := hStr s (f s.str)
  rw [← hf] at hs
  exact hs.trans h
include h hKv in
theorem State.modKv_keeps (f : Kv → Kv) : Keeps π s₀ (s.modKv f) := (hKv s f).trans h
include h hHostT in
theorem State.modHost_keeps_all (f : HostSt → HostSt) : Keeps π s₀ (s.modHost f) := (hHostT s f).trans h
include h hHostT in
theorem State.modPage_keeps_all (n : Fin 16) (f : FnPage → FnPage) : Keeps π s₀ (s.modPage n f) := (hHostT s _).trans h
include h hHost in
theorem State.modHost_keeps {f : HostSt → HostSt} (hf : f s.host = { s.host with out := (f s.host).out }) : Keeps π s₀ (s.modHost f) := by
  have hs := hHost.1 s (f s.host)
  rw [← hf] at hs
  exact hs.trans h
include h hAud in
theorem State.modAud_keeps (f : Audit → Audit) : Keeps π s₀ (s.modAud f) := (hAud s f).trans h
include h hSent in
theorem State.modSent_keeps (f : Sent → Sent) : Keeps π s₀ (s.modSent f) := (hSent s f).trans h
include h hCntT in
theorem State.modCnt_keeps_all (f : Cnt → Cnt) : Keeps π s₀ (s.modCnt f) := (hCntT s f).trans h
include h hCnt in
theorem State.modCnt_keeps {f : Cnt → Cnt} (hf : f s.cnt = { s.cnt with values := (f s.cnt).values }) : Keeps π s₀ (s.modCnt f) := by
  have hs := hCnt s (f s.cnt)
  rw [← hf] at hs
  exact hs.trans h
include h hErrT in
theorem State.modErr_keeps_all (f : ErrLog → ErrLog) : Keeps π s₀ (s.modErr f) := (hErrT s f).trans h
include h hErr in
theorem State.modErr_keeps {f : ErrLog → ErrLog} (hf : (f s.err).fatal = s.err.fatal) : Keeps π s₀ (s.modErr f) := by
  have hs := hErr s (f s.err)
  rw [← hf] at hs
  exact hs.trans h
include h hPlumb in
theorem State.modPlumb_keeps (f : Plumb → Plumb) : Keeps π s₀ (s.modPlumb f) := (hPlumb s f).trans h
include h hCxl in
theorem State.modCxl_keeps (f : Cxl → Cxl) : Keeps π s₀ (s.modCxl f) := (hCxl s f).trans h
include h hHub in
theorem State.modHub_keeps (f : Hub → Hub) : Keeps π s₀ (s.modHub f) := (hHub s f).trans h
include h hBaysT in
theorem State.modBay_keeps_fence (b : Fin 80) (f : Bay → Bay) : Keeps π s₀ (s.modBay b f) := (hBaysT s _).trans h
include h hBays in
theorem State.mapIdxBays_keeps {f : Nat → Bay → Bay} (hf : ∀ i y, (f i y).fenced = y.fenced) :
    Keeps π s₀ { s with bays := s.bays.mapIdx f } := by
  have hfun : (fun i y => { f i y with fenced := y.fenced }) = f := by
    funext i y
    rw [← hf i y]
  exact (hfun ▸ hBays s f).trans h
include h hBays in
theorem State.mapBays_keeps {f : Bay → Bay} (hf : ∀ y, (f y).fenced = y.fenced) : Keeps π s₀ { s with bays := s.bays.map f } := by
  have hs := State.mapIdxBays_keeps h hBays (f := fun _ => f) fun _ => hf
  rwa [show s.bays.mapIdx (fun _ => f) = s.bays.map f from List.ext_getElem? fun i => by simp] at hs
include h hBays in
theorem State.modBay_keeps_all (b : Fin 80) {f : Bay → Bay} (hf : ∀ y, (f y).fenced = y.fenced) : Keeps π s₀ (s.modBay b f) := by
  have hs := State.mapIdxBays_keeps h hBays (f := fun i y => if b.val = i then f y else y) fun i y => by split <;> simp [hf]
  have hmodify : s.bays.mapIdx (fun i y => if b.val = i then f y else y) = s.bays.modify b.val f := by
    refine List.ext_getElem? fun i => ?_
    rw [List.getElem?_mapIdx, List.getElem?_modify]
    split <;> simp
  rwa [hmodify] at hs
include h hBayThr in
theorem State.modBay_keeps_thr (b : Fin 80) {f : Bay → Bay} (hf : ∀ y, (f y).task = y.task ∧ (f y).fenced = y.fenced) :
    Keeps π s₀ (s.modBay b f) := by
  have hfun : (fun y => { f y with task := y.task, fenced := y.fenced }) = f := by
    funext y
    rw [← (hf y).1, ← (hf y).2]
  exact (hfun ▸ hBayThr s b f).trans h
include h hBayRest in
theorem State.modBay_keeps (b : Fin 80) {f : Bay → Bay}
    (hf : ∀ y, (f y).task = y.task ∧ (f y).threads = y.threads ∧ (f y).fenced = y.fenced) : Keeps π s₀ (s.modBay b f) := by
  have hfun : (fun y => { f y with task := y.task, threads := y.threads, fenced := y.fenced }) = f := by
    funext y
    rw [← (hf y).1, ← (hf y).2.1, ← (hf y).2.2]
  exact (hfun ▸ hBayRest s b f).trans h
include h hBayThr in
theorem State.modThr_keeps (b : Fin 80) (t : Fin 128) (f : Thread → Thread) : Keeps π s₀ (s.modThr b t f) :=
  State.modBay_keeps_thr h hBayThr b fun _ => ⟨rfl, rfl⟩
include h hPorts in
theorem State.modPort_keeps (n : Fin 12) (f : Port → Port) : Keeps π s₀ (s.modPort n f) := (hPorts s _).trans h
include h hHost in
theorem State.modPage_keeps (n : Fin 16) {f : FnPage → FnPage}
    (hf : ∀ p, f p = { p with msixPending := (f p).msixPending, quiet := (f p).quiet }) : Keeps π s₀ (s.modPage n f) := by
  have hs := hHost.2 s n 0 f (by decide)
  simp only [show ∀ x : BitVec 32, x ||| 0 = x from fun x => BitVec.or_zero, ← hf] at hs
  exact hs.trans h
include h hClk in
theorem State.modClk_keeps {f : Clk → Clk} (hf : (f s.clk).devTime = s.clk.devTime) : Keeps π s₀ (s.modClk f) := by
  have hs := hClk s (f s.clk)
  rw [← hf] at hs
  exact hs.trans h
include h hClkT in
theorem State.modClk_keeps_all (f : Clk → Clk) : Keeps π s₀ (s.modClk f) := (hClkT s f).trans h
include h hClk in
theorem State.modTile_keeps (t : Nat) (f : TileClk → TileClk) : Keeps π s₀ (s.modTile t f) := State.modClk_keeps h hClk rfl
include h hNet in
theorem State.modNet_keeps {f : Net → Net} (hf : (f s.net).nodeId = s.net.nodeId) : Keeps π s₀ (s.modNet f) := by
  have hs := hNet s (f s.net)
  rw [← hf] at hs
  exact hs.trans h
include h hNetN in
theorem State.modNet_keeps_all (f : Net → Net) : Keeps π s₀ (s.modNet f) := (hNetN s f).trans h
include h hReqs in
theorem State.modReqs_keeps {f : Reqs → Reqs} (hf : (f s.req).table = s.req.table ∧ (f s.req).running = s.req.running) :
    Keeps π s₀ (s.modReqs f) := by
  have hs := hReqs s (f s.req)
  rw [← hf.1, ← hf.2] at hs
  exact hs.trans h
include h hRun in
theorem State.modReqs_keeps_run {f : Reqs → Reqs} (hf : (f s.req).table = s.req.table) : Keeps π s₀ (s.modReqs f) := by
  have hs := hRun s (f s.req)
  rw [← hf] at hs
  exact hs.trans h
include h hTable in
theorem State.modReqs_keeps_all (f : Reqs → Reqs) : Keeps π s₀ (s.modReqs f) := (hTable s f).trans h
include h hTable in
theorem State.modReq_keeps (asn : Nat) (f : Req → Req) : Keeps π s₀ (s.modReq asn f) := (hTable s _).trans h
include h hFree in
theorem State.draw_keeps : Keeps π s₀ s.draw.2 := (hFree s _).trans h
include h hFree in
theorem State.draw_keeps_eq {v : BitVec 64} {u : State} (hu : s.draw = (v, u)) : Keeps π s₀ u := by
  cases hu
  exact State.draw_keeps h hFree

/-! ## Folds -/

include h in
theorem State.foldl_keeps {β : Type} {f : State → β → State} (hf : ∀ s x, Keeps π s₀ s → Keeps π s₀ (f s x)) (l : List β) :
    Keeps π s₀ (l.foldl f s) := by
  induction l generalizing s with
  | nil => exact h
  | cons x l ih => exact ih (hf s x h)

include h in
theorem State.each_keeps {β : Type} {f : State → β → State} (hf : ∀ s x, Keeps π s₀ s → Keeps π s₀ (f s x)) (l : List β) :
    Keeps π s₀ (s.each l f) := State.foldl_keeps h hf l

include h in
theorem State.elim_keeps {β : Type} {f : β → State} (hf : ∀ x, Keeps π s₀ (f x)) (o : Option β) : Keeps π s₀ (o.elim s f) := by
  cases o with
  | none => exact h
  | some x => exact hf x
end

end Sys2Proof.Machine
end

section
/-! What the operations of the model leave as they were, one lemma for each: a view keeps its value under an operation that changes
none of the parts which the view reads. -/
namespace Sys2Proof.Machine
open Sys2Proof

-- One proof at a time: many short proofs elaborated side by side would cost the check its memory.
set_option Elab.async false


section
variable {α : Type} {π : State → α} {s₀ s : State} (h : Keeps π s₀ s)
  (hClk : IgnoresClk π := by exact fun _ _ => rfl)
  (hClkT : Ignores π State.modClk := by exact fun _ _ => rfl)
  (hPins : Ignores π State.modPins := by exact fun _ _ => rfl)
  (hBoot : IgnoresBoot π := by exact fun _ _ => rfl)
  (hCfg : IgnoresCfg π := by exact fun _ _ => rfl)
  (hTun : Ignores π State.modTun := by exact fun _ _ => rfl)
  (hStew : IgnoresStew π := by exact fun _ _ => rfl)
  (hStewT : Ignores π State.modStew := by exact fun _ _ => rfl)
  (hReqs : IgnoresReqs π := by exact fun _ _ => rfl)
  (hRun : IgnoresRun π := by exact fun _ _ => rfl)
  (hTable : Ignores π State.modReqs := by exact fun _ _ => rfl)
  (hBayRest : IgnoresBayRest π := by exact fun _ _ _ => rfl)
  (hBayThr : IgnoresBayThr π := by exact fun _ _ _ => rfl)
  (hBays : IgnoresBays π := by exact fun _ _ => rfl)
  (hBaysT : ∀ s l, π { s with bays := l } = π s := by exact fun _ _ => rfl)
  (hBars : Ignores π State.modBars := by exact fun _ _ => rfl)
  (hMem : Ignores π State.modMem := by exact fun _ _ => rfl)
  (hQuota : Ignores π State.modQuota := by exact fun _ _ => rfl)
  (hStr : IgnoresStr π := by exact fun _ _ => rfl)
  (hKv : Ignores π State.modKv := by exact fun _ _ => rfl)
  (hPorts : IgnoresPorts π := by exact fun _ _ => rfl)
  (hNet : IgnoresNet π := by exact fun _ _ => rfl)
  (hNetN : Ignores π State.modNet := by exact fun _ _ => rfl)
  (hHost : IgnoresHost π := by exact ⟨fun _ _ => rfl, fun _ _ _ _ _ => rfl⟩)
  (hHostT : Ignores π State.modHost := by exact fun _ _ => rfl)
  (hAud : Ignores π State.modAud := by exact fun _ _ => rfl)
  (hSent : Ignores π State.modSent := by exact fun _ _ => rfl)
  (hCnt : IgnoresCnt π := by exact fun _ _ => rfl)
  (hCntT : Ignores π State.modCnt := by exact fun _ _ => rfl)
  (hErr : IgnoresErr π := by exact fun _ _ => rfl)
  (hErrT : Ignores π State.modErr := by exact fun _ _ => rfl)
  (hPlumb : Ignores π State.modPlumb := by exact fun _ _ => rfl)
  (hCxl : Ignores π State.modCxl := by exact fun _ _ => rfl)
  (hHub : Ignores π State.modHub := by exact fun _ _ => rfl)
  (hPending : IgnoresPending π := by exact fun _ _ => rfl)
  (hFree : IgnoresFree π := by exact fun _ _ => rfl)

include h hHub in
theorem State.addJob_keeps (k : JobKind) : Keeps π s₀ (s.addJob k) := by
  grind [State.addJob, State.modHub_keeps]

include h hCnt in
theorem State.count_keeps (i k : Nat) : Keeps π s₀ (s.count i k) := by
  grind [State.count, State.modCnt_keeps]

include h hCnt in
theorem State.countBay_keeps (b : Fin 80) (e k : Nat) : Keeps π s₀ (s.countBay b e k) := by
  grind [State.countBay, State.count_keeps]

include h hCnt in
theorem State.countHbm_keeps (st e k : Nat) : Keeps π s₀ (s.countHbm st e k) := by
  grind [State.countHbm, State.count_keeps]

include h hCnt in
theorem State.countT2_keeps (d e k : Nat) : Keeps π s₀ (s.countT2 d e k) := by
  grind [State.countT2, State.count_keeps]

include h hCnt in
theorem State.countFn_keeps (f : Fin 16) (e k : Nat) : Keeps π s₀ (s.countFn f e k) := by
  grind [State.countFn, State.count_keeps]

include h hCnt in
theorem State.countDev_keeps (e k : Nat) : Keeps π s₀ (s.countDev e k) := by
  grind [State.countDev, State.count_keeps]

include h hHost in
theorem State.emit_keeps (m : HostMsg) : Keeps π s₀ (s.emit m) := by
  grind [State.emit, State.modHost_keeps]

include h hHost hCnt in
theorem State.sendMsix_keeps (f : Fin 16) (v : Nat) : Keeps π s₀ (s.sendMsix f v) := by
  grind [State.sendMsix, State.modPage_keeps, State.emit_keeps, State.countFn_keeps]

include h hHost hCnt in
theorem State.sendQuiet_keeps (f : Fin 16) (v : Nat) : Keeps π s₀ (s.sendQuiet f v) := by
  grind [State.sendQuiet, State.sendMsix_keeps, State.modPage_keeps]

include h hHost hCnt in
theorem State.raise_keeps (f : Fin 16) (v : Nat) (hv : v ≠ 4 := by decide) : Keeps π s₀ (s.raise f v) := by
  have hbit : (1#32 <<< v).getLsbD 4 = false := by
    rw [BitVec.getLsbD_shiftLeft]
    by_cases h : v < 4
    · simp [show 4 - v ≠ 0 by omega]
    · simp [show 4 < v by omega]
  have h1 : Keeps π s₀ (s.modPage f fun p => { p with irqCause := p.irqCause ||| (1#32 <<< v) }) := (hHost.2 s f _ id hbit).trans h
  grind [State.raise, State.sendQuiet_keeps, State.sendMsix_keeps]

include h hHost hCnt hErr in
theorem State.error_keeps (e : ErrSpec) : Keeps π s₀ (s.error e) := by
  grind [State.error, State.countDev_keeps, State.modErr_keeps, State.raise_keeps, ErrLog.push, ErrLog.setTriple]

include h hCnt in
theorem State.countAccess_keeps (write : Bool) (a n : Nat) : Keeps π s₀ (s.countAccess write a n) := by
  grind [State.countAccess, State.count_keeps, State.countHbm_keeps, State.countT2_keeps, State.foldl_keeps]

include h hMem hCnt in
theorem State.storeBytes_keeps (a : Nat) (bs : List Byte) : Keeps π s₀ (s.storeBytes a bs) := by
  grind [State.storeBytes, State.countHbm_keeps, State.countT2_keeps, State.countAccess_keeps, State.modMem_keeps, State.foldl_keeps,
    State.elim_keeps]

include h hMem hCnt in
theorem State.memWrite_keeps (a : Nat) (bs : List Byte) : Keeps π s₀ (s.memWrite a bs) := by
  grind [State.memWrite, State.each_keeps, State.storeBytes_keeps, State.each_keeps]

include h hPorts in
theorem State.putMsg_keeps (port : Fin 12) (vc : Nat) (bytes : List Byte) : Keeps π s₀ (s.putMsg port vc bytes) := by
  grind [State.putMsg, State.modPort_keeps]

include h hPorts in
theorem State.route_keeps (dst vc otag attempt : Nat) (bytes : List Byte) : Keeps π s₀ (s.route dst vc otag attempt bytes) := by
  grind [State.route, State.putMsg_keeps]

include h hPorts hNet in
theorem State.transmit_keeps (r : SendReq) : Keeps π s₀ (s.transmit r) := by
  unfold State.transmit
  extract_lets t oseq bytes s1
  have h1 : Keeps π s₀ s1 := State.modNet_keeps h hNet (by rfl)
  exact State.route_keeps h1 hPorts ..

include h hPorts hNet in
theorem State.sendReq_keeps (r : SendReq) : Keeps π s₀ (s.sendReq r) := by
  grind [State.sendReq, State.modNet_keeps, State.transmit_keeps]

include h hPorts hNet in
theorem State.sendMsgTo_keeps (dst subtype : Nat) (body : List Byte) (purpose : Purpose) :
    Keeps π s₀ (s.sendMsgTo dst subtype body purpose) := by
  grind [State.sendMsgTo, State.sendReq_keeps]

include h hQuota in
theorem State.subUsed_keeps (t : Fin 16) (x d : Nat) : Keeps π s₀ (s.subUsed t x d) := by
  grind [State.subUsed, State.modQuota_keeps]

include h hStew hBayRest hCnt in
theorem State.faultRamp_keeps (b : Fin 80) : Keeps π s₀ (s.faultRamp b) := by
  grind [State.faultRamp, State.modBay_keeps, Bay.faultRamp, State.modStew_keeps, State.countBay_keeps]

include h hMem hCnt in
theorem State.setEntry_keeps (t : Fin 16) (id off n v : Nat) : Keeps π s₀ (s.setEntry t id off n v) := by
  grind [State.setEntry, State.memWrite_keeps]

include h hMem hCnt in
theorem State.freeLease_keeps (t : Fin 16) (id : Nat) : Keeps π s₀ (s.freeLease t id) := by
  grind [State.freeLease, State.setEntry_keeps]

include h hMem hStr hCnt in
theorem State.clearRes_keeps (t : Fin 16) (id : Nat) : Keeps π s₀ (s.clearRes t id) := by
  grind [State.clearRes, State.setEntry_keeps, State.modStr_keeps]

include h hMem hStr hCnt in
theorem State.swapOut_keeps (t : Fin 16) (id : Nat) : Keeps π s₀ (s.swapOut t id) := by
  grind [State.swapOut, State.clearRes_keeps, State.countDev_keeps]

include h hMem hStr hCnt in
theorem State.endLease_keeps (t : Fin 16) (id asn : Nat) : Keeps π s₀ (s.endLease t id asn) := by
  grind [State.endLease, State.modStr_keeps, State.swapOut_keeps, State.freeLease_keeps]

include h hBayRest in
theorem State.setLanding_keeps (b : Fin 80) (j : Nat) (l : Landing) : Keeps π s₀ (s.setLanding b j l) := by
  grind [State.setLanding, State.modBay_keeps]

include h hKv in
theorem State.modKvRec_keeps (i : Nat) (f : KvRec → KvRec) : Keeps π s₀ (s.modKvRec i f) := by
  grind [State.modKvRec, State.modKv_keeps, Option.map_eq_some_iff]

include h hKv in
theorem State.returnBlocks_keeps (f : Fixed) (idx : List Nat) : Keeps π s₀ (s.returnBlocks f idx) := by
  grind [State.returnBlocks, State.modKv_keeps, Option.map_eq_some_iff]

include h hBayRest hKv in
theorem State.abandonKv_keeps (home : Nat) (wu : WuKey) : Keeps π s₀ (s.abandonKv home wu) := by
  unfold State.abandonKv
  refine State.modKv_keeps (State.each_keeps h (fun s w h => ?_) _) hKv _
  extract_lets s1 ctx s2
  have h1 : Keeps π s₀ s1 := State.modKv_keeps h hKv _
  clear_value s1
  refine State.setLanding_keeps ?_ hBayRest ..
  simp only [s2]
  split
  · exact h1
  next r _ =>
    have h3 := fun f => State.modKvRec_keeps h1 hKv r.id f
    split
    · split
      · exact State.returnBlocks_keeps (h3 _) hKv ..
      · exact h3 _
    · split
      · exact State.modKv_keeps (h3 _) hKv _
      · exact h3 _

include h hMem hCnt in
theorem State.clearHere_keeps (home asn : Nat) (m : Formation) (d : Desc) (t : Fin 16) : Keeps π s₀ (s.clearHere home asn m d t) := by
  grind [State.clearHere, State.each_keeps, State.memWrite_keeps, State.each_keeps]

include h hMem hCnt in
theorem State.clearLost_keeps (r : Req) : Keeps π s₀ (s.clearLost r) := by
  unfold State.clearLost
  cases r.formation with
  | none => exact h
  | some m => exact State.clearHere_keeps h hMem hCnt ..

include h hMem hPorts hNet hCnt in
theorem State.landLine_keeps (b : Fin 80) (l : BufLine) : Keeps π s₀ (s.landLine b l) := by
  grind [State.landLine, State.each_keeps, State.memWrite_keeps, State.sendReq_keeps, State.each_keeps]

include h hBayRest hBayThr hMem hPorts hNet hCnt in
theorem State.drainAll_keeps (b : Fin 80) (t : Fin 128) : Keeps π s₀ (s.drainAll b t) := by
  unfold State.drainAll
  extract_lets held lines s1
  have h1 : Keeps π s₀ s1 :=
    State.modBay_keeps (State.each_keeps h (fun s l h => State.landLine_keeps h hMem hPorts hNet hCnt b l) _) hBayRest b fun _ => ⟨rfl, rfl, rfl⟩
  exact State.modThr_keeps (State.each_keeps h1 (fun s l h => State.landLine_keeps h hMem hPorts hNet hCnt b l) _) hBayThr b t _

include h hStew hRun hBars in
theorem State.dropRun_keeps (home : Nat) (k : WuKey) : Keeps π s₀ (s.dropRun home k) := by
  grind [State.dropRun, State.modReqs_keeps, State.modReqs_keeps_run, State.modStew_keeps, State.modBars_keeps]

include h hNet in
theorem State.forgetBay_keeps (b : Fin 80) : Keeps π s₀ (s.forgetBay b) := by
  grind [State.forgetBay, State.modNet_keeps, Option.map_eq_some_iff]

include h hBays hQuota hNet hCnt in
theorem State.freeBay_keeps (b : Fin 80) : Keeps π s₀ (s.freeBay b) := by
  grind [State.freeBay, State.modBay_keeps, State.modBay_keeps_all, State.modBay_keeps_thr, State.subUsed_keeps, State.forgetBay_keeps,
    State.countFn_keeps, Option.map_eq_some_iff]

include h hBars in
theorem State.leaveFabricBars_keeps (home asn : Nat) (bays : List (Fin 80)) : Keeps π s₀ (s.leaveFabricBars home asn bays) := by
  grind [State.leaveFabricBars, State.modBars_keeps, State.count_keeps, Option.map_eq_some_iff]

include h hStew hRun hBayRest hBayThr hBays hBars hMem hQuota hKv hPorts hNet hCnt in
theorem State.stopWu_keeps (home : Nat) (k : WuKey) (drain : Bool) : Keeps π s₀ (s.stopWu home k drain) := by
  unfold State.stopWu
  dsimp only
  repeat' split
  all_goals grind [State.each_keeps, State.drainAll_keeps, State.leaveFabricBars_keeps, State.faultRamp_keeps, State.freeBay_keeps,
    State.abandonKv_keeps, State.dropRun_keeps, State.each_keeps, Option.map_eq_some_iff]

include h hHost hCnt hErr in
theorem State.requestRecord_keeps (asn status detail source inst addr : Nat) (info : List Byte) :
    Keeps π s₀ (s.requestRecord asn status detail source inst addr info) := by
  grind [State.requestRecord, State.error_keeps]

include h hHost hCnt hErr hFree in
theorem State.openRecord_keeps (asn status detail : Nat) (addr : Option Nat) : Keeps π s₀ (s.openRecord asn status detail addr) := by
  grind [State.openRecord, State.draw_keeps, State.draw_keeps_eq, State.requestRecord_keeps]

include h hReqs hTable hMem hStr hCnt hHub in
theorem State.finish_keeps (asn status detail : Nat) : Keeps π s₀ (s.finish asn status detail) := by
  unfold State.finish
  grind [State.endLease_keeps, State.clearLost_keeps, State.modStr_keeps, State.modReq_keeps, State.modHub_keeps, State.modReqs_keeps,
    State.modReqs_keeps_all]

include h hReqs hTable hMem hStr hHost hCnt hErr hHub hFree in
theorem State.settleReq_keeps (asn : Nat) : Keeps π s₀ (s.settleReq asn) := by
  grind [State.settleReq, State.finish_keeps, State.modReq_keeps, State.addJob_keeps, State.openRecord_keeps]

include h hReqs hTable hMem hStr hPorts hNet hHost hCnt hErr hHub hFree in
theorem State.failWith_keeps (asn status detail : Nat) {record : State → State} (hrecord : ∀ s, Keeps π s₀ s → Keeps π s₀ (record s)) :
    Keeps π s₀ (s.failWith asn status detail record) := by
  unfold State.failWith
  split
  · exact h
  next r _ =>
    split
    · exact h
    · have hsent := State.foldl_keeps (hrecord s h) (f := fun s n => s.sendMsgTo n 0x21 (bytesLE 8 asn ++ bytesLE 1 status) (.steward asn))
        (fun _ _ h => State.sendMsgTo_keeps h hPorts hNet ..) (remoteTokens (record s) r)
      grind [State.settleReq_keeps, State.modReq_keeps, State.modHub_keeps]

include h hReqs hTable hMem hStr hPorts hNet hHost hCnt hErr hHub hFree in
theorem State.failReqAt_keeps (asn status detail source inst addr : Nat) (info : List Byte) :
    Keeps π s₀ (s.failReqAt asn status detail source inst addr info) := by
  grind [State.failReqAt, State.failWith_keeps, State.requestRecord_keeps]

include h hStew hReqs hRun hTable hBayRest hBayThr hBays hBars hMem hQuota hStr hKv hPorts hNet hHost hCnt hErr hHub hFree in
theorem State.wuFault_keeps (b : Fin 80) (info : List Byte) (status detail addr : Nat) : Keeps π s₀ (s.wuFault b info status detail addr) := by
  grind [State.wuFault, State.stopWu_keeps, State.requestRecord_keeps, State.failReqAt_keeps, State.error_keeps, State.modNet_keeps,
    State.sendMsgTo_keeps, Option.map_eq_some_iff]

end
end Sys2Proof.Machine
end

section
/-! Exceptions of threads (05, R127, R130, R149, R506, Table 5.9): a request that fails, and the record of its fault. -/
namespace Sys2Proof.Machine
open Sys2Proof

/-! ## The request table -/

section
variable (s : State) (asn : Nat)

theorem State.asn_of_reqOf {s : State} {asn : Nat} {r : Req} (h : s.reqOf asn = some r) : r.asn = asn := by
  simpa using List.find?_some h

theorem State.reqOf_modReq {f : Req → Req} (hf : ∀ r, (f r).asn = r.asn) : (s.modReq asn f).reqOf asn = (s.reqOf asn).map f := by
  have hp : ((fun r : Req => r.asn == asn) ∘ fun r => if r.asn = asn then f r else r) = fun r => r.asn == asn := by
    funext r
    by_cases h : r.asn = asn <;> simp [h, hf]
  have hfind : (s.modReq asn f).reqOf asn = (s.reqOf asn).map fun r => if r.asn = asn then f r else r := by
    simp only [State.reqOf, State.modReq, State.modReqs_req, List.find?_map, hp]
  rw [hfind]
  cases h : s.reqOf asn with
  | none => rfl
  | some r => simp [State.asn_of_reqOf h]

theorem State.reqOf_modReq_other {f : Req → Req} (hf : ∀ r, (f r).asn = r.asn) {a : Nat} (ha : a ≠ asn) :
    (s.modReq asn f).reqOf a = s.reqOf a := by
  have hp : ((fun r : Req => r.asn == a) ∘ fun r => if r.asn = asn then f r else r) = fun r => r.asn == a := by
    funext r
    by_cases h : r.asn = asn <;> simp [h, hf]
  have hfind : (s.modReq asn f).reqOf a = (s.reqOf a).map fun r => if r.asn = asn then f r else r := by
    simp only [State.reqOf, State.modReq, State.modReqs_req, List.find?_map, hp]
  rw [hfind]
  cases h : s.reqOf a with
  | none => rfl
  | some r => simp [State.asn_of_reqOf h, ha]

theorem State.reqOf_congr {s t : State} (h : t.req.table = s.req.table) (asn : Nat) : t.reqOf asn = s.reqOf asn := by
  simp only [State.reqOf, h]
end

/-- The request has failed with this status and DETAIL. -/
def State.FailedWith (s : State) (asn status detail : Nat) : Prop :=
  ∃ q, s.reqOf asn = some q ∧ q.failed = true ∧ q.status = status ∧ q.detail = detail

theorem State.reqOf_finish {s : State} {asn : Nat} {r : Req} (hr : s.reqOf asn = some r) (hp : r.phase ≠ .complete) (status detail : Nat) :
    ∃ q, (s.finish asn status detail).reqOf asn = some q ∧ q = { r with
      phase := .complete, status := status, detail := detail, leaseHeld := false, timeEnd := q.timeEnd, epochEnd := q.epochEnd,
      wallEnd := q.wallEnd, swapWait := false, jobOut := false, failed := status != stOk } := by
  unfold State.finish
  split
  · next hnone => simp [hr] at hnone
  next r' hr' =>
    cases Option.some.inj (hr.symm.trans hr')
    rw [if_neg (by simpa using hp)]
    extract_lets s1 s2 s3 s4 s5
    have h1 : Keeps (fun s => s.req.table) s s1 := by
      simp only [s1]
      split
      · exact State.endLease_keeps (.refl s) ..
      · rfl
    have h2 : Keeps (fun s => s.req.table) s s2 := by
      simp only [s2]
      split
      · exact State.clearLost_keeps h1 ..
      · exact h1
    have h3 : s3.reqOf asn = some r := (State.reqOf_congr h2 asn).trans hr
    have h4 : s4.reqOf asn = _ := State.reqOf_modReq s3 asn fun _ => rfl
    rw [h3] at h4
    exact ⟨_, h4, rfl⟩

theorem State.settleReq_of_failed {s : State} {asn : Nat} {r : Req} (hr : s.reqOf asn = some r) (hf : r.failed = true) :
    s.settleReq asn = s ∨ (r.phase ≠ .complete ∧ s.settleReq asn = s.finish asn r.status r.detail) := by
  unfold State.settleReq
  grind

/-- A request that runs fails: its record is written, it has the status and DETAIL, and no further record follows. -/
theorem State.failWith_of_running {s : State} {asn : Nat} {r : Req} (hr : s.reqOf asn = some r) (hf : r.failed = false)
    (hp : r.phase ≠ .complete) {status : Nat} (hstatus : status ≠ 0) (detail : Nat) {record : State → State}
    (hrecord : (record s).req.table = s.req.table) :
    (s.failWith asn status detail record).FailedWith asn status detail ∧
      (s.failWith asn status detail record).err = (record s).err := by
  unfold State.failWith
  split
  · next hnone => simp [hr] at hnone
  next r' hr' =>
    cases Option.some.inj (hr.symm.trans hr')
    rw [if_neg (by simp [hf, hp])]
    extract_lets s1 s2 waiting s3 s4
    have h2 : Keeps (fun s => (s.req.table, s.err)) s1 s2 :=
      State.foldl_keeps (.refl s1) (fun _ _ h => State.sendMsgTo_keeps h ..) _
    have h3 : s3.reqOf asn = some r := (State.reqOf_congr ((congrArg Prod.fst h2).trans hrecord) asn).trans hr
    have h4 : s4.reqOf asn = _ := State.reqOf_modReq s3 asn fun _ => rfl
    rw [h3] at h4
    have herr : s4.err = s1.err := congrArg Prod.snd h2
    obtain hsame | ⟨hphase, hfinish⟩ := State.settleReq_of_failed h4 rfl
    · rw [hsame]
      exact ⟨⟨_, h4, rfl, rfl, rfl⟩, herr⟩
    · rw [hfinish]
      obtain ⟨q, hq, hqeq⟩ := State.reqOf_finish h4 hphase status detail
      exact ⟨⟨q, hq, by rw [hqeq]; simpa [stOk] using hstatus, by rw [hqeq], by rw [hqeq]⟩,
        (State.finish_keeps (π := State.err) (.refl s4) ..).eq.trans herr⟩

/-! ## Error records -/

theorem mem_keepLast_concat {α : Type} {n : Nat} (hn : 0 < n) (l : List α) (x : α) : x ∈ keepLast n (l ++ [x]) := by
  rw [keepLast, List.drop_append_of_le_length (by simp; omega)]
  simp

theorem ErrLog.mem_ring_push (l : ErrLog) (r : ErrRec) : r ∈ (l.push r).ring := by
  simp only [ErrLog.push]
  refine mem_keepLast_concat ?_ l.ring r
  decide

theorem State.error_err {s : State} {e : ErrSpec} (hc : e.cls ≠ 0) : (s.error e).err = s.err.push (s.errRecord e false) := by
  unfold State.error
  extract_lets s1
  rw [if_neg hc]
  exact (State.raise_keeps (π := State.err) (.refl _) ..).eq

theorem State.requestRecord_mem_ring (s : State) (asn source inst addr : Nat) {status detail : Nat} (info : List Byte)
    (hs : status ≠ stWeight) (hd : detail ≠ 0) : ∃ e ∈ (s.requestRecord asn status detail source inst addr info).err.ring,
      e.cls = 1 ∧ e.source = source ∧ e.inst = inst ∧ e.code = detail ∧ e.asn = some asn ∧ e.addr = addr ∧ e.info = fit 16 info := by
  unfold State.requestRecord
  rw [if_neg hs, if_neg hs, if_neg hd, State.error_err (by simp)]
  exact ⟨_, ErrLog.mem_ring_push .., rfl, rfl, rfl, rfl, rfl, rfl, rfl⟩

/-! ## The end of a work unit -/

theorem ignoresBayThr_task (c : Fin 80) : IgnoresBayThr fun s => (s.bay c).task := by
  intro s b f
  simp only [State.bay, State.modBay_bays, List.getD_eq_getElem?_getD, List.getElem?_modify]
  cases s.bays[c.val]? <;> by_cases h : b.val = c.val <;> simp [h]

theorem IgnoresBayThr.rest {α : Type} {π : State → α} (h : IgnoresBayThr π) : IgnoresBayRest π :=
  fun s b f => h s b fun y => { f y with threads := y.threads }

theorem State.task_modBay_none (s : State) (b c : Fin 80) {f : Bay → Bay} (hf : ∀ y, (f y).task = none) (h : b = c ∨ (s.bay c).task = none) :
    ((s.modBay b f).bay c).task = none := by
  by_cases hbc : b.val = c.val
  · simp only [State.bay, State.modBay_bays, List.getD_eq_getElem?_getD, List.getElem?_modify, hbc, if_true]
    cases s.bays[c.val]?
    · rfl
    · exact hf _
  · rw [State.bay_modBay_other _ _ _ _ fun e => hbc (congrArg Fin.val e)]
    exact h.resolve_left fun e => hbc (congrArg Fin.val e)

theorem State.task_freeBay (s : State) (b c : Fin 80) (h : b = c ∨ (s.bay c).task = none) : ((s.freeBay b).bay c).task = none := by
  unfold State.freeBay
  split
  · next hnone => exact h.elim (fun e => e ▸ hnone) id
  next task _ =>
    extract_lets held s1
    have h1 : (s1.bay c).task = none := State.task_modBay_none s b c (fun _ => rfl) h
    have h2 : Keeps (fun s => (s.bay c).task) s1 (((s1.subUsed task.f 0 s1.w0).forgetBay b).countFn task.f 14 held) :=
      State.countFn_keeps (State.forgetBay_keeps (State.subUsed_keeps (.refl s1) ..) ..) ..
    exact h2.eq.trans h1

theorem State.task_each_freeBay {β : Type} (bay : β → Fin 80) (c : Fin 80) (l : List β) (s : State)
    (h : (∃ x ∈ l, bay x = c) ∨ (s.bay c).task = none) :
    ((s.each l fun s x => (s.faultRamp (bay x)).freeBay (bay x)).bay c).task = none := by
  induction l generalizing s with
  | nil => simpa [State.each] using h
  | cons x l ih =>
    refine ih _ ?_
    have hramp : ((s.faultRamp (bay x)).bay c).task = (s.bay c).task :=
      State.faultRamp_keeps (π := fun s => (s.bay c).task) (.refl s) (hBayRest := (ignoresBayThr_task c).rest) ..
    obtain ⟨y, hy, hyc⟩ | hnone := h
    · obtain rfl | hy := List.mem_cons.mp hy
      · exact .inr (State.task_freeBay _ _ _ (.inl hyc))
      · exact .inl ⟨y, hy, hyc⟩
    · exact .inr (State.task_freeBay _ _ _ (.inr (hramp.trans hnone)))

/-- A work unit that stops leaves every bay on which one of its bay tasks runs. -/
theorem State.task_stopWu {s : State} {home : Nat} {k : WuKey} {run : RunWu} (hrun : s.runOf home k = some run) {idx : Nat} {b : Fin 80}
    (hb : (idx, b) ∈ run.bays) {task : Task} (ht : (s.bay b).task = some task) (hhome : task.home = home) (hk : task.wu = k) (drain : Bool) :
    ((s.stopWu home k drain).bay b).task = none := by
  unfold State.stopWu
  split
  · next hnone => simp [hrun] at hnone
  next run' hrun' =>
    cases Option.some.inj (hrun.symm.trans hrun')
    extract_lets live s1 s2 s3
    have hlive : (idx, b) ∈ live := by simp [live, hb, ht, hhome, hk]
    have hfree : (∃ x ∈ live, x.2 = b) ∨ (s2.bay b).task = none := .inl ⟨_, hlive, rfl⟩
    clear_value s2 live
    have h3 : (s3.bay b).task = none := State.task_each_freeBay (fun x : Nat × Fin 80 => x.2) b live s2 hfree
    clear_value s3
    have h4 : Keeps (fun s => (s.bay b).task) s3 (s3.abandonKv home k) :=
      State.abandonKv_keeps (.refl s3) (hBayRest := (ignoresBayThr_task b).rest) ..
    have h5 : Keeps (fun s => (s.bay b).task) s3 ((s3.abandonKv home k).dropRun home k) := State.dropRun_keeps h4 ..
    exact h5.eq.trans h3

/-! ## The effect of an exception (Table 5.9) -/

theorem fit_threadInfo (th : Fin 128) (pc : Word) : fit 16 (threadInfo th pc) = threadInfo th pc := by
  have hlen : (threadInfo th pc).length = 16 := by
    simp only [threadInfo, List.length_append, bytesLE_length, List.length_replicate]
  simp only [fit, List.take_of_length_le (Nat.le_of_eq hlen), hlen, Nat.sub_self, List.replicate_zero, List.append_nil]

/-- What an exception has done: the bay is free, the record tells of it, and the request has failed with its DETAIL. -/
def Exception (w : Issue) (pc : Word) (asn detail : Nat) (t : State) : Prop :=
  (t.bay w.bay).task = none ∧
  (∃ e ∈ t.err.ring, e.cls = 1 ∧ e.source = 0x20 ∧ e.inst = w.bay.val ∧ e.code = detail ∧ e.asn = some asn ∧
    e.info = bytesLE 2 w.thread.val ++ List.replicate 6 0 ++ bytesLE 8 pc.toNat) ∧
  t.FailedWith asn 0x31 detail

theorem Exception.issued {w : Issue} {pc : Word} {asn detail : Nat} {t : State} (h : Exception w pc asn detail t) :
    Exception w pc asn detail (t.issued w) := by
  obtain ⟨htask, hrecord, hfailed⟩ := h
  have hkeep : ((t.issued w).bay w.bay).task = (t.bay w.bay).task := ignoresBayThr_task w.bay t w.bay fun y => { y with
    rr := y.rr.set (w.thread.val / 8) (w.thread.val % 8) }
  exact ⟨hkeep.trans htask, hrecord, hfailed⟩

section
variable {s t : State} {w : Issue} (h : Frame.outside s t w)
include h
theorem Frame.task_of_outside : (t.bay w.bay).task = (s.bay w.bay).task := by
  obtain ⟨-, -, -, hbay, -⟩ := h
  rw [hbay]
theorem Frame.nodeId_of_outside : t.net.nodeId = s.net.nodeId := by
  obtain ⟨-, -, -, -, -, hnet, -⟩ := h
  rw [hnet]
theorem Frame.req_of_outside : t.req = s.req := by
  obtain ⟨hs, -⟩ := h
  rw [hs]
theorem Frame.reqOf_of_outside (asn : Nat) : t.reqOf asn = s.reqOf asn := by simp only [State.reqOf, Frame.req_of_outside h]
theorem Frame.runOf_of_outside (home : Nat) (k : WuKey) : t.runOf home k = s.runOf home k := by simp only [State.runOf, Frame.req_of_outside h]
end

/-- What an exception of a thread does to the running request of its bay. -/
theorem State.except_ends {s : State} {w : Issue} {task : Task} {r : Req} {run : RunWu} (ht : (s.bay w.bay).task = some task)
    (hhome : task.home = s.net.nodeId) (hr : s.reqOf task.wu.asn = some r) (hf : r.failed = false) (hp : r.phase ≠ .complete)
    (hrun : s.runOf task.home task.wu = some run) (hb : (task.idx, w.bay) ∈ run.bays) {detail : Nat} (hd : detail ≠ 0) (addr : Nat) :
    Exception w (s.thr w.bay w.thread).pc task.wu.asn detail (s.except w.bay w.thread 0x31 detail addr) := by
  generalize htdef : s.except w.bay w.thread 0x31 detail addr = t
  generalize hinfo : threadInfo w.thread (s.thr w.bay w.thread).pc = info
  have hstop : Keeps (fun s => (s.req.table, s.net.nodeId)) s (s.stopWu task.home task.wu true) := State.stopWu_keeps (.refl s) ..
  have hr1 : (s.stopWu task.home task.wu true).reqOf task.wu.asn = some r := (State.reqOf_congr (congrArg Prod.fst hstop) _).trans hr
  have ht1 := State.task_stopWu hrun hb ht rfl rfl true
  have ht : t = (s.stopWu task.home task.wu true).failReqAt task.wu.asn 0x31 detail 0x20 w.bay.val addr info := by
    rw [← htdef, ← hinfo]
    simp only [State.except, State.exceptAt, State.wuFault, ht]
    rw [if_pos (hhome.trans (congrArg Prod.snd hstop).symm), hr1, if_neg (by simp [hf, hp])]
  generalize s.stopWu task.home task.wu true = s1 at hr1 ht1 ht
  obtain ⟨hfailed, herr⟩ := State.failWith_of_running hr1 hf hp (status := 0x31) (by decide) detail
    (record := fun s => s.requestRecord task.wu.asn 0x31 detail 0x20 w.bay.val addr info)
    (State.requestRecord_keeps (π := fun s => s.req.table) (.refl s1) ..)
  rw [ht]
  refine ⟨?_, ?_, hfailed⟩
  · exact (State.failReqAt_keeps (π := fun s => (s.bay w.bay).task) (.refl s1) ..).eq.trans ht1
  · have hring : t.err.ring = ((s1.requestRecord task.wu.asn 0x31 detail 0x20 w.bay.val addr info).err).ring := by
      rw [ht]
      exact congrArg ErrLog.ring herr
    obtain ⟨e, he, hcls, hsource, hinst, hcode, hasn, -, hinfo'⟩ :=
      State.requestRecord_mem_ring s1 task.wu.asn 0x20 w.bay.val addr (status := 0x31) info (by decide) hd
    exact ⟨e, by rwa [← ht, hring], hcls, hsource, hinst, hcode, hasn, by rw [hinfo', ← hinfo, fit_threadInfo]; rfl⟩

/-! ## Instructions that raise an exception -/

/-- Settles O8. An instruction that may not take effect is `IssuesAs.misaligned` or `IssuesAs.illegal`, and what its exception does to the
request is `State.exceptAt_ends`. -/
theorem exceptionsEndTheRequest : Obligations.ExceptionsEndTheRequest := by
  refine ⟨fun s i w x hx hw hc => ?_, fun s w task r run ord word hs ht hhome hr hf hp hrun hb => ?_⟩
  · intro pc s1
    obtain ⟨f, hf, hexec⟩ := exec_issuesAs hx hw
    refine ⟨fun hpc => ?_, fun hi hlegal => ?_⟩
    · rw [hexec, hf.misaligned hc hpc]
    · rw [hlegal] at hf
      rw [hexec, hf.illegal hi]
  · intro ends
    have hends : ∀ (u : State), Frame.outside s u w → (u.thr w.bay w.thread).pc = (s.thr w.bay w.thread).pc → ∀ detail, detail ≠ 0 →
        Exception w (s.thr w.bay w.thread).pc task.wu.asn detail (u.except w.bay w.thread 0x31 detail 0) := by
      intro u hu hpc detail hd
      rw [← hpc]
      exact State.except_ends ((Frame.task_of_outside hu).trans ht) (hhome.trans (Frame.nodeId_of_outside hu).symm)
        ((Frame.reqOf_of_outside hu _).trans hr) hf hp ((Frame.runOf_of_outside hu ..).trans hrun) hb hd 0
    refine ⟨fun hi => ?_, fun hi hword => ?_⟩
    · obtain ⟨hthr, hout⟩ := State.startOf_spec s w none hs
      have hissue : doTrap w 0 0 ord s = ((s.startOf w none).except w.bay w.thread 0x31 (0x0520 + ord.toNat) 0).issued w :=
        State.issue_runs s w [] none _ hi (by simp [Safety.loaded])
      refine ⟨_, rfl, ?_⟩
      rw [hissue]
      exact (hends _ hout (by rw [hthr]; rfl) _ (by simp)).issued
    · have hissue : doIllegalInstr w word s =
          ((s.modThr w.bay w.thread fun t => { t with wait := .ready }).issued w).except w.bay w.thread 0x31 0x0501 0 := by
        rw [doIllegalInstr, hword, if_neg (by simp)]
        exact IssuesAs.illegal (issuesAs_issue _ false [] none .done) hi
      obtain ⟨hthr, hout⟩ := State.startOf_spec s w none hs
      have hshape : Safety.shaped (s.startOf w none) := (State.startOf_sound (Ctx.sound_ofState s) w none).shaped hs
      obtain ⟨hout', hthr'⟩ := Frame.outside_issued s _ w hshape.1 hout
      refine ⟨_, rfl, ?_⟩
      rw [hissue]
      exact hends _ hout' (by rw [hthr', hthr]; rfl) _ (by decide)

end Sys2Proof.Machine
end

section
/-! Vector instructions (05, R131 to R133, R505, Tables 5.2 and 5.3): the values of the lanes, and the register that each instruction writes. -/
namespace Sys2Proof.Machine
open Sys2Proof

-- One proof at a time: many short proofs elaborated side by side would cost the check its memory.
set_option Elab.async false


/-! ## Lanes of a vector register -/

/-- The number that `ofLanes` builds. -/
def lanesValue (w : Nat) (l : List Nat) : Nat := l.foldr (fun x acc => x % 2 ^ w + 2 ^ w * acc) 0

@[simp] theorem lanesValue_cons (w x : Nat) (l : List Nat) : lanesValue w (x :: l) = x % 2 ^ w + 2 ^ w * lanesValue w l := rfl

theorem lanesValue_lane (w : Nat) (l : List Nat) (i : Nat) : lanesValue w l / 2 ^ (w * i) % 2 ^ w = l.getD i 0 % 2 ^ w := by
  induction l generalizing i with
  | nil => simp [lanesValue]
  | cons x l ih =>
    cases i with
    | zero => simp
    | succ i =>
      have hdiv : (x % 2 ^ w + 2 ^ w * lanesValue w l) / 2 ^ w = lanesValue w l := by
        rw [Nat.add_mul_div_left _ _ (Nat.two_pow_pos w), Nat.div_eq_of_lt (Nat.mod_lt _ (Nat.two_pow_pos w)), Nat.zero_add]
      rw [lanesValue_cons, Nat.mul_succ, Nat.add_comm (w * i), Nat.pow_add, ← Nat.div_div_eq_div_mul, hdiv, ih]
      simp

theorem extractLsb'_ofLanes {w : Nat} (l : List Nat) {i : Nat} (h : w * i + w ≤ 512) :
    (ofLanes w l).extractLsb' (w * i) w = BitVec.ofNat w (l.getD i 0) := by
  apply BitVec.eq_of_toNat_eq
  have hmod : lanesValue w l % 2 ^ 512 / 2 ^ (w * i) % 2 ^ w = lanesValue w l / 2 ^ (w * i) % 2 ^ w := by
    rw [← Nat.shiftRight_eq_div_pow, ← Nat.shiftRight_eq_div_pow]
    apply Nat.eq_of_testBit_eq
    intro j
    simp only [Nat.testBit_mod_two_pow, Nat.testBit_shiftRight]
    by_cases hj : j < w
    · simp [hj, show w * i + j < 512 by omega]
    · simp [hj]
  rw [BitVec.extractLsb'_toNat, Nat.shiftRight_eq_div_pow, ofLanes, BitVec.toNat_ofNat, ← lanesValue, hmod, lanesValue_lane, BitVec.toNat_ofNat]

theorem bits_toNat_eq_extract (v : BitVec 512) (lo n : Nat) : bits v.toNat lo n = (v.extractLsb' lo n).toNat := by
  rw [BitVec.extractLsb'_toNat, Nat.shiftRight_eq_div_pow, bits]

/-! ## Integer lanes (R131, R505) -/

section
variable {n : Nat} (x y : BitVec n)

theorem toSigned_toNat : toSigned n x.toNat = x.toInt := by
  rw [BitVec.toInt_eq_toNat_cond, toSigned, Nat.mod_eq_of_lt x.isLt]

theorem ofNat_ofSigned (z : Int) : BitVec.ofNat n (ofSigned n z) = BitVec.ofInt n z := by
  apply BitVec.eq_of_toNat_eq
  have h : ofSigned n z < 2 ^ n := by
    have h1 := ofSigned_eq_emod n z
    have h2 := Int.emod_lt_of_pos z (b := (2 ^ n : Nat)) (by exact_mod_cast Nat.two_pow_pos n)
    omega
  rw [BitVec.toNat_ofNat, Nat.mod_eq_of_lt h, BitVec.toNat_ofInt, ofSigned]

theorem intLane_add : BitVec.ofNat n (intLane n 0x0 x.toNat y.toNat) = x + y := by
  apply BitVec.eq_of_toNat_eq
  simp [intLane]
theorem intLane_sub : BitVec.ofNat n (intLane n 0x1 x.toNat y.toNat) = x - y := by
  apply BitVec.eq_of_toNat_eq
  have h : x.toNat + 2 ^ n - y.toNat = 2 ^ n - y.toNat + x.toNat := by have := y.isLt; omega
  simp [intLane, BitVec.toNat_sub, h]
theorem intLane_mul : BitVec.ofNat n (intLane n 0x2 x.toNat y.toNat) = x * y := by
  apply BitVec.eq_of_toNat_eq
  simp [intLane]
theorem intLane_min : BitVec.ofNat n (intLane n 0x3 x.toNat y.toNat) = if x.toInt < y.toInt then x else y := by
  simp only [intLane, toSigned_toNat]
  split <;> simp
theorem intLane_max : BitVec.ofNat n (intLane n 0x4 x.toNat y.toNat) = if x.toInt < y.toInt then y else x := by
  simp only [intLane, toSigned_toNat]
  split <;> simp
theorem intLane_and : BitVec.ofNat n (intLane n 0x6 x.toNat y.toNat) = x &&& y := by
  apply BitVec.eq_of_toNat_eq
  simp [intLane, ← BitVec.toNat_and]
theorem intLane_or : BitVec.ofNat n (intLane n 0x7 x.toNat y.toNat) = x ||| y := by
  apply BitVec.eq_of_toNat_eq
  simp [intLane, ← BitVec.toNat_or]
theorem intLane_xor : BitVec.ofNat n (intLane n 0x8 x.toNat y.toNat) = x ^^^ y := by
  apply BitVec.eq_of_toNat_eq
  simp [intLane, ← BitVec.toNat_xor]
theorem intLane_shl : BitVec.ofNat n (intLane n 0x9 x.toNat y.toNat) = x <<< (y.toNat % n) := by
  apply BitVec.eq_of_toNat_eq
  simp [intLane, Nat.shiftLeft_eq]
theorem intLane_shr : BitVec.ofNat n (intLane n 0xA x.toNat y.toNat) = x.sshiftRight (y.toNat % n) := by
  simp only [intLane, toSigned_toNat, ofNat_ofSigned, BitVec.sshiftRight, Int.shiftRight_eq_div_pow]

end

theorem vopLane_int {ty : Nat} (hty : ty ≤ 3) (f c a b : Nat) : vopLane ty f c a b = intLane (laneWidth ty) f a b := by
  obtain rfl | rfl | rfl | rfl : ty = 0 ∨ ty = 1 ∨ ty = 2 ∨ ty = 3 := by omega
  all_goals rfl

theorem vop_lane {ty : Nat} (f : Nat) (d a b : BitVec 512) {i : Nat} (hi : i < 512 / laneWidth ty) :
    (vop ty f d a b).extractLsb' (laneWidth ty * i) (laneWidth ty) = BitVec.ofNat _ (vopLane ty f
      (d.extractLsb' (laneWidth ty * i) (laneWidth ty)).toNat (a.extractLsb' (laneWidth ty * i) (laneWidth ty)).toNat
      (b.extractLsb' (laneWidth ty * i) (laneWidth ty)).toNat) := by
  have hle : laneWidth ty * i + laneWidth ty ≤ 512 := by
    have := Nat.mul_le_of_le_div _ _ _ (Nat.succ_le_of_lt hi)
    rw [← Nat.mul_succ, Nat.mul_comm]
    exact this
  simp only [vop]
  rw [extractLsb'_ofLanes _ hle]
  simp [List.getD_eq_getElem?_getD, hi, bits_toNat_eq_extract]

/-! ## Floating lanes (R132, R505) -/

@[simp] theorem FVal.mul_nan (v : FVal) : v.mul .nan = .nan := by cases v <;> rfl

section
variable (f : Fmt) {a b : Nat} (h : f.decode a = .nan ∨ f.decode b = .nan)
include h
theorem Fmt.add_of_nan : f.add a b = f.nan := by rcases h with h | h <;> simp [Fmt.add, h]
theorem Fmt.sub_of_nan : f.sub a b = f.nan := by rcases h with h | h <;> simp [Fmt.sub, h, FVal.neg]
theorem Fmt.mul_of_nan : f.mul a b = f.nan := by rcases h with h | h <;> simp [Fmt.mul, h]
theorem Fmt.min_of_nan : f.min a b = f.nan := by rcases h with h | h <;> simp [Fmt.min, h, FVal.isNan]
theorem Fmt.max_of_nan : f.max a b = f.nan := by rcases h with h | h <;> simp [Fmt.max, h, FVal.isNan]
theorem Fmt.fma_of_nan_factor (c : Nat) : f.fma c a b = f.nan := by rcases h with h | h <;> simp [Fmt.fma, h]
theorem Fmt.fma_of_nan_addend (c : Nat) : f.fma a b c = f.nan := by rcases h with h | h <;> simp [Fmt.fma, h]
end

/-- Settles O6. A lane of `vop` is `vopLane` of the operands' lanes, an integer one `intLane`; a NaN passes through every operation of
`FVal`. -/
theorem laneResults : Obligations.LaneResults := by
  refine ⟨?_, fun f hf a b c => ?_⟩
  · intro ty d a b i hty n hi x y lane
    have hlane : ∀ f, lane f = BitVec.ofNat n (intLane n f x.toNat y.toNat) := fun f => by
      rw [← vopLane_int hty f (d.extractLsb' (n * i) n).toNat]
      exact vop_lane f d a b hi
    simp only [hlane]
    exact ⟨intLane_add x y, intLane_sub x y, intLane_mul x y, intLane_min x y, intLane_max x y, intLane_and x y, intLane_or x y,
      intLane_xor x y, intLane_shl x y, intLane_shr x y⟩
  · have hnan : f.1.nan = f.2.1 ∧ f.1.max 0 f.2.2 = 0 ∧ f.1.max f.2.2 0 = 0 ∧ f.1.min 0 f.2.2 = f.2.2 ∧ f.1.min f.2.2 0 = f.2.2 := by
      revert f
      decide
    refine ⟨fun h => ?_, hnan.2⟩
    rw [← hnan.1]
    exact ⟨f.1.add_of_nan h, f.1.sub_of_nan h, f.1.mul_of_nan h, f.1.min_of_nan h, f.1.max_of_nan h, f.1.fma_of_nan_factor h c,
      f.1.fma_of_nan_addend h c⟩

/-! ## Writing one vector register -/

/-- From `s` to `t` the issuing thread writes `v` to v[RD] and moves to the next instruction; nothing else changes. -/
def WritesVector (s t : State) (w : Issue) (rd : BitVec 5) (v : BitVec 512) : Prop :=
  (t.thr w.bay w.thread).vr rd = v ∧
  (t.thr w.bay w.thread).pc = (s.thr w.bay w.thread).pc + 4 ∧
  Frame.vector (s.thr w.bay w.thread) (t.thr w.bay w.thread) rd ∧ Frame.outside s t w

@[simp] theorem Thread.started_vr (t : Thread) (write : Option RegName) (n : BitVec 5) : (t.started write).vr n = t.vr n := rfl

theorem Frame.vector_setV_next (t : Thread) (rd : BitVec 5) (v : BitVec 512) :
    Frame.vector t ((t.started (some (.v rd))).setV rd v).next rd := by
  refine ⟨rfl, fun n hn => ?_⟩
  rw [Thread.next_vr, Thread.vr_setV_other _ _ _ _ hn, Thread.started_vr]

section
variable {s : State} {w : Issue}

/-- A legal instruction that sets v[RD] to a value computed from its thread. -/
theorem State.issueThr_writesVector {reads : List RegName} (rd : BitVec 5) (val : Thread → BitVec 512) (hs : Safety.shaped s)
    (hi : Safety.issues s w) (hl : Safety.loaded s w reads) :
    WritesVector s (s.issueThr w true reads (some (.v rd)) fun t => (t.setV rd (val t)).next) w rd
      (val ((s.thr w.bay w.thread).started (some (.v rd)))) := by
  obtain ⟨hthr, hout⟩ :=
    State.issueThr_spec s w reads (some (.v rd)) (fun t => (t.setV rd (val t)).next) hs hi hl
  refine ⟨?_, ?_, ?_, hout⟩ <;> rw [hthr]
  · exact Thread.vr_setV_same _ _ _ (Safety.shaped_thr hs w.bay w.thread).2
  · simp
  · exact Frame.vector_setV_next _ _ _

theorem State.issueVop_writesVector {legal : Bool} (hlegal : legal = true) (ty : BitVec 3) (f : Nat) (rd ra rb : BitVec 5)
    (hs : Safety.shaped s) (hi : Safety.issues s w)
    (hl : Safety.loaded s w ([.v ra] ++ (if f = 0xB then [] else [.v rb]) ++ if f = 0x5 then [.v rd] else [])) :
    let th := s.thr w.bay w.thread
    WritesVector s (s.issueVop w legal ty f rd ra rb) w rd (vop ty.toNat f (th.vr rd) (th.vr ra) (th.vr rb)) := by
  subst hlegal
  exact State.issueThr_writesVector rd (fun t => vop ty.toNat f (t.vr rd) (t.vr ra) (t.vr rb)) hs hi hl
end

/-! ## Reductions (R133) -/

section
variable {α : Type} (op : α → α → α)

theorem pairLevel_map_range (T U : Nat → α) (h : ∀ i, U i = op (T (2 * i)) (T (2 * i + 1))) (n : Nat) :
    pairLevel op ((List.range (2 * n)).map T) = (List.range n).map U := by
  induction n generalizing T U with
  | zero => rfl
  | succ n ih =>
    have hih := ih (fun i => T (i + 2)) (fun i => U (i + 1)) fun i => h (i + 1)
    have hT : (List.range (2 * (n + 1))).map T = T 0 :: T 1 :: (List.range (2 * n)).map fun i => T (i + 2) := by
      rw [Nat.mul_succ, List.range_succ_eq_map, List.range_succ_eq_map]
      simp
    have hU : (List.range (n + 1)).map U = U 0 :: (List.range n).map fun i => U (i + 1) := by
      rw [List.range_succ_eq_map]
      simp
    rw [hT, hU, pairLevel, hih, h 0]

theorem pairTree_singleton (n : Nat) (x : α) : pairTree op n [x] = [x] := by
  induction n with
  | zero => rfl
  | succ n ih => exact ih

/-- A tree of `k` levels over `2 ^ k` values comes down to the value at its top. -/
theorem pairTree_map_range (T : Nat → Nat → α) (h : ∀ j i, T (j + 1) i = op (T j (2 * i)) (T j (2 * i + 1))) (k n j : Nat) (hk : k ≤ n) :
    pairTree op n ((List.range (2 ^ k)).map (T j)) = [T (j + k) 0] := by
  induction k generalizing n j with
  | zero => exact pairTree_singleton op n _
  | succ k ih =>
    obtain ⟨n, rfl⟩ := Nat.exists_eq_add_of_le' (Nat.succ_le_of_lt (Nat.lt_of_lt_of_le k.succ_pos hk))
    rw [pairTree, Nat.pow_succ, Nat.mul_comm, pairLevel_map_range op (T j) (T (j + 1)) (h j), ih n (j + 1) (by omega)]
    congr 2
    omega
end

/-- The value that VRED writes. -/
theorem vred_eq {ty f k : Nat} (hty : ty < 7) (v : BitVec 512) (T : Nat → Nat → Nat) (hk : laneWidth ty * 2 ^ k = 512)
    (h0 : ∀ i, T 0 i = bits v.toNat (laneWidth ty * i) (laneWidth ty))
    (hT : ∀ j i, T (j + 1) i = redLane ty f (T j (2 * i)) (T j (2 * i + 1))) :
    vred ty f v = if ty ≤ 3 then BitVec.ofInt 64 (toSigned (laneWidth ty) (T k 0)) else BitVec.ofNat 64 (T k 0) := by
  have h8 : 8 ≤ laneWidth ty := (by decide : ∀ t < 7, 8 ≤ laneWidth t) ty hty
  have hk6 : k ≤ 6 := Nat.le_of_not_lt fun hlt => by
    have h128 : 2 ^ 7 ≤ 2 ^ k := Nat.pow_le_pow_right (by decide) (by omega)
    have := Nat.mul_le_mul h8 h128
    omega
  have hlanes : lanesOf (laneWidth ty) v = (List.range (2 ^ k)).map (T 0) := by
    rw [lanesOf, show 512 / laneWidth ty = 2 ^ k from Nat.div_eq_of_eq_mul_right (Nat.lt_of_lt_of_le (by decide) h8) hk.symm]
    exact List.map_congr_left fun i _ => (h0 i).symm
  have htree : (pairTree (redLane ty f) 6 (lanesOf (laneWidth ty) v)).headD 0 = T k 0 := by
    rw [hlanes, pairTree_map_range (redLane ty f) T hT k 6 0 hk6, Nat.zero_add]
    rfl
  simp only [vred, htree]
  have hfloat : (floatTy ty).isSome = decide (3 < ty) := (by decide : ∀ t < 7, (floatTy t).isSome = decide (3 < t)) ty hty
  split
  · next hf => rw [if_neg (by simpa [hf] using hfloat)]
  · next hf =>
    rw [if_pos (by simpa [hf] using hfloat)]
    exact ofNat_ofSigned _

/-! ## The statement -/

theorem vopFloatTy_of_bounds {ty : BitVec 3} (h4 : 4 ≤ ty.toNat) (h6 : ty.toNat ≤ 6) : vopFloatTy ty = true := by
  revert ty
  decide

/-- The fields of a VCVT word with type codes 0 to 8. -/
theorem vcvt_fields (w : Issue) (rd ra : BitVec 5) {src dst : BitVec 4} (hsrc : src.toNat ≤ 8) (hdst : dst.toNat ≤ 8) :
    Instr.threadLegal (.vcvt w (0#3 ++ src) rd ra (0#1 ++ dst)) = true ∧ (0#3 ++ src).extractLsb' 0 4 = src ∧
      (0#1 ++ dst).extractLsb' 0 4 = dst := by
  have hfn : (0#3 ++ src).extractLsb' 0 4 = src := BitVec.extractLsb'_append_eq_right
  have hrb : (0#1 ++ dst).extractLsb' 0 4 = dst := BitVec.extractLsb'_append_eq_right
  have hfn' : (0#3 ++ src).extractLsb' 4 3 = 0#3 := BitVec.extractLsb'_append_eq_left
  have hrb' : (0#1 ++ dst).extractLsb' 4 1 = 0#1 := BitVec.extractLsb'_append_eq_left
  refine ⟨?_, hfn, hrb⟩
  show ((0#3 ++ src).extractLsb' 4 3 == 0#3 && (0#1 ++ dst).extractLsb' 4 1 == 0#1 && decide (((0#3 ++ src).extractLsb' 0 4).toNat ≤ 8) &&
    decide (((0#1 ++ dst).extractLsb' 0 4).toNat ≤ 8)) = true
  simp only [hfn, hrb, hfn', hrb', hsrc, hdst, beq_self_eq_true, decide_true, Bool.and_self]

/-- Settles O5. Each instruction is `State.issueThr` of an update of one register; what issuing it does is `State.issueThr_writesVector` or
`State.issueThr_writesGeneral`, and the value of a reduction is `vred_eq`. -/
theorem vectorResults : Obligations.VectorResults := by
  refine ⟨?_, ?_⟩
  · intro s w ty rd ra rb hs hi hl th op done
    have hsub : ∀ {l : List RegName}, l ⊆ [.v ra, .v rb, .v rd, .g ra, .g rb] → Safety.loaded s w l := Safety.loaded_mono hl
    have hvop : ∀ {legal : Bool}, legal = true → ∀ f, WritesVector s (s.issueVop w legal ty f rd ra rb) w rd (op f) := by
      intro legal hlegal f
      refine State.issueVop_writesVector hlegal ty f rd ra rb hs hi (hsub ?_)
      split <;> split <;> simp
    refine ⟨fun hty => ?_, fun h4 h6 => ?_, fun h3 => ?_, ?_, fun src dst hsrc hdst => ?_, ?_, ?_⟩
    · have hlegal : vopAnyTy ty = true := by simpa [vopAnyTy] using hty
      exact ⟨⟨_, rfl, hvop hlegal 0x0⟩, ⟨_, rfl, hvop hlegal 0x1⟩, ⟨_, rfl, hvop hlegal 0x2⟩, ⟨_, rfl, hvop hlegal 0x3⟩,
        ⟨_, rfl, hvop hlegal 0x4⟩⟩
    · exact ⟨_, rfl, hvop (vopFloatTy_of_bounds h4 h6) 0x5⟩
    · have hlegal : vopIntTy ty = true := decide_eq_true (Nat.lt_succ_of_le h3)
      exact ⟨⟨_, rfl, hvop hlegal 0x6⟩, ⟨_, rfl, hvop hlegal 0x7⟩, ⟨_, rfl, hvop hlegal 0x8⟩, ⟨_, rfl, hvop hlegal 0x9⟩,
        ⟨_, rfl, hvop hlegal 0xA⟩⟩
    · exact ⟨_, rfl, State.issueVop_writesVector rfl 6 0xB rd ra 0 hs hi (hsub (by simp))⟩
    · obtain ⟨hlegal, hfn, hrb⟩ := vcvt_fields w rd ra hsrc hdst
      have hvcvt := State.issueThr_writesVector (s := s) (w := w) (reads := [.v ra]) rd
        (fun t => vcvtLanes ((0#3 ++ src).extractLsb' 0 4).toNat ((0#1 ++ dst).extractLsb' 0 4).toNat (t.vr ra)) hs hi (hsub (by simp))
      rw [hfn, hrb] at hvcvt
      refine ⟨_, rfl, ?_⟩
      rw [doVcvt, hlegal, hfn, hrb]
      exact hvcvt
    · exact ⟨_, rfl, State.issueThr_writesVector rd (fun t => vputLane (t.vr rd) (t.gr rb) (t.gr ra)) hs hi (hsub (by simp))⟩
    · exact ⟨_, rfl, State.issueThr_writesVector rd (fun t => vbcastLanes (t.gr ra)) hs hi (hsub (by simp))⟩
  · intro s w ty rd ra rb hs hi hl th wide done
    refine ⟨fun hty c hc T k hk h0 hT => ?_, ?_⟩
    · have hlegal : (vopAnyTy ty && (0 : BitVec 5) == 0#5) = true := by simpa [vopAnyTy] using hty
      have hty7 : ty.toNat < 7 := Nat.lt_of_le_of_ne (Nat.le_of_lt_succ ty.isLt) fun h => hty (BitVec.eq_of_toNat_eq h)
      have hred : ∀ f, WritesGeneral s (s.issueThr w (vopAnyTy ty && (0 : BitVec 5) == 0#5) [.v ra] (some (.g rd)) fun t =>
          (t.setG rd (vred ty.toNat f (t.vr ra))).next) w rd (vred ty.toNat f (th.vr ra)) := fun f => by
        rw [hlegal]
        exact State.issueThr_writesGeneral rd (fun t => vred ty.toNat f (t.vr ra)) hs hi (Safety.loaded_mono hl (by simp))
      have hval : vred ty.toNat c.2 (th.vr ra) = wide (T k 0) := vred_eq hty7 (th.vr ra) T hk h0 hT
      rw [← hval]
      simp only [List.mem_cons, List.not_mem_nil, or_false] at hc
      rcases hc with rfl | rfl | rfl
      · exact ⟨_, rfl, hred 0⟩
      · exact ⟨_, rfl, hred 1⟩
      · exact ⟨_, rfl, hred 2⟩
    · exact ⟨_, rfl, State.issueThr_writesGeneral rd (fun t => vgetLane (t.vr ra) (t.gr rb)) hs hi hl⟩

end Sys2Proof.Machine
end

section
/-! What further operations of the model leave as they were. -/
namespace Sys2Proof.Machine
open Sys2Proof

section
variable {α : Type} {π : State → α} {s₀ s : State} (h : Keeps π s₀ s)
  (hClk : IgnoresClk π := by exact fun _ _ => rfl)
  (hClkT : Ignores π State.modClk := by exact fun _ _ => rfl)
  (hPins : Ignores π State.modPins := by exact fun _ _ => rfl)
  (hBoot : IgnoresBoot π := by exact fun _ _ => rfl)
  (hBootT : Ignores π State.modBoot := by exact fun _ _ => rfl)
  (hCfg : IgnoresCfg π := by exact fun _ _ => rfl)
  (hTun : Ignores π State.modTun := by exact fun _ _ => rfl)
  (hStew : IgnoresStew π := by exact fun _ _ => rfl)
  (hStewT : Ignores π State.modStew := by exact fun _ _ => rfl)
  (hReqs : IgnoresReqs π := by exact fun _ _ => rfl)
  (hRun : IgnoresRun π := by exact fun _ _ => rfl)
  (hTable : Ignores π State.modReqs := by exact fun _ _ => rfl)
  (hBayRest : IgnoresBayRest π := by exact fun _ _ _ => rfl)
  (hBayThr : IgnoresBayThr π := by exact fun _ _ _ => rfl)
  (hBays : IgnoresBays π := by exact fun _ _ => rfl)
  (hBaysT : ∀ s l, π { s with bays := l } = π s := by exact fun _ _ => rfl)
  (hBars : Ignores π State.modBars := by exact fun _ _ => rfl)
  (hMem : Ignores π State.modMem := by exact fun _ _ => rfl)
  (hQuota : Ignores π State.modQuota := by exact fun _ _ => rfl)
  (hStr : IgnoresStr π := by exact fun _ _ => rfl)
  (hStrT : Ignores π State.modStr := by exact fun _ _ => rfl)
  (hKv : Ignores π State.modKv := by exact fun _ _ => rfl)
  (hPorts : IgnoresPorts π := by exact fun _ _ => rfl)
  (hNet : IgnoresNet π := by exact fun _ _ => rfl)
  (hNetN : Ignores π State.modNet := by exact fun _ _ => rfl)
  (hHost : IgnoresHost π := by exact ⟨fun _ _ => rfl, fun _ _ _ _ _ => rfl⟩)
  (hHostT : Ignores π State.modHost := by exact fun _ _ => rfl)
  (hAud : Ignores π State.modAud := by exact fun _ _ => rfl)
  (hSent : Ignores π State.modSent := by exact fun _ _ => rfl)
  (hCnt : IgnoresCnt π := by exact fun _ _ => rfl)
  (hCntT : Ignores π State.modCnt := by exact fun _ _ => rfl)
  (hErr : IgnoresErr π := by exact fun _ _ => rfl)
  (hErrT : Ignores π State.modErr := by exact fun _ _ => rfl)
  (hPlumb : Ignores π State.modPlumb := by exact fun _ _ => rfl)
  (hCxl : Ignores π State.modCxl := by exact fun _ _ => rfl)
  (hHub : Ignores π State.modHub := by exact fun _ _ => rfl)
  (hPending : IgnoresPending π := by exact fun _ _ => rfl)
  (hFree : IgnoresFree π := by exact fun _ _ => rfl)

include h hKv in
theorem State.poolBlocks_keeps (f : Fixed) (blk n : Nat) {x : Nat} {u : State} (hu : s.poolBlocks f blk n = some (x, u)) : Keeps π s₀ u := by
  grind [State.poolBlocks, State.modKv_keeps, Option.map_eq_some_iff]

include h hKv in
theorem State.modWork_keeps (w : KvWork) (f : KvWork → KvWork) : Keeps π s₀ (s.modWork w f) := by
  grind [State.modWork, State.modKv_keeps, Option.map_eq_some_iff]

include h hMem hKv hCnt in
theorem State.parkBay_keeps (b : Fin 80) (task : Task) : Keeps π s₀ (s.parkBay b task) := by
  unfold State.parkBay
  refine State.each_keeps h (fun s w h => ?_) _
  split
  next r g _ _ =>
    extract_lets fill base dest
    have hdest : ∀ a u, dest = some (a, u) → Keeps π s₀ u := by
      intro a u hu
      simp only [dest] at hu
      split at hu
      next t _ program _ _ =>
        split at hu
        · nomatch hu
        next f _ =>
          split at hu
          · cases hu; exact h
          · obtain ⟨p, hp, hu⟩ := Option.map_eq_some_iff.mp hu
            cases hu
            exact State.modKvRec_keeps (hKv := hKv) (State.poolBlocks_keeps (hKv := hKv) h f _ _ hp) ..
      · cases hu; exact h
    clear_value dest
    split
    · exact h
    split
    · exact State.modWork_keeps (hKv := hKv) h ..
    split
    · exact h
    next dst u =>
      exact State.modWork_keeps (hKv := hKv) (State.countBay_keeps (hCnt := hCnt) (State.memWrite_keeps (hMem := hMem) (hCnt := hCnt)
          (hdest dst u rfl) ..) ..) ..
  · exact h

end
end Sys2Proof.Machine
end

section
/-! Instructions whose effect rests on the rest of the state (05, R125, R147, R148, R157): what issuing them comes to, CTX and PHILOX,
mailboxes, waits for tags, and EXIT. -/
namespace Sys2Proof.Machine
open Sys2Proof

/-! ## The state in which an instruction runs -/

section
variable {s : State} {w : Issue} {reads : List RegName} {write : Option RegName} {run : State → Ran}

theorem Safety.shaped_startOf (hs : Safety.shaped s) (w : Issue) (write : Option RegName) : Safety.shaped (s.startOf w write) :=
  (State.startOf_sound (Ctx.sound_ofState s) w write).shaped hs

theorem State.startOf_thr (hs : Safety.shaped s) (w : Issue) (write : Option RegName) :
    (s.startOf w write).thr w.bay w.thread = (s.thr w.bay w.thread).started write := (State.startOf_spec s w write hs).1

theorem State.startOf_outside (hs : Safety.shaped s) (w : Issue) (write : Option RegName) : Frame.outside s (s.startOf w write) w :=
  (State.startOf_spec s w write hs).2

/-- Beside the issuing thread, a thread of the start state is as it was. -/
theorem Frame.thr_of_outside {t : State} (h : Frame.outside s t w) {b : Fin 80} {u : Fin 128} (hu : ¬ (b = w.bay ∧ u = w.thread)) :
    t.thr b u = s.thr b u := by
  obtain ⟨-, hbays, hthr, -⟩ := h
  by_cases hb : b = w.bay
  · subst hb
    exact hthr u fun e => hu ⟨rfl, e⟩
  · rw [State.thr, hbays b hb, State.thr]

theorem Frame.mem_of_outside {t : State} (h : Frame.outside s t w) : t.mem = s.mem := by
  obtain ⟨hs, -⟩ := h
  rw [hs]

variable (hi : Safety.issues s w) (hl : Safety.loaded s w reads)
include hi hl

theorem State.issue_done {t : State} (hrun : run (s.startOf w write) = .done t) : s.issue w true reads write run = t.issued w := by
  rw [State.issue_runs s w reads write run hi hl, hrun]

/-- An instruction that only changes its own thread, in a way that may rest on the state. -/
theorem State.issue_eq_issueThr {f : Thread → Thread}
    (hrun : run (s.startOf w write) = .done ((s.startOf w write).modThr w.bay w.thread f)) :
    s.issue w true reads write run = s.issueThr w true reads write f := by
  rw [State.issue_done hi hl hrun, State.issueThr]
  exact (State.issue_done hi hl (run := fun s => .done (s.modThr w.bay w.thread f)) rfl).symm

theorem State.issue_waits (hs : Safety.shaped s) {on : WaitOn} (hrun : run (s.startOf w write) = .wait (s.startOf w write) on) :
    let t := s.issue w true reads write run
    t.thr w.bay w.thread = { (s.thr w.bay w.thread).started write with wait := .retry on } ∧ Frame.outside s t w := by
  intro t
  have ht : t = (s.startOf w write).modThr w.bay w.thread fun t => { t with wait := .retry on } := by
    simp only [t]
    rw [State.issue_runs s w reads write run hi hl, hrun]
  have hshape := Safety.shaped_startOf hs w write
  obtain ⟨hout, hthr⟩ := Frame.outside_modThr s _ w (fun t => { t with wait := .retry on }) hshape.1 (Safety.shaped_bay hshape w.bay).1
    (State.startOf_outside hs w write)
  rw [ht]
  exact ⟨by rw [hthr, State.startOf_thr hs], hout⟩

/-- An instruction that only moves to the next one. -/
theorem State.issue_next (hs : Safety.shaped s) (hrun : run (s.startOf w none) = .done ((s.startOf w none).modThr w.bay w.thread Thread.next)) :
    let t := s.issue w true reads none run
    t.thr w.bay w.thread = { s.thr w.bay w.thread with pc := (s.thr w.bay w.thread).pc + 4, wait := .ready } ∧ Frame.outside s t w := by
  intro t
  simp only [t, State.issue_eq_issueThr hi hl hrun]
  exact State.issueThr_spec s w reads none Thread.next hs hi hl
end

/-! ## CTX and PHILOX (R148) -/

theorem State.ctxValue_eq (s : State) (b : Fin 80) (t : Fin 128) (k : Task) (xf : Nat) (v : Nat)
    (hv : [t.val, k.idx, k.tasks, k.wu.stage, match k.wu.step with | .context => 2 ^ 64 - 1 | .step n => n, k.waveFirst, k.waveN, k.args,
      b.val, s.net.nodeId, s.clk.devTime, s.net.settled][xf]? = some v) : xf ≤ 0x0B ∧ s.ctxValue b t k xf = v := by
  obtain ⟨hxf, -⟩ := List.getElem?_eq_some_iff.mp hv
  refine ⟨Nat.le_of_lt_succ hxf, ?_⟩
  match xf, hxf, hv with
  | 0, _, hv | 1, _, hv | 2, _, hv | 3, _, hv | 4, _, hv | 5, _, hv | 6, _, hv | 7, _, hv | 8, _, hv | 9, _, hv | 10, _, hv | 11, _, hv =>
    exact Option.some.inj hv

theorem philoxLegal_iff (x : Word) : philoxLegal x = true ↔ x.extractLsb' 48 16 &&& 3 = 0 ∧ x.extractLsb' 44 4 = 0 := by
  have hbits : ∀ lo n, bits x.toNat lo n = (x.extractLsb' lo n).toNat := fun lo n => by
    rw [BitVec.extractLsb'_toNat, Nat.shiftRight_eq_div_pow, bits]
  have hand : (x.extractLsb' 48 16 &&& 3).toNat = (x.extractLsb' 48 16).toNat % 4 := by
    rw [BitVec.toNat_and]
    exact Nat.and_two_pow_sub_one_eq_mod _ 2
  simp only [philoxLegal, hbits, Bool.and_eq_true, beq_iff_eq, ← hand]
  exact and_congr (BitVec.toNat_eq (y := 0)).symm (BitVec.toNat_eq (y := 0)).symm

section
variable {s t : State} {w : Issue} (h : Frame.outside s t w)
include h

theorem Frame.clk_of_outside : t.clk = s.clk := by
  obtain ⟨hs, -⟩ := h
  rw [hs]

theorem Frame.settled_of_outside : t.net.settled = s.net.settled := by
  obtain ⟨-, -, -, -, -, hnet, -⟩ := h
  rw [hnet]

theorem Frame.quota_of_outside : t.quota = s.quota := by
  obtain ⟨hs, -⟩ := h
  rw [hs]

theorem Frame.ctxValue_of_outside (b : Fin 80) (u : Fin 128) (k : Task) (xf : Nat) : t.ctxValue b u k xf = s.ctxValue b u k xf := by
  simp only [State.ctxValue, Frame.nodeId_of_outside h, Frame.clk_of_outside h, Frame.settled_of_outside h]

theorem Frame.descOf_of_outside (home asn : Nat) : t.descOf home asn = s.descOf home asn := by
  simp only [State.descOf, Frame.nodeId_of_outside h, Frame.req_of_outside h, Frame.quota_of_outside h]
end

/-- Settles O15. Both instructions are `State.issueThr` of an update of one register with a value that the start state gives as the state
before does. -/
theorem contextAndDraws : Obligations.ContextAndDraws := by
  intro s w rd ra ord xf k hs hi hl hk th x step values
  have hout := State.startOf_outside hs w
  have hx : ∀ write, ((s.startOf w write).thr w.bay w.thread).gr ra = x := fun write => by rw [State.startOf_thr hs, Thread.started_gr]
  have hk' : ∀ write, ((s.startOf w write).bay w.bay).task = some k := fun write => (Frame.task_of_outside (hout write)).trans hk
  refine ⟨fun v hv => ?_, fun h3 h4 => ?_, fun h => ?_⟩
  · obtain ⟨hxf, hval⟩ := State.ctxValue_eq s w.bay w.thread k xf.toNat v hv
    have hval' := (Frame.ctxValue_of_outside (hout (some (.g rd))) w.bay w.thread k xf.toNat).trans hval
    refine ⟨_, rfl, ?_⟩
    rw [doCtx, show Instr.threadLegal (.ctx w rd 0 0 xf) = true from ?legal,
      State.issue_eq_issueThr (f := fun t => (t.setG rd (BitVec.ofNat 64 v)).next) hi (by simp [Safety.loaded]) ?run]
    · exact State.issueThr_writesGeneral rd (fun _ => BitVec.ofNat 64 v) hs hi (by simp [Safety.loaded])
    case legal =>
      show ((0 : BitVec 5) == 0#5 && (0 : BitVec 4) == 0#4 && decide (xf.toNat ≤ 0x0B)) = true
      simpa using hxf
    case run => simp only [hk', hval']
  · have hlegal := (philoxLegal_iff x).mpr ⟨h3, h4⟩
    refine ⟨_, rfl, ?_⟩
    rw [doPhilox, State.issue_eq_issueThr (f := fun t => (t.setV rd (philoxVec (s.descOf k.home k.wu.asn).seed
      (match k.wu.step with | .context => 0xFFFFFFFF | .step n => n) k.wu.stage x)).next) hi hl ?run]
    · exact State.issueThr_writesVector rd (fun _ => _) hs hi hl
    case run =>
      simp only [hx, hlegal, hk', Frame.descOf_of_outside (hout _)]
      rfl
  · have hillegal : philoxLegal x = false := by
      rw [Bool.eq_false_iff, ne_eq, philoxLegal_iff]
      exact fun ⟨h3, h44⟩ => h.elim (· h3) (· h44)
    exact congrArg _ (State.issue_done hi hl (by simp only [hx, hillegal]; rfl))

/-! ## Mailboxes (R147) -/

/-- The state has its bays and their threads. -/
def State.HasThreads (s : State) : Prop := s.bays.length = 80 ∧ ∀ b, (s.bay b).threads.length = 128

theorem Safety.hasThreads_of_shaped {s : State} (hs : Safety.shaped s) : s.HasThreads := ⟨hs.1, fun b => (Safety.shaped_bay hs b).1⟩

theorem State.hasThreads_modThr {s : State} (hs : s.HasThreads) (b : Fin 80) (t : Fin 128) (f : Thread → Thread) :
    (s.modThr b t f).HasThreads := by
  obtain ⟨hbays, hthreads⟩ := hs
  refine ⟨by simpa [State.modThr] using hbays, fun c => ?_⟩
  by_cases hc : b = c
  · subst hc
    rw [State.modThr, State.bay_modBay_same _ _ _ hbays]
    simpa [Bay.modThr] using hthreads b
  · rw [State.modThr, State.bay_modBay_other _ _ _ _ hc]
    exact hthreads c

theorem State.thr_modThr {s : State} (hs : s.HasThreads) (b c : Fin 80) (t u : Fin 128) (f : Thread → Thread) :
    (s.modThr b t f).thr c u = if c = b ∧ u = t then f (s.thr c u) else s.thr c u := by
  obtain ⟨hbays, hthreads⟩ := hs
  split
  · next h =>
    obtain ⟨rfl, rfl⟩ := h
    exact State.thr_modThr_same s c u f hbays (hthreads c)
  · next h =>
    by_cases hc : c = b
    · subst hc
      exact State.thr_modThr_other s c t u f hbays fun e => h ⟨rfl, e.symm⟩
    · exact congrArg (Bay.thr · u) (State.bay_modBay_other s b c _ (Ne.symm hc))

theorem State.startOf_thr_all {s : State} (hs : Safety.shaped s) (w : Issue) (c : Fin 80) (u : Fin 128) :
    (s.startOf w none).thr c u = if c = w.bay ∧ u = w.thread then { s.thr c u with wait := .ready } else s.thr c u :=
  State.thr_modThr (Safety.hasThreads_of_shaped hs) w.bay c w.thread u _

@[simp] theorem State.issued_thr (s : State) (w : Issue) (c : Fin 80) (u : Fin 128) : (s.issued w).thr c u = s.thr c u := by
  simp only [State.issued, State.thr, State.bay, State.countBay, State.count, State.modCnt_bays, State.modBay_bays, List.getD_eq_getElem?_getD,
    List.getElem?_modify]
  cases s.bays[c.val]? <;> by_cases h : w.bay.val = c.val <;> simp [h, Bay.thr]

theorem Frame.mboxBay_of_outside {s t : State} {w : Issue} (h : Frame.outside s t w) (task : Task) (idx : Nat) :
    t.mboxBay task idx = s.mboxBay task idx := by
  simp only [State.mboxBay, Frame.runOf_of_outside h]

/-! ## EXIT (R125) -/

theorem State.canIssue_of_exited {s : State} {w : Issue} (h : (s.thr w.bay w.thread).exited = true) : s.canIssue w = false := by
  have hturn : (s.turn w.bay (w.thread.val / 8) == some w.thread) = false := by
    rw [beq_eq_false_iff_ne]
    intro hturn
    have hready := List.find?_some hturn
    simp [State.threadReady, h] at hready
  rw [State.canIssue, hturn, Bool.and_false]

theorem Bay.thr_mem {y : Bay} (h : y.threads.length = 128) (u : Fin 128) : y.thr u ∈ y.threads := by
  have hu : u.val < y.threads.length := by rw [h]; exact u.isLt
  rw [Bay.thr, List.getD_eq_getElem?_getD, List.getElem?_eq_getElem hu]
  exact List.getElem_mem hu

theorem Bay.allExited_of_running {y : Bay} (h : y.threads.length = 128) {u : Fin 128} (hu : (y.thr u).exited = false) :
    y.allExited = false :=
  List.all_eq_false.mpr ⟨y.thr u, Bay.thr_mem h u, by simp [hu]⟩

/-- Where no output of a tile instruction awaits its consumer, what follows an EXIT leaves the bays as they were. -/
theorem State.afterExit_bays {s : State} {b : Fin 80} (h : (s.bay b).drain = none) (t : Fin 128) : (s.afterExit b t).bays = s.bays := by
  unfold State.afterExit
  split
  · rfl
  · extract_lets y
    have hy : y.drain.isSome = false := by simp [y, h]
    rw [hy, Bool.and_false]
    split
    · rfl
    · rw [if_neg Bool.false_ne_true]
      split
      · exact State.parkBay_keeps (π := State.bays) (.refl s) ..
      · rfl

/-- Settles O14. SEND and RECV run in the start state, where every thread but the sender is as it was; an EXIT changes its own thread, and
what follows it leaves the bays as they were. -/
theorem mailboxesAndExit : Obligations.MailboxesAndExit := by
  refine ⟨?_, ?_⟩
  · intro s w rd ra ord task hs hi hl hk th number dst goesOn
    have hout := State.startOf_outside hs w
    have hshape := Safety.hasThreads_of_shaped (Safety.shaped_startOf hs w none)
    have hk' : ((s.startOf w none).bay w.bay).task = some task := (Frame.task_of_outside (hout none)).trans hk
    have hbox := Frame.mboxBay_of_outside (hout none) task (number / 128)
    have hme : (s.startOf w none).thr w.bay w.thread = { th with wait := .ready } := State.startOf_thr hs w none
    have hgr : ((s.startOf w none).thr w.bay w.thread).gr ra = th.gr ra := by rw [hme]; rfl
    have hvr : ((s.startOf w none).thr w.bay w.thread).vr rd = th.vr rd := by rw [hme]; rfl
    have hexited : ∀ b u, ((s.startOf w none).thr b u).exited = (s.thr b u).exited := fun b u => by
      rw [State.startOf_thr_all hs]; split <;> rfl
    have hmbox : ∀ b u, ((s.startOf w none).thr b u).mbox = (s.thr b u).mbox := fun b u => by
      rw [State.startOf_thr_all hs]; split <;> rfl
    refine ⟨fun b hb => ⟨fun hex hlen => ?_, fun hex hlen => ?_, fun hex => ?_⟩, fun hb => ?_, fun hb => ?_, fun m rest hm => ?_,
      fun hm => ?_⟩
    · have hsend : doSend w rd ra ord s = (((s.startOf w none).modThr b dst fun t => { t with mbox := t.mbox ++ [th.vr rd] }).modThr
          w.bay w.thread Thread.next).issued w := by
        refine State.issue_done hi hl ?_
        simp only [hk', hgr, hvr]
        rw [hbox, hb]
        simp only [hexited, hmbox]
        rw [if_neg (by simpa using hex), if_neg (Nat.not_le_of_lt hlen)]
      refine ⟨_, rfl, by rw [hsend]; rfl, fun c u => ?_⟩
      rw [hsend, State.issued_thr, State.thr_modThr (State.hasThreads_modThr hshape ..), State.thr_modThr hshape, State.startOf_thr_all hs]
      by_cases hown : c = w.bay ∧ u = w.thread <;> by_cases hdst : c = b ∧ u = dst
      · simp only [if_pos hown, if_pos hdst]
        obtain ⟨rfl, rfl⟩ := hown
        rfl
      · simp only [if_pos hown, if_neg hdst]
        obtain ⟨rfl, rfl⟩ := hown
        rfl
      · simp only [if_neg hown, if_pos hdst]
      · simp only [if_neg hown, if_neg hdst]
    · refine ⟨_, rfl, State.issue_waits hi hl hs ?_⟩
      simp only [hk', hgr]
      rw [hbox, hb]
      simp only [hexited, hmbox]
      rw [if_neg (by simpa using hex), if_pos hlen]
    · refine ⟨_, rfl, State.issue_next hi hl hs ?_⟩
      simp only [hk', hgr]
      rw [hbox, hb]
      simp only [hexited]
      rw [if_pos hex]
    · refine ⟨_, rfl, State.issue_next hi hl hs ?_⟩
      simp only [hk', hgr]
      rw [hbox, hb]
    · refine congrArg _ (State.issue_done hi hl ?_)
      simp only [hk', hgr]
      rw [hbox, hb]
      rfl
    · have hrecv : ((s.startOf w (some (.v rd))).thr w.bay w.thread).mbox = m :: rest := by rw [State.startOf_thr hs]; exact hm
      have hframe := State.issueThr_spec s w [] (some (.v rd)) (fun t => ({ t with mbox := rest }.setV rd m).next) hs hi (by simp [Safety.loaded])
      have heq : doRecv w rd ra ord s = s.issueThr w true [] (some (.v rd)) fun t => ({ t with mbox := rest }.setV rd m).next := by
        refine State.issue_eq_issueThr hi (by simp [Safety.loaded]) ?_
        rw [hrecv]
      rw [← heq] at hframe
      obtain ⟨hthr, hout'⟩ := hframe
      refine ⟨_, rfl, ?_, ?_, ?_, ?_, hout'⟩
      · exact congrArg Thread.mbox hthr
      · exact (congrArg (Thread.vr · rd) hthr).trans (Thread.vr_setV_same _ _ _ (Safety.shaped_thr hs w.bay w.thread).2)
      · exact congrArg Thread.pc hthr
      · exact (congrArg (Frame.vector { th with mbox := rest } · rd) hthr).mpr (Frame.vector_setV_next { th with mbox := rest } rd m)
    · have hrecv : ((s.startOf w (some (.v rd))).thr w.bay w.thread).mbox = [] := by rw [State.startOf_thr hs]; exact hm
      obtain ⟨hthr, hout'⟩ : (doRecv w rd ra ord s).thr w.bay w.thread = { th.started (some (.v rd)) with wait := .retry .message } ∧
          Frame.outside s (doRecv w rd ra ord s) w :=
        State.issue_waits hi (by simp [Safety.loaded]) hs (by rw [hrecv])
      exact ⟨_, rfl, (congrArg Thread.wait hthr :), (congrArg Thread.pc hthr :), hout'⟩
  · intro s w ord hs hi th htile hmove hdrain
    have hout := State.startOf_outside hs w none
    have hme : (s.startOf w none).thr w.bay w.thread = { th with wait := .ready } := State.startOf_thr hs w none
    generalize hleft : (s.startOf w none).modThr w.bay w.thread (fun t => { t.next with exited := true, mbox := [] }) = left
    have hexit : doExit w 0 0 ord s = (left.afterExit w.bay w.thread).issued w := by
      refine State.issue_done hi (by simp [Safety.loaded]) ?_
      simp only [hme, htile, hmove, hleft]
    have hshape := Safety.shaped_startOf hs w none
    obtain ⟨houtLeft, hthrLeft⟩ := hleft ▸ Frame.outside_modThr s _ w (fun t : Thread => { t.next with exited := true, mbox := [] }) hshape.1
      (Safety.shaped_bay hshape w.bay).1 hout
    have hthreads := hleft ▸ State.hasThreads_modThr (Safety.hasThreads_of_shaped hshape) w.bay w.thread
      (fun t : Thread => { t.next with exited := true, mbox := [] })
    have hdrainLeft : (left.bay w.bay).drain = none := by
      obtain ⟨-, -, -, hbay, -⟩ := houtLeft
      rw [hbay]
      exact hdrain
    have hthr : ((left.afterExit w.bay w.thread).issued w).thr w.bay w.thread =
        { th with pc := th.pc + 4, wait := .ready, exited := true, mbox := [] } := by
      rw [State.issued_thr, State.thr, State.bay, State.afterExit_bays hdrainLeft w.thread, ← State.bay, ← State.thr, hthrLeft, hme]
      rfl
    refine ⟨_, rfl, ?_, ?_, fun ⟨u, hu, hrun⟩ => ?_⟩
    · rw [hexit, hthr]
    · rw [hexit]
      exact State.canIssue_of_exited (by rw [hthr])
    · have hrun' : (left.bay w.bay).allExited = false :=
        Bay.allExited_of_running (u := u) (hthreads.2 w.bay) ((congrArg Thread.exited (Frame.thr_of_outside houtLeft fun e => hu e.2)).trans hrun)
      have hsame : left.afterExit w.bay w.thread = left := by
        unfold State.afterExit
        split
        · rfl
        · simp only [hrun', Bool.not_false, if_true]
      rw [hexit, hsame]
      exact (Frame.outside_issued s left w hthreads.1 houtLeft).1

end Sys2Proof.Machine
end

section
/-! Fences and barriers (05, R138, R140, R145, R146, Table 5.8): what a release does with an empty store buffer, and what an arrival does. -/
namespace Sys2Proof.Machine
open Sys2Proof

/-! ## Changes that change nothing -/

theorem List.modify_eq_self {α : Type} {f : α → α} {l : List α} {i : Nat} (h : ∀ x, l[i]? = some x → f x = x) : l.modify i f = l :=
  (List.modify_congr_at (g := id) h).trans (List.modify_id ..)

theorem State.modBay_eq_self {s : State} {b : Fin 80} {f : Bay → Bay} (h : f (s.bay b) = s.bay b) : s.modBay b f = s := by
  have hbays : s.bays.modify b f = s.bays := List.modify_eq_self fun y hy => by
    simpa [State.bay, List.getD, hy] using h
  rw [State.modBay, hbays]

theorem State.modThr_eq_self {s : State} {b : Fin 80} {t : Fin 128} {f : Thread → Thread} (h : f (s.thr b t) = s.thr b t) :
    s.modThr b t f = s := by
  refine State.modBay_eq_self ?_
  have hthreads : (s.bay b).threads.modify t f = (s.bay b).threads := List.modify_eq_self fun u hu => by
    simpa [State.thr, Bay.thr, List.getD, hu] using h
  rw [Bay.modThr, hthreads]

theorem Thread.drop_empty_buf {th : Thread} (h : th.buf = []) : { th with buf := [] } = th := by
  cases th
  simpa using h.symm

theorem Bay.drop_empty_shared {y : Bay} (h : y.shared = []) : { y with shared := [] } = y := by
  cases y
  simpa using h.symm

/-! ## Releases with nothing to drain (R138 to R140) -/

section
variable {s : State} {w : Issue} (hbuf : (s.thr w.bay w.thread).buf = []) (hshared : (s.bay w.bay).shared = [])
include hbuf

theorem State.drainBay_of_empty : s.drainBay w.bay w.thread = s := by
  unfold State.drainBay
  rw [hbuf]
  exact State.modThr_eq_self (Thread.drop_empty_buf hbuf)

include hshared

theorem State.drainAll_of_empty : s.drainAll w.bay w.thread = s := by
  unfold State.drainAll
  rw [hbuf, hshared]
  have hbay : s.modBay w.bay (fun y => { y with shared := [] }) = s := State.modBay_eq_self (Bay.drop_empty_shared hshared)
  exact (congrArg (State.modThr · w.bay w.thread fun th => { th with buf := [] }) hbay).trans
    (State.modThr_eq_self (Thread.drop_empty_buf hbuf))

theorem State.release_of_empty (scope : Scope) (go : State → Ran) : s.release w scope go =
    if s.outstandingAcc scope w.bay w.thread then .wait s (.accesses scope) else go s := by
  simp only [State.release, State.drainBay_of_empty hbuf, State.drainAll_of_empty hbuf hshared, ite_self]
end

/-! ## Accesses outstanding in the start state -/

theorem Purpose.ofThread_unload (w : Issue) (k : Bool × Nat) (p : Purpose) (scope : Scope) (b : Fin 80) (t : Fin 128) :
    (p.unload w k).ofThread scope b t = p.ofThread scope b t := by
  unfold Purpose.unload
  split
  · split <;> rfl
  · rfl

theorem State.outstandingAcc_startOf (s : State) (w : Issue) (write : Option RegName) (scope : Scope) (b : Fin 80) (t : Fin 128) :
    (s.startOf w write).outstandingAcc scope b t = s.outstandingAcc scope b t := by
  cases write with
  | none => rfl
  | some r =>
    simp only [State.startOf, State.forgetLoads]
    split
    · rfl
    · simp [State.outstandingAcc, State.modThr, State.modNet, Net.unload, List.any_map, Function.comp_def, Purpose.ofThread_unload]

theorem Purpose.ofThread_fabric {p : Purpose} {scope : Scope} {b : Fin 80} {t : Fin 128} (h : p.ofThread scope b t = true) :
    p.ofThread .fabric b t = true := by
  cases p <;> simp_all [Purpose.ofThread]

/-- What is outstanding for a narrower scope is outstanding for the fabric's. -/
theorem State.outstandingAcc_of_fabric {s : State} {b : Fin 80} {t : Fin 128} (h : s.outstandingAcc .fabric b t = false) (scope : Scope) :
    s.outstandingAcc scope b t = false := by
  rw [State.outstandingAcc, Bool.or_eq_false_iff, List.any_eq_false, List.any_eq_false] at h ⊢
  exact ⟨fun x hx hp => h.1 x hx (Purpose.ofThread_fabric hp), fun x hx hp => h.2 x hx (Purpose.ofThread_fabric hp)⟩

theorem Frame.shared_of_outside {s t : State} {w : Issue} (h : Frame.outside s t w) : (t.bay w.bay).shared = (s.bay w.bay).shared := by
  obtain ⟨-, -, -, hbay, -⟩ := h
  rw [hbay]

/-! ## Emptied buffers -/

theorem Bay.thr_reset (t : Fin 128) : Bay.reset.thr t = Thread.reset := by
  simp only [Bay.thr, Bay.reset, List.getD_eq_getElem?_getD, List.getElem?_replicate]
  split <;> rfl

theorem State.buf_modThr {s : State} {b : Fin 80} {t : Fin 128} {f : Thread → Thread} (h : (f (s.thr b t)).buf = []) :
    ((s.modThr b t f).thr b t).buf = [] := by
  simp only [State.thr, State.bay, State.modThr, State.modBay_bays, List.getD_eq_getElem?_getD, List.getElem?_modify] at h ⊢
  cases hb : s.bays[b.val]? with
  | none => exact congrArg Thread.buf (Bay.thr_reset t)
  | some y =>
    simp [Bay.modThr, Bay.thr, List.getD_eq_getElem?_getD, hb] at h ⊢
    cases hy : y.threads[t.val]? with
    | none => simp; rfl
    | some th => simpa [hy] using h

theorem State.drainBay_buf (s : State) (b : Fin 80) (t : Fin 128) : ((s.drainBay b t).thr b t).buf = [] := State.buf_modThr rfl
theorem State.drainAll_buf (s : State) (b : Fin 80) (t : Fin 128) : ((s.drainAll b t).thr b t).buf = [] := State.buf_modThr rfl

theorem Frame.outside_countBay {s t : State} {w : Issue} (h : Frame.outside s t w) (b : Fin 80) (e k : Nat) :
    Frame.outside s (t.countBay b e k) w := by
  obtain ⟨h1, h2, h3, h4, h5, h6, h7, h8⟩ := h
  refine ⟨?_, h2, h3, h4, ?_, h6, h7, h8⟩
  · rw [h1]; rfl
  · have e5 : (t.countBay b e k).cnt = { t.cnt with values := (t.countBay b e k).cnt.values } := rfl
    rw [e5, h5]

/-! ## Fences -/

theorem State.issueFence_buf {s : State} {w : Issue} (hi : Safety.issues s w) (scope : Scope) :
    ((s.issueFence w scope 0 0 0).thr w.bay w.thread).buf = [] := by
  have hdrained : ∀ u : State, ((if scope = .bay then u.drainBay w.bay w.thread else u.drainAll w.bay w.thread).thr w.bay w.thread).buf = [] := by
    intro u
    split
    · exact State.drainBay_buf u ..
    · exact State.drainAll_buf u ..
  have hnil : Safety.loaded s w [] := by simp [Safety.loaded]
  refine (congrArg (fun t : State => (t.thr w.bay w.thread).buf) (State.issue_runs s w [] none _ hi hnil)).trans ?_
  have hd := hdrained (s.startOf w none)
  simp only [State.release]
  generalize (if scope = .bay then (s.startOf w none).drainBay w.bay w.thread else (s.startOf w none).drainAll w.bay w.thread) = d at hd ⊢
  split
  · next t ht =>
    split at ht
    · nomatch ht
    · cases ht
      rw [State.issued_thr]
      exact State.buf_modThr (f := Thread.next) hd
  · next t on ht =>
    split at ht
    · cases ht
      exact State.buf_modThr hd
    · nomatch ht

/-- A fence with nothing to drain goes on at once, or waits for what is outstanding. -/
theorem State.issueFence_of_empty {s : State} {w : Issue} (hs : Safety.shaped s) (hi : Safety.issues s w)
    (hbuf : (s.thr w.bay w.thread).buf = []) (hshared : (s.bay w.bay).shared = []) (scope : Scope) :
    let th := s.thr w.bay w.thread
    let t := s.issueFence w scope 0 0 0
    (s.outstandingAcc scope w.bay w.thread = false →
      t.thr w.bay w.thread = { th with pc := th.pc + 4, wait := .ready } ∧ Frame.outside s t w) ∧
    (s.outstandingAcc scope w.bay w.thread = true →
      t.thr w.bay w.thread = { th with wait := .retry (.accesses scope) } ∧ Frame.outside s t w) := by
  have hout := State.startOf_outside hs w none
  have hbuf' : ((s.startOf w none).thr w.bay w.thread).buf = [] := by rw [State.startOf_thr hs]; exact hbuf
  have hrelease := State.release_of_empty hbuf' ((Frame.shared_of_outside hout).trans hshared) scope
  rw [State.outstandingAcc_startOf] at hrelease
  have hnil : Safety.loaded s w [] := by simp [Safety.loaded]
  refine ⟨fun hacc => ?_, fun hacc => State.issue_waits hi hnil hs ?_⟩
  · have heq : s.issueFence w scope 0 0 0 =
        (((s.startOf w none).modThr w.bay w.thread Thread.next).countBay w.bay 6 1).issued w := by
      refine State.issue_done hi hnil ?_
      rw [hrelease, if_neg (by simp [hacc])]
    have hshape := Safety.shaped_startOf hs w none
    obtain ⟨hout', hthr⟩ := Frame.outside_modThr s _ w Thread.next hshape.1 (Safety.shaped_bay hshape w.bay).1 hout
    have hbays := (State.hasThreads_modThr (Safety.hasThreads_of_shaped hshape) w.bay w.thread Thread.next).1
    rw [heq, State.issued_thr]
    exact ⟨hthr.trans (by rw [State.startOf_thr hs]; rfl), (Frame.outside_issued s (((s.startOf w none).modThr w.bay w.thread Thread.next).countBay
      w.bay 6 1) w hbays (Frame.outside_countBay hout' ..)).1⟩
  · rw [hrelease, if_pos hacc]

/-! ## Barriers (R145, R146) -/

/-- An arrival changes of its thread what `f` says, and no memory. -/
def Arrives (w : Issue) (f : Thread → Thread) (s t : State) : Prop :=
  t.thr w.bay w.thread = f (s.thr w.bay w.thread) ∧ t.mem = s.mem

/-- A thread that its barrier lets go on. -/
def Thread.passed (t : Thread) : Thread := { t.next with wait := .ready }
/-- A thread that waits at its barrier. -/
def Thread.parked (t : Thread) : Thread := { t with wait := .barrier }

theorem Thread.passed_parked (t : Thread) : t.parked.passed = t.passed := rfl

theorem State.thr_modBay (s : State) (b : Fin 80) {f : Bay → Bay} (hf : ∀ y, (f y).threads = y.threads) (c : Fin 80) (u : Fin 128) :
    (s.modBay b f).thr c u = s.thr c u := by
  simp only [State.thr, State.bay, State.modBay_bays, List.getD_eq_getElem?_getD, List.getElem?_modify]
  cases s.bays[c.val]? <;> by_cases h : b.val = c.val <;> simp [h, Bay.thr, hf]

theorem State.hasThreads_modBay {s : State} (hs : s.HasThreads) (b : Fin 80) {f : Bay → Bay} (hf : ∀ y, (f y).threads = y.threads) :
    (s.modBay b f).HasThreads := by
  obtain ⟨hbays, hthreads⟩ := hs
  refine ⟨by simpa using hbays, fun c => ?_⟩
  by_cases hc : b = c
  · subst hc
    rw [State.bay_modBay_same _ _ _ hbays, hf]
    exact hthreads b
  · rw [State.bay_modBay_other _ _ _ _ hc]
    exact hthreads c

section
variable {s : State} (hs : s.HasThreads) (w : Issue) (task : Task) (slot count : Nat)
include hs

theorem State.wake_arrives : Arrives w Thread.passed s (s.wake (w.bay, w.thread)) :=
  ⟨State.thr_modThr_same s w.bay w.thread _ hs.1 (hs.2 w.bay), rfl⟩

theorem State.park_arrives : Arrives w Thread.parked s (s.park (w.bay, w.thread)) :=
  ⟨State.thr_modThr_same s w.bay w.thread _ hs.1 (hs.2 w.bay), rfl⟩

theorem State.arriveBay_idle (hidle : (s.bay w.bay).barriers.getD slot none = none) :
    Arrives w (if count ≤ 1 then Thread.passed else Thread.parked) s (s.arriveBay w.bay w.thread slot count) := by
  have hthr := fun x => State.thr_modBay s w.bay (f := fun y => { y with barriers := y.barriers.set slot x }) (fun _ => rfl) w.bay w.thread
  have hmod := fun x => State.hasThreads_modBay hs w.bay (f := fun y => { y with barriers := y.barriers.set slot x }) fun _ => rfl
  simp only [State.arriveBay, hidle, Barrier.arrive, Barrier.full, decide_eq_true_eq]
  split
  · obtain ⟨h, hmem⟩ := State.wake_arrives (hmod none) w
    exact ⟨h.trans (by rw [hthr]), hmem⟩
  · obtain ⟨h, hmem⟩ := State.park_arrives (hmod (some { count := count, arrived := 1, waiting := [(w.bay, w.thread)] })) w
    exact ⟨h.trans (by rw [hthr]), hmem⟩

theorem State.arriveNode_idle (hidle : s.nodeBar task slot = none) :
    Arrives w (if count ≤ 1 then Thread.passed else Thread.parked) s (s.arriveNode task w.bay w.thread slot count) := by
  simp only [State.arriveNode, hidle, Barrier.arrive, Barrier.full, decide_eq_true_eq]
  split
  · exact State.wake_arrives (s := s.modBars _) hs w
  · exact State.park_arrives (s := s.modBars _) hs w

omit hs in
theorem State.fabricBar_setFabricBar (s : State) (f : FabricBar) : (s.setFabricBar f).fabricBar f.home f.asn f.slot = f := by
  have hfind : (s.setFabricBar f).bars.fabric.find? (fun x => x.home == f.home && x.asn == f.asn && x.slot == f.slot) = some f := by
    simp only [State.setFabricBar, State.modBars_bars, List.find?_append]
    rw [List.find?_eq_none.mpr]
    · simp
    · intro x hx
      have := (List.mem_filter.mp hx).2
      simp at this ⊢
      grind
  rw [State.fabricBar, hfind, Option.getD_some]

/-- A generation of count 1 completes with the one arrival of this node, and none begins. -/
theorem State.settleFabric_single {f : FabricBar} (hbar : f.bar = { count := 1, arrived := 1, waiting := [(w.bay, w.thread)] })
    (hnode : f.byNode = [(s.net.nodeId, 1)]) :
    Arrives w Thread.passed s (s.settleFabric f s.net.nodeId 2) := by
  have hstep : s.settleFabric f s.net.nodeId 2 = (s.releaseFabric f 1 []).settleFabric
      ((s.releaseFabric f 1 []).fabricBar f.home f.asn f.slot) s.net.nodeId 1 := by
    rw [State.settleFabric]
    simp [hbar, hnode, keySet, keyGet]
  have hrelease : s.releaseFabric f 1 [] = (s.wake (w.bay, w.thread)).setFabricBar
      { f with generation := f.generation + 1, bar := { count := 0, arrived := 0, waiting := [] }, byNode := [] } := by
    simp [State.releaseFabric, hbar, State.each]
  rw [hstep, hrelease, State.fabricBar_setFabricBar, State.settleFabric, if_pos (by simp)]
  exact State.wake_arrives hs w

theorem State.arriveFabric_idle (hhome : task.home = s.net.nodeId) (h0 : count ≠ 0)
    (hidle : let f := s.fabricBar task.home task.wu.asn slot
      f.bar.waiting = [] ∧ f.bar.arrived = 0 ∧ f.byNode = []) :
    Arrives w (if count ≤ 1 then Thread.passed else Thread.parked) s (s.arriveFabric task w.bay w.thread slot count) := by
  obtain ⟨hwaiting, harrived, hnode⟩ := hidle
  have hpark := State.park_arrives hs w
  simp only [State.arriveFabric, hwaiting, harrived, List.nil_append, Nat.zero_add, FabricBar.addArrivals, hnode]
  rw [if_pos (show task.home = (s.park (w.bay, w.thread)).net.nodeId from hhome)]
  generalize hpk : s.park (w.bay, w.thread) = s1 at hpark ⊢
  have hbyNode : keySet [] s1.net.nodeId (keyGet [] s1.net.nodeId + 1) = [(s1.net.nodeId, 1)] := rfl
  have hs1 : s1.HasThreads := hpk ▸ State.hasThreads_modThr hs ..
  simp only [hbyNode]
  split
  · next h1 =>
    obtain rfl : count = 1 := by omega
    obtain ⟨hthr, hmem⟩ := State.settleFabric_single (s := s1) hs1 w
      (f := { s.fabricBar task.home task.wu.asn slot with bar := { count := 1, arrived := 1, waiting := [(w.bay, w.thread)] },
                                                          byNode := [(s1.net.nodeId, 1)] }) rfl rfl
    obtain ⟨hthr1, hmem1⟩ := hpark
    exact ⟨by rw [hthr, hthr1, Thread.passed_parked], hmem.trans hmem1⟩
  · next h1 =>
    rw [State.settleFabric, if_pos (by simp; omega)]
    exact hpark
end

section
variable {s : State} {w : Issue} {rd ra : BitVec 5} {task : Task} {scope : Scope} {slots maxCount : Nat} {cur : State → Task → Nat → Option Nat}
  {arrive : State → Task → Nat → Nat → State} (hs : Safety.shaped s) (hi : Safety.issues s w) (hl : Safety.loaded s w [.g ra, .g rd])
  (hk : (s.bay w.bay).task = some task) {slot count : Nat} (hslot : slot = ((s.thr w.bay w.thread).gr ra).toNat)
  (hcount : count = ((s.thr w.bay w.thread).gr rd).toNat)
include hs hi hl hk hslot hcount

/-- A barrier instruction with a count or a slot that its scope does not have, or a count other than that of the generation. -/
theorem State.issueBar_raises
    (hbad : count = 0 ∨ maxCount < count ∨ slots ≤ slot ∨ ∃ k, cur (s.startOf w none) task slot = some k ∧ k ≠ count) :
    s.issueBar w scope rd ra 0 slots maxCount cur arrive =
      ((s.modThr w.bay w.thread fun t => { t with wait := .ready }).except w.bay w.thread 0x31 0x0509 0).issued w := by
  refine State.issue_done hi hl ?_
  have hk' := (Frame.task_of_outside (State.startOf_outside hs w none)).trans hk
  have hgr : ∀ n, ((s.startOf w none).thr w.bay w.thread).gr n = (s.thr w.bay w.thread).gr n := fun n => by
    rw [State.startOf_thr hs, Thread.started_gr]
  simp only [hk', hgr, ← hslot, ← hcount]
  rw [if_pos]
  · rfl
  · rcases hbad with h | h | h | ⟨k, hcur, hne⟩
    · simp [h]
    · simp [h]
    · simp [h]
    · simp [hcur, hne]

/-- A barrier instruction that is accepted, with nothing to drain and nothing outstanding, arrives. -/
theorem State.issueBar_arrives (hbuf : (s.thr w.bay w.thread).buf = []) (hshared : (s.bay w.bay).shared = [])
    (hacc : s.outstandingAcc .fabric w.bay w.thread = false) (h0 : count ≠ 0) (hmax : count ≤ maxCount) (hslots : slot < slots)
    (hcur : cur (s.startOf w none) task slot = none) {f : Thread → Thread}
    (harrive : Arrives w f (s.startOf w none) (arrive (s.startOf w none) task slot count)) :
    let t := s.issueBar w scope rd ra 0 slots maxCount cur arrive
    t.thr w.bay w.thread = f { s.thr w.bay w.thread with wait := .ready } ∧ t.mem = s.mem := by
  intro t
  have hout := State.startOf_outside hs w none
  have ht : t = ((arrive (s.startOf w none) task slot count).countBay w.bay 7 1).issued w := by
    refine State.issue_done hi hl ?_
    have hk' := (Frame.task_of_outside hout).trans hk
    have hgr : ∀ n, ((s.startOf w none).thr w.bay w.thread).gr n = (s.thr w.bay w.thread).gr n := fun n => by
      rw [State.startOf_thr hs, Thread.started_gr]
    have hbuf' : ((s.startOf w none).thr w.bay w.thread).buf = [] := by rw [State.startOf_thr hs]; exact hbuf
    have hacc' := State.outstandingAcc_of_fabric ((State.outstandingAcc_startOf s w none .fabric w.bay w.thread).trans hacc) scope
    simp only [hk', hgr, ← hslot, ← hcount]
    rw [if_neg, State.release_of_empty hbuf' ((Frame.shared_of_outside hout).trans hshared), if_neg (by simp [hacc'])]
    simp [hcur, h0, Nat.not_lt_of_le hmax, hslots]
  obtain ⟨hthr, hmem⟩ := harrive
  rw [ht, State.issued_thr]
  exact ⟨hthr.trans (by rw [State.startOf_thr hs]; rfl), hmem.trans (Frame.mem_of_outside hout)⟩
end

/-- Settles O12. A fence is a release; a barrier that is accepted arrives at its slot, and an arrival at an idle slot passes with count 1
and is parked otherwise. -/
theorem fencesAndBarriers : Obligations.FencesAndBarriers := by
  refine ⟨?_, ?_⟩
  · intro s w hs hi th i hmem
    have hfence : exec i.1 s = .next (s.issueFence w i.2 0 0 0) := by
      simp only [List.mem_cons, List.not_mem_nil, or_false] at hmem
      rcases hmem with rfl | rfl | rfl <;> rfl
    refine ⟨_, hfence, State.issueFence_buf hi i.2, fun hbuf hshared => ?_, fun hbuf hshared => ?_⟩
    · exact (State.issueFence_of_empty hs hi hbuf hshared i.2).1
    · exact (State.issueFence_of_empty hs hi hbuf hshared i.2).2
  · intro s w rd ra task hs hi hl hk hhome th slot count hbuf hshared hacc fab c hc
    have hout := State.startOf_outside hs w none
    have hthreads := Safety.hasThreads_of_shaped (Safety.shaped_startOf hs w none)
    have hhome' : task.home = (s.startOf w none).net.nodeId := hhome.trans (Frame.nodeId_of_outside hout).symm
    have hbarriers : ((s.startOf w none).bay w.bay).barriers = (s.bay w.bay).barriers := by
      obtain ⟨-, -, -, hbay, -⟩ := hout
      rw [hbay]
    have hnode : (s.startOf w none).nodeBar task slot = s.nodeBar task slot := rfl
    have hfabric : (s.startOf w none).fabricBar task.home task.wu.asn slot = fab := rfl
    have hbar : ∃ scope slots maxCount cur arrive, exec c.1 s = .next (s.issueBar w scope rd ra 0 slots maxCount cur arrive) ∧
        slots = c.2.1 ∧ maxCount = c.2.2.1 ∧ 1 ≤ maxCount ∧ cur (s.startOf w none) task slot = c.2.2.2.1 ∧
        (c.2.2.2.1 = none → c.2.2.2.2 = true → count ≠ 0 → Arrives w (if count ≤ 1 then Thread.passed else Thread.parked) (s.startOf w none)
          (arrive (s.startOf w none) task slot count)) := by
      simp only [List.mem_cons, List.not_mem_nil, or_false] at hc
      rcases hc with rfl | rfl | rfl
      · refine ⟨_, _, _, _, _, rfl, rfl, rfl, by decide, ?_, fun hidle _ _ => State.arriveBay_idle hthreads w slot count ?_⟩
        · simp only [hbarriers]
        · rw [hbarriers]
          exact Option.map_eq_none_iff.mp hidle
      · refine ⟨_, _, _, _, _, rfl, rfl, rfl, by decide, ?_, fun hidle _ _ => State.arriveNode_idle hthreads w task slot count ?_⟩
        · simp only [hnode]
        · rw [hnode]
          exact Option.map_eq_none_iff.mp hidle
      · refine ⟨_, _, _, _, _, rfl, rfl, rfl, by decide, ?_, fun _ hidle h0 => State.arriveFabric_idle hthreads w task slot count hhome' h0 ?_⟩
        · simp only [hfabric]
        · rw [hfabric]
          exact of_decide_eq_true hidle
    obtain ⟨scope, slots, maxCount, cur, arrive, hexec, rfl, rfl, hmax1, hcur, harrive⟩ := hbar
    intro idle
    refine ⟨fun hidle hslot h1 => ?_, fun hidle hslot h1 hmax => ?_, fun hbad => ?_⟩
    · obtain ⟨hthr, hmem⟩ := State.issueBar_arrives (slot := slot) (count := count) (scope := scope) hs hi hl hk rfl rfl hbuf hshared hacc
        (by omega) (h1 ▸ hmax1) hslot (hcur.trans hidle.1) (harrive hidle.1 hidle.2 (by omega))
      exact ⟨_, hexec, hthr.trans (by rw [if_pos (by omega)]; rfl), hmem⟩
    · obtain ⟨hthr, hmem⟩ := State.issueBar_arrives (slot := slot) (count := count) (scope := scope) hs hi hl hk rfl rfl hbuf hshared hacc
        (by omega) hmax hslot (hcur.trans hidle.1) (harrive hidle.1 hidle.2 (by omega))
      exact ⟨_, hexec, hthr.trans (by rw [if_neg (by omega)]; rfl), hmem⟩
    · rw [hexec, State.issueBar_raises (slot := slot) (count := count) hs hi hl hk rfl rfl]
      rwa [hcur]

end Sys2Proof.Machine
end

section
/-! Descriptors and waits for tags (05, R126, R141, R153, R157, R243, R247). -/
namespace Sys2Proof.Machine
open Sys2Proof

/-! ## Targets in the start state -/

theorem State.target_congr {s : State} {bays : List Bay} {cnt : Cnt} {net : Net}
    (htask : ∀ b, (({ s with bays := bays, cnt := cnt, net := net } : State).bay b).task = (s.bay b).task)
    (hnode : net.nodeId = s.net.nodeId) (hmembers : net.members = s.net.members) (b : Fin 80) (k : AccKind) (addr : Word) (n : Nat) :
    ({ s with bays := bays, cnt := cnt, net := net } : State).target b k addr n = s.target b k addr n := by
  simp only [State.target, State.targetNode, State.targetHere, State.targetThere, State.t0Allowed, State.formationOf, State.remoteGranted,
    htask, hnode, hmembers]
  rfl

theorem Frame.tasks_of_outside {s t : State} {w : Issue} (h : Frame.outside s t w) (b : Fin 80) : (t.bay b).task = (s.bay b).task := by
  by_cases hb : b = w.bay
  · rw [hb]
    exact Frame.task_of_outside h
  · obtain ⟨-, hbays, -⟩ := h
    rw [hbays b hb]

theorem Frame.target_of_outside {s t : State} {w : Issue} (h : Frame.outside s t w) (b : Fin 80) (k : AccKind) (addr : Word) (n : Nat) :
    t.target b k addr n = s.target b k addr n := by
  have htask := Frame.tasks_of_outside h
  have hnode := Frame.nodeId_of_outside h
  have hmembers : t.net.members = s.net.members := by
    obtain ⟨-, -, -, -, -, hnet, -⟩ := h
    rw [hnet]
  obtain ⟨hs, -⟩ := h
  generalize t.bays = bays at hs
  generalize t.cnt = cnt at hs
  generalize hnet : t.net = net at hs hnode hmembers
  subst hs
  exact State.target_congr htask hnode hmembers b k addr n

/-! ## Reads of clean memory -/

/-- No line of a range holds a corrected error: a read of it only counts. -/
theorem State.meet_of_clean {s : State} {a n : Nat} (hok : s.readEnd a n = .ok) (hce : ∀ l ∈ s.mem.ceLines, l + 64 ≤ a ∨ a + n ≤ l) :
    s.meet a n = s.countAccess false a n := by
  have hhit : (s.mem.ceLines.filter fun l => decide (l < a + n) && decide (a < l + 64)) = [] := by
    rw [List.filter_eq_nil_iff]
    intro l hl
    have := hce l hl
    simp only [Bool.and_eq_true, decide_eq_true_eq]
    omega
  have hok' : (s.countAccess false a n).readEnd a n = .ok :=
    (State.countAccess_keeps (π := fun s => s.readEnd a n) (.refl s) ..).eq.trans hok
  unfold State.meet State.noteRead
  rw [hhit]
  simp only [State.each, List.foldl_nil, hok']

theorem State.countAccess_eq (s : State) (write : Bool) (a n : Nat) :
    s.countAccess write a n = { s with cnt := (s.countAccess write a n).cnt } :=
  congrArg (fun t : State => { t with cnt := (s.countAccess write a n).cnt })
    (State.countAccess_keeps (π := fun t => { t with cnt := s.cnt }) (.refl s) ..).eq

/-! ## TISSUE and MQ (R153, R243) -/

theorem State.bay_issued {s : State} (h : s.bays.length = 80) (w : Issue) :
    (s.issued w).bay w.bay = { s.bay w.bay with rr := (s.bay w.bay).rr.set (w.thread.val / 8) (w.thread.val % 8) } :=
  State.bay_modBay_same s w.bay (fun y => { y with rr := y.rr.set (w.thread.val / 8) (w.thread.val % 8) }) h

theorem State.modBay_modBay (s : State) (b : Fin 80) (f g : Bay → Bay) : (s.modBay b f).modBay b g = s.modBay b fun y => g (f y) := by
  simp only [State.modBay, List.modify_modify_eq]
  rfl

/-- An entry at the back of the array's queue. -/
def Bay.queueTile (y : Bay) (e : QEntry) : Bay := { y with tileQueue := y.tileQueue ++ [e], tileIssued := e.tag }

/-- An entry at the back of a mover's queue. -/
def Bay.queueMove (y : Bay) (m : Fin 2) (e : QEntry) : Bay :=
  { y with movers := y.movers.modify m.val fun q => { q with queue := q.queue ++ [e] }, moveIssued := e.tag }

theorem Bay.mover_queueMove (y : Bay) (h : y.movers.length = 2) (m : Fin 2) (e : QEntry) :
    (y.queueMove m e).mover m = { y.mover m with queue := (y.mover m).queue ++ [e] } := by
  have hm : m.val < y.movers.length := by omega
  simp [Bay.mover, Bay.queueMove, List.getD_eq_getElem?_getD, hm]

/-- An instruction that queues an entry in its bay and writes its tag to g[RD]. -/
theorem State.queued_spec {s u : State} {w : Issue} {rd : BitVec 5} (hs : Safety.shaped s) (hu : u = s.startOf w (some (.g rd))) (a : Nat)
    {f : Bay → Bay} (hf : ∀ y, (f y).threads = y.threads) (v : Word) :
    let t := (((u.countAccess false a 64).modBay w.bay f).modThr w.bay w.thread fun t => (t.setG rd v).next).issued w
    t.bay w.bay = { f (u.bay w.bay) with threads := (t.bay w.bay).threads, rr := (t.bay w.bay).rr } ∧
      (t.thr w.bay w.thread).pc = (s.thr w.bay w.thread).pc + 4 ∧ (t.thr w.bay w.thread).gr rd = (if rd = 0 then 0 else v) ∧
      Frame.general (s.thr w.bay w.thread) (t.thr w.bay w.thread) rd ∧ t.mem = s.mem := by
  intro t
  have hshape := hu ▸ Safety.shaped_startOf hs w (some (.g rd))
  have hcount := State.countAccess_eq u false a 64
  generalize hc : u.countAccess false a 64 = c at hcount
  have hthreads : c.HasThreads := hcount ▸ Safety.hasThreads_of_shaped hshape
  have hthreads' := State.hasThreads_modBay hthreads w.bay hf
  have hthr : t.thr w.bay w.thread = (((s.thr w.bay w.thread).started (some (.g rd))).setG rd v).next := by
    have hcthr : c.thr w.bay w.thread = (s.thr w.bay w.thread).started (some (.g rd)) := by
      rw [hcount]
      exact (congrArg (fun x : State => x.thr w.bay w.thread) hu).trans (State.startOf_thr hs w _)
    simp only [t, hc]
    rw [State.issued_thr, State.thr_modThr_same _ _ _ _ hthreads'.1 (hthreads'.2 _), State.thr_modBay _ _ hf, hcthr]
  refine ⟨?_, ?_, ?_, ?_, ?_⟩
  · have hbays := (State.hasThreads_modThr hthreads' w.bay w.thread fun t => (t.setG rd v).next).1
    have hbay : t.bay w.bay = _ := (congrArg (fun x : State => ((x.modBay w.bay f).modThr w.bay w.thread fun t => (t.setG rd v).next).issued w |>.bay
      w.bay) hc).trans (State.bay_issued hbays w)
    rw [State.modThr, State.bay_modBay_same _ _ _ hthreads'.1, State.bay_modBay_same _ _ _ hthreads.1] at hbay
    have hcu : c.bay w.bay = u.bay w.bay := by rw [hcount]; rfl
    rw [hbay, hcu]
    rfl
  · rw [hthr]; simp
  · rw [hthr]; exact Thread.gr_setG_same _ _ _ (Safety.shaped_thr hs w.bay w.thread).1
  · rw [hthr]; exact Frame.general_setG_next _ _ _
  · have hmem : t.mem = c.mem := by simp only [t, hc]; rfl
    have hmem' : c.mem = u.mem := by rw [hcount]
    rw [hmem, hmem', hu]
    exact Frame.mem_of_outside (State.startOf_outside hs w _)

theorem State.descTarget_of_here {s : State} {b : Fin 80} {addr : Word} {a : Nat} (h : s.target b .load addr 64 = .here a)
    (ha : a / 0x800000 = b.val) : s.descTarget b addr = .here a := by
  simp only [State.descTarget, h, ha, if_true]

/-- A descriptor in clean memory is copied. -/
theorem State.takeDesc_of_clean {s : State} {w : Issue} {addr : Word} {a : Nat} (hok : s.readEnd a 64 = .ok)
    (hce : ∀ l ∈ s.mem.ceLines, l + 64 ≤ a ∨ a + 64 ≤ l) (go : State → List Byte → State) :
    s.takeDesc w addr a go = go (s.countAccess false a 64) (s.mem.read a 64) := by
  simp only [State.takeDesc, hok, State.meet_of_clean hok hce]

section
variable {s : State} {w : Issue} {rd ra : BitVec 5} {a : Nat} (hs : Safety.shaped s) (hi : Safety.issues s w) (hl : Safety.loaded s w [.g ra])
  (hbuf : (s.thr w.bay w.thread).buf = []) (hshared : (s.bay w.bay).shared = [])
  (hacc : s.outstandingAcc .fabric w.bay w.thread = false) (htarget : s.target w.bay .load ((s.thr w.bay w.thread).gr ra) 64 = .here a)
  (ha : a / 0x800000 = w.bay.val) (hok : s.readEnd a 64 = .ok) (hce : ∀ l ∈ s.mem.ceLines, l + 64 ≤ a ∨ a + 64 ≤ l)
include hs hi hl hbuf hshared hacc htarget ha hok hce

/-- An instruction that takes the descriptor at g[RA] once earlier stores are visible, where its queue has room. -/
theorem State.issue_takes_descriptor {scope : Scope} {full : State → Prop} [∀ s, Decidable (full s)]
    (hfull : ¬ full (s.startOf w (some (.g rd))))
    (fault : State → State) (go : State → List Byte → State) :
    (s.issue w true [.g ra] (some (.g rd)) fun s =>
      let addr := (s.thr w.bay w.thread).gr ra
      s.onTarget w addr (s.descTarget w.bay addr) fun _ a =>
        if full s then .done (fault s) else s.release w scope fun s => .done (s.takeDesc w addr a go)) =
      (go ((s.startOf w (some (.g rd))).countAccess false a 64) (s.mem.read a 64)).issued w := by
  refine State.issue_done hi hl ?_
  have hout := State.startOf_outside hs w (some (.g rd))
  have hmem := Frame.mem_of_outside hout
  have hok' : (s.startOf w (some (.g rd))).readEnd a 64 = .ok := by
    obtain ⟨hcopy, -⟩ := hout
    rw [hcopy]
    exact hok
  have htarget' := (Frame.target_of_outside hout w.bay .load ((s.thr w.bay w.thread).gr ra) 64).trans htarget
  have hbuf' : ((s.startOf w (some (.g rd))).thr w.bay w.thread).buf = [] := by rw [State.startOf_thr hs]; exact hbuf
  have hacc' := State.outstandingAcc_of_fabric ((State.outstandingAcc_startOf s w (some (.g rd)) .fabric w.bay w.thread).trans hacc) scope
  have hgr : ((s.startOf w (some (.g rd))).thr w.bay w.thread).gr ra = (s.thr w.bay w.thread).gr ra := by
    rw [State.startOf_thr hs, Thread.started_gr]
  simp only [hgr, State.descTarget_of_here htarget' ha, State.onTarget]
  rw [if_neg hfull, State.release_of_empty hbuf' ((Frame.shared_of_outside hout).trans hshared), hacc',
    if_neg Bool.false_ne_true, State.takeDesc_of_clean hok' (by rwa [hmem]), hmem]
end

/-! ## Waits for tags (R157, R247) -/

section
variable (s : State) (w : Issue) {tag issued beyond : Nat} {failed : List (Nat × FaultInfo)} {open_ : Bool} {on : WaitOn}

theorem State.waitTag_beyond (h : issued < tag) :
    s.waitTag w tag none issued beyond failed open_ on = .done (s.raiseFault w.bay w.thread (tileFaultOf beyond)) := by
  simp only [State.waitTag]
  rw [if_neg (by omega), if_pos h]

variable (hissued : tag ≤ issued) (hfailed : ∀ p ∈ failed, p.1 ≠ tag)
include hissued hfailed

theorem State.waitTag_complete (h : tag = 0 ∨ open_ = false) :
    s.waitTag w tag none issued beyond failed open_ on = .done (s.modThr w.bay w.thread Thread.next) := by
  have hfind : failed.find? (fun p => p.1 == tag) = none := by simpa using hfailed
  simp only [State.waitTag, hfind]
  by_cases h0 : tag = 0
  · rw [if_pos h0]
  · rw [if_neg h0, if_neg (by omega), h.resolve_left h0, if_neg Bool.false_ne_true]

theorem State.waitTag_open (h0 : tag ≠ 0) (h : open_ = true) :
    s.waitTag w tag none issued beyond failed open_ on = .wait s on := by
  have hfind : failed.find? (fun p => p.1 == tag) = none := by simpa using hfailed
  simp only [State.waitTag, hfind]
  rw [if_neg h0, if_neg (by omega), h, if_pos rfl]
end

theorem Bay.tileOpen_iff (y : Bay) (tag : Nat) :
    y.tileOpen tag = true ↔ (∃ e ∈ y.tileQueue, e.tag = tag) ∨ ∃ r, y.running = some r ∧ r.entry.tag = tag := by
  cases h : y.running <;> simp [Bay.tileOpen, h]

theorem Bay.moveOpen_iff (y : Bay) (tag : Nat) : y.moveOpen tag = true ↔ ∃ m ∈ y.movers, ∃ e ∈ m.queue, e.tag = tag := by
  simp [Bay.moveOpen]

/-- Settles O13. TISSUE and MQ are `State.issue_takes_descriptor` with an entry put at the back of a queue; TWAIT and MWAIT are
`State.waitTag` in the start state. -/
theorem descriptorsAndTagWaits : Obligations.DescriptorsAndTagWaits := by
  refine ⟨?_, ?_⟩
  · intro s w rd ra ord a hs hi hl th y m hbuf hshared hacc htarget ha hok hce desc
    have hout := State.startOf_outside hs w (some (.g rd))
    have hbay : ∃ threads rr, (s.startOf w (some (.g rd))).bay w.bay = { y with threads := threads, rr := rr } := by
      obtain ⟨-, -, -, hbay, -⟩ := hout
      exact ⟨_, _, hbay⟩
    obtain ⟨threads, rr, hbay⟩ := hbay
    refine ⟨fun hroom => ?_, fun hroom => ?_⟩
    · have hout' : ((s.startOf w (some (.g rd))).bay w.bay).tileOut w.thread = y.tileOut w.thread := by rw [hbay]; rfl
      have htag : (((s.startOf w (some (.g rd))).countAccess false a 64).bay w.bay).tileIssued = y.tileIssued :=
        (State.countAccess_keeps (π := fun s => (s.bay w.bay).tileIssued) (.refl _) ..).eq.trans (by rw [hbay])
      have htissue : doTissue w rd ra ord s = ((((s.startOf w (some (.g rd))).countAccess false a 64).modBay w.bay (·.queueTile
          { tag := y.tileIssued + 1, thread := w.thread, desc := desc })).modThr w.bay w.thread fun t =>
            (t.setG rd (BitVec.ofNat 64 (y.tileIssued + 1))).next).issued w := by
        unfold doTissue
        rw [State.issue_takes_descriptor hs hi hl hbuf hshared hacc htarget ha hok hce (scope := .bay)
          (full := fun s => 4 ≤ (s.bay w.bay).tileOut w.thread) (by rw [hout']; omega)]
        simp only [htag]
        rfl
      obtain ⟨hq, hpc, hgr, hframe, hmem⟩ := State.queued_spec (rd := rd) hs rfl a (f := (·.queueTile
        { tag := y.tileIssued + 1, thread := w.thread, desc := desc })) (fun _ => rfl) (BitVec.ofNat 64 (y.tileIssued + 1))
      rw [← htissue, hbay] at hq
      rw [← htissue] at hpc hgr hframe hmem
      exact ⟨_, rfl, congrArg Bay.tileQueue hq, congrArg Bay.tileIssued hq, hpc, hgr, hframe, hmem⟩
    · have hout' : (((s.startOf w (some (.g rd))).bay w.bay).mover m).outOf w.thread = (y.mover m).outOf w.thread := by rw [hbay]; rfl
      have htag : (((s.startOf w (some (.g rd))).countAccess false a 64).bay w.bay).moveIssued = y.moveIssued :=
        (State.countAccess_keeps (π := fun s => (s.bay w.bay).moveIssued) (.refl _) ..).eq.trans (by rw [hbay])
      have hmq : doMq w rd ra ord s = ((((s.startOf w (some (.g rd))).countAccess false a 64).modBay w.bay (·.queueMove m
          { tag := y.moveIssued + 1, thread := w.thread, desc := desc })).modThr w.bay w.thread fun t =>
            (t.setG rd (BitVec.ofNat 64 (y.moveIssued + 1))).next).issued w := by
        unfold doMq
        rw [State.issue_takes_descriptor hs hi hl hbuf hshared hacc htarget ha hok hce (scope := .node)
          (full := fun s => 4 ≤ ((s.bay w.bay).mover m).outOf w.thread) (by rw [hout']; omega)]
        simp only [htag, State.modMover, State.modBay_modBay]
        rfl
      obtain ⟨hq, hpc, hgr, hframe, hmem⟩ := State.queued_spec (rd := rd) hs rfl a (f := (·.queueMove m
        { tag := y.moveIssued + 1, thread := w.thread, desc := desc })) (fun _ => rfl) (BitVec.ofNat 64 (y.moveIssued + 1))
      rw [← hmq, hbay] at hq
      rw [← hmq] at hpc hgr hframe hmem
      refine ⟨_, rfl, ?_, congrArg Bay.moveIssued hq, hpc, hgr, hframe, hmem⟩
      rw [hq]
      exact congrArg Mover.queue (Bay.mover_queueMove y (Safety.shaped_bay hs w.bay).2.1 m _)
  · intro s w rd ra ord hs hi hl th y tag htile hmove goesOn waits openTile openMove
    have hout := State.startOf_outside hs w none
    have hthr : (s.startOf w none).thr w.bay w.thread = { th with wait := .ready } := State.startOf_thr hs w none
    have hbay : ∃ threads rr, (s.startOf w none).bay w.bay = { y with threads := threads, rr := rr } := by
      obtain ⟨-, -, -, hbay, -⟩ := hout
      exact ⟨_, _, hbay⟩
    obtain ⟨threads, rr, hbay⟩ := hbay
    have htile' : y.tileOpen tag = true ↔ openTile := Bay.tileOpen_iff y tag
    have hmove' : y.moveOpen tag = true ↔ openMove := Bay.moveOpen_iff y tag
    have htag : (((s.startOf w none).thr w.bay w.thread).gr ra).toNat = tag := by rw [hthr]; rfl
    have htf : ((s.startOf w none).thr w.bay w.thread).tileFault = none := by rw [hthr]; exact htile
    have hmf : ((s.startOf w none).thr w.bay w.thread).moveFault = none := by rw [hthr]; exact hmove
    refine ⟨fun hissued hfailed => ⟨fun h => ⟨_, rfl, State.issue_next hi hl hs ?_⟩,
        fun h0 h => ⟨_, rfl, State.issue_waits hi hl hs ?_⟩⟩,
      fun hissued hfailed => ⟨fun h => ⟨_, rfl, State.issue_next hi hl hs ?_⟩, fun h0 h => ⟨_, rfl, State.issue_waits hi hl hs ?_⟩⟩, ?_⟩
    · dsimp only
      rw [htf, htag, hbay]
      exact State.waitTag_complete _ w hissued hfailed (h.imp_right fun hn => Bool.eq_false_iff.mpr (hn ∘ htile'.mp))
    · dsimp only
      rw [htf, htag, hbay]
      exact State.waitTag_open _ w hissued hfailed h0 (htile'.mpr h)
    · dsimp only
      rw [hmf, htag, hbay]
      exact State.waitTag_complete _ w hissued hfailed (h.imp_right fun hn => Bool.eq_false_iff.mpr (hn ∘ hmove'.mp))
    · dsimp only
      rw [hmf, htag, hbay]
      exact State.waitTag_open _ w hissued hfailed h0 (hmove'.mpr h)
    · intro raises
      refine ⟨fun h => congrArg _ (State.issue_done hi hl ?_), fun h => congrArg _ (State.issue_done hi hl ?_)⟩
      · dsimp only
        rw [htf, htag, hbay]
        exact State.waitTag_beyond _ w h
      · dsimp only
        rw [hmf, htag, hbay]
        exact State.waitTag_beyond _ w h

end Sys2Proof.Machine
end

section
/-! Loads (05, R129, R135, R137, R138, Table 5.2). -/
namespace Sys2Proof.Machine
open Sys2Proof

/-! ## Event counters -/

/-- Beside event counters, `t` is `s`. -/
def Counted (s t : State) : Prop := t = { s with cnt := t.cnt } ∧ t.cnt = { s.cnt with values := t.cnt.values }

theorem Counted.refl (s : State) : Counted s s := ⟨rfl, rfl⟩

theorem Counted.trans {s t u : State} (h : Counted s t) (h' : Counted t u) : Counted s u := by
  obtain ⟨hs, hv⟩ := h
  obtain ⟨hs', hv'⟩ := h'
  refine ⟨?_, ?_⟩
  · rw [hs', hs]
  · rw [hv', hv]

theorem State.countBay_counted (s : State) (b : Fin 80) (e k : Nat) : Counted s (s.countBay b e k) := ⟨rfl, rfl⟩

theorem State.count_counted (s : State) (i k : Nat) : Counted s (s.count i k) := ⟨rfl, rfl⟩

theorem Counted.foldl {α : Type} {f : State → α → State} (hf : ∀ s x, Counted s (f s x)) (l : List α) (s : State) :
    Counted s (l.foldl f s) := by
  induction l generalizing s with
  | nil => exact .refl s
  | cons x l ih => exact (hf s x).trans (ih _)

theorem State.countAccess_counted (s : State) (write : Bool) (a n : Nat) : Counted s (s.countAccess write a n) := by
  unfold State.countAccess
  split
  · exact (Counted.foldl (fun s _ => s.count_counted _ _) _ s).trans (State.count_counted _ _ _)
  · split
    · exact (State.count_counted s _ _).trans (State.count_counted _ _ _)
    · exact .refl s
  · exact .refl s

theorem Frame.outside_counted {s t u : State} {w : Issue} (h : Frame.outside s t w) (hu : Counted t u) : Frame.outside s u w := by
  obtain ⟨h1, h2, h3, h4, h5, h6, h7, h8⟩ := h
  obtain ⟨hs, hv⟩ := hu
  generalize u.cnt = c at hs hv
  subst hs
  refine ⟨?_, h2, h3, h4, ?_, h6, h7, h8⟩
  · rw [h1]
  · rw [hv, h5]

/-! ## Bytes of memory -/

/-- A range of a canonical memory reads as the byte of each of its addresses. -/
theorem Mem.read_eq_map_byte (m : Mem) (h : Memory.wf 0 m.cells = true) (a n : Nat) :
    m.read a n = (List.range n).map fun j => m.byte (a + j) := by
  have hrising := ((Memory.wf_iff 0 m.cells).mp h).1
  apply List.ext_getElem?
  intro i
  by_cases hi : i < n
  · have hget := Memory.read_get 0 m.cells a n i hrising hi
    simp only [BitVec.ofNat_eq_ofNat] at hget
    by_cases hfresh : m.fresh = []
    · simp [Mem.read, Mem.byte, Mem.isFresh, hfresh, hget, List.getElem?_range hi]
    · simp [Mem.read, Mem.byte, hfresh, hget, List.getElem?_range hi]
  · have hlen : (m.read a n).length = n := by
      unfold Mem.read
      split <;> simp [Memory.read_length]
    rw [List.getElem?_eq_none (by omega), List.getElem?_eq_none (by simpa using hi)]

/-! ## The bytes that a load sees -/

theorem bufRead_length (buf : List BufLine) (line off n : Nat) : (bufRead buf line off n).length = n := by
  unfold bufRead
  split <;> simp

theorem State.seenBytes_length (s : State) (w : Issue) (line off n : Nat) : (s.seenBytes w line off n).length = n := by
  simp [State.seenBytes, bufRead_length]

/-- The bytes of a load: those that lines hold, over those of memory. -/
def State.loadBytes (s : State) (w : Issue) (a n : Nat) : List Byte :=
  (List.range n).map fun j => ((s.seenBytes w (s.lineAddr s.net.nodeId a) (a % 64) n).getD j none).getD (s.mem.byte (a + j))

theorem State.loadBytes_length (s : State) (w : Issue) (a n : Nat) : (s.loadBytes w a n).length = n := by simp [State.loadBytes]

theorem map_getD_eq_of_all {own : List (Option Byte)} {n : Nat} (hlen : own.length = n) (hall : own.all Option.isSome = true) (f : Nat → Byte) :
    (own.map fun b => b.getD 0) = (List.range n).map fun j => (own.getD j none).getD (f j) := by
  subst hlen
  apply List.ext_getElem (by simp)
  intro i hi _
  have hi' : i < own.length := by simpa using hi
  obtain ⟨v, hv⟩ := Option.isSome_iff_exists.mp (List.all_eq_true.mp hall _ (List.getElem_mem hi'))
  simp [List.getD_eq_getElem?_getD, hi', hv]

theorem zip_map_getD_eq {own : List (Option Byte)} {n : Nat} (hlen : own.length = n) (f : Nat → Byte) :
    ((own.zip ((List.range n).map f)).map fun p => p.1.getD p.2) = (List.range n).map fun j => (own.getD j none).getD (f j) := by
  subst hlen
  apply List.ext_getElem (by simp)
  intro i hi _
  have hi' : i < own.length := by simpa using hi
  simp [List.getD_eq_getElem?_getD, hi']

/-- A load of clean memory of this node. -/
theorem State.loadHere_of_clean {s : State} {a n : Nat} (hwf : Memory.wf 0 s.mem.cells = true) (hcsr : s.region a ≠ .csr)
    (hok : s.readEnd a n = .ok) (hce : ∀ l ∈ s.mem.ceLines, l + 64 ≤ a ∨ a + n ≤ l) (w : Issue) (vector signed : Bool) (rt : BitVec 5)
    (addr : Word) : ∃ c, Counted s c ∧ s.loadHere w vector signed rt addr a n =
      c.modThr w.bay w.thread fun t => (t.loaded vector signed rt n (s.loadBytes w a n)).next := by
  have hread : s.homeRead a n = (.ok, s.mem.read a n) := by
    unfold State.homeRead
    split
    · contradiction
    · rw [hok]
  have hmeet : s.homeMeet a n = s.countAccess false a n := by
    rw [State.homeMeet, if_neg hcsr, State.meet_of_clean hok hce]
  have hlen := State.seenBytes_length s w (s.lineAddr s.net.nodeId a) (a % 64) n
  by_cases hall : (s.seenBytes w (s.lineAddr s.net.nodeId a) (a % 64) n).all Option.isSome = true
  · refine ⟨s, .refl s, ?_⟩
    simp only [State.loadHere, if_pos hall, map_getD_eq_of_all hlen hall fun j => s.mem.byte (a + j)]
    rfl
  · refine ⟨_, State.countAccess_counted s false a n, ?_⟩
    simp only [State.loadHere, if_neg hall, hread, hmeet, Mem.read_eq_map_byte _ hwf, zip_map_getD_eq hlen]
    rfl

/-- The lines that a thread sees are as they were outside it. -/
theorem State.loadBytes_congr {s t : State} {w : Issue} (hbuf : (t.thr w.bay w.thread).buf = (s.thr w.bay w.thread).buf)
    (h : Frame.outside s t w) (a n : Nat) : t.loadBytes w a n = s.loadBytes w a n := by
  simp only [State.loadBytes, State.seenBytes, State.lineAddr, hbuf, Frame.shared_of_outside h, Frame.nodeId_of_outside h,
    Frame.mem_of_outside h]

section
variable {s : State} {w : Issue} {ra : BitVec 5} {sz : BitVec 3} {off : BitVec 9} {a : Nat} (hs : Safety.shaped s) (hc : Safety.canonical s)
  (hi : Safety.issues s w) (hl : Safety.loaded s w [.g ra])
  (htarget : s.target w.bay .load (effAddr ((s.thr w.bay w.thread).gr ra) sz off) (sizeOf_ sz) = .here a) (hcsr : s.region a ≠ .csr)
  (hok : s.readEnd a (sizeOf_ sz) = .ok) (hce : ∀ l ∈ s.mem.ceLines, l + 64 ≤ a ∨ a + sizeOf_ sz ≤ l)
include hs hc hi hl htarget hcsr hok hce

theorem State.issueLoad_ends (vector signed : Bool) (rt : BitVec 5) :
    let write : RegName := if vector then .v rt else .g rt
    let t := s.issueLoad w true vector signed rt ra sz off
    t.thr w.bay w.thread =
        (((s.thr w.bay w.thread).started (some write)).loaded vector signed rt (sizeOf_ sz) (s.loadBytes w a (sizeOf_ sz))).next ∧
      Frame.outside s t w := by
  intro write t
  have hthr := State.startOf_thr hs w (some write)
  have hshape := Safety.shaped_startOf hs w (some write)
  have hout := Frame.outside_countBay (State.startOf_outside hs w (some write)) w.bay 3 1
  generalize hu : (s.startOf w (some write)).countBay w.bay 3 1 = u at hout
  have huthr : u.thr w.bay w.thread = (s.thr w.bay w.thread).started (some write) := hu ▸ hthr
  have hushape : Safety.shaped u := hu ▸ hshape
  have hcopy : ∃ bays cnt net, u = { s with bays := bays, cnt := cnt, net := net } := by
    obtain ⟨h, -⟩ := hout
    exact ⟨_, _, _, h⟩
  obtain ⟨bays, cnt, net, hcopy⟩ := hcopy
  have hucsr : u.region a ≠ .csr := by rw [hcopy]; exact hcsr
  have huok : u.readEnd a (sizeOf_ sz) = .ok := by rw [hcopy]; exact hok
  have huwf : Memory.wf 0 u.mem.cells = true := by rw [hcopy]; exact hc.1
  have huce : ∀ l ∈ u.mem.ceLines, l + 64 ≤ a ∨ a + sizeOf_ sz ≤ l := by rw [hcopy]; exact hce
  obtain ⟨c, hcount, hload⟩ := State.loadHere_of_clean huwf hucsr huok huce w vector signed rt
    (effAddr ((s.thr w.bay w.thread).gr ra) sz off)
  have hbytes := State.loadBytes_congr (by rw [huthr]; rfl) hout a (sizeOf_ sz)
  have ht : t = (c.modThr w.bay w.thread fun t =>
      (t.loaded vector signed rt (sizeOf_ sz) (s.loadBytes w a (sizeOf_ sz))).next).issued w := by
    refine State.issue_done hi hl ?_
    have hgr : ((s.startOf w (some write)).thr w.bay w.thread).gr ra = (s.thr w.bay w.thread).gr ra := by rw [hthr]; rfl
    have htarget' := (Frame.target_of_outside hout w.bay .load _ _).trans htarget
    simp only [write] at hu hgr
    simp only [hgr, hu, htarget', State.onTarget, if_true, hload, hbytes]
  have hcshape : Safety.shaped c := by rw [hcount.1]; exact hushape
  have hcthr : c.thr w.bay w.thread = u.thr w.bay w.thread := by rw [hcount.1]; rfl
  obtain ⟨hmod, hmodthr⟩ := Frame.outside_modThr s c w
    (fun t => (t.loaded vector signed rt (sizeOf_ sz) (s.loadBytes w a (sizeOf_ sz))).next) hcshape.1 (Safety.shaped_bay hcshape w.bay).1
    (Frame.outside_counted hout hcount)
  obtain ⟨hissued, hissuedthr⟩ := Frame.outside_issued s _ w ((State.hasThreads_modThr (Safety.hasThreads_of_shaped hcshape) _ _ _).1) hmod
  rw [ht]
  exact ⟨by rw [hissuedthr, hmodthr, hcthr, huthr], hissued⟩

/-- A load into a general register. -/
theorem State.issueLoad_writesGeneral (signed : Bool) (rt : BitVec 5) :
    WritesGeneral s (s.issueLoad w true false signed rt ra sz off) w rt
      (loadValue signed (sizeOf_ sz) (s.loadBytes w a (sizeOf_ sz))) := by
  obtain ⟨hthr, hout⟩ := State.issueLoad_ends hs hc hi hl htarget hcsr hok hce false signed rt
  refine ⟨?_, ?_, ?_, hout⟩ <;> rw [hthr, Thread.loaded, if_neg Bool.false_ne_true]
  · exact Thread.gr_setG_same _ _ _ (Safety.shaped_thr hs w.bay w.thread).1
  · simp
  · exact Frame.general_setG_next _ _ _

/-- A load into a vector register. -/
theorem State.issueLoad_writesVector (signed : Bool) (rt : BitVec 5) :
    WritesVector s (s.issueLoad w true true signed rt ra sz off) w rt (vecOf (s.loadBytes w a (sizeOf_ sz))) := by
  obtain ⟨hthr, hout⟩ := State.issueLoad_ends hs hc hi hl htarget hcsr hok hce true signed rt
  refine ⟨?_, ?_, ?_, hout⟩ <;> rw [hthr, Thread.loaded, if_pos rfl]
  · exact Thread.vr_setV_same _ _ _ (Safety.shaped_thr hs w.bay w.thread).2
  · simp
  · exact Frame.vector_setV_next _ _ _
end

theorem loadValue_unsigned {n : Nat} {bs : List Byte} (h : bs.length = n) : loadValue false n bs = BitVec.ofNat 64 (natLE bs) := by
  simp [loadValue, ← h]

theorem loadValue_signed {n : Nat} {bs : List Byte} (h : bs.length = n) :
    loadValue true n bs = BitVec.ofInt 64 (toSigned (8 * n) (natLE bs)) := by
  simp [loadValue, ← h, ofNat_ofSigned]

/-- Settles O9. Each load is `State.issueLoad_ends`, with the bytes of `State.loadBytes`. -/
theorem loadResults : Obligations.LoadResults := by
  intro s w rt ra sz off a hs hc hi hl hsz th n addr htarget hcsr hok hce own bytes done
  have hlen := State.loadBytes_length s w a (sizeOf_ sz)
  refine ⟨fun h => ⟨_, rfl, ?_⟩, fun h => ⟨_, rfl, ?_⟩, fun h => ⟨_, rfl, ?_⟩⟩
  · rw [show doLd w rt ra sz off s = s.issueLoad w true false false rt ra sz off by rw [doLd, decide_eq_true h]]
    have hspec := State.issueLoad_writesGeneral hs hc hi hl htarget hcsr hok hce false rt
    rw [loadValue_unsigned hlen] at hspec
    exact hspec
  · rw [show doLds w rt ra sz off s = s.issueLoad w true false true rt ra sz off by rw [doLds, decide_eq_true h]]
    have hspec := State.issueLoad_writesGeneral hs hc hi hl htarget hcsr hok hce true rt
    rw [loadValue_signed hlen] at hspec
    exact hspec
  · subst h
    have hspec := State.issueLoad_writesVector hs hc hi hl htarget hcsr hok hce false rt
    rw [vecOf, fit_of_length (n := 64) hlen] at hspec
    exact hspec

end Sys2Proof.Machine
end

section
/-! The bytes of device memory after a write (05, R137; 10, R241). -/
namespace Sys2Proof.Machine
open Sys2Proof

/-! ## Fresh granules -/

theorem GranRange.minus_contains (r : GranRange) {lo hi g : Nat} (h : lo ≤ hi) :
    ((r.minus lo hi).any fun r => decide (r.lo ≤ g) && decide (g ≤ r.hi)) =
      (decide (r.lo ≤ g) && decide (g ≤ r.hi) && !(decide (lo ≤ g) && decide (g ≤ hi))) := by
  rw [Bool.eq_iff_iff]
  unfold GranRange.minus
  by_cases hout : hi < r.lo ∨ r.hi < lo
  · simp only [Bool.or_eq_true, decide_eq_true_eq, if_pos hout, List.any_cons, List.any_nil, Bool.or_false, Bool.and_eq_true,
      Bool.not_eq_true', Bool.and_eq_false_iff, decide_eq_false_iff_not]
    omega
  · simp only [Bool.or_eq_true, decide_eq_true_eq, if_neg hout, List.any_append, Bool.and_eq_true, Bool.not_eq_true',
      Bool.and_eq_false_iff, decide_eq_false_iff_not]
    by_cases hlo : r.lo < lo <;> by_cases hhi : hi < r.hi <;> simp [hlo, hhi] <;> omega

theorem Mem.mem_freshIn {m : Mem} {a n g : Nat} :
    g ∈ m.freshIn a n ↔ n ≠ 0 ∧ a / 4096 ≤ g ∧ g ≤ (a + n - 1) / 4096 ∧ m.isFresh g = true := by
  unfold Mem.freshIn
  by_cases h : n = 0 ∨ m.fresh = []
  · rw [if_pos (by simpa using h)]
    rcases h with h | h <;> simp [h, Mem.isFresh]
  · rw [if_neg (by simpa using h)]
    simp only [List.mem_filter, List.mem_map, List.mem_range]
    constructor
    · rintro ⟨⟨i, hi, rfl⟩, hf⟩
      exact ⟨fun e => h (.inl e), by omega, by omega, hf⟩
    · rintro ⟨-, hlo, hhi, hf⟩
      exact ⟨⟨g - a / 4096, by omega, by omega⟩, hf⟩

/-- A fresh granule that a write reaches is fresh no more. -/
theorem Mem.isFresh_unfresh (m : Mem) (a n g : Nat) :
    (m.unfresh a n).isFresh g = (m.isFresh g && !(m.freshIn a n).contains g) := by
  unfold Mem.unfresh
  by_cases he : (m.freshIn a n).isEmpty = true
  · rw [if_pos he, List.isEmpty_iff.mp he]
    simp
  · rw [if_neg he]
    obtain ⟨x, hx⟩ := List.exists_mem_of_ne_nil (m.freshIn a n) fun e => he (by rw [e]; rfl)
    obtain ⟨hn, hlo, hhi, -⟩ := Mem.mem_freshIn.mp hx
    have hcontains : (m.freshIn a n).contains g = (decide (a / 4096 ≤ g) && decide (g ≤ (a + n - 1) / 4096) && m.isFresh g) := by
      rw [Bool.eq_iff_iff]
      simp [Mem.mem_freshIn, hn, and_assoc]
    rw [hcontains]
    simp only [Mem.isFresh, List.any_flatMap, GranRange.minus_contains _ (Nat.le_trans hlo hhi)]
    rw [Bool.eq_iff_iff]
    simp only [List.any_eq_true, Bool.and_eq_true, Bool.not_eq_true']
    grind

theorem Memory.byte_clear (d : Byte) (m : Memory) (a n x : Nat) :
    Memory.byte d (Memory.clear m a n) x = if a ≤ x ∧ x < a + n then d else Memory.byte d m x := by
  split
  next h =>
    refine Memory.byte_none d _ x fun c hc he => ?_
    have := (List.mem_filter.mp hc).2
    simp only [Bool.or_eq_true, decide_eq_true_eq] at this
    omega
  next h =>
    refine Memory.byte_filter d m _ x fun v => ?_
    simp only [Bool.or_eq_true, decide_eq_true_eq]
    omega

theorem Memory.byte_clear_granules (gs : List Nat) (m : Memory) (x : Nat) :
    Memory.byte 0 (gs.foldl (fun c g => Memory.clear c (g * 4096) 4096) m) x = if x / 4096 ∈ gs then 0 else Memory.byte 0 m x := by
  induction gs generalizing m with
  | nil => simp
  | cons g gs ih =>
    have hg : (g * 4096 ≤ x ∧ x < g * 4096 + 4096) ↔ x / 4096 = g := by omega
    simp only [List.foldl_cons, ih, Memory.byte_clear, hg, List.mem_cons]
    by_cases h : x / 4096 = g <;> by_cases h' : x / 4096 ∈ gs <;> simp [h, h']

/-- Filling the fresh granules that a write reaches changes no byte. -/
theorem Mem.byte_unfresh (m : Mem) (a n x : Nat) : (m.unfresh a n).byte x = m.byte x := by
  have hcells : Memory.byte 0 (m.unfresh a n).cells x = if x / 4096 ∈ m.freshIn a n then 0 else Memory.byte 0 m.cells x := by
    unfold Mem.unfresh
    by_cases he : (m.freshIn a n).isEmpty = true
    · rw [if_pos he, List.isEmpty_iff.mp he]
      simp
    · rw [if_neg he]
      exact Memory.byte_clear_granules _ _ _
  simp only [Mem.byte, Mem.isFresh_unfresh, hcells]
  by_cases hx : x / 4096 ∈ m.freshIn a n
  · simp [hx, (Mem.mem_freshIn.mp hx).2.2.2]
  · simp [hx]

/-! ## Writes -/

theorem Mem.byte_write_outside (m : Mem) {a x : Nat} {bs : List Byte} (h : x < a ∨ a + bs.length ≤ x) : (m.write a bs).byte x = m.byte x := by
  rw [← Mem.byte_unfresh m a bs.length x]
  simp only [Mem.write, Mem.byte, Mem.isFresh, Memory.byte_write_outside 0 _ a bs x h]
  rfl

theorem Mem.byte_write_inside (m : Mem) {a i : Nat} {bs : List Byte} (h : i < bs.length) : (m.write a bs).byte (a + i) = bs[i] := by
  have hfresh : (m.unfresh a bs.length).isFresh ((a + i) / 4096) = false := by
    rw [Mem.isFresh_unfresh]
    by_cases hf : m.isFresh ((a + i) / 4096) = true
    · have : (a + i) / 4096 ∈ m.freshIn a bs.length := Mem.mem_freshIn.mpr ⟨by omega, by omega, by omega, hf⟩
      simp [this]
    · simp [hf]
  have hfresh' : (m.write a bs).isFresh ((a + i) / 4096) = false := hfresh
  rw [Mem.byte, hfresh', if_neg Bool.false_ne_true]
  exact Memory.byte_write_inside 0 _ a bs i h

/-- Beside memory and event counters, `t` is `s`. -/
def Stored (s t : State) : Prop := t = { s with mem := t.mem, cnt := t.cnt } ∧ t.cnt = { s.cnt with values := t.cnt.values }

theorem Stored.refl (s : State) : Stored s s := ⟨rfl, rfl⟩

theorem Stored.trans {s t u : State} (h : Stored s t) (h' : Stored t u) : Stored s u := by
  obtain ⟨hs, hv⟩ := h
  obtain ⟨hs', hv'⟩ := h'
  refine ⟨?_, ?_⟩
  · rw [hs', hs]
  · rw [hv', hv]

theorem Counted.stored {s t : State} (h : Counted s t) : Stored s t := by
  obtain ⟨hs, hv⟩ := h
  refine ⟨?_, hv⟩
  rw [hs]

theorem Counted.mem {s t : State} (h : Counted s t) : t.mem = s.mem := by
  rw [h.1]

/-- A write changes memory as `Mem.write` does, and beside it only counts. -/
theorem State.storeBytes_spec (s : State) (a : Nat) (bs : List Byte) :
    Stored s (s.storeBytes a bs) ∧ (s.storeBytes a bs).mem = s.mem.write a bs := by
  have hfill : ∀ l : List Nat, Counted s (l.foldl (fun s g =>
      match s.region (g * 4096) with
      | .t1 => s.countHbm (stackOf (g * 4096)) 15 1
      | .t2 => (s.t2Dev (g * 4096)).elim s fun d => s.countT2 d 11 1
      | _ => s) s) := by
    intro l
    refine Counted.foldl (fun s g => ?_) l s
    split
    · exact State.count_counted s _ _
    · cases s.t2Dev (g * 4096) with
      | none => exact .refl s
      | some d => exact State.count_counted s _ _
    · exact .refl s
  have hcount := (hfill (s.mem.freshIn a bs.length)).trans (State.countAccess_counted _ true a bs.length)
  refine ⟨hcount.stored.trans ⟨rfl, rfl⟩, ?_⟩
  exact congrArg (·.write a bs) hcount.mem

theorem State.memWrite_spec {s : State} {a : Nat} {bs : List Byte} (h : s.lostIn a bs.length = false) :
    Stored s (s.memWrite a bs) ∧ (s.memWrite a bs).mem = s.mem.write a bs := by
  rw [State.memWrite, h, if_neg Bool.false_ne_true]
  exact State.storeBytes_spec s a bs

theorem State.lostIn_of_readEnd {s : State} {a n : Nat} (h : s.readEnd a n = .ok) : s.lostIn a n = false := by
  unfold State.readEnd at h
  refine Classical.byContradiction fun hl => ?_
  rw [if_pos (by simpa using hl)] at h
  exact absurd h (by decide)

theorem State.lostIn_of_le {s : State} {a n : Nat} (h : a + n ≤ t2Base) : s.lostIn a n = false := by
  rw [State.lostIn, decide_eq_false (by omega), Bool.false_and]

/-- T0 and T1 lie below the far memory. -/
theorem Safety.end_of_inT0T1 {s : State} {a n : Nat} (h : Safety.inT0T1 s a n) (hn : 0 < n) : a + n ≤ t2Base := by
  refine Classical.byContradiction fun hlt => ?_
  have hlast := h (n - 1) (by omega)
  unfold State.region at hlast
  have : a + (n - 1) ≥ t2Base := by omega
  simp only [t1Top, t2Base] at hlast this
  grind

end Sys2Proof.Machine
end

section
/-! The store buffer (05, R137, R138). -/
namespace Sys2Proof.Machine
open Sys2Proof

/-! ## The bytes that lines hold -/

/-- Byte `j` of a line, where a buffer holds it. -/
def bufByte (buf : List BufLine) (line j : Nat) : Option Byte := (buf.find? (·.addr == line)).bind fun l => l.bytes.getD j none

theorem bufRead_eq_map_bufByte (buf : List BufLine) (line off n : Nat) :
    bufRead buf line off n = (List.range n).map fun j => bufByte buf line (off + j) := by
  unfold bufRead bufByte
  cases buf.find? (·.addr == line) with
  | none => simp [List.map_const']
  | some l => rfl

theorem bufRead_one (buf : List BufLine) (line j : Nat) : bufRead buf line j 1 = [bufByte buf line j] := by
  simp [bufRead_eq_map_bufByte, List.range_one]

theorem BufLine.put_bytes (l : BufLine) {off : Nat} {bs : List Byte} (hl : l.bytes.length = 64) (hoff : off + bs.length ≤ 64) (j : Nat) :
    (l.put off bs).bytes.getD j none = if off ≤ j ∧ j < off + bs.length then bs[j - off]? else l.bytes.getD j none := by
  simp only [BufLine.put, List.getD_eq_getElem?_getD, List.append_assoc, List.getElem?_append, List.length_take, List.length_map,
    List.getElem?_take, List.getElem?_map, List.getElem?_drop, hl, Nat.min_eq_left (show off ≤ 64 by omega)]
  by_cases h1 : j < off
  · have : ¬ (off ≤ j ∧ j < off + bs.length) := by omega
    simp [h1, this]
  · by_cases h2 : j < off + bs.length
    · have h3 : j - off < bs.length := by omega
      have h4 : off ≤ j ∧ j < off + bs.length := by omega
      simp [h1, h3, h4]
    · have h3 : ¬ j - off < bs.length := by omega
      have h4 : ¬ (off ≤ j ∧ j < off + bs.length) := by omega
      have h5 : off + bs.length + (j - off - bs.length) = j := by omega
      simp [h1, h3, h4, h5]

@[simp] theorem BufLine.put_addr (l : BufLine) (off : Nat) (bs : List Byte) : (l.put off bs).addr = l.addr := rfl

theorem find?_map_put (buf : List BufLine) (line off : Nat) (bs : List Byte) (k : Nat) :
    (buf.map fun l => if l.addr = line then l.put off bs else l).find? (·.addr == k) =
      (buf.find? (·.addr == k)).map fun l => if k = line then l.put off bs else l := by
  have haddr : ∀ l : BufLine, (if l.addr = line then l.put off bs else l).addr = l.addr := fun l => by split <;> rfl
  have hpred : ((·.addr == k) ∘ fun l : BufLine => if l.addr = line then l.put off bs else l) = (·.addr == k) := by
    funext l
    simp only [Function.comp, haddr]
  rw [List.find?_map, hpred]
  cases hfind : buf.find? (·.addr == k) with
  | none => rfl
  | some l =>
    have hl : l.addr = k := by simpa using List.find?_some hfind
    simp only [Option.map_some, hl]

theorem BufLine.empty_getD (i : Fin 128) (pc : Word) (line j : Nat) : (BufLine.empty i pc line).bytes.getD j none = none := by
  rw [BufLine.empty, List.getD_eq_getElem?_getD, List.getElem?_replicate]
  split <;> rfl

/-- A store that its buffer takes: its bytes over those of the line. -/
theorem Thread.bufStore_bytes {t u : Thread} {i : Fin 128} {line off : Nat} {bs : List Byte} (hlen : ∀ l ∈ t.buf, l.bytes.length = 64)
    (hoff : off + bs.length ≤ 64) (h : t.bufStore i line off bs = some u) (k j : Nat) :
    bufByte u.buf k j = if k = line ∧ off ≤ j ∧ j < off + bs.length then bs[j - off]? else bufByte t.buf k j := by
  unfold Thread.bufStore at h
  split at h
  · next hany =>
    obtain rfl := Option.some.inj h
    simp only [bufByte, find?_map_put]
    cases hfind : t.buf.find? (·.addr == k) with
    | none =>
      have hk : k ≠ line := by
        rintro rfl
        simp only [List.any_eq_true, List.find?_eq_none] at hany hfind
        obtain ⟨l, hl, he⟩ := hany
        exact hfind l hl he
      simp [hk]
    | some l =>
      have hput := BufLine.put_bytes l (hlen l (List.mem_of_find?_eq_some hfind)) hoff j
      by_cases hk : k = line
      · simp only [hk, if_true, true_and, Option.map_some, Option.bind_some, hput]
      · simp only [hk, if_false, false_and, Option.map_some, Option.bind_some]
  · next hany =>
    split at h
    · obtain rfl := Option.some.inj h
      have hnone : t.buf.find? (·.addr == line) = none := by simpa using hany
      have hput := BufLine.put_bytes (BufLine.empty i t.pc line) (by simp [BufLine.empty]) hoff j
      simp only [BufLine.empty_getD] at hput
      by_cases hk : k = line
      · subst hk
        have haddr : (BufLine.empty i t.pc k).addr = k := rfl
        simp only [bufByte, List.find?_append, hnone, Option.none_or, List.find?_cons, BufLine.put_addr, haddr, beq_self_eq_true,
          Option.bind_some, hput, Option.bind_none, true_and]
      · have hk' : line ≠ k := Ne.symm hk
        simp [bufByte, List.find?_append, hk, hk', BufLine.empty]
    · cases h

theorem Thread.bufStore_eq {t u : Thread} {i : Fin 128} {line off : Nat} {bs : List Byte} (h : t.bufStore i line off bs = some u) :
    u = { t with buf := u.buf } := by
  unfold Thread.bufStore at h
  split at h
  · obtain rfl := Option.some.inj h
    rfl
  · split at h
    · obtain rfl := Option.some.inj h
      rfl
    · cases h

theorem Thread.bufStore_isSome {t : Thread} {i : Fin 128} {line off : Nat} {bs : List Byte}
    (h : t.buf.any (·.addr == line) = true ∨ t.buf.length < 8) :
    ∃ u, t.bufStore i line off bs = some u := by
  unfold Thread.bufStore
  split
  · exact ⟨_, rfl⟩
  · next hany => exact ⟨_, if_pos (h.resolve_left hany)⟩

theorem Thread.bufStore_none {t : Thread} {i : Fin 128} {line off : Nat} {bs : List Byte} (h : t.buf.any (·.addr == line) = false)
    (h8 : 8 ≤ t.buf.length) : t.bufStore i line off bs = none := by
  rw [Thread.bufStore, h, if_neg Bool.false_ne_true, if_neg (by omega)]

end Sys2Proof.Machine
end

section
/-! Plain stores, and lines that leave the store buffer (05, R137, R138). -/
namespace Sys2Proof.Machine
open Sys2Proof

/-! ## A plain store -/

/-- The bytes that a store of thread `t` puts into its buffer. -/
def Thread.storeData (t : Thread) (vector : Bool) (rt : BitVec 5) (n : Nat) : List Byte :=
  if vector then vecBytes (t.vr rt) else bytesLE n (t.gr rt).toNat

section
variable {s : State} {w : Issue} {ra : BitVec 5} {sz : BitVec 3} {off : BitVec 9} {node a : Nat} {vector : Bool} {rt : BitVec 5}
  (hs : Safety.shaped s) (hi : Safety.issues s w) (hl : Safety.loaded s w [.g ra, if vector then .v rt else .g rt])
  (htarget : s.target w.bay .store (effAddr ((s.thr w.bay w.thread).gr ra) sz off) (sizeOf_ sz) =
    if node = s.net.nodeId then .here a else .remote node a)
include hs hi hl htarget

/-- In the start state a store runs as `Thread.bufStore` in its thread. -/
theorem State.issueStore_eq : s.issueStore w true vector rt ra sz off =
    s.issue w true [.g ra, if vector then .v rt else .g rt] none fun u =>
      match ((s.thr w.bay w.thread).started none).bufStore w.thread (s.lineAddr node a) (a % 64)
          ((s.thr w.bay w.thread).storeData vector rt (sizeOf_ sz)) with
      | none => .wait u (.room (s.lineAddr node a))
      | some t1 => .done ((u.modThr w.bay w.thread fun _ => t1.next).countBay w.bay 4 1) := by
  have hout := State.startOf_outside hs w none
  have hthr := State.startOf_thr hs w none
  have htarget' := (Frame.target_of_outside hout w.bay .store _ _).trans htarget
  have hline : (s.startOf w none).lineAddr node a = s.lineAddr node a := by simp only [State.lineAddr, Frame.nodeId_of_outside hout]
  unfold State.issueStore
  rw [State.issue_runs s w _ none _ hi hl, State.issue_runs s w _ none _ hi hl]
  by_cases hn : node = s.net.nodeId
  · rw [if_pos hn] at htarget'
    simp only [hthr, Thread.started_gr, Thread.started_vr, htarget', State.onTarget, Frame.nodeId_of_outside hout, ← hn, hline]
    rfl
  · rw [if_neg hn] at htarget'
    simp only [hthr, Thread.started_gr, Thread.started_vr, htarget', State.onTarget, hline]
    rfl

theorem State.issueStore_stores {t1 : Thread} (hstore : ((s.thr w.bay w.thread).started none).bufStore w.thread (s.lineAddr node a) (a % 64)
    ((s.thr w.bay w.thread).storeData vector rt (sizeOf_ sz)) = some t1) :
    let t := s.issueStore w true vector rt ra sz off
    t.thr w.bay w.thread = t1.next ∧ Frame.outside s t w := by
  intro t
  have ht : t = (((s.startOf w none).modThr w.bay w.thread fun _ => t1.next).countBay w.bay 4 1).issued w := by
    simp only [t, State.issueStore_eq hs hi hl htarget]
    refine State.issue_done hi hl ?_
    simp only [hstore]
  have hshape := Safety.shaped_startOf hs w none
  obtain ⟨hmod, hmodthr⟩ := Frame.outside_modThr s _ w (fun _ => t1.next) hshape.1 (Safety.shaped_bay hshape w.bay).1
    (State.startOf_outside hs w none)
  have hbays := (State.hasThreads_modThr (Safety.hasThreads_of_shaped hshape) w.bay w.thread fun _ => t1.next).1
  obtain ⟨hissued, hissuedthr⟩ := Frame.outside_issued s (((s.startOf w none).modThr w.bay w.thread fun _ => t1.next).countBay w.bay 4 1) w
    hbays (Frame.outside_countBay hmod w.bay 4 1)
  rw [ht]
  exact ⟨hissuedthr.trans hmodthr, hissued⟩

theorem State.issueStore_waits (hstore : ((s.thr w.bay w.thread).started none).bufStore w.thread (s.lineAddr node a) (a % 64)
    ((s.thr w.bay w.thread).storeData vector rt (sizeOf_ sz)) = none) :
    let t := s.issueStore w true vector rt ra sz off
    t.thr w.bay w.thread = { s.thr w.bay w.thread with wait := .retry (.room (s.lineAddr node a)) } ∧ Frame.outside s t w := by
  intro t
  have hwait := State.issue_waits hi hl hs (write := none) (on := .room (s.lineAddr node a)) (run := fun u =>
      match ((s.thr w.bay w.thread).started none).bufStore w.thread (s.lineAddr node a) (a % 64)
          ((s.thr w.bay w.thread).storeData vector rt (sizeOf_ sz)) with
      | none => .wait u (.room (s.lineAddr node a))
      | some t1 => .done ((u.modThr w.bay w.thread fun _ => t1.next).countBay w.bay 4 1)) (by simp only [hstore])
  rw [← State.issueStore_eq hs hi hl htarget] at hwait
  exact hwait
end

/-- A plain store, whether its buffer takes it or not. -/
theorem State.issueStore_spec {s : State} {w : Issue} {ra : BitVec 5} {sz : BitVec 3} {off : BitVec 9} {node a : Nat} {vector : Bool}
    {rt : BitVec 5} (hs : Safety.shaped s) (hi : Safety.issues s w) (hl : Safety.loaded s w [.g ra, if vector then .v rt else .g rt])
    (htarget : s.target w.bay .store (effAddr ((s.thr w.bay w.thread).gr ra) sz off) (sizeOf_ sz) =
      if node = s.net.nodeId then .here a else .remote node a)
    (hdata : ((s.thr w.bay w.thread).storeData vector rt (sizeOf_ sz)).length = sizeOf_ sz) :
    let th := s.thr w.bay w.thread
    let line := s.lineAddr node a
    let n := sizeOf_ sz
    let t := s.issueStore w true vector rt ra sz off
    let u := t.thr w.bay w.thread
    Frame.outside s t w ∧
      (th.buf.any (·.addr == line) = true ∨ th.buf.length < 8 →
        u = { th with pc := th.pc + 4, buf := u.buf, wait := .ready } ∧
        bufRead u.buf line (a % 64) n = (th.storeData vector rt n).map some ∧
        (∀ j < 64, j < a % 64 ∨ a % 64 + n ≤ j → bufRead u.buf line j 1 = bufRead th.buf line j 1) ∧
        ∀ l, l ≠ line → ∀ j, bufRead u.buf l j 1 = bufRead th.buf l j 1) ∧
      (th.buf.any (·.addr == line) = false → 8 ≤ th.buf.length → u = { th with wait := .retry (.room line) }) := by
  intro th line n t u
  have hfit : a % 64 + n ≤ 64 := by
    have hcase := State.target_aligned (s := s) (b := w.bay) (k := .store) (addr := effAddr (th.gr ra) sz off) (n := n) (node := node) (a := a)
      (by rw [htarget]; split <;> simp)
    obtain ⟨hmod, rfl⟩ := hcase
    exact localAddr_fits (sizeOf_dvd sz) hmod
  have hlen : ∀ l ∈ th.buf, l.bytes.length = 64 := by
    obtain ⟨hthreads, -, -, hth⟩ := Safety.shaped_bay hs w.bay
    exact (hth th (Bay.thr_mem hthreads w.thread)).2.2.2.2
  cases hstore : (th.started none).bufStore w.thread line (a % 64) (th.storeData vector rt n) with
  | none =>
    obtain ⟨hthr, hout⟩ := State.issueStore_waits hs hi hl htarget hstore
    refine ⟨hout, fun hroom => ?_, fun _ _ => hthr⟩
    obtain ⟨t1, h1⟩ := Thread.bufStore_isSome (t := th.started none) (i := w.thread) (line := line) (off := a % 64)
      (bs := th.storeData vector rt n) hroom
    rw [hstore] at h1
    cases h1
  | some t1 =>
    obtain ⟨hthr, hout⟩ := State.issueStore_stores hs hi hl htarget hstore
    refine ⟨hout, fun _ => ?_, fun hany h8 => ?_⟩
    · have hbytes := Thread.bufStore_bytes (t := th.started none) (bs := th.storeData vector rt n) hlen (by rw [hdata]; exact hfit) hstore
      have hu : u = t1.next := hthr
      have hbuf : u.buf = t1.buf := by rw [hu]; rfl
      simp only [bufRead_one, hbuf, hbytes]
      refine ⟨?_, ?_, fun j _ hj => ?_, fun l hl j => ?_⟩
      · have heq' := Thread.bufStore_eq hstore
        rw [hu, heq']
        rfl
      · rw [bufRead_eq_map_bufByte]
        simp only [hbytes]
        apply List.ext_getElem
        · simp only [List.length_map, List.length_range]
          exact hdata.symm
        · intro i hi' _
          have hi : i < (th.storeData vector rt n).length := by
            rw [hdata]
            simpa using hi'
          simp [hi]
      · rw [if_neg (by rw [hdata]; omega)]
        rfl
      · rw [if_neg fun h => hl h.1]
        rfl
    · have hnone : (th.started none).bufStore w.thread line (a % 64) (th.storeData vector rt n) = none := Thread.bufStore_none hany h8
      rw [hstore] at hnone
      cases hnone

/-! ## A line lands -/

/-- `r` is a run of bytes that the line `l` holds. -/
def HoldsRun (l : List (Option Byte)) (r : Nat × List Byte) : Prop :=
  r.1 + r.2.length ≤ l.length ∧ ∀ i, (h : i < r.2.length) → l[r.1 + i]? = some (some r.2[i])

/-- What `bufRuns` has gathered of a line: runs that the line holds, and every byte that the line holds in one of them. -/
def Gathers (l : List (Option Byte)) (runs : List (Nat × List Byte)) : Prop :=
  (∀ r ∈ runs, HoldsRun l r) ∧ ∀ j v, l[j]? = some (some v) → ∃ r ∈ runs, r.1 ≤ j ∧ j < r.1 + r.2.length

/-- One byte more. -/
def gatherByte (acc : Nat × List (Nat × List Byte)) (b : Option Byte) : Nat × List (Nat × List Byte) :=
  match b with
  | none => (acc.1 + 1, acc.2)
  | some v =>
    match acc.2.getLast? with
    | some (o, bs) =>
      if o + bs.length = acc.1 then (acc.1 + 1, acc.2.dropLast ++ [(o, bs ++ [v])]) else (acc.1 + 1, acc.2 ++ [(acc.1, [v])])
    | none => (acc.1 + 1, [(acc.1, [v])])

theorem bufRuns_eq_foldl (l : List (Option Byte)) : bufRuns l = (l.foldl gatherByte (0, [])).2 := rfl

theorem HoldsRun.concat {l : List (Option Byte)} {r : Nat × List Byte} (h : HoldsRun l r) (b : Option Byte) : HoldsRun (l ++ [b]) r := by
  obtain ⟨hend, hheld⟩ := h
  refine ⟨by simp; omega, fun i hi => ?_⟩
  have hget := hheld i hi
  obtain ⟨hlt, -⟩ := List.getElem?_eq_some_iff.mp hget
  rw [List.getElem?_append_left hlt, hget]

theorem HoldsRun.push {l : List (Option Byte)} {r : Nat × List Byte} (h : HoldsRun l r) {v : Byte} (hend : r.1 + r.2.length = l.length) :
    HoldsRun (l ++ [some v]) (r.1, r.2 ++ [v]) := by
  refine ⟨by simp; omega, fun i hi => ?_⟩
  simp only [List.length_append, List.length_cons, List.length_nil] at hi
  by_cases hlt : i < r.2.length
  · have := (h.concat (some v)).2 i hlt
    simp only [List.getElem_append_left hlt]
    exact this
  · have : i = r.2.length := by omega
    subst this
    simp [hend]

theorem Gathers.concat_of_runs {l : List (Option Byte)} {runs runs' : List (Nat × List Byte)} (h : Gathers l runs) {v : Byte}
    (hholds : ∀ r ∈ runs', HoldsRun (l ++ [some v]) r) (hlast : ∃ r ∈ runs', r.1 ≤ l.length ∧ l.length < r.1 + r.2.length)
    (hold : ∀ r ∈ runs, ∃ r' ∈ runs', r'.1 = r.1 ∧ r.2.length ≤ r'.2.length) : Gathers (l ++ [some v]) runs' := by
  refine ⟨hholds, fun j x hj => ?_⟩
  by_cases hlt : j < l.length
  · rw [List.getElem?_append_left hlt] at hj
    obtain ⟨r, hr, hlo, hhi⟩ := h.2 j x hj
    obtain ⟨r', hr', ho, hlen⟩ := hold r hr
    exact ⟨r', hr', by omega, by omega⟩
  · have hlen := (List.getElem?_eq_some_iff.mp hj).1
    simp only [List.length_append, List.length_cons, List.length_nil] at hlen
    have : j = l.length := by omega
    subst this
    exact hlast

theorem gathers_foldl (l : List (Option Byte)) : (l.foldl gatherByte (0, [])).1 = l.length ∧ Gathers l (l.foldl gatherByte (0, [])).2 := by
  induction l using list_back_induction with
  | nil => exact ⟨rfl, by simp [Gathers]⟩
  | append_singleton l b ih =>
    obtain ⟨hpos, hruns⟩ := ih
    rw [List.foldl_append, List.foldl_cons, List.foldl_nil]
    generalize l.foldl gatherByte (0, []) = acc at hpos hruns
    obtain ⟨pos, runs⟩ := acc
    obtain rfl : pos = l.length := hpos
    have hheld := hruns.1
    cases b with
    | none =>
      refine ⟨by simp [gatherByte], fun r hr => (hheld r hr).concat none, fun j v hj => ?_⟩
      have hlt : j < l.length := by
        refine Classical.byContradiction fun hge => ?_
        rcases Nat.lt_or_eq_of_le (Nat.le_of_not_lt hge) with h | h
        · simp [List.getElem?_eq_none (show (l ++ [none]).length ≤ j by simp; omega)] at hj
        · subst h
          simp at hj
      rw [List.getElem?_append_left hlt] at hj
      exact hruns.2 j v hj
    | some v =>
      have hnew : HoldsRun (l ++ [some v]) (l.length, [v]) := by
        refine ⟨by simp, fun i hi => ?_⟩
        obtain rfl : i = 0 := by simpa using hi
        simp
      have hconcat : ∀ r ∈ runs, HoldsRun (l ++ [some v]) r := fun r hr => (hheld r hr).concat (some v)
      simp only [gatherByte]
      cases hlast : runs.getLast? with
      | none =>
        obtain rfl : runs = [] := List.getLast?_eq_none_iff.mp hlast
        exact ⟨by simp, hruns.concat_of_runs (by simpa using hnew) ⟨_, .head _, by simp, by simp⟩ (by simp)⟩
      | some r =>
        have hsplit : runs = runs.dropLast ++ [r] := by
          obtain ⟨ys, hys⟩ := List.getLast?_eq_some_iff.mp hlast
          rw [hys, List.dropLast_concat]
        obtain ⟨o, bs⟩ := r
        have hmem : (o, bs) ∈ runs := List.mem_of_getLast? hlast
        dsimp only
        split
        next hend =>
          refine ⟨by simp, hruns.concat_of_runs ?_ ⟨(o, bs ++ [v]), by simp, by simp; omega, by simp; omega⟩ ?_⟩
          · intro r hr
            rcases List.mem_append.mp hr with hr | hr
            · exact hconcat r (List.dropLast_subset _ hr)
            · obtain rfl := List.mem_singleton.mp hr
              exact (hheld _ hmem).push hend
          · intro r hr
            rw [hsplit] at hr
            rcases List.mem_append.mp hr with hr | hr
            · exact ⟨r, by simp [hr], rfl, Nat.le_refl _⟩
            · obtain rfl := List.mem_singleton.mp hr
              exact ⟨(o, bs ++ [v]), by simp, rfl, by simp⟩
        next =>
          refine ⟨by simp, hruns.concat_of_runs ?_ ⟨(l.length, [v]), by simp, by simp, by simp⟩
            fun r hr => ⟨r, by simp [hr], rfl, Nat.le_refl _⟩⟩
          intro r hr
          rcases List.mem_append.mp hr with hr | hr
          · exact hconcat r hr
          · obtain rfl := List.mem_singleton.mp hr
            exact hnew

theorem bufRuns_gathers (l : List (Option Byte)) : Gathers l (bufRuns l) := bufRuns_eq_foldl l ▸ (gathers_foldl l).2

/-- A run of bytes is written at its place behind `base`. -/
def State.writeRun (base : Nat) (s : State) (r : Nat × List Byte) : State := s.memWrite (base + r.1) r.2

theorem State.landLine_eq {s : State} {b : Fin 80} {l : BufLine} (h : s.targetNode l.addr = some s.net.nodeId)
    (hfit : ∀ r ∈ bufRuns l.bytes, localAddr l.addr + r.1 + r.2.length ≤ t2Base) :
    s.landLine b l = (bufRuns l.bytes).foldl (State.writeRun (localAddr l.addr)) s := by
  unfold State.landLine State.each
  generalize bufRuns l.bytes = rs at hfit
  induction rs generalizing s with
  | nil => rfl
  | cons r rs ih =>
    obtain ⟨hr, hrs⟩ := List.forall_mem_cons.mp hfit
    obtain ⟨⟨hstored, -⟩, -⟩ := State.memWrite_spec (s := s) (State.lostIn_of_le hr)
    simp only [List.foldl_cons, h, if_true]
    have hnet : (s.memWrite (localAddr l.addr + r.1) r.2).net = s.net := by rw [hstored]
    refine ih ?_ hrs
    simp only [State.targetNode, hnet]
    exact h

/-- Runs of a line, written one after another. -/
theorem State.writeRuns_spec {bytes : List (Option Byte)} {base : Nat} (rs : List (Nat × List Byte)) (s : State)
    (hheld : ∀ r ∈ rs, HoldsRun bytes r) (hfit : ∀ r ∈ rs, base + r.1 + r.2.length ≤ t2Base) :
    let u := rs.foldl (State.writeRun base) s
    Stored s u ∧ (∀ j, (∃ r ∈ rs, r.1 ≤ j ∧ j < r.1 + r.2.length) → bytes[j]? = some (some (u.mem.byte (base + j)))) ∧
      ∀ x, (∀ r ∈ rs, ¬ (base + r.1 ≤ x ∧ x < base + r.1 + r.2.length)) → u.mem.byte x = s.mem.byte x := by
  induction rs generalizing s with
  | nil => exact ⟨.refl s, by simp, fun _ _ => rfl⟩
  | cons r rs ih =>
    obtain ⟨hr, hrs⟩ := List.forall_mem_cons.mp hfit
    obtain ⟨hrun, hruns⟩ := List.forall_mem_cons.mp hheld
    obtain ⟨hstored, hmem⟩ := State.memWrite_spec (s := s) (State.lostIn_of_le hr)
    obtain ⟨hstored', hin, hout⟩ := ih (s.memWrite (base + r.1) r.2) hruns hrs
    refine ⟨hstored.trans hstored', fun j hj => ?_, fun x hx => ?_⟩
    · by_cases hlater : ∃ r ∈ rs, r.1 ≤ j ∧ j < r.1 + r.2.length
      · exact hin j hlater
      · obtain ⟨q, hq, hlo, hhi⟩ := hj
        rcases List.mem_cons.mp hq with rfl | hq
        · have hbyte := Mem.byte_write_inside s.mem (a := base + q.1) (bs := q.2) (i := j - q.1) (by omega)
          have hget := hrun.2 (j - q.1) (by omega)
          rw [show base + q.1 + (j - q.1) = base + j by omega] at hbyte
          rw [show q.1 + (j - q.1) = j by omega] at hget
          have hsame := hout (base + j) fun p hp h => hlater ⟨p, hp, by omega, by omega⟩
          rw [List.foldl_cons, State.writeRun, hsame, hmem, hbyte, hget]
        · exact absurd ⟨q, hq, hlo, hhi⟩ hlater
    · obtain ⟨hx, hxs⟩ := List.forall_mem_cons.mp hx
      rw [List.foldl_cons, State.writeRun, hout x hxs, hmem, Mem.byte_write_outside]
      omega

/-- A line of this node's T0 or T1 lands: its bytes are in memory, and no other byte changes. -/
theorem State.landLine_spec {s : State} {b : Fin 80} {l : BufLine} (hnode : s.targetNode l.addr = some s.net.nodeId)
    (hlen : l.bytes.length = 64) (hmem : Safety.inT0T1 s (localAddr l.addr) 64) :
    Stored s (s.landLine b l) ∧
      (∀ j < 64, (s.landLine b l).mem.byte (localAddr l.addr + j) = (l.bytes.getD j none).getD (s.mem.byte (localAddr l.addr + j))) ∧
      ∀ x, x < localAddr l.addr ∨ localAddr l.addr + 64 ≤ x → (s.landLine b l).mem.byte x = s.mem.byte x := by
  obtain ⟨hheld, hall⟩ := bufRuns_gathers l.bytes
  have hbase := Safety.end_of_inT0T1 hmem (by decide)
  have hfit : ∀ r ∈ bufRuns l.bytes, localAddr l.addr + r.1 + r.2.length ≤ t2Base := by
    intro r hr
    have := (hheld r hr).1
    omega
  obtain ⟨hstored, hin, hout⟩ := State.writeRuns_spec (bufRuns l.bytes) s hheld hfit
  rw [State.landLine_eq hnode hfit]
  refine ⟨hstored, fun j hj => ?_, fun x hx => hout x fun r hr => ?_⟩
  · rw [List.getD_eq_getElem?_getD]
    have hj' : j < l.bytes.length := by omega
    by_cases hrun : ∃ r ∈ bufRuns l.bytes, r.1 ≤ j ∧ j < r.1 + r.2.length
    · rw [hin j hrun]
      rfl
    · have hnone : l.bytes[j]? = some none := by
        cases hv : l.bytes[j] with
        | none => rw [List.getElem?_eq_getElem hj', hv]
        | some v => exact absurd (hall j v (by rw [List.getElem?_eq_getElem hj', hv])) hrun
      rw [hout _ fun r hr h => hrun ⟨r, hr, by omega, by omega⟩, hnone]
      rfl
  · have := (hheld r hr).1
    omega

/-! ## Lines that leave -/

/-- Line `l` of bay `b` has landed: its bytes are in memory, no other byte has changed, and no other bay. -/
def Landed (s : State) (b : Fin 80) (l : BufLine) (u : State) : Prop :=
  (∀ j < 64, u.mem.byte (localAddr l.addr + j) = (l.bytes.getD j none).getD (s.mem.byte (localAddr l.addr + j))) ∧
  (∀ x, x < localAddr l.addr ∨ localAddr l.addr + 64 ≤ x → u.mem.byte x = s.mem.byte x) ∧
  u = { s with bays := u.bays, mem := u.mem, cnt := u.cnt } ∧ ∀ c, c ≠ b → u.bay c = s.bay c

section
variable {s : State} {b : Fin 80} {l : BufLine} (hs : Safety.shaped s) (hnode : s.targetNode l.addr = some s.net.nodeId)
  (hlen : l.bytes.length = 64) (hmem : Safety.inT0T1 s (localAddr l.addr) 64)
include hnode hlen hmem

theorem State.landed_modBay (f : Bay → Bay) : Landed s b l ((s.landLine b l).modBay b f) := by
  obtain ⟨⟨hstored, -⟩, hin, hout⟩ := State.landLine_spec (b := b) hnode hlen hmem
  refine ⟨hin, hout, ?_, fun c hc => ?_⟩
  · generalize s.landLine b l = t at hstored
    rw [hstored]
    rfl
  · rw [State.bay_modBay_other _ _ _ _ (Ne.symm hc), hstored]
    rfl

include hs

theorem State.drain_thread (t : Fin 128) (k : Fin 8) (hrun : s.running = true) (hbuf : (s.thr b t).buf[k.val]? = some l)
    (hshared : (s.bay b).shared = []) :
    (doStoreLineDrain b t k s).thr b t = { s.thr b t with buf := (s.thr b t).buf.eraseIdx k.val } ∧ Landed s b l (doStoreLineDrain b t k s) := by
  have hdrain : doStoreLineDrain b t k s = (s.landLine b l).modThr b t fun th => { th with buf := th.buf.eraseIdx k.val } := by
    simp only [doStoreLineDrain, hrun, Bool.not_true, Bool.false_eq_true, if_false, hbuf, State.drainLine, State.landShared, hshared, List.find?_nil]
  rw [hdrain]
  refine ⟨?_, State.landed_modBay hnode hlen hmem _⟩
  obtain ⟨⟨hstored, -⟩, -⟩ := State.landLine_spec (b := b) hnode hlen hmem
  have hshape : (s.landLine b l).HasThreads := by
    rw [hstored]
    exact Safety.hasThreads_of_shaped hs
  rw [State.thr_modThr_same _ _ _ _ hshape.1 (hshape.2 b), hstored]
  rfl

theorem State.drain_shared (t : Fin 128) (k : Fin 8) (hrun : s.running = true) (hbuf : (s.thr b t).buf[k.val]? = none)
    (hshared : (s.bay b).shared = [l]) (hk : k.val = (s.thr b t).buf.length) :
    (doStoreLineDrain b t k s).bay b = { s.bay b with shared := [] } ∧ Landed s b l (doStoreLineDrain b t k s) := by
  have hfirst : k.val - (s.thr b t).buf.length = 0 := by omega
  have hdrain : doStoreLineDrain b t k s = (s.landLine b l).modBay b fun y => { y with shared := y.shared.filter (·.addr != l.addr) } := by
    simp only [doStoreLineDrain, hrun, Bool.not_true, Bool.false_eq_true, if_false, hbuf, hshared, hfirst, List.getElem?_cons_zero,
      State.landShared, List.find?_cons, beq_self_eq_true]
  rw [hdrain]
  refine ⟨?_, State.landed_modBay hnode hlen hmem _⟩
  obtain ⟨⟨hstored, -⟩, -⟩ := State.landLine_spec (b := b) hnode hlen hmem
  have hbay : (s.landLine b l).bay b = s.bay b := by rw [hstored]; rfl
  have hbays : (s.landLine b l).bays.length = 80 := by rw [hstored]; exact hs.1
  rw [State.bay_modBay_same _ _ _ hbays, hbay, hshared]
  simp
end

/-- Settles O10, by `State.issueStore_spec` and `State.landLine_spec`. -/
theorem storeBuffer : Obligations.StoreBuffer := by
  refine ⟨?_, ?_⟩
  · intro s w rt ra sz off node a hs hi hl hsz th n addr htarget i bytes line
    by_cases h : sz.toNat < 4
    · have hspec := State.issueStore_spec (vector := false) (rt := rt) hs hi (Safety.loaded_mono hl (by simp)) htarget
        (by simp [Thread.storeData])
      have hdo : doSt w rt ra sz off s = s.issueStore w true false rt ra sz off := by rw [doSt, decide_eq_true h]
      simp only [i, bytes, if_pos h]
      exact ⟨_, rfl, hdo ▸ hspec⟩
    · have h4 : sz = 4#3 := by bv_omega
      subst h4
      have hspec := State.issueStore_spec (vector := true) (rt := rt) hs hi (Safety.loaded_mono hl (by simp)) htarget
        (by simp [Thread.storeData, vecBytes, sizeOf_])
      exact ⟨_, rfl, hspec⟩
  · intro s b t k l hs _ hrun hnode hlen base hregion buf shared lands
    exact ⟨fun hbuf hshared => ⟨_, rfl, State.drain_thread hs hnode hlen hregion t k hrun hbuf hshared⟩,
      fun hbuf hshared hk => ⟨_, rfl, State.drain_shared hs hnode hlen hregion t k hrun hbuf hshared hk⟩⟩

end Sys2Proof.Machine
end

section
/-! Atomics at this node (05, R142, Table 5.4). -/
namespace Sys2Proof.Machine
open Sys2Proof

/-! ## At the home -/

theorem State.memLE_lt (s : State) (a n : Nat) : s.memLE a n < 2 ^ (8 * n) := by
  have hlen : (s.mem.read a n).length = n := by
    unfold Mem.read
    split <;> simp [Memory.read_length]
  have := natLE_lt (s.mem.read a n)
  rw [hlen] at this
  exact Nat.lt_of_lt_of_eq this (Nat.pow_mul 2 8 n).symm

/-- What an atomic makes of memory: the value that it stores, or memory as it was. -/
def Mem.atom (m : Mem) (a n : Nat) (new : Option Nat) : Mem :=
  match new with
  | some v => m.write a (bytesLE n v)
  | none => m

/-- The count of an atomic at the home of its address. -/
def State.countAtom (s : State) (a : Nat) : State :=
  match s.region a with
  | .t1 => s.countHbm (stackOf a) 14 1
  | .t2 => (s.t2Dev a).elim s fun d => s.countT2 d 9 1
  | _ => s

theorem State.countAtom_counted (s : State) (a : Nat) : Counted s (s.countAtom a) := by
  unfold State.countAtom
  split
  · exact State.count_counted _ _ _
  · cases s.t2Dev a with
    | none => exact .refl s
    | some d => exact State.count_counted _ _ _
  · exact .refl s

theorem State.atomHome_eq (s : State) (op : AtomOp) (n a cmp new : Nat) : s.atomHome op n a cmp new =
    (s.memLE a n, (op.store n (s.memLE a n) cmp new).elim ((s.meet a n).countAtom a) fun v =>
      ((s.meet a n).countAtom a).memWrite a (bytesLE n v)) := by
  unfold State.atomHome
  dsimp only
  cases op.store n (s.memLE a n) cmp new <;> rfl

theorem State.atomHome_spec {s : State} {a n : Nat} (hok : s.readEnd a n = .ok) (hce : ∀ l ∈ s.mem.ceLines, l + 64 ≤ a ∨ a + n ≤ l)
    (op : AtomOp) (cmp new : Nat) :
    (s.atomHome op n a cmp new).1 = s.memLE a n ∧ Stored s (s.atomHome op n a cmp new).2 ∧
      (s.atomHome op n a cmp new).2.mem = s.mem.atom a n (op.store n (s.memLE a n) cmp new) := by
  have hcount : Counted s ((s.meet a n).countAtom a) := by
    rw [State.meet_of_clean hok hce]
    exact (State.countAccess_counted s false a n).trans (State.countAtom_counted _ a)
  rw [State.atomHome_eq]
  generalize (s.meet a n).countAtom a = c at hcount
  refine ⟨rfl, ?_⟩
  cases op.store n (s.memLE a n) cmp new with
  | none => exact ⟨hcount.stored, hcount.mem⟩
  | some v =>
    have hlost : c.lostIn a (bytesLE n v).length = false := by
      rw [bytesLE_length, hcount.1]
      exact State.lostIn_of_readEnd hok
    obtain ⟨hstored, hmem⟩ := State.memWrite_spec hlost
    exact ⟨hcount.stored.trans hstored, hmem.trans (by rw [hcount.mem]; rfl)⟩

/-! ## The thread -/

theorem Frame.outside_stored {s t u : State} {w : Issue} (h : Frame.outside s t w) (hu : Stored t u) :
    Frame.outside { s with mem := u.mem } u w := by
  obtain ⟨h1, h2, h3, h4, h5, h6, h7, h8⟩ := h
  obtain ⟨hs, hv⟩ := hu
  generalize u.cnt = c at hs hv
  generalize u.mem = m at hs
  subst hs
  refine ⟨?_, h2, h3, h4, ?_, h6, h7, h8⟩
  · rw [h1]
  · rw [hv, h5]

theorem State.drainOne_of_empty {s : State} {w : Issue} (hbuf : (s.thr w.bay w.thread).buf = []) (hshared : (s.bay w.bay).shared = [])
    (line : Nat) : s.drainOne w line = s := by
  simp only [State.drainOne, State.landShared, hshared, List.find?_nil, hbuf]

/-- The registers that an atomic reads, and the one that it writes. -/
def AtomOp.reads (op : AtomOp) (rd ra : BitVec 5) : List RegName :=
  [.g ra] ++ (if op = .ld then [] else [.g rd]) ++ (if op = .cas then [.g (regNext rd)] else [])

def AtomOp.write (op : AtomOp) (rd : BitVec 5) : Option RegName := if op = .st then none else some (.g rd)

theorem AtomOp.reads_subset (op : AtomOp) (rd ra : BitVec 5) : op.reads rd ra ⊆ [.g ra, .g rd, .g (rd + 1)] := by
  unfold AtomOp.reads regNext
  cases op <;> simp

section
variable {s : State} {w : Issue} {rd ra : BitVec 5} {ord : BitVec 4} {wd : BitVec 2} {a : Nat} (hs : Safety.shaped s)
  (hi : Safety.issues s w) (hl : Safety.loaded s w [.g ra, .g rd, .g (rd + 1)]) (hbuf : (s.thr w.bay w.thread).buf = [])
  (hshared : (s.bay w.bay).shared = []) (hacc : s.outstandingAcc .fabric w.bay w.thread = false)
  (htarget : s.target w.bay .atomic ((s.thr w.bay w.thread).gr ra) (atomBytes wd) = .here a)
  (hok : s.readEnd a (atomBytes wd) = .ok) (hce : ∀ l ∈ s.mem.ceLines, l + 64 ≤ a ∨ a + atomBytes wd ≤ l)
include hs hi hl hbuf hshared hacc htarget hok hce

/-- An atomic at this node with nothing before it: the home's operation, and the old value in its register. -/
theorem State.issueAtom_here (op : AtomOp) :
    let th := s.thr w.bay w.thread
    let t := s.issueAtom w true op rd ra ord wd
    t.thr w.bay w.thread = (th.started (op.write rd)).atomDone op rd (s.memLE a (atomBytes wd)) ∧
      t.mem = s.mem.atom a (atomBytes wd) (op.store (atomBytes wd) (s.memLE a (atomBytes wd)) (th.gr rd).toNat (th.gr (rd + 1)).toNat) ∧
      Frame.outside { s with mem := t.mem } t w := by
  intro th t
  have hout := State.startOf_outside hs w (op.write rd)
  have hthr := State.startOf_thr hs w (op.write rd)
  have hshape := Safety.shaped_startOf hs w (op.write rd)
  have hbuf' : ((s.startOf w (op.write rd)).thr w.bay w.thread).buf = [] := by rw [hthr]; exact hbuf
  have hshared' := (Frame.shared_of_outside hout).trans hshared
  have hacc' : (s.startOf w (op.write rd)).outstandingAcc (scopeOf ord) w.bay w.thread = false :=
    State.outstandingAcc_of_fabric ((State.outstandingAcc_startOf s w _ .fabric w.bay w.thread).trans hacc) _
  have htarget' := (Frame.target_of_outside hout w.bay .atomic ((s.thr w.bay w.thread).gr ra) (atomBytes wd)).trans htarget
  have hmem := Frame.mem_of_outside hout
  generalize hu : s.startOf w (op.write rd) = u at *
  have hcopy : ∃ bays cnt net, u = { s with bays := bays, cnt := cnt, net := net } := by
    obtain ⟨h, -⟩ := hout
    exact ⟨_, _, _, h⟩
  obtain ⟨bays, cnt, net, hcopy⟩ := hcopy
  have hgo : ∀ node, (u.drainOne w (u.lineAddr node a)).countBay w.bay 5 1 = u.countBay w.bay 5 1 := fun node => by
    rw [State.drainOne_of_empty hbuf' hshared']
  have hok' : (u.countBay w.bay 5 1).readEnd a (atomBytes wd) = .ok := by rw [hcopy]; exact hok
  have hce' : ∀ l ∈ (u.countBay w.bay 5 1).mem.ceLines, l + 64 ≤ a ∨ a + atomBytes wd ≤ l := by rw [hcopy]; exact hce
  have hle : (u.countBay w.bay 5 1).memLE a (atomBytes wd) = s.memLE a (atomBytes wd) := by rw [hcopy]; rfl
  obtain ⟨hold, hstored, hnew⟩ := State.atomHome_spec hok' hce' op (th.gr rd).toNat (th.gr (rd + 1)).toNat
  generalize hh : (u.countBay w.bay 5 1).atomHome op (atomBytes wd) a (th.gr rd).toNat (th.gr (rd + 1)).toNat = h at hold hstored hnew
  obtain ⟨old, c⟩ := h
  rw [hle] at hold hnew
  have hnode : (u.countBay w.bay 5 1).net.nodeId = u.net.nodeId := rfl
  have hcounted : Stored u c := (State.countBay_counted u w.bay 5 1).stored.trans hstored
  have ht : t = (c.modThr w.bay w.thread fun t => t.atomDone op rd (s.memLE a (atomBytes wd))).issued w := by
    simp only [t]
    unfold State.issueAtom
    refine State.issue_done (write := op.write rd) hi (Safety.loaded_mono hl (op.reads_subset rd ra)) ?_
    simp only [hu, hthr, Thread.started_gr, htarget', State.onTarget, State.release_of_empty hbuf' hshared', hacc', hgo, hnode, if_true, hok',
      regNext, Bool.false_eq_true, if_false, ite_self]
    rw [hh, ← hold]
  have hcshape : c.HasThreads := by
    rw [hcounted.1]
    exact Safety.hasThreads_of_shaped hshape
  obtain ⟨hmod, hmodthr⟩ := Frame.outside_modThr { s with mem := c.mem } c w (fun t => t.atomDone op rd (s.memLE a (atomBytes wd)))
    hcshape.1 (hcshape.2 w.bay) (Frame.outside_stored hout hcounted)
  obtain ⟨hissued, hissuedthr⟩ := Frame.outside_issued _ _ w (State.hasThreads_modThr hcshape _ _ _).1 hmod
  have hcthr : c.thr w.bay w.thread = u.thr w.bay w.thread := by rw [hcounted.1]; rfl
  rw [ht]
  refine ⟨by rw [hissuedthr, hmodthr, hcthr, hthr], ?_, hissued⟩
  refine Eq.trans ?_ (hnew.trans (congrArg (fun m : Mem => m.atom a (atomBytes wd) _) hmem))
  rfl

/-- The same, register by register and byte by byte. -/
theorem State.issueAtom_done {op : AtomOp} {new : Option Nat} {v cmp : Nat} (hv : ((s.thr w.bay w.thread).gr rd).toNat = v)
    (hcmp : ((s.thr w.bay w.thread).gr (rd + 1)).toNat = cmp)
    (hnew : op.store (atomBytes wd) (s.memLE a (atomBytes wd)) v cmp = new) :
    let t := s.issueAtom w true op rd ra ord wd
    (t.thr w.bay w.thread).pc = (s.thr w.bay w.thread).pc + 4 ∧
      (t.thr w.bay w.thread).gr rd =
        (if (op != .st) && rd != 0 then BitVec.ofNat 64 (s.memLE a (atomBytes wd)) else (s.thr w.bay w.thread).gr rd) ∧
      (∀ k, k ≠ rd → (t.thr w.bay w.thread).gr k = (s.thr w.bay w.thread).gr k) ∧
      (∃ g pend, t.thr w.bay w.thread = { s.thr w.bay w.thread with pc := (s.thr w.bay w.thread).pc + 4, g := g, wait := .ready, pend := pend }) ∧
      (∀ j < atomBytes wd, t.mem.byte (a + j) = new.elim (s.mem.byte (a + j)) fun x => (bytesLE (atomBytes wd) x).getD j 0) ∧
      (∀ x, x < a ∨ a + atomBytes wd ≤ x → t.mem.byte x = s.mem.byte x) ∧ Frame.outside { s with mem := t.mem } t w := by
  intro t
  obtain ⟨hthr, hmem, hout⟩ := State.issueAtom_here hs hi hl hbuf hshared hacc htarget hok hce op
  rw [hv, hcmp, hnew] at hmem
  generalize htt : s.issueAtom w true op rd ra ord wd = u at *
  obtain rfl : t = u := htt
  have hlen := (Safety.shaped_thr hs w.bay w.thread).1
  refine ⟨?_, ?_, ?_, ?_, fun j hj => ?_, fun x hx => ?_, hout⟩
  · rw [hthr, Thread.atomDone]
    split <;> simp
  · rw [hthr, Thread.atomDone]
    by_cases hst : op = .st
    · simp [hst]
    · rw [if_neg hst, Thread.next_gr, Thread.gr_setG_same _ _ _ (by exact hlen)]
      by_cases h0 : rd = 0
      · simp [h0, Thread.gr]
      · have hne : rd ≠ 0#5 := h0
        simp [hne, hst]
  · intro k hk
    rw [hthr, Thread.atomDone]
    split
    · simp
    · rw [Thread.next_gr, Thread.gr_setG_other _ _ _ _ hk, Thread.started_gr]
  · rw [hthr, Thread.atomDone]
    split
    · exact ⟨_, _, rfl⟩
    · rw [Thread.setG_eq_update_g]
      exact ⟨_, _, rfl⟩
  · rw [hmem]
    cases new with
    | none => rfl
    | some x =>
      have hj' : j < (bytesLE (atomBytes wd) x).length := by simpa using hj
      have hbyte := Mem.byte_write_inside s.mem (a := a) hj'
      rw [Option.elim_some, List.getD_eq_getElem?_getD, List.getElem?_eq_getElem hj', Option.getD_some]
      exact hbyte
  · rw [hmem]
    cases new with
    | none => rfl
    | some v => exact Mem.byte_write_outside s.mem (by simpa using hx)
end

theorem atomLegal_iff {ord : BitVec 4} {wd : BitVec 2} (hord : ord.extractLsb' 2 2 ≠ 3) (hwd : wd.toNat < 2) : atomLegal ord wd = true := by
  simp only [atomLegal, Bool.and_eq_true, bne_iff_ne, ne_eq, decide_eq_true_eq]
  exact ⟨hord, hwd⟩

theorem extract_bit_eq_zero {n : Nat} (x : BitVec n) (i : Nat) (h : x.getLsbD i = false) : x.extractLsb' i 1 = 0#1 := by
  apply BitVec.eq_of_getLsbD_eq
  intro j hj
  obtain rfl : j = 0 := by omega
  simp [h]

/-- Settles O11. Each atomic is `State.issueAtom_done` with the value that `AtomOp.store` gives. -/
theorem atomicResults : Obligations.AtomicResults := by
  intro s w rd ra ord wd a hs hc hi hl hord hwd th n hbuf hshared hacc htarget hok hce m old v sg done
  have hlegal := atomLegal_iff hord hwd
  have hold : s.memLE a (atomBytes wd) = old := by rw [State.memLE, Mem.read_eq_map_byte _ hc.1]; rfl
  have hmod : old % m = old := Nat.mod_eq_of_lt (hold ▸ State.memLE_lt s a (atomBytes wd))
  have hmod' : old % 2 ^ (8 * n) = old := hmod
  have hdone : ∀ (op : AtomOp) (new : Option Nat),
      op.store n old (th.gr rd).toNat (th.gr (rd + 1)).toNat = new → ∀ (i : Instr) (writes : Bool), writes = (op != .st) →
        exec i s = .next (s.issueAtom w true op rd ra ord wd) → done i writes new := by
    intro op new hnew i writes hwrites hexec
    have hspec := State.issueAtom_done hs hi hl hbuf hshared hacc htarget hok hce (op := op) (ord := ord) (new := new) rfl rfl
      (by rw [hold]; exact hnew)
    rw [hold] at hspec
    subst hwrites
    cases new with
    | none => exact ⟨_, hexec, hspec⟩
    | some x => exact ⟨_, hexec, hspec⟩
  have hissue : ∀ (op : AtomOp) {legal : Bool}, legal = true →
      (.next (s.issueAtom w legal op rd ra ord wd) : Host.Outcome State Fault Refusal) = .next (s.issueAtom w true op rd ra ord wd) :=
    fun op legal h => by rw [h]
  have hstore : ∀ (op : AtomOp) (new : Option Nat) (i : Instr), op ≠ .st →
      op.store n old (th.gr rd).toNat (th.gr (rd + 1)).toNat = new → exec i s = .next (s.issueAtom w true op rd ra ord wd) → done i true new :=
    fun op new i hop hnew => hdone op new hnew i true (by simpa using hop)
  have hstored : ∀ (op : AtomOp) (x : Nat) (i : Instr), op ≠ .st →
      op.store n old (th.gr rd).toNat (th.gr (rd + 1)).toNat = some x → exec i s = .next (s.issueAtom w (atomLegal ord wd) op rd ra ord wd) →
      done i true (some x) := fun op x i hop hnew hexec => hstore op (some x) i hop hnew (hexec.trans (hissue op hlegal))
  have legal_of_bit : ∀ {k : Nat} {x : BitVec k} {i : Nat}, x.getLsbD i = false → (atomLegal ord wd && x.extractLsb' i 1 == 0#1) = true :=
    fun h => by rw [hlegal, extract_bit_eq_zero _ _ h]; rfl
  refine ⟨fun h => ?_, fun h => ?_, fun h => ?_, ?_⟩
  · refine hstore .ld none _ (by decide) rfl ?_
    exact hissue .ld (legal_of_bit h)
  · refine hdone .st _ rfl _ false rfl ?_
    exact hissue .st (legal_of_bit h)
  · refine hstore .cas _ _ (by decide) ?_ ?_
    · simp only [AtomOp.store]
      rw [hmod]
    · exact hissue .cas (legal_of_bit h)
  · simp only [List.forall_mem_cons]
    refine ⟨hstored .swap _ _ (by decide) ?_ rfl,
      hstored .add _ _ (by decide) ?_ rfl,
      hstored .and _ _ (by decide) ?_ rfl,
      hstored .or _ _ (by decide) ?_ rfl,
      hstored .xor _ _ (by decide) ?_ rfl,
      hstored .min _ _ (by decide) ?_ rfl,
      hstored .max _ _ (by decide) ?_ rfl,
      hstored .minu _ _ (by decide) ?_ rfl,
      hstored .maxu _ _ (by decide) ?_ rfl, by simp⟩
    all_goals simp only [AtomOp.store, hmod']
    all_goals rfl

end Sys2Proof.Machine
end

section
/-! The checks of admission in their order (01, R19, Table 1.2). -/
namespace Sys2Proof.Machine
open Sys2Proof

/-- `r` is the answer of the first condition of the list that holds, and there is none where no condition holds. -/
def FirstHolding (l : List (Prop × Nat × Nat)) (r : Option (Nat × Nat)) : Prop :=
  (∀ (k st dt : Nat), (∃ x : Prop × Nat × Nat, l[k]? = some x ∧ x.1 ∧ x.2 = (st, dt)) →
    (∀ j < k, ∃ x : Prop × Nat × Nat, l[j]? = some x ∧ ¬ x.1) → r = some (st, dt)) ∧
  ((∀ x ∈ l, ¬ x.1) → r = none)

theorem firstHolding_nil : FirstHolding [] none := ⟨by simp, fun _ => rfl⟩

/-- A condition that holds answers, whatever follows. -/
theorem FirstHolding.holds {p : Prop} {x : Nat × Nat} {l : List (Prop × Nat × Nat)} (h : p) : FirstHolding ((p, x) :: l) (some x) := by
  refine ⟨fun k st dt hk hbefore => ?_, fun hnone => absurd h (hnone _ (.head _))⟩
  cases k with
  | zero =>
    obtain ⟨y, hy, -, hx⟩ := hk
    obtain rfl := Option.some.inj hy
    rw [← hx]
  | succ k =>
    obtain ⟨y, hy, hn⟩ := hbefore 0 (by omega)
    obtain rfl := Option.some.inj hy
    exact absurd h hn

/-- A condition that does not hold leaves the answer to what follows. -/
theorem FirstHolding.skip {p : Prop} {x : Nat × Nat} {l : List (Prop × Nat × Nat)} {r : Option (Nat × Nat)} (h : ¬ p) (hl : FirstHolding l r) :
    FirstHolding ((p, x) :: l) r := by
  refine ⟨fun k st dt hk hbefore => ?_, fun hnone => hl.2 fun y hy => hnone y (.tail _ hy)⟩
  cases k with
  | zero =>
    obtain ⟨y, hy, hp, -⟩ := hk
    obtain rfl := Option.some.inj hy
    exact absurd hp h
  | succ k => exact hl.1 k st dt hk fun j hj => hbefore (j + 1) (by omega)

/-- A check: its condition decides between its own answer and the rest. -/
theorem FirstHolding.check {c p : Prop} [Decidable c] {x : Nat × Nat} {l : List (Prop × Nat × Nat)} {r : Option (Nat × Nat)} (hc : c ↔ p)
    (hl : FirstHolding l r) : FirstHolding ((p, x) :: l) (if c then some x else r) := by
  by_cases h : c
  · rw [if_pos h]
    exact .holds (hc.mp h)
  · rw [if_neg h]
    exact .skip (mt hc.mpr h) hl

/-! ## The branches of a plan -/

theorem branchesOk_iff (steps prev : Nat) (l : List (Nat × Nat)) : branchesOk steps prev l = true ↔
    (∀ b ∈ l, 2 ≤ b.2 ∧ b.2 ≤ 16 ∧ prev + 1 ≤ b.1 ∧ b.1 + 1 ≤ steps) ∧ l.Pairwise fun a b => a.1 < b.1 := by
  induction l generalizing prev with
  | nil => simp [branchesOk]
  | cons b l ih =>
    obtain ⟨t, n⟩ := b
    simp only [branchesOk, Bool.and_eq_true, decide_eq_true_eq, ih, List.forall_mem_cons, List.pairwise_cons]
    constructor
    · rintro ⟨⟨⟨⟨h2, h16⟩, hprev⟩, hsteps⟩, hall, hpair⟩
      refine ⟨⟨⟨h2, h16, by omega, hsteps⟩, fun b hb => ?_⟩, fun b hb => ?_, hpair⟩
      · obtain ⟨hb2, hb16, hbt, hbs⟩ := hall b hb
        exact ⟨hb2, hb16, by omega, hbs⟩
      · obtain ⟨-, -, hbt, -⟩ := hall b hb
        omega
    · rintro ⟨⟨⟨h2, h16, hprev, hsteps⟩, hall⟩, hlt, hpair⟩
      refine ⟨⟨⟨⟨h2, h16⟩, by omega⟩, hsteps⟩, fun b hb => ?_, hpair⟩
      obtain ⟨hb2, hb16, -, hbs⟩ := hall b hb
      exact ⟨hb2, hb16, hlt b hb, hbs⟩

theorem overPlan_iff (d : Desc) (c : ShapeClass) : overPlan d c = true ↔ c.maxContext < d.contextCount ∨ min c.maxF0 4096 < d.futures ∨
    min c.maxLeaves 4096 < d.leaves ∨ min c.maxSteps 1024 < d.steps ∨ min c.maxBranch 4 < d.branchCount := by
  simp only [overPlan, Bool.or_eq_true, decide_eq_true_eq]
  grind

theorem kindAccepted_iff (d : Desc) (c : ShapeClass) :
    kindAccepted d c = true ↔ (d.kind = 0 ∧ c.kindFrames = true) ∨ (d.kind = 1 ∧ c.kindStream = true) := by
  simp only [kindAccepted, Bool.or_eq_true, Bool.and_eq_true, beq_iff_eq]

/-- Settles O16: `State.earlyChecks` check by check. -/
theorem admissionChecksInOrder : Obligations.AdmissionChecksInOrder := by
  intro s f d p c lim checks
  have hfirst : FirstHolding checks (s.earlyChecks f d) := by
    unfold State.earlyChecks
    refine .check (by simp) (.check Iff.rfl ?_)
    cases hp : s.program d.program with
    | none => exact .holds hp
    | some q =>
      refine .skip (by simp [p, hp]) ?_
      have hcq : c = q.shape d.shapeClass := by simp only [c, p, hp, Option.bind_some]
      have hpq : p = some q := hp
      dsimp only
      cases hshape : q.shape d.shapeClass with
      | none => exact .holds (hcq.trans hshape)
      | some k =>
        have hck : c = some k := hcq.trans hshape
        have hlim : ∀ g, lim g = g k := fun g => by simp only [lim, hck, Option.map_some, Option.getD_some]
        refine .skip (by simp [hck]) ?_
        dsimp only
        simp only [hlim, hck, hpq, Option.some.injEq, exists_eq_left', Option.any_some]
        refine .check ?_ (.check ?_ (.check ?_ (.check ?_ (.check ?_ (.check ?_ firstHolding_nil)))))
        · rw [← kindAccepted_iff, Bool.not_eq_true', Bool.eq_false_iff]
        · simp only [Bool.or_eq_true, Bool.and_eq_true, decide_eq_true_eq, or_assoc]
        · exact overPlan_iff d k
        · rw [← branchesOk_iff d.steps 0, Bool.not_eq_true', Bool.eq_false_iff]
        · simp
        · simp
  exact ⟨fun k st dt _ => hfirst.1 k st dt, hfirst.2⟩

end Sys2Proof.Machine
end

section
/-! Riser-ramp tokens (04, R117; 06, R168, R169). -/
namespace Sys2Proof.Machine
open Sys2Proof

theorem State.rampView_of_active {s : State} {b : Fin 80} (h : (s.bay b).ramp = .active) : (s.rampView b).1 = .active := by
  simp only [State.rampView, h]

theorem State.rampDown_bay {s : State} (h : s.bays.length = 80) (b : Fin 80) :
    (s.rampDown b).bay b = { s.bay b with ramp := .down, rampAt := s.clk.devTime, rowGroups := 7 } :=
  State.bay_modBay_same (s.takeToken (tileOf b)) b (fun y => { y with ramp := .down, rampAt := s.clk.devTime, rowGroups := 7 }) h

theorem State.tokenFor_of_none_waits {s : State} {b : Fin 80} (h : s.stew.tokenWait.getD (tileOf b).val [] = []) :
    s.tokenFor b = decide (0 < s.stew.tokens.getD (tileOf b).val 0) := by
  simp only [State.tokenFor, State.freeTokens, h, List.head?_nil, Option.map_none, Option.getD_none, Bool.and_true]
  rfl

theorem State.doArrayRampDown_eq {s : State} {b : Fin 80} (htask : (s.bay b).task = none) (hramp : (s.bay b).ramp = .active)
    (hrun : (s.bay b).running = none) (hnone : s.stew.tokenWait.getD (tileOf b).val [] = []) :
    doArrayRampDown b s = if 0 < s.stew.tokens.getD (tileOf b).val 0 then (s.leaveWait b).rampDown b else s.waitToken b := by
  simp only [doArrayRampDown, htask, hrun, State.rampView_of_active hramp, State.tokenFor_of_none_waits hnone, Option.isSome_none,
    bne_self_eq_false, Bool.or_self, Bool.false_eq_true, if_false, decide_eq_true_eq]

/-- A token of tile `k` is taken. -/
def Stew.take (x : Stew) (k : Nat) : Stew := { x with tokens := x.tokens.modify k (· - 1), tokensOut := x.tokensOut.modify k (· + 1) }

theorem State.rampDown_stew (s : State) (b : Fin 80) : (s.rampDown b).stew = s.stew.take (tileOf b).val := rfl
theorem State.rampDown_mem (s : State) (b : Fin 80) : (s.rampDown b).mem = s.mem := rfl

/-- A token of tile `k` returns, and no array of the tile waits. -/
def Stew.giveBack (x : Stew) (k : Nat) : Stew :=
  { x with tokensOut := x.tokensOut.modify k (· - 1), tokens := x.tokens.modify k (· + 1), tokenWait := x.tokenWait.set k [] }

theorem State.doRampTokenReturn_eq {s : State} {k : Fin 4} (hpos : 0 < s.stew.tokensOut.getD k.val 0)
    (hnone : s.stew.tokenWait.getD k.val [] = []) : doRampTokenReturn k s = s.modStew (·.giveBack k.val) := by
  have hpos' : s.stew.tokensOut.getD k.val 0 ≠ 0 := Nat.pos_iff_ne_zero.mp hpos
  simp only [doRampTokenReturn]
  rw [if_neg hpos']
  simp only [State.modStew_stew, hnone, List.filter_nil]
  rfl

theorem State.doArrayOff_eq {s : State} (hb : s.bays.length = 80) {b : Fin 80} (hramp : (s.bay b).ramp = .down)
    (hqueue : (s.bay b).tileQueue = []) : doArrayOff b s = s.modBay b fun y => { y with ramp := .off, rowGroups := 0, maxLag := 0 } := by
  have hbay := State.bay_modBay_same s b (fun y => { y with ramp := .off, rowGroups := 0, maxLag := 0 }) hb
  simp only [doArrayOff, hramp, bne_self_eq_false, Bool.false_eq_true, if_false, State.headAny, hbay, hqueue]

/-- Settles O25, command by command. -/
theorem rampTokens : Obligations.RampTokens := by
  intro s b hs k
  have hk : k < 4 := (tileOf b).isLt
  obtain ⟨-, -, -, -, -, -, -, htokens, hout, hwait, -⟩ := id hs
  refine ⟨fun htask hramp hrun hnone => ⟨_, rfl, ?_⟩, fun hpos hnone => ⟨_, rfl, ?_⟩, fun hramp hqueue => ⟨_, rfl, ?_⟩⟩
  · rw [State.doArrayRampDown_eq htask hramp hrun hnone]
    by_cases hpos : 0 < s.stew.tokens.getD k 0
    · rw [if_pos hpos]
      have hbay := State.rampDown_bay (s := s.leaveWait b) hs.1 b
      have htake := getD_modify_same s.stew.tokens k (· - 1) 0 (by omega)
      have hgive := getD_modify_same s.stew.tokensOut k (· + 1) 0 (by omega)
      refine ⟨State.rampDown_mem (s.leaveWait b) b, fun _ => ?_, fun h0 => by omega⟩
      rw [hbay, State.rampDown_stew]
      exact ⟨rfl, rfl, by rw [Stew.take]; exact (congrArg (· + 1) htake).trans (by omega), hgive⟩
    · rw [if_neg hpos]
      have hqueue := getD_modify_same s.stew.tokenWait k (fun w => if w.contains b then w else w ++ [b]) [] (by omega)
      rw [hnone] at hqueue
      exact ⟨rfl, fun h => absurd h hpos, fun _ => ⟨rfl, hqueue⟩⟩
  · rw [State.doRampTokenReturn_eq hpos hnone]
    have hgive := getD_modify_same s.stew.tokens k (· + 1) 0 (by omega)
    have htake := getD_modify_same s.stew.tokensOut k (· - 1) 0 (by omega)
    exact ⟨rfl, hgive, (congrArg (· + 1) htake).trans (by omega)⟩
  · rw [State.doArrayOff_eq hs.1 hramp hqueue]
    have hbay := State.bay_modBay_same s b (fun y => { y with ramp := .off, rowGroups := 0, maxLag := 0 }) hs.1
    exact ⟨rfl, by rw [hbay], by rw [hbay], fun c hc => State.bay_modBay_other _ _ _ _ (Ne.symm hc)⟩

end Sys2Proof.Machine
end

section
/-! What further operations of the model leave as they were. -/
namespace Sys2Proof.Machine
open Sys2Proof

-- One proof at a time: many short proofs elaborated side by side would cost the check its memory.
set_option Elab.async false


section
variable {α : Type} {π : State → α} {s₀ s : State} (h : Keeps π s₀ s)
  (hClk : IgnoresClk π := by exact fun _ _ => rfl)
  (hClkT : Ignores π State.modClk := by exact fun _ _ => rfl)
  (hPins : Ignores π State.modPins := by exact fun _ _ => rfl)
  (hBoot : IgnoresBoot π := by exact fun _ _ => rfl)
  (hBootT : Ignores π State.modBoot := by exact fun _ _ => rfl)
  (hCfg : IgnoresCfg π := by exact fun _ _ => rfl)
  (hTun : Ignores π State.modTun := by exact fun _ _ => rfl)
  (hStew : IgnoresStew π := by exact fun _ _ => rfl)
  (hStewT : Ignores π State.modStew := by exact fun _ _ => rfl)
  (hReqs : IgnoresReqs π := by exact fun _ _ => rfl)
  (hRun : IgnoresRun π := by exact fun _ _ => rfl)
  (hTable : Ignores π State.modReqs := by exact fun _ _ => rfl)
  (hBayRest : IgnoresBayRest π := by exact fun _ _ _ => rfl)
  (hBayThr : IgnoresBayThr π := by exact fun _ _ _ => rfl)
  (hBays : IgnoresBays π := by exact fun _ _ => rfl)
  (hBaysT : ∀ s l, π { s with bays := l } = π s := by exact fun _ _ => rfl)
  (hBars : Ignores π State.modBars := by exact fun _ _ => rfl)
  (hMem : Ignores π State.modMem := by exact fun _ _ => rfl)
  (hQuota : Ignores π State.modQuota := by exact fun _ _ => rfl)
  (hStr : IgnoresStr π := by exact fun _ _ => rfl)
  (hStrT : Ignores π State.modStr := by exact fun _ _ => rfl)
  (hKv : Ignores π State.modKv := by exact fun _ _ => rfl)
  (hPorts : IgnoresPorts π := by exact fun _ _ => rfl)
  (hNet : IgnoresNet π := by exact fun _ _ => rfl)
  (hNetN : Ignores π State.modNet := by exact fun _ _ => rfl)
  (hHost : IgnoresHost π := by exact ⟨fun _ _ => rfl, fun _ _ _ _ _ => rfl⟩)
  (hHostT : Ignores π State.modHost := by exact fun _ _ => rfl)
  (hAud : Ignores π State.modAud := by exact fun _ _ => rfl)
  (hSent : Ignores π State.modSent := by exact fun _ _ => rfl)
  (hCnt : IgnoresCnt π := by exact fun _ _ => rfl)
  (hCntT : Ignores π State.modCnt := by exact fun _ _ => rfl)
  (hErr : IgnoresErr π := by exact fun _ _ => rfl)
  (hErrT : Ignores π State.modErr := by exact fun _ _ => rfl)
  (hPlumb : Ignores π State.modPlumb := by exact fun _ _ => rfl)
  (hCxl : Ignores π State.modCxl := by exact fun _ _ => rfl)
  (hHub : Ignores π State.modHub := by exact fun _ _ => rfl)
  (hPending : IgnoresPending π := by exact fun _ _ => rfl)
  (hFree : IgnoresFree π := by exact fun _ _ => rfl)

include h hCnt in
theorem State.countTile_keeps (t e k : Nat) : Keeps π s₀ (s.countTile t e k) := by
  grind [State.countTile, State.count_keeps]

include h hPorts in
theorem State.flood_keeps (skip : Option Nat) (bytes : List Byte) : Keeps π s₀ (s.flood skip bytes) := by
  grind [State.flood, State.putMsg_keeps, State.foldl_keeps]

include h hHub in
theorem State.askPark_keeps (x : ResTail) : Keeps π s₀ (s.askPark x) := by
  grind [State.askPark, State.addJob_keeps]

include h hBoot in
theorem State.writeAnchor_keeps (reason : Nat) : Keeps π s₀ (s.writeAnchor reason) := by
  have hstart : ∀ b : Boot, b.startFlash =
      { b with flashBusy := b.startFlash.flashBusy, flashQueue := b.startFlash.flashQueue, weights := b.startFlash.weights,
               weightsDone := b.startFlash.weightsDone, retrying := b.startFlash.retrying } := by
    intro b
    unfold Boot.startFlash
    split <;> rfl
  unfold State.writeAnchor
  split
  · exact State.modBoot_keeps h hBoot (hstart { s.boot with flashQueue := _ })
  · exact h

include h hPorts hNet in
theorem State.originate_keeps : Keeps π s₀ s.originate := by
  unfold State.originate
  split
  · exact h
  · exact State.flood_keeps (State.modNet_keeps h hNet rfl) hPorts ..

include h hPorts hNet in
theorem State.raiseEpoch_keeps : Keeps π s₀ s.raiseEpoch := by
  unfold State.raiseEpoch
  exact State.flood_keeps (State.modNet_keeps h hNet rfl) hPorts ..

include h hPorts hNet in
theorem State.checkMembers_keeps : Keeps π s₀ s.checkMembers := by
  grind [State.checkMembers, State.raiseEpoch_keeps]

include h hPorts hNet in
theorem State.floodCaps_keeps : Keeps π s₀ s.floodCaps := by
  grind [State.floodCaps, State.modNet_keeps, State.flood_keeps]

include h hPorts in
theorem State.floodLeave_keeps (reason : Nat) : Keeps π s₀ (s.floodLeave reason) := by
  grind [State.floodLeave, State.flood_keeps]

include h hPorts hNet hHost hCnt hErr in
theorem State.isolate_keeps : Keeps π s₀ s.isolate := by
  grind [State.isolate, State.error_keeps, State.modNet_keeps, State.checkMembers_keeps]

include h hPorts hNet hNetN in
theorem State.takeId_keeps (id : Nat) : Keeps π s₀ (s.takeId id) := by
  grind [State.takeId, State.modNet_keeps, State.modNet_keeps_all, State.originate_keeps, State.floodCaps_keeps, State.checkMembers_keeps]

include h hNet in
theorem State.noteAwaited_keeps : Keeps π s₀ s.noteAwaited := by
  grind [State.noteAwaited, State.modNet_keeps, Option.map_eq_some_iff]

include h hPorts hNet hNetN hHost hCnt hErr in
theorem State.assignId_keeps (excluded : List Nat) : Keeps π s₀ (s.assignId excluded) := by
  grind [State.assignId, State.takeId_keeps, State.noteAwaited_keeps, State.isolate_keeps]

include h hPorts hNet hNetN hHost hCnt hErr in
theorem State.adjDown_keeps (port : Fin 12) : Keeps π s₀ (s.adjDown port) := by
  grind [State.adjDown, State.modNet_keeps, State.modNet_keeps_all, State.originate_keeps, State.assignId_keeps, State.checkMembers_keeps]

include h hPorts in
theorem State.reroute_keeps (skip : Fin 12) (vc : Nat) (bytes : List Byte) : Keeps π s₀ (s.reroute skip vc bytes) := by
  grind [State.reroute, State.putMsg_keeps]

include h hPorts in
theorem State.returnMsgs_keeps (n : Fin 12) : Keeps π s₀ (s.returnMsgs n) := by
  grind [State.returnMsgs, State.modPort_keeps, State.each_keeps, State.reroute_keeps, State.each_keeps]

include h hPorts hNet hNetN hHost hCnt hErr in
theorem State.linkDown_keeps (n : Fin 12) : Keeps π s₀ (s.linkDown n) := by
  grind [State.linkDown, State.adjDown_keeps, State.returnMsgs_keeps]

include h hPorts hNet hNetN hHost hCnt hErr in
theorem State.silenceNow_keeps (n : Fin 12) (reason : Nat) : Keeps π s₀ (s.silenceNow n reason) := by
  grind [State.silenceNow, State.modPort_keeps, State.linkDown_keeps]

include h hClk hCnt in
theorem State.stepTo_keeps (t d : Nat) : Keeps π s₀ (s.stepTo t d) := by
  grind [State.stepTo, State.modTile_keeps, State.countTile_keeps]

include h hClk hCnt in
theorem State.dropRise_keeps (t : Nat) : Keeps π s₀ (s.dropRise t) := by
  grind [State.dropRise, State.modTile_keeps, State.countTile_keeps]

include h hClk hCnt in
theorem State.pursue_keeps (t : Nat) : Keeps π s₀ (s.pursue t) := by
  grind [State.pursue, State.stepTo_keeps, State.dropRise_keeps]

include h hStew hRun hBayRest hBayThr hBays hBars hMem hQuota hKv hPorts hNet hCnt in
theorem State.stopAll_keeps : Keeps π s₀ s.stopAll := by
  grind [State.stopAll, State.each_keeps, State.stopWu_keeps, State.faultRamp_keeps, State.each_keeps]

include h hPorts hNet hNetN hHost hCnt hErr in
theorem State.sleepPort_keeps (n : Fin 12) : Keeps π s₀ (s.sleepPort n) := by
  grind [State.sleepPort, State.modPort_keeps, State.silenceNow_keeps]

include h hStewT hCnt in
theorem State.selfRefresh_keeps : Keeps π s₀ s.selfRefresh := by
  grind [State.selfRefresh, State.each_keeps, State.countHbm_keeps, State.modStew_keeps, State.modStew_keeps_all, State.each_keeps]

include h hClk hCnt in
theorem State.pursueAll_keeps : Keeps π s₀ s.pursueAll := by
  grind [State.pursueAll, State.each_keeps, State.pursue_keeps, State.each_keeps]

end
end Sys2Proof.Machine
end

section
/-! The clock monitor (02, R43 to R48, R50). -/
namespace Sys2Proof.Machine
open Sys2Proof

/-! ## Error records and interrupt causes -/

/-- An error of a class that is never withheld is in the ring of records. -/
theorem State.error_recorded {s : State} {e : ErrSpec} (hc : e.cls ≠ 0) :
    ∃ r ∈ (s.error e).err.ring, r.cls = e.cls ∧ r.source = e.source ∧ r.inst = e.inst ∧ r.code = e.code := by
  rw [State.error_err hc]
  exact ⟨_, ErrLog.mem_ring_push _ _, rfl, rfl, rfl, rfl⟩

/-- What a change of a page leaves as it was, it leaves so on every page. -/
theorem State.page_modPage_kept {α : Type} (π : FnPage → α) {f : FnPage → FnPage} (hf : ∀ p, π (f p) = π p) (s : State) (n g : Fin 16) :
    π ((s.modPage n f).page g) = π (s.page g) := by
  simp only [State.page, State.modPage, State.modHost, List.getD_eq_getElem?_getD, List.getElem?_modify]
  split
  · cases s.host.pages[g.val]? with
    | none => rfl
    | some p => exact hf p
  · cases s.host.pages[g.val]? <;> rfl

theorem State.irqCause_sendMsix (s : State) (f g : Fin 16) (v : Nat) : ((s.sendMsix f v).page g).irqCause = (s.page g).irqCause := by
  unfold State.sendMsix
  split
  · rfl
  · split
    · refine State.page_modPage_kept (fun p => p.irqCause) ?_ s f g
      exact fun _ => rfl
    · rfl

theorem State.irqCause_sendQuiet (s : State) (f g : Fin 16) (v : Nat) : ((s.sendQuiet f v).page g).irqCause = (s.page g).irqCause := by
  unfold State.sendQuiet
  split
  · rfl
  · refine (State.page_modPage_kept (fun p => p.irqCause) ?_ _ f g).trans (State.irqCause_sendMsix s f g v)
    exact fun _ => rfl

/-- A raised vector latches its cause, and no other changes. -/
theorem State.irqCause_raise {s : State} (h : s.host.pages.length = 16) (f : Fin 16) (v : Nat) :
    ((s.raise f v).page f).irqCause = (s.page f).irqCause ||| (1#32 <<< v) := by
  have hlatch : ((s.modPage f fun p => { p with irqCause := p.irqCause ||| (1#32 <<< v) }).page f).irqCause =
      (s.page f).irqCause ||| (1#32 <<< v) := by rw [State.page_modPage_same _ _ _ h]
  unfold State.raise
  dsimp only
  split
  · exact hlatch
  · split
    · exact (State.irqCause_sendQuiet _ f f v).trans hlatch
    · exact (State.irqCause_sendMsix _ f f v).trans hlatch

theorem State.irqCause_raise_set {s : State} (h : s.host.pages.length = 16) (f : Fin 16) {v : Nat} (hv : v < 32) :
    ((s.raise f v).page f).irqCause.getLsbD v = true := by
  rw [State.irqCause_raise h]
  simp [hv]

/-! ## The end of all work -/

theorem State.running_stopWu (s : State) (home : Nat) (k : WuKey) (drain : Bool) :
    (s.stopWu home k drain).req.running = s.req.running.filter fun r => !(r.home == home && r.key == k) := by
  unfold State.stopWu
  split
  next hnone =>
    have hall := List.find?_eq_none.mp hnone
    refine (List.filter_eq_self.mpr fun r hr => ?_).symm
    rw [Bool.eq_false_iff.mpr (hall r hr), Bool.not_false]
  next run hrun =>
    extract_lets live s1 s2 s3
    have h1 : Keeps (fun s => s.req.running) s s1 := by
      simp only [s1]
      split
      · exact State.each_keeps (.refl s) (fun s x h => State.each_keeps h (fun s t h => State.drainAll_keeps h ..) _) _
      · exact .refl s
    have h2 : Keeps (fun s => s.req.running) s s2 := State.leaveFabricBars_keeps h1 ..
    have h3 : Keeps (fun s => s.req.running) s s3 :=
      State.each_keeps h2 (fun s x h => State.freeBay_keeps (State.faultRamp_keeps h ..) ..) _
    have h4 : Keeps (fun s => s.req.running) s (s3.abandonKv home k) := State.abandonKv_keeps h3 ..
    rw [← h4.eq]
    rfl

theorem State.mem_running_each_stopWu (l : List RunWu) (s : State) {r : RunWu}
    (h : r ∈ (s.each l fun s w => s.stopWu w.home w.key false).req.running) :
    r ∈ s.req.running ∧ ∀ w ∈ l, ¬ (r.home = w.home ∧ r.key = w.key) := by
  induction l generalizing s with
  | nil => exact ⟨h, by simp⟩
  | cons w l ih =>
    obtain ⟨hmem, hrest⟩ := ih (s.stopWu w.home w.key false) h
    rw [State.running_stopWu, List.mem_filter] at hmem
    obtain ⟨hmem, hne⟩ := hmem
    refine ⟨hmem, List.forall_mem_cons.mpr ⟨?_, hrest⟩⟩
    rintro ⟨hhome, hkey⟩
    rw [hhome, hkey, beq_self_eq_true, beq_self_eq_true] at hne
    exact absurd hne (by decide)

theorem State.running_stopAll (s : State) : s.stopAll.req.running = [] := by
  unfold State.stopAll
  have hramp := State.each_keeps (π := fun s => s.req.running) (f := State.faultRamp)
    (.refl (s.each s.req.running fun (s : State) (w : RunWu) => s.stopWu w.home w.key false))
    (fun s b h => State.faultRamp_keeps h ..) allBays
  have heq := hramp.eq
  dsimp only at heq ⊢
  rw [heq, List.eq_nil_iff_forall_not_mem]
  intro r hr
  obtain ⟨hmem, hne⟩ := State.mem_running_each_stopWu _ s hr
  exact hne r hmem ⟨rfl, rfl⟩

/-! ## Divider steps -/

/-- Beside the tiles' clocks and event counters, `t` is `s`. -/
def Retiled (s t : State) : Prop := t = { s with clk := { s.clk with tiles := t.clk.tiles }, cnt := t.cnt }

theorem Retiled.refl (s : State) : Retiled s s := rfl

theorem Retiled.trans {s t u : State} (h : Retiled s t) (h' : Retiled t u) : Retiled s u := by
  unfold Retiled at h h' ⊢
  rw [h', h]

theorem State.stepTo_retiled (s : State) (t d : Nat) : Retiled s (s.stepTo t d) := rfl

theorem State.dropRise_retiled (s : State) (t : Nat) : Retiled s (s.dropRise t) := by
  unfold State.dropRise
  split <;> rfl

theorem State.pursue_retiled (s : State) (t : Nat) : Retiled s (s.pursue t) := by
  unfold State.pursue
  dsimp only
  split
  · split
    · exact .refl s
    · exact State.stepTo_retiled s t _
  · split
    · exact (State.dropRise_retiled s t).trans (State.stepTo_retiled _ t _)
    · exact .refl s

theorem Retiled.each {α : Type} {f : State → α → State} (hf : ∀ s x, Retiled s (f s x)) (l : List α) (s : State) : Retiled s (s.each l f) := by
  induction l generalizing s with
  | nil => exact .refl s
  | cons x l ih => exact (hf s x).trans (ih _)

theorem State.pursueAll_retiled (s : State) : Retiled s s.pursueAll := by
  unfold State.pursueAll
  split
  · exact Retiled.each State.pursue_retiled _ s
  · exact .refl s

/-! ## The loss of the reference -/

/-- The clocks once they have stopped. -/
def Clk.stopped (c : Clk) (loss : Bool) : Clk :=
  { c with pllEnabled := false, pllLocked := false, warmInProgress := false, clockLoss := loss, pstate := .p0, p2Since := none,
           idleSince := none, p3Entering := false, tiles := c.tiles.map TileClk.cut, aonOnRc := true, timeDegraded := true }

theorem State.clockStop_spec {s : State} (hs : Safety.shaped s) :
    s.clockStop.clk = s.clk.stopped (!s.boot.phase.booting) ∧ s.clockStop.req.running = [] ∧ s.clockStop.host.linkUp = false ∧
      (∃ e ∈ s.clockStop.err.ring, e.cls = 2 ∧ e.source = 0x01 ∧ e.code = 0x0203) ∧
      (s.clockStop.page 0).irqCause.getLsbD 3 = true ∧ ∀ r ∈ s.clockStop.req.table, r.phase ≠ .complete → r.clockDegraded = true := by
  unfold State.clockStop
  extract_lets s1 s2 s3 s4
  have h1 : Keeps (fun s => (s.clk, s.boot)) s s1 := by
    refine State.each_keeps (.refl s) (fun s n h => ?_) _
    split
    · exact State.silenceNow_keeps h ..
    · exact h
  have hsound1 : (Ctx.ofState s).Sound s1 := by
    refine State.each_sound (Ctx.sound_ofState s) (fun s n h => ?_) _
    split
    · exact State.silenceNow_sound h n 1
    · exact h
  clear_value s1
  have hsound := State.error_sound (State.stopAll_sound hsound1) { cls := 2, source := 0x01, code := 0x0203 }
  have h2 : Keeps (fun s => (s.clk, s.boot)) s s2 := State.raise_keeps (State.error_keeps (State.stopAll_keeps h1 ..) ..) ..
  have hrun2 : s2.req.running = [] := by
    have h : Keeps (fun s => s.req.running) s1.stopAll s2 := State.raise_keeps (State.error_keeps (.refl _) ..) ..
    exact h.eq.trans (State.running_stopAll s1)
  have herr2 : ∃ e ∈ s2.err.ring, e.cls = 2 ∧ e.source = 0x01 ∧ e.code = 0x0203 := by
    have h : Keeps State.err (s1.stopAll.error { cls := 2, source := 0x01, code := 0x0203 }) s2 := State.raise_keeps (.refl _) ..
    obtain ⟨e, he, hcls, hsource, -, hcode⟩ :=
      State.error_recorded (s := s1.stopAll) (e := { cls := 2, source := 0x01, code := 0x0203 }) (by decide)
    rw [← h.eq] at he
    exact ⟨e, he, hcls, hsource, hcode⟩
  have hirq2 : (s2.page 0).irqCause.getLsbD 3 = true := State.irqCause_raise_set (hsound.shaped hs).2.2.1 0 (by decide)
  clear_value s2
  have h3 : ∀ {α : Type} (π : State → α) (_ : Ignores π State.modStew) (_ : IgnoresCnt π), Keeps π s2 s3 := by
    intro α π hStew hCnt
    simp only [s3]
    split
    · exact State.selfRefresh_keeps (.refl s2) hStew hCnt
    · exact .refl s2
  have hclk : s3.clk = s.clk :=
    (h3 (fun s => s.clk) (fun _ _ => rfl) (fun _ _ => rfl)).eq.trans (congrArg Prod.fst h2.eq)
  have hboot : s3.boot = s.boot :=
    (h3 (fun s => s.boot) (fun _ _ => rfl) (fun _ _ => rfl)).eq.trans (congrArg Prod.snd h2.eq)
  have hrun : s3.req.running = [] := (h3 (fun s => s.req.running) (fun _ _ => rfl) (fun _ _ => rfl)).eq.trans hrun2
  have herr : s3.err = s2.err := (h3 State.err (fun _ _ => rfl) (fun _ _ => rfl)).eq
  have hpage : s3.page 0 = s2.page 0 := (h3 (fun s => s.page 0) (fun _ _ => rfl) (fun _ _ => rfl)).eq
  clear_value s3
  refine ⟨?_, hrun, rfl, by rw [← herr] at herr2; exact herr2, by rw [← hpage] at hirq2; exact hirq2, ?_⟩
  · simp only [s4, State.degradeTime, State.modHost_clk, State.modReqs_clk, State.modClk_clk, hclk, hboot]
    rfl
  · intro r hr hp
    have hr' : r ∈ s3.req.table.map fun r => if r.phase == .complete then r else { r with clockDegraded := true } := hr
    obtain ⟨q, -, rfl⟩ := List.mem_map.mp hr'
    by_cases hq : q.phase = .complete
    · simp [hq] at hp
    · simp [hq]

end Sys2Proof.Machine
end

section
/-! The clock monitor's events (02, R43 to R48, R50), and divider steps (02, R40 to R42; 04, R115). -/
namespace Sys2Proof.Machine
open Sys2Proof

theorem State.loseRef_clk {s : State} (hs : Safety.shaped s) (hpwr : s.clk.pwrOk = true) :
    s.loseRef.clk.refLost = true ∧ s.loseRef.clk.glitchTimes = s.clk.glitchTimes ∧ s.loseRef.clk.glitches = s.clk.glitches := by
  unfold State.loseRef
  split
  · next h =>
    simp only [hpwr, Bool.not_true, Bool.false_or] at h
    exact ⟨h, rfl, rfl⟩
  · extract_lets s1
    split
    · exact ⟨rfl, rfl, rfl⟩
    · obtain ⟨hclk, -⟩ := State.clockStop_spec (s := s1) hs
      rw [hclk]
      exact ⟨rfl, rfl, rfl⟩

/-- A glitch: counted, and the sixteenth within 1 ms loses the reference. -/
theorem State.refGlitch_spec {s : State} (hs : Safety.shaped s) (hpwr : s.clk.pwrOk = true) {at_ : Nat} (hat : s.clk.devTime < at_) :
    let near := s.clk.glitchTimes.countP fun x => decide (at_ < x + 1000000)
    let t := doRefGlitch at_ s
    t.clk.glitches = satInc s.clk.glitches ∧
      (near < 15 → t.clk.refLost = s.clk.refLost ∧ t.clk.pllLocked = s.clk.pllLocked ∧ at_ ∈ t.clk.glitchTimes) ∧
      (15 ≤ near → t.clk.refLost = true ∧ t.clk.glitchTimes = []) := by
  intro near t
  have ht : doRefGlitch at_ s = t := rfl
  clear_value t
  have hadv : s.advance at_ = { s with clk := { s.clk with devTime := at_, frac := 0 } } := by
    simp only [State.advance, hpwr, hat, decide_true, Bool.and_self, if_true]
  unfold doRefGlitch at ht
  extract_lets s1 now times s2 s3 at ht
  have hlen : times.length = near + 1 := by
    simp only [times, now, s1, hadv, List.length_append, List.length_cons, List.length_nil, ← List.countP_eq_length_filter, near]
  have hnow : now = at_ := by simp only [now, s1, hadv]
  have hpwr1 : s1.clk.pwrOk = true := by simp only [s1, hadv, hpwr]
  have hclk3 : s3.clk = s2.clk := (State.countDev_keeps (π := State.clk) (State.error_keeps (.refl s2) ..) ..).eq
  have hshape2 : Safety.shaped s2 := by
    simp only [s2, s1, hadv]
    exact hs
  have hshape3 : Safety.shaped s3 := (State.error_sound (Ctx.sound_ofState s2) _).shaped hshape2
  have hclk2 : s2.clk = { s.clk with devTime := at_, frac := 0, glitches := satInc s.clk.glitches, glitchTimes := times } := by
    simp only [s2, s1, hadv, State.modClk_clk]
  clear_value s3
  rw [if_neg (by simp [hpwr1])] at ht
  by_cases hnear : 15 ≤ near
  · rw [if_pos (by omega)] at ht
    obtain ⟨hlost, htimes, hglitches⟩ := State.loseRef_clk (s := s3.modClk fun c => { c with glitchTimes := [] }) hshape3
      (by rw [State.modClk_clk, hclk3, hclk2]; exact hpwr)
    rw [← ht]
    refine ⟨?_, fun h => by omega, fun _ => ⟨hlost, htimes⟩⟩
    rw [hglitches, State.modClk_clk, hclk3, hclk2]
  · rw [if_neg (by omega)] at ht
    rw [← ht, hclk3, hclk2]
    refine ⟨rfl, fun _ => ⟨rfl, rfl, ?_⟩, fun h => absurd h hnear⟩
    simp only [times, hnow, List.mem_append, List.mem_singleton, or_true]

/-- Settles O33, event by event. -/
theorem clockEvents : Obligations.ClockEvents := by
  intro s hs halive
  obtain ⟨hpwr, hheld⟩ : s.clk.pwrOk = true ∧ s.clk.heldInReset = false := by simpa [State.alive] using halive
  refine ⟨fun at_ hat => ⟨_, rfl, State.refGlitch_spec hs hpwr hat⟩, fun fast hlock hdrift => ⟨_, rfl, ?_⟩, fun hdrift => ⟨_, rfl, ?_⟩,
    fun hlost hp3 hscan => ⟨_, rfl, ?_⟩, fun sensor => ⟨_, rfl, ?_⟩⟩
  · unfold doRefDrift
    rw [if_neg (by simp [hpwr, hlock, hdrift])]
    extract_lets s1
    have hclk : ((s1.error { cls := 0, source := 0x01, code := 0x0202 }).raise 0 3).clk = s1.clk :=
      (State.raise_keeps (π := State.clk) (State.error_keeps (.refl s1) ..) ..).eq
    have hmem : ((s1.error { cls := 0, source := 0x01, code := 0x0202 }).raise 0 3).mem = s1.mem :=
      (State.raise_keeps (π := State.mem) (State.error_keeps (.refl s1) ..) ..).eq
    have hshape1 : Safety.shaped (s1.error { cls := 0, source := 0x01, code := 0x0202 }) :=
      (State.error_sound (Ctx.sound_ofState s1) _).shaped hs
    have hirq := State.irqCause_raise_set hshape1.2.2.1 0 (show 3 < 32 by decide)
    generalize (s1.error { cls := 0, source := 0x01, code := 0x0202 }).raise 0 3 = s2 at hclk hmem hirq
    have htiles : s2.pursueAll = { s2 with clk := { s2.clk with tiles := s2.pursueAll.clk.tiles }, cnt := s2.pursueAll.cnt } :=
      State.pursueAll_retiled s2
    rw [htiles]
    exact ⟨by rw [hclk]; rfl, by rw [hclk]; rfl, hirq, hmem⟩
  · have htiles := State.pursueAll_retiled (s.modClk fun c => { c with refDrift := false, refFast := false })
    rw [doRefDriftClear, if_pos hdrift]
    unfold Retiled at htiles
    rw [htiles]
    exact ⟨rfl, rfl, rfl⟩
  · have hlose : doRefLost s =
        (s.modClk fun c => { c with refLost := true, refQualified := false, refDrift := false, refFast := false }).clockStop := by
      unfold doRefLost State.loseRef
      rw [if_neg (by simp [hpwr, hlost])]
      extract_lets s1
      have hgo : ¬ ((s1.clk.pstate == PState.p3 || s1.clk.heldInReset || s1.boot.phase == BootPhase.scan) = true) := by
        simp only [s1, State.modClk_clk, State.modClk_boot, hheld, Bool.or_false, Bool.or_eq_true, beq_iff_eq, not_or]
        exact ⟨hp3, hscan⟩
      rw [if_neg hgo]
    obtain ⟨hclk, hrun, hlink, herr, hirq, htable⟩ := State.clockStop_spec
      (s := s.modClk fun c => { c with refLost := true, refQualified := false, refDrift := false, refFast := false }) hs
    rw [hlose]
    refine ⟨?_, ?_, ?_, ?_, ?_, hrun, hlink, herr, hirq, htable⟩
    all_goals rw [hclk]; rfl
  · simp only [doThermtrip, hpwr, Bool.not_true, Bool.false_eq_true, if_false]
    refine ⟨rfl, rfl, rfl, rfl, rfl, fun x hx => ?_, rfl⟩
    obtain ⟨y, -, rfl⟩ := List.mem_map.mp hx
    rfl

/-! ## Divider steps (R40 to R42, R115) -/

theorem State.tile_modTile_same {s : State} {k : Nat} (hk : k < s.clk.tiles.length) (f : TileClk → TileClk) :
    (s.modTile k f).tile k = f (s.tile k) := getD_modify_same _ _ _ _ hk

theorem State.tile_modTile_other (s : State) {k j : Nat} (h : k ≠ j) (f : TileClk → TileClk) : (s.modTile k f).tile j = s.tile j :=
  getD_modify_other _ _ _ _ _ h

/-- A tile without a step that follows its limit: a slower divider is taken at once, and nothing else of its clock is lost. -/
theorem State.pursue_tile {s : State} {k : Nat} (hk : k < s.clk.tiles.length) (hstep : (s.tile k).step = none) :
    let x := s.tile k
    let y := (s.pursue k).tile k
    y.confirmed = x.confirmed ∧ y.limit = x.limit ∧ x.div ≤ y.div ∧ (s.wantedDiv k = x.div → y = x) ∧
      ∀ j, j ≠ k → (s.pursue k).tile j = s.tile j := by
  intro x y
  have hpursue : s.pursue k = if s.wantedDiv k = x.div then s else s.stepTo k (s.wantedDiv k) := by
    simp only [State.pursue, hstep, x]
  by_cases hwant : s.wantedDiv k = x.div
  · have heq : s.pursue k = s := by rw [hpursue, if_pos hwant]
    have hy : y = x := congrArg (·.tile k) heq
    rw [hy, heq]
    exact ⟨rfl, rfl, Nat.le_refl _, fun _ => rfl, fun _ _ => rfl⟩
  · have heq : s.pursue k = s.stepTo k (s.wantedDiv k) := by rw [hpursue, if_neg hwant]
    have hy : y = { x with div := max x.div (s.wantedDiv k), step := some { target := s.wantedDiv k, mv := s.targetMv k (s.wantedDiv k) },
                           avsTarget := s.targetMv k (s.wantedDiv k) } :=
      (congrArg (·.tile k) heq).trans (State.tile_modTile_same hk _)
    rw [hy, heq]
    exact ⟨rfl, rfl, Nat.le_max_left _ _, fun h => absurd h hwant, fun j hj => State.tile_modTile_other s (Ne.symm hj) _⟩

/-- The regulator has reported the voltage of step `d`: the tile runs at its divider. -/
def TileClk.reached (x : TileClk) (d : DivStep) : TileClk := { x with confirmed := d.mv, div := d.target, step := none }

/-- A rise that was not reported: the tile is limited to the divider it has. -/
def TileClk.gaveUp (x : TileClk) : TileClk := { x with step := none, avsTarget := x.confirmed, limit := max x.limit x.div }

/-- A step that was not reported and is no rise. -/
def TileClk.dropped (x : TileClk) : TileClk := { x with step := none }

/-- The record of a rise of tile `k` that was not reported. -/
def unreported (k : Fin 4) : ErrSpec := { cls := 2, source := 0x01, inst := k.val, code := 0x0205 }

/-- Settles O35. The tile follows its limit once the step has ended (`State.pursue_tile`). -/
theorem dividerSteps : Obligations.DividerSteps := by
  intro s k d hs hstep x others
  have hk : k.val < s.clk.tiles.length := by rw [hs.2.2.2.1]; exact k.isLt
  have hother : ∀ {u : State} {f : TileClk → TileClk}, u.clk = (s.modTile k.val f).clk →
      ∀ j : Fin 4, j ≠ k → u.tile j.val = s.tile j.val := by
    intro u f hu j hj
    have htile : u.tile j.val = (s.modTile k.val f).tile j.val := by rw [State.tile, hu, ← State.tile]
    exact htile.trans (State.tile_modTile_other s (fun e => hj (Fin.ext e.symm)) f)
  have hsame : ∀ {u : State} {f : TileClk → TileClk}, u.clk = (s.modTile k.val f).clk → u.tile k.val = f x ∧ k.val < u.clk.tiles.length := by
    intro u f hu
    have htile : u.tile k.val = (s.modTile k.val f).tile k.val := by rw [State.tile, hu, ← State.tile]
    exact ⟨htile.trans (State.tile_modTile_same hk f), by rw [hu]; simpa [State.modTile] using hk⟩
  refine ⟨⟨_, rfl, ?_⟩, ⟨_, rfl, ?_⟩⟩
  · have hreached : doAvsTargetReached k s = ((s.modTile k.val (·.reached d)).countTile
        k.val 6 (b2n x.rising)).pursue k.val := by
      simp only [doAvsTargetReached, hstep]
      rfl
    generalize hu : (s.modTile k.val (·.reached d)).countTile k.val 6 (b2n x.rising) = u
      at hreached
    have hclk : u.clk = (s.modTile k.val (·.reached d)).clk := by rw [← hu]; rfl
    obtain ⟨htile, hlen⟩ := hsame hclk
    obtain ⟨hconfirmed, -, hdiv, heq, hrest⟩ := State.pursue_tile hlen (by rw [htile]; rfl)
    have hwanted : u.wantedDiv k.val = s.wantedDiv k.val := by
      have hstew : u.stew = s.stew := by rw [← hu]; rfl
      have hcfg : u.cfg = s.cfg := by rw [← hu]; rfl
      have hdrift : u.clk.driftLimit = s.clk.driftLimit := by rw [hclk]; rfl
      simp only [State.wantedDiv, State.ownLimit, State.tileLimit, htile, hstew, hcfg, hdrift]
      rfl
    rw [htile] at hconfirmed hdiv heq
    rw [hreached]
    refine ⟨hconfirmed, hdiv, fun j hj => (hrest j.val fun e => hj (Fin.ext e)).trans (hother hclk j hj), fun hwant => ?_⟩
    rw [heq (hwanted.trans hwant)]
    exact ⟨rfl, rfl⟩
  · by_cases hrise : x.rising = true
    · have hout : doAvsTimeout k s = (((s.modTile k.val TileClk.gaveUp).countTile k.val 9 1).error (unreported k)).pursue k.val := by
        simp only [doAvsTimeout, hstep]
        exact if_pos hrise
      obtain ⟨e, he, hcls, hsource, hinst, hcode⟩ := State.error_recorded (s := (s.modTile k.val TileClk.gaveUp).countTile k.val 9 1)
        (e := unreported k) (show 2 ≠ 0 by decide)
      have hclk : (((s.modTile k.val TileClk.gaveUp).countTile k.val 9 1).error (unreported k)).clk =
          (s.modTile k.val TileClk.gaveUp).clk :=
        (State.error_keeps (π := State.clk) (.refl _) ..).eq
      generalize (((s.modTile k.val TileClk.gaveUp).countTile k.val 9 1).error (unreported k)) = u at hout he hclk
      obtain ⟨htile, hlen⟩ := hsame hclk
      obtain ⟨-, hlimit, hdiv, -, hrest⟩ := State.pursue_tile hlen (by rw [htile]; rfl)
      rw [htile] at hlimit hdiv
      have hpursue : u.pursue k.val = _ := State.pursue_retiled u k.val
      rw [hout]
      refine ⟨hdiv, fun j hj => (hrest j.val fun e => hj (Fin.ext e)).trans (hother hclk j hj), 
        fun _ => ⟨hlimit, e, ?_, hcls, hsource, hinst, hcode⟩,
        fun h => by rw [hrise] at h; cases h⟩
      rw [hpursue]
      exact he
    · have hout : doAvsTimeout k s = (s.modTile k.val TileClk.dropped).pursue k.val := by
        simp only [doAvsTimeout, hstep]
        exact if_neg hrise
      obtain ⟨htile, hlen⟩ := hsame (u := s.modTile k.val TileClk.dropped) (f := TileClk.dropped) rfl
      obtain ⟨-, hlimit, hdiv, -, hrest⟩ := State.pursue_tile hlen (by rw [htile]; rfl)
      rw [htile] at hlimit hdiv
      have hpursue : (s.modTile k.val TileClk.dropped).pursue k.val = _ := State.pursue_retiled _ k.val
      rw [hout]
      refine ⟨hdiv, fun j hj => (hrest j.val fun e => hj (Fin.ext e)).trans (hother rfl j hj), fun h => absurd h hrise, fun _ => ⟨hlimit, ?_⟩⟩
      rw [hpursue]
      rfl

end Sys2Proof.Machine
end

section
/-! What the button, the watchdog and a SAFE-mode commit ask for (02, R49, R54 to R56; 03, R77; 04, R96). -/
namespace Sys2Proof.Machine
open Sys2Proof

/-! ## The queue of flash operations -/

/-- Beside its queue of flash operations, `c` is `b`. -/
def Requeued (b c : Boot) : Prop := c = { b with flashBusy := c.flashBusy, flashQueue := c.flashQueue }

theorem Boot.startFlash_requeued (b : Boot) : Requeued b b.startFlash := by
  unfold Boot.startFlash
  split <;> rfl

theorem Boot.flashOps_startFlash (b : Boot) : b.startFlash.flashOps = b.flashOps := by
  unfold Boot.startFlash Boot.flashOps
  split
  next hbusy hqueue => simp [hbusy, hqueue]
  next => rfl

theorem Boot.queueOps_requeued (b : Boot) (ops : List FlashOp) : Requeued b (b.queueOps ops) :=
  Boot.startFlash_requeued { b with flashQueue := b.flashQueue ++ ops }

theorem Boot.flashOps_queueOps (b : Boot) (ops : List FlashOp) : (b.queueOps ops).flashOps = b.flashOps ++ ops := by
  rw [Boot.queueOps, Boot.flashOps_startFlash]
  simp [Boot.flashOps]

theorem Boot.queueAnchor_requeued (b : Boot) (a : Anchor) : Requeued b (b.queueAnchor a) :=
  Boot.startFlash_requeued { b with flashQueue := _ }

/-- An anchor that is queued will be written. -/
theorem Boot.mem_flashOps_queueAnchor (b : Boot) (a : Anchor) : ∃ addr, FlashOp.anchorWrite addr a ∈ (b.queueAnchor a).flashOps := by
  refine ⟨b.nextAnchorAddr, ?_⟩
  rw [Boot.queueAnchor, Boot.queueAnchorOps, Boot.flashOps_startFlash]
  simp [Boot.flashOps]

/-- Beside the queue of flash operations, an anchor that is written changes nothing yet. -/
theorem State.writeAnchor_spec (s : State) (reason : Nat) :
    s.writeAnchor reason = { s with boot := (s.writeAnchor reason).boot } ∧ Requeued s.boot (s.writeAnchor reason).boot ∧
      ∀ a, s.dueAnchor reason = some a → ∃ addr, FlashOp.anchorWrite addr a ∈ (s.writeAnchor reason).boot.flashOps := by
  unfold State.writeAnchor
  cases s.dueAnchor reason with
  | none => exact ⟨rfl, rfl, by simp⟩
  | some a =>
    refine ⟨rfl, Boot.queueAnchor_requeued s.boot a, fun b hb => ?_⟩
    obtain rfl := Option.some.inj hb
    exact Boot.mem_flashOps_queueAnchor s.boot a

/-! ## Resets that are asked for -/

theorem State.askReset_of_none {s : State} (h : s.clk.pendingReset = .none) (hwarm : s.clk.warmInProgress = false) {r : ResetReq}
    (hr : r ≠ .none) : s.askReset r = s.modClk fun c => { c with pendingReset := r } := by
  unfold State.askReset
  rw [h, hwarm]
  cases r with
  | none => exact absurd rfl hr
  | warm c => rfl
  | cold c => rfl

/-- A cold reset is due whatever warm reset was. -/
theorem State.askReset_cold {s : State} (h : ∀ c, s.clk.pendingReset ≠ .cold c) (c : Nat) :
    (s.askReset (.cold c)).clk.pendingReset = .cold c ∧ s.askReset (.cold c) = { s with clk := (s.askReset (.cold c)).clk } := by
  unfold State.askReset
  cases hp : s.clk.pendingReset with
  | none =>
    simp only [Bool.and_false, Bool.false_eq_true, if_false]
    exact ⟨rfl, rfl⟩
  | warm k => exact ⟨rfl, rfl⟩
  | cold k => exact absurd hp (h k)

/-- A warm reset is due once the device is ready. -/
theorem State.askWarm_of_ready {s : State} (hready : s.boot.phase = .ready) (h : s.clk.pendingReset = .none)
    (hwarm : s.clk.warmInProgress = false) (cause : Nat) : s.askWarm cause = s.modClk fun c => { c with pendingReset := .warm cause } := by
  have hphase : (s.boot.phase == .ready || s.boot.phase == .safe) = true := by rw [hready]; rfl
  rw [State.askWarm, if_pos hphase, State.askReset_of_none h hwarm (by simp)]

/-- Time that has moved on has changed the clock alone. -/
theorem State.advance_eq (s : State) (t : Nat) : ∃ d f, s.advance t = { s with clk := { s.clk with devTime := d, frac := f } } := by
  unfold State.advance
  split
  · exact ⟨_, _, rfl⟩
  · exact ⟨s.clk.devTime, s.clk.frac, rfl⟩

/-- Settles O31, event by event. -/
theorem resetsAreAsked : Obligations.ResetsAreAsked := by
  refine ⟨?_, ?_⟩
  · intro s halive hready hp3 hentering hpending hwarm
    obtain ⟨hpwr, hheld⟩ : s.clk.pwrOk = true ∧ s.clk.heldInReset = false := by simpa [State.alive] using halive
    refine ⟨⟨_, rfl, ?_⟩, fun hdown hignored => ⟨⟨_, rfl, ?_⟩, _, rfl, ?_⟩, ⟨_, rfl, ?_⟩, fun core hlock => ⟨_, rfl, ?_⟩⟩
    · simp [doResetBtnPress, hpwr, State.isSafe, hready, State.latchWake, State.asleep, hp3, hentering, State.modClk]
    · have hask := State.askWarm_of_ready (s := s.modClk fun c => { c with btnDown := false }) hready hpending hwarm 3
      have hrelease : doResetBtnRelease s = (s.modClk fun c => { c with btnDown := false }).askWarm 3 := by
        simp [doResetBtnRelease, hpwr, hdown, hignored, hheld, State.isSafe, hready, hp3]
      rw [hrelease, hask]
      rfl
    · obtain ⟨hanchor, hqueue, hwritten⟩ := State.writeAnchor_spec s 4
      have hhold : doResetBtnHold s =
          ((s.writeAnchor 4).askReset (.cold 2)).modClk fun c => { c with btnIgnored := true, warmAfterP3 := false } := by
        simp [doResetBtnHold, halive, hdown, hignored]
      have hclk : (s.writeAnchor 4).clk = s.clk := by rw [hanchor]
      rw [State.askReset_of_none (by rw [hclk, hpending]) (by rw [hclk, hwarm]) (by simp)] at hhold
      rw [hhold]
      refine ⟨rfl, rfl, by rw [hanchor]; rfl, fun n hn => ?_⟩
      obtain ⟨addr, haddr⟩ := hwritten { reason := 4, recno := n, recHash := s.aud.headHash, imageSeq := s.cfg.header.sequence }
        (by simp only [State.dueAnchor, hn])
      exact ⟨addr, _, haddr, rfl, rfl⟩
    · by_cases hdown : s.clk.btnDown = true
      · have hrearm : doButtonRearm s = s := by simp [doButtonRearm, hdown]
        rw [hrearm, if_pos hdown]
      · simp [doButtonRearm, hpwr, hdown, State.modClk]
    · by_cases hfatal : s.isFatal = true
      · simp [doWatchdogExpiry, hfatal, ← hpending]
      · simp [doWatchdogExpiry, hfatal, halive, hlock, hp3, State.askWarm_of_ready hready hpending hwarm, State.modClk]
  · intro s at_ due hdue
    obtain ⟨d, f, hadv⟩ := State.advance_eq s at_
    have hdue' : (s.advance at_).boot.commitResetAt = some due := by rw [hadv]; exact hdue
    refine ⟨fun hlt => ?_, fun hle hcold => ⟨_, rfl, ?_⟩⟩
    · refine congrArg Host.Outcome.next ?_
      simp only [doSafeCommitReset, hdue', hlt, if_true]
    · have hreset : doSafeCommitReset at_ s =
          (((s.advance at_).modBoot fun b => { b with commitResetAt := none }).writeAnchor 4).askReset (.cold 7) := by
        simp only [doSafeCommitReset, hdue']
        exact if_neg (by omega)
      obtain ⟨hanchor, hqueue, hwritten⟩ :=
        State.writeAnchor_spec ((s.advance at_).modBoot fun b => { b with commitResetAt := none }) 4
      have hnotCold : ∀ c, (((s.advance at_).modBoot fun b => { b with commitResetAt := none }).writeAnchor 4).clk.pendingReset ≠ .cold c := by
        rw [hanchor, hadv]
        exact hcold
      obtain ⟨hpending, hclk⟩ := State.askReset_cold hnotCold 7
      rw [hreset]
      refine ⟨?_, hpending, ?_, fun a ha => ?_⟩
      · rw [hclk, hqueue]
        rfl
      · rw [hclk, hanchor, hadv]
        rfl
      · rw [hclk]
        refine hwritten a ?_
        rw [hadv]
        exact ha

end Sys2Proof.Machine
end

section
/-! What further operations of the model leave as they were. -/
namespace Sys2Proof.Machine
open Sys2Proof

-- One proof at a time: many short proofs elaborated side by side would cost the check its memory.
set_option Elab.async false


section
variable {α : Type} {π : State → α} {s₀ s : State} (h : Keeps π s₀ s)
  (hClk : IgnoresClk π := by exact fun _ _ => rfl)
  (hClkT : Ignores π State.modClk := by exact fun _ _ => rfl)
  (hPins : Ignores π State.modPins := by exact fun _ _ => rfl)
  (hBoot : IgnoresBoot π := by exact fun _ _ => rfl)
  (hBootT : Ignores π State.modBoot := by exact fun _ _ => rfl)
  (hCfg : IgnoresCfg π := by exact fun _ _ => rfl)
  (hTun : Ignores π State.modTun := by exact fun _ _ => rfl)
  (hStew : IgnoresStew π := by exact fun _ _ => rfl)
  (hStewT : Ignores π State.modStew := by exact fun _ _ => rfl)
  (hReqs : IgnoresReqs π := by exact fun _ _ => rfl)
  (hRun : IgnoresRun π := by exact fun _ _ => rfl)
  (hTable : Ignores π State.modReqs := by exact fun _ _ => rfl)
  (hBayRest : IgnoresBayRest π := by exact fun _ _ _ => rfl)
  (hBayThr : IgnoresBayThr π := by exact fun _ _ _ => rfl)
  (hBays : IgnoresBays π := by exact fun _ _ => rfl)
  (hBaysT : ∀ s l, π { s with bays := l } = π s := by exact fun _ _ => rfl)
  (hBars : Ignores π State.modBars := by exact fun _ _ => rfl)
  (hMem : Ignores π State.modMem := by exact fun _ _ => rfl)
  (hQuota : Ignores π State.modQuota := by exact fun _ _ => rfl)
  (hStr : IgnoresStr π := by exact fun _ _ => rfl)
  (hStrT : Ignores π State.modStr := by exact fun _ _ => rfl)
  (hKv : Ignores π State.modKv := by exact fun _ _ => rfl)
  (hPorts : IgnoresPorts π := by exact fun _ _ => rfl)
  (hNet : IgnoresNet π := by exact fun _ _ => rfl)
  (hNetN : Ignores π State.modNet := by exact fun _ _ => rfl)
  (hHost : IgnoresHost π := by exact ⟨fun _ _ => rfl, fun _ _ _ _ _ => rfl⟩)
  (hHostT : Ignores π State.modHost := by exact fun _ _ => rfl)
  (hAud : Ignores π State.modAud := by exact fun _ _ => rfl)
  (hSent : Ignores π State.modSent := by exact fun _ _ => rfl)
  (hCnt : IgnoresCnt π := by exact fun _ _ => rfl)
  (hCntT : Ignores π State.modCnt := by exact fun _ _ => rfl)
  (hErr : IgnoresErr π := by exact fun _ _ => rfl)
  (hErrT : Ignores π State.modErr := by exact fun _ _ => rfl)
  (hPlumb : Ignores π State.modPlumb := by exact fun _ _ => rfl)
  (hCxl : Ignores π State.modCxl := by exact fun _ _ => rfl)
  (hHub : Ignores π State.modHub := by exact fun _ _ => rfl)
  (hPending : IgnoresPending π := by exact fun _ _ => rfl)
  (hFree : IgnoresFree π := by exact fun _ _ => rfl)

include h hClk hPins in
theorem State.latchWake_keeps (bit : Nat) : Keeps π s₀ (s.latchWake bit) := by
  grind [State.latchWake, State.modClk_keeps, State.modPins_keeps]

include h hCnt in
theorem State.noteRead_keeps (a n : Nat) : Keeps π s₀ (s.noteRead a n) := by
  grind [State.noteRead, State.countAccess_keeps, State.countHbm_keeps, State.countT2_keeps, State.elim_keeps]

include h hQuota in
theorem State.addUsed_keeps (t : Fin 16) (x d : Nat) : Keeps π s₀ (s.addUsed t x d) := by
  grind [State.addUsed, State.modQuota_keeps]

include h hMem hQuota in
theorem State.placeItem_keeps (asn home : Nat) (t : Fin 16) (i : DemandItem) {x : PlacedItem} {u : State} (hu : s.placeItem asn home t i = some
    (u, x)) : Keeps π s₀ u := by
  grind [State.placeItem, State.modQuota_keeps, State.modMem_keeps]

include h hMem hQuota in
theorem State.placeAll_keeps (asn home : Nat) (t : Fin 16) (items : List DemandItem) {x : List PlacedItem} {u : State}
    (hu : State.placeAll asn home t items s = some (u, x)) : Keeps π s₀ u := by
  induction items generalizing s u x with
  | nil => cases hu; exact h
  | cons i items ih =>
    rw [State.placeAll] at hu
    split at hu
    · cases hu
    next s1 p hp =>
      split at hu
      · cases hu
      next s2 ps hps =>
        cases hu
        exact ih (State.placeItem_keeps h hMem hQuota asn home t i hp) hps

include h hStr in
theorem State.reserveSlots_keeps (asn home c g : Nat) {u : State} (hu : s.reserveSlots asn home c g = some u) : Keeps π s₀ u := by
  grind [State.reserveSlots, State.modStr_keeps, Option.map_eq_some_iff]

include h hMem hQuota hStr in
theorem State.evalDemand_keeps (asn home : Nat) (t : Fin 16) (items : List DemandItem) (gallery : Option (Nat × Nat)) {x : List PlacedItem}
    {u : State} (hu : s.evalDemand asn home t items gallery = some (u, x)) : Keeps π s₀ u := by
  unfold State.evalDemand at hu
  extract_lets d1 d2 slots at hu
  have hslots : ∀ x, slots = some x → Keeps π s₀ x := by grind [State.reserveSlots_keeps]
  clear_value slots
  split at hu
  · nomatch hu
  cases slots with
  | none => nomatch hu
  | some s1 =>
    dsimp only at hu
    split at hu
    · nomatch hu
    next s2 ps hps =>
      cases hu
      have hplaced := State.placeAll_keeps (hslots s1 rfl) hMem hQuota asn home t items hps
      exact State.addUsed_keeps (State.addUsed_keeps hplaced hQuota ..) hQuota ..

include h hQuota hStr hKv in
theorem State.releaseHere_keeps (home asn : Nat) : Keeps π s₀ (s.releaseHere home asn) := by
  grind [State.releaseHere, State.subUsed_keeps, State.modKv_keeps, State.modQuota_keeps, State.modStr_keeps, State.foldl_keeps,
    Option.map_eq_some_iff]

include h hPorts in
theorem State.silenceActive_keeps (reason : Nat) : Keeps π s₀ (s.silenceActive reason) := by
  grind [State.silenceActive, State.each_keeps, State.modPort_keeps, State.each_keeps]

include h hPins hStew hBayRest hPorts hHost hCnt hErr hErrT hFree in
theorem State.fatal_keeps (code inst : Nat) (fenced : Option Nat) : Keeps π s₀ (s.fatal code inst fenced) := by
  unfold State.fatal
  have h1 : Keeps π s₀ s.draw.2 := State.draw_keeps h hFree
  refine State.silenceActive_keeps (State.each_keeps ?_ (fun s b h => State.faultRamp_keeps h hStew hBayRest hCnt b) _) hPorts 1
  exact State.modPins_keeps (State.modErr_keeps_all (State.error_keeps h1 hHost hCnt hErr _) hErrT _) hPins _

include h hMem in
theorem State.remapGranule_keeps (g : Nat) : Keeps π s₀ (s.remapGranule g) := by
  grind [State.remapGranule, State.modMem_keeps]

include h hMem in
theorem State.remapReleased_keeps (base size : Nat) : Keeps π s₀ (s.remapReleased base size) := by
  grind [State.remapReleased, State.each_keeps, State.remapGranule_keeps, State.each_keeps, Option.map_eq_some_iff]

include h hPins hStew hBayRest hMem hPorts hHost hCnt hErr hErrT hFree in
theorem State.fencePc_keeps (g : Nat) : Keeps π s₀ (s.fencePc g) := by
  unfold State.fencePc
  grind [State.modMem_keeps, State.error_keeps, State.each_keeps, State.remapGranule_keeps, State.fatal_keeps, State.each_keeps,
    Option.map_eq_some_iff]

include h hPins hStew hBayRest hMem hPorts hHost hCnt hErr hErrT hFree in
theorem State.retireGranule_keeps (g : Nat) : Keeps π s₀ (s.retireGranule g) := by
  grind [State.retireGranule, State.fencePc_keeps, State.modMem_keeps, State.error_keeps, State.countHbm_keeps, State.remapGranule_keeps]

include h hPins hStew hBayRest hMem hPorts hHost hCnt hErr hErrT hFree in
theorem State.hbmCorrected_keeps (line : Nat) : Keeps π s₀ (s.hbmCorrected line) := by
  grind [State.hbmCorrected, State.modMem_keeps, State.error_keeps, State.countHbm_keeps, State.retireGranule_keeps]

include h hPlumb in
theorem State.plumbAdvance_keeps (b : Fin 80) : Keeps π s₀ (s.plumbAdvance b) := by
  grind [State.plumbAdvance, State.modPlumb_keeps]

include h hMem hHost hCnt hErr hPlumb in
theorem State.sramCorrected_keeps (b : Fin 80) (addr : Nat) : Keeps π s₀ (s.sramCorrected b addr) := by
  grind [State.sramCorrected, State.error_keeps, State.countBay_keeps, State.modMem_keeps, State.plumbAdvance_keeps]

include h hPins hStew hBayRest hMem hPorts hHost hCnt hErr hErrT hPlumb hFree in
theorem State.meet_keeps (a n : Nat) : Keeps π s₀ (s.meet a n) := by
  grind [State.meet, State.each_keeps, State.sramCorrected_keeps, State.hbmCorrected_keeps, State.noteRead_keeps, State.each_keeps]

include h hMem hStr hCnt in
theorem State.dropResidents_keeps : Keeps π s₀ s.dropResidents := by
  grind [State.dropResidents, State.each_keeps, State.clearRes_keeps, State.each_keeps]

include h hStr in
theorem State.takeBacking_keeps (t : Fin 16) (slotSize : Nat) {x : Nat} {u : State} (hu : s.takeBacking t slotSize = some (x, u)) :
    Keeps π s₀ u := by
  grind [State.takeBacking, State.modStr_keeps, Option.map_eq_some_iff]

include h hStr in
theorem State.giveBacking_keeps (t : Fin 16) (addr slotSize : Nat) : Keeps π s₀ (s.giveBacking t addr slotSize) := by
  grind [State.giveBacking, State.modStr_keeps]

include h hPins hStew hBayRest hMem hPorts hHost hCnt hErr hErrT hPlumb hFree in
theorem State.meetTagged_keeps (a n : Nat) : Keeps π s₀ (s.meetTagged a n) := by
  grind [State.meetTagged, State.each_keeps, State.meet_keeps, State.each_keeps]

include h hMem hCnt in
theorem State.writeCoded_keeps (a : Nat) (tag : BitVec 16) (lines : List Byte) : Keeps π s₀ (s.writeCoded a tag lines) := by
  grind [State.writeCoded, State.memWrite_keeps, State.modMem_keeps]

include h hMem hCnt in
theorem State.writeUnit_keeps (code wide : Bool) (a : Nat) (bytes : List Byte) : Keeps π s₀ (s.writeUnit code wide a bytes) := by
  grind [State.writeUnit, State.writeCoded_keeps, State.memWrite_keeps, State.modMem_keeps]

include h hMem hCnt in
theorem State.writeTagged_keeps (code wide : Bool) (a : Nat) (bytes : List Byte) : Keeps π s₀ (s.writeTagged code wide a bytes) := by
  grind [State.writeTagged, State.each_keeps, State.memWrite_keeps, State.writeUnit_keeps, State.modMem_keeps, State.each_keeps]

include h hBayRest hMem hKv hCnt in
theorem State.rollback_keeps (x : ResTail) : Keeps π s₀ (s.rollback x) := by
  grind [State.rollback, State.memWrite_keeps, State.each_keeps, State.setLanding_keeps, State.modKv_keeps, State.countDev_keeps,
    State.each_keeps]

include h hFree in
theorem State.drawBytes_keeps (n : Nat) : Keeps π s₀ (s.drawBytes n).2 := (hFree s _).trans h
include h hFree in
theorem State.drawBytes_keeps_eq (n : Nat) {x : List Byte} {u : State} (hu : s.drawBytes n = (x, u)) : Keeps π s₀ u := by
  have := State.drawBytes_keeps h (hFree := hFree) n
  rwa [hu] at this

include h hNet in
theorem State.deliverPush_keeps (home : Nat) (k : WuKey) (src : Nat) : Keeps π s₀ (s.deliverPush home k src) := by
  grind [State.deliverPush, State.modNet_keeps]

include h hReqs hTable hMem hStr hPorts hNet hHost hCnt hErr hHub hFree in
theorem State.failReq_keeps (asn status detail : Nat) : Keeps π s₀ (s.failReq asn status detail) := by
  grind [State.failReq, State.failReqAt_keeps, State.failWith_keeps, State.openRecord_keeps]

include h hPorts hNet in
theorem State.sendPush_keeps (x : PushTx) : Keeps π s₀ (s.sendPush x) := by
  grind [State.sendPush, State.each_keeps, State.sendReq_keeps, State.each_keeps]

include h hPorts hNet in
theorem State.startPush_keeps (x : PushTx) : Keeps π s₀ (s.startPush x) := by
  grind [State.startPush, State.modNet_keeps, State.sendPush_keeps]

include h hReqs hTable hMem hStr hPorts hNet hHost hCnt hErr hHub hFree in
theorem State.pushFails_keeps (home asn : Nat) (why : Nat × Nat) : Keeps π s₀ (s.pushFails home asn why) := by
  grind [State.pushFails, State.failReq_keeps, State.openRecord_keeps, State.sendMsgTo_keeps]

include h hPins hStew hReqs hTable hBayRest hMem hStr hPorts hNet hHost hCnt hErr hErrT hPlumb hHub hFree in
theorem State.push_keeps (home : Nat) (m : Formation) (k : WuKey) : Keeps π s₀ (s.push home m k) := by
  grind [State.push, State.deliverPush_keeps, State.draw_keeps, State.draw_keeps_eq, State.meetTagged_keeps, State.startPush_keeps,
    State.error_keeps, State.pushFails_keeps, State.drawBytes_keeps, State.drawBytes_keeps_eq]

include h hPins hStew hReqs hTable hBayRest hMem hStr hPorts hNet hHost hCnt hErr hErrT hPlumb hHub hFree in
theorem State.tryContext_keeps (asn : Nat) : Keeps π s₀ (s.tryContext asn) := by
  grind [State.tryContext, State.push_keeps]

include h hBayThr in
theorem State.wake_keeps (p : Fin 80 × Fin 128) : Keeps π s₀ (s.wake p) := by
  grind [State.wake, State.modThr_keeps]

include h hMem hQuota hStr in
theorem State.grantToken_keeps (home asn : Nat) (t : Fin 16) (m : Formation) (desc : Desc) (items : List DemandItem) (gallery : Option
    (Nat × Nat)) {x : List PlacedItem} {u : State} (hu : s.grantToken home asn t m desc items gallery = some (u, x)) : Keeps π s₀ u := by
  grind [State.grantToken, State.evalDemand_keeps, State.modQuota_keeps]

include h hTable hMem hQuota hStr hKv hPorts hNet in
theorem State.releaseTokens_keeps (asn : Nat) : Keeps π s₀ (s.releaseTokens asn) := by
  unfold State.releaseTokens
  dsimp only
  repeat' split
  all_goals grind [State.sendMsgTo_keeps, State.releaseHere_keeps, State.each_keeps, State.remapReleased_keeps, State.modNet_keeps,
    State.modReq_keeps, State.each_keeps, State.foldl_keeps]

include h hTable hStr in
theorem State.returnBacking_keeps (asn : Nat) : Keeps π s₀ (s.returnBacking asn) := by
  grind [State.returnBacking, State.giveBacking_keeps, State.modReq_keeps]

include h hReqs hTable hMem hQuota hStr hKv hPorts hNet hCnt hHub in
theorem State.failAdmission_keeps (asn status detail : Nat) : Keeps π s₀ (s.failAdmission asn status detail) := by
  grind [State.failAdmission, State.releaseTokens_keeps, State.returnBacking_keeps, State.countFn_keeps, State.finish_keeps]

include h hReqs hTable hMem hQuota hStr hKv hPorts hNet hCnt hHub in
theorem State.refuseAttempt_keeps (asn : Nat) : Keeps π s₀ (s.refuseAttempt asn) := by
  grind [State.refuseAttempt, State.failAdmission_keeps, State.releaseTokens_keeps, State.returnBacking_keeps, State.modReq_keeps,
    State.countFn_keeps]

include h hMem hPorts hNet hCnt in
theorem State.stageInput_keeps (r : Req) (data : List Byte) : Keeps π s₀ (s.stageInput r data) := by
  grind [State.stageInput, State.writeTagged_keeps, State.each_keeps, State.sendReq_keeps, State.each_keeps]

include h hReqs hTable hMem hStr hPorts hNet hHost hSent hCnt hErr hHub hFree in
theorem State.copyRing_keeps (r : Req) : Keeps π s₀ (s.copyRing r) := by
  grind [State.copyRing, State.failReqAt_keeps, State.modSent_keeps, State.countDev_keeps, State.stageInput_keeps, State.modReq_keeps]

include h hPins hStew hReqs hTable hBayRest hMem hStr hPorts hNet hHost hSent hCnt hErr hErrT hPlumb hHub hFree in
theorem State.startContext_keeps (asn : Nat) : Keeps π s₀ (s.startContext asn) := by
  unfold State.startContext
  grind [State.modReq_keeps, State.failReq_keeps, State.failReqAt_keeps, State.copyRing_keeps, State.addJob_keeps, State.tryContext_keeps]

include h hPins hStew hReqs hTable hBayRest hMem hQuota hStr hKv hPorts hNet hHost hSent hCnt hErr hErrT hPlumb hHub hFree in
theorem State.askNodes_keeps (asn fuel : Nat) : Keeps π s₀ (State.askNodes asn fuel s) := by
  induction fuel generalizing s with
  | zero => exact h
  | succ fuel ih =>
    unfold State.askNodes
    split
    · exact h
    split
    · split
      · grind [State.startContext_keeps]
      · extract_lets nodes items gallery s1
        split
        · split
          · grind [State.countFn_keeps, State.refuseAttempt_keeps, State.failAdmission_keeps]
          next s1 ps hg => exact ih (by grind [State.modReq_keeps, State.grantToken_keeps])
        · exact State.sendMsgTo_keeps h hPorts hNet ..
    · exact h

include h hTable hStr in
theorem State.reserveBacking_keeps (r : Req) {u : State} (hu : s.reserveBacking r = some u) : Keeps π s₀ u := by
  grind [State.reserveBacking, State.takeBacking_keeps, State.modReq_keeps, Option.map_eq_some_iff]

include h hPins hStew hReqs hTable hBayRest hMem hQuota hStr hKv hPorts hNet hHost hSent hCnt hErr hErrT hPlumb hHub hFree in
theorem State.admitFrom11_keeps (asn : Nat) : Keeps π s₀ (s.admitFrom11 asn) := by
  unfold State.admitFrom11
  split
  · exact h
  split
  · grind [State.failAdmission_keeps]
  split
  · exact h
  split
  · grind [State.failAdmission_keeps, State.modReq_keeps]
  extract_lets s1
  have h1 : Keeps π s₀ s1 := State.modReq_keeps h hTable ..
  clear_value s1
  split
  · grind [State.failAdmission_keeps]
  split
  · grind [State.refuseAttempt_keeps]
  next s2 hs2 =>
    have h2 : Keeps π s₀ s2 := State.reserveBacking_keeps h1 hTable hStr _ hs2
    grind [State.askNodes_keeps]

include h hPins hStew hReqs hTable hBayRest hMem hQuota hStr hKv hPorts hNet hHost hSent hCnt hErr hErrT hPlumb hHub hFree in
theorem State.admitRequest_keeps (asn : Nat) : Keeps π s₀ (s.admitRequest asn) := by
  grind [State.admitRequest, State.failAdmission_keeps, State.admitFrom11_keeps]

include h hPins hStew hReqs hTable hBayRest hMem hQuota hStr hKv hPorts hNet hHost hSent hCnt hErr hErrT hPlumb hHub hFree in
theorem State.submit_keeps (f : Fin 16) (desc : Desc) (wake : Bool) : Keeps π s₀ (s.submit f desc wake) := by
  grind [State.submit, State.wake_keeps, State.modReqs_keeps, State.modReqs_keeps_all, State.admitRequest_keeps]

include h hClk in
theorem State.setRunState_keeps : Keeps π s₀ s.setRunState := by
  grind [State.setRunState, State.modClk_keeps]

include h hClk in
theorem State.noteIdle_keeps : Keeps π s₀ s.noteIdle := by
  grind [State.noteIdle, State.modClk_keeps]

include h hPins hStew hReqs hTable hBayRest hMem hQuota hStr hKv hPorts hNet hHost hSent hCnt hErr hErrT hPlumb hHub hFree in
theorem State.tryWake_keeps : Keeps π s₀ s.tryWake := by
  grind [State.tryWake, State.modReqs_keeps, State.modReqs_keeps_all, State.submit_keeps, Option.map_eq_some_iff]

include h hBayRest hPlumb in
theorem State.abandonRun_keeps : Keeps π s₀ s.abandonRun := by
  grind [State.abandonRun, State.each_keeps, State.modBay_keeps, State.modPlumb_keeps, State.each_keeps, Option.map_eq_some_iff]

include h hClk in
theorem State.askReset_keeps (r : ResetReq) : Keeps π s₀ (s.askReset r) := by
  unfold State.askReset
  grind [State.modClk_keeps]

include h hClk in
theorem State.askWarm_keeps (cause : Nat) : Keeps π s₀ (s.askWarm cause) := by
  grind [State.askWarm, State.askReset_keeps]

include h hCntT in
theorem State.restartWindows_keeps (len base done : Nat) : Keeps π s₀ (s.restartWindows len base done) := by
  grind [State.restartWindows, State.modCnt_keeps, State.modCnt_keeps_all, Option.map_eq_some_iff]

include h hClk in
theorem State.bootTile_keeps (t : Nat) : Keeps π s₀ (s.bootTile t) := by
  grind [State.bootTile, State.modTile_keeps]

include h hClk in
theorem State.bootTiles_keeps : Keeps π s₀ s.bootTiles := by
  grind [State.bootTiles, State.each_keeps, State.bootTile_keeps, State.each_keeps]

include h hStew hBays hBars in
theorem State.clearBays_keeps (last : LastTenant) : Keeps π s₀ (s.clearBays last) := by
  have h1 : Keeps π s₀ { s with bays := s.bays.map fun y => y.cleared last } := State.mapBays_keeps h hBays fun _ => rfl
  have h2 := State.modBars_keeps h1 hBars fun _ => Bars.reset
  unfold State.clearBays
  exact State.modStew_keeps h2 hStew (by rfl)

include h hPorts in
theorem State.wakePorts_keeps : Keeps π s₀ s.wakePorts := by
  grind [State.wakePorts, State.each_keeps, State.modPort_keeps, State.each_keeps]

end
end Sys2Proof.Machine
end

section
/-! Entry to P2 and P3, the wake sources, and the exit (02, R57 to R61; 12, R315; 19, R473). -/
namespace Sys2Proof.Machine
open Sys2Proof

/-! ## Views of a page, and of the clocks, that hold over an operation -/

/-- A view of a page that reads nothing of what an interrupt changes ignores the host's messages and interrupts. -/
theorem ignoresHost_page {β : Type} (g : FnPage → β) (hg : ∀ (p : FnPage) m x q, g { p with irqCause := m, msixPending := x, quiet := q } = g p)
    (n : Fin 16) : IgnoresHost fun s => g (s.page n) :=
  ⟨fun _ _ => rfl, fun s k m f _ => State.page_modPage_kept g (fun p => hg p (p.irqCause ||| m) (f p).msixPending (f p).quiet) s k n⟩

/-- Wake-done latched stays latched: no other interrupt clears it. -/
theorem ignoresHost_wakeDone (n : Fin 16) : IgnoresHost fun s => (s.page n).irqCause.getLsbD 4 := by
  refine ⟨fun _ _ => rfl, fun s k m f hm => State.page_modPage_kept (fun p => p.irqCause.getLsbD 4) (fun p => ?_) s k n⟩
  rw [BitVec.getLsbD_or, hm, Bool.or_false]

/-- An interrupt changes the host's state and a counter alone. -/
theorem State.raise_host (s : State) (f : Fin 16) (v : Nat) : s.raise f v = { s with host := (s.raise f v).host, cnt := (s.raise f v).cnt } := by
  unfold State.raise State.sendQuiet State.sendMsix
  dsimp only
  repeat' split
  all_goals rfl

/-- A reset that is asked for changes of the clocks only what is due. -/
theorem State.askReset_clk (s : State) (r : ResetReq) :
    (s.askReset r).clk = { s.clk with pendingReset := (s.askReset r).clk.pendingReset, warmAt := (s.askReset r).clk.warmAt } := by
  unfold State.askReset
  split
  case h_2 r _ _ =>
    generalize (s.clk.warmInProgress && _) = inProgress
    cases inProgress <;> rfl
  all_goals rfl

theorem State.bootTiles_retiled (s : State) : Retiled s s.bootTiles := Retiled.each (fun s t => by rfl) _ s

/-! ## Entry -/

/-- What the beginning of the entry to P3 sets, and what it leaves. -/
theorem State.beginP3_spec (s : State) :
    let t := s.beginP3
    t.clk = { s.clk with p3Entering := true, wakeCause := 0, wakePorts := 0, wakeLatched := false } ∧ t.host.linkL1 = s.host.linkUp ∧
      t.cfg = s.cfg ∧ t.boot.flash = s.boot.flash ∧
      ∀ a, s.dueAnchor 2 = some a → ∃ addr, FlashOp.anchorWrite addr a ∈ t.boot.flashOps := by
  intro t
  have ht : s.beginP3 = t := rfl
  clear_value t
  unfold State.beginP3 at ht
  extract_lets s1 s2 at ht
  have hpark : Keeps (fun s => (s.clk, s.host.linkUp, s.cfg, s.boot, s.aud)) s1 s2 :=
    State.each_keeps (.refl s1) (fun s x h => State.askPark_keeps h ..) _
  obtain ⟨hclk, hlink, hcfg, hboot, haud⟩ : s2.clk = s1.clk ∧ s2.host.linkUp = s.host.linkUp ∧ s2.cfg = s.cfg ∧ s2.boot = s.boot ∧
      s2.aud = s.aud := by simpa [Keeps, s1] using hpark
  clear_value s2
  have hdue : s2.dueAnchor 2 = s.dueAnchor 2 := by simp only [State.dueAnchor, haud, hcfg, hboot]
  obtain ⟨hclk3, hlink3, hcfg3, hflash3, hwritten⟩ : (s2.writeAnchor 2).clk = s2.clk ∧ (s2.writeAnchor 2).host.linkUp = s2.host.linkUp ∧
      (s2.writeAnchor 2).cfg = s2.cfg ∧ (s2.writeAnchor 2).boot.flash = s2.boot.flash ∧
      ∀ a, s2.dueAnchor 2 = some a → ∃ addr, FlashOp.anchorWrite addr a ∈ (s2.writeAnchor 2).boot.flashOps := by
    obtain ⟨hanchor, hqueue, hwritten⟩ := State.writeAnchor_spec s2 2
    exact ⟨by rw [hanchor], by rw [hanchor], by rw [hanchor], by rw [hqueue], hwritten⟩
  generalize s2.writeAnchor 2 = s3 at hclk3 hlink3 hcfg3 hflash3 hwritten ht
  have hports : Keeps (fun s => (s.clk, s.host.linkUp, s.cfg, s.boot)) s3 ((s3.floodLeave 2).each allPorts State.sleepPort) :=
    State.each_keeps (State.floodLeave_keeps (.refl _) ..) (fun s n h => State.sleepPort_keeps h ..) _
  generalize (s3.floodLeave 2).each allPorts State.sleepPort = s4 at hports ht
  obtain ⟨hclk4, hlink4, hcfg4, hboot4⟩ : s4.clk = s3.clk ∧ s4.host.linkUp = s3.host.linkUp ∧ s4.cfg = s3.cfg ∧ s4.boot = s3.boot := by
    simpa [Keeps] using hports
  subst ht
  refine ⟨?_, ?_, ?_, ?_, fun a ha => ?_⟩
  · rw [State.modHost_clk, hclk4, hclk3, hclk]
    rfl
  · exact hlink4.trans (hlink3.trans hlink)
  · exact hcfg4.trans (hcfg3.trans hcfg)
  · rw [State.modHost_boot, hboot4, hflash3, hboot]
  · rw [State.modHost_boot, hboot4]
    exact hwritten a (hdue.trans ha)

/-- What the end of the entry to P3 sets, and what it leaves. -/
theorem State.endP3_spec (s : State) :
    let t := s.endP3
    t.clk.pstate = .p3 ∧ t.clk.p3Entering = false ∧ t.clk.pllLocked = false ∧ t.pins.swRailEn = false ∧
      t.clk.p3Count = satInc s.clk.p3Count ∧ t.clk.wakeCause = s.clk.wakeCause ∧ t.clk.wakeLatched = s.clk.wakeLatched ∧
      t.stew.hbmSelfRef = List.replicate 8 true ∧ t.cfg = s.cfg ∧ t.boot = s.boot ∧ t.host = s.host ∧
      ∀ x ∈ t.clk.tiles, x.powered = false := by
  intro t
  have ht : s.endP3 = t := rfl
  clear_value t
  unfold State.endP3 at ht
  have hcleared : Keeps (fun s => (s.clk, s.cfg, s.boot, s.host)) s
      (((s.each s.kv.residents State.rollback).dropResidents.abandonRun).clearBays .unknown) :=
    State.clearBays_keeps (State.abandonRun_keeps (State.dropResidents_keeps
      (State.each_keeps (.refl s) (fun s x h => State.rollback_keeps h ..) _) ..) ..) ..
  generalize ((s.each s.kv.residents State.rollback).dropResidents.abandonRun).clearBays .unknown = u at hcleared ht
  obtain ⟨hclk, hcfg, hboot, hhost⟩ : u.clk = s.clk ∧ u.cfg = s.cfg ∧ u.boot = s.boot ∧ u.host = s.host := by
    simpa [Keeps] using hcleared
  unfold State.enterP3 at ht
  extract_lets now timer s1 s2 at ht
  have hcount : Keeps (fun s => (s.clk, s.cfg, s.boot, s.host)) s1 (s2.modPins fun p => { p with swRailEn := false }).selfRefresh :=
    State.selfRefresh_keeps (State.modPins_keeps (State.each_keeps (.refl s1) (fun s t h => State.countTile_keeps h ..) _)
      (fun _ _ => rfl) _) ..
  have hpins : Keeps (fun s => s.pins) (s2.modPins fun p => { p with swRailEn := false })
      (s2.modPins fun p => { p with swRailEn := false }).selfRefresh := State.selfRefresh_keeps (.refl _) ..
  rw [ht] at hcount hpins
  obtain ⟨hclk1, hcfg1, hboot1, hhost1⟩ : t.clk = s1.clk ∧ t.cfg = s.cfg ∧ t.boot = s.boot ∧ t.host = s.host := by
    simpa [Keeps, s1, hcfg, hboot, hhost] using hcount
  rw [hclk1]
  refine ⟨rfl, rfl, rfl, by rw [hpins.eq]; rfl, by simp [s1, hclk], by simp [s1, hclk], by simp [s1, hclk], ?_, hcfg1, hboot1, hhost1, ?_⟩
  · rw [← ht]
    rfl
  · intro x hx
    obtain ⟨y, -, rfl⟩ := List.mem_map.mp hx
    rfl

/-! ## Wake sources -/

/-- A wake source in P3 latches its bit, and the rail's switch rises unless its time low still runs or the reference is lost. -/
theorem State.latchWake_of_p3 {s : State} (h : s.clk.pstate = .p3) (bit : Nat) :
    s.latchWake bit = { s with
      clk := { s.clk with wakeCause := s.clk.wakeCause ||| (1#5 <<< bit), wakeLatched := true }
      pins := { s.pins with swRailEn := s.pins.swRailEn || (s.clk.railLowUntil.isNone && !s.clk.refLost) } } := by
  unfold State.latchWake
  rw [if_pos (by simp [State.asleep, h])]
  cases hrail : s.clk.railLowUntil.isNone <;> cases hlost : s.clk.refLost <;> simp [State.modClk, State.modPins, h, hrail, hlost]

/-! ## Exit -/

/-- In P0 or P1 with the PLL locked, and no wake latched. -/
def Clk.Awake (c : Clk) : Prop := (c.pstate = .p0 ∨ c.pstate = .p1) ∧ c.pllLocked = true ∧ c.wakeLatched = false

theorem State.runState_cases (s : State) : s.runState = .p0 ∨ s.runState = .p1 := by
  unfold State.runState
  split <;> simp

theorem State.setRunState_awake {s : State} (h : s.clk.Awake) : s.setRunState.clk.Awake := by
  unfold State.setRunState
  split
  · exact ⟨State.runState_cases s, h.2⟩
  · exact h

theorem State.askReset_awake {s : State} (h : s.clk.Awake) (r : ResetReq) : (s.askReset r).clk.Awake := by
  rw [State.askReset_clk]
  exact h

theorem State.askWarm_awake {s : State} (h : s.clk.Awake) (cause : Nat) : (s.askWarm cause).clk.Awake := by
  unfold State.askWarm
  split
  · exact State.askReset_awake h _
  · exact h

theorem State.noteIdle_awake {s : State} (h : s.clk.Awake) : s.noteIdle.clk.Awake := by
  unfold State.noteIdle
  split <;> exact h

/-- The exit from P3 with no host TLP held: the device is awake, wake-done is raised, and the HBM out of its self-refresh. -/
theorem State.leaveP3_spec {s : State} (hpages : s.host.pages.length = 16) (hheld : s.clk.held = []) :
    let t := s.leaveP3
    t.clk.Awake ∧ (t.page 0).irqCause.getLsbD 4 = true ∧ t.stew.hbmSelfRef = List.replicate 8 false := by
  intro t
  have ht : s.leaveP3 = t := rfl
  clear_value t
  unfold State.leaveP3 at ht
  extract_lets s1 s2 s3 s4 s5 held s6 s7 s8 late s9 at ht
  have hboot : Retiled ((s2.modStew fun t => { t.restart with hbmSelfRef := List.replicate 8 false, lastRecal := s.clk.devTime })) s3 :=
    State.bootTiles_retiled _
  have h5 : Keeps (fun s => (s.clk, s.host.pages, s.stew.hbmSelfRef)) s3 s5 := by
    refine State.each_keeps (State.restartWindows_keeps (State.wakePorts_keeps (.refl s3) ..) ..) (fun s d h => ?_) _
    split
    · exact h
    · exact State.countT2_keeps h ..
  obtain ⟨hclk5, hpages5, hself5⟩ : s5.clk = s3.clk ∧ s5.host.pages = s3.host.pages ∧ s5.stew.hbmSelfRef = s3.stew.hbmSelfRef := by
    simpa [Keeps] using h5
  have hawake5 : s5.clk.Awake := by
    rw [hclk5, hboot]
    exact ⟨.inl rfl, rfl, rfl⟩
  have hpages5' : s5.host.pages.length = 16 := by
    rw [hpages5, hboot]
    exact hpages
  have hself5' : s5.stew.hbmSelfRef = List.replicate 8 false := by
    rw [hself5, hboot]
    rfl
  have hheld5 : held = [] := by
    show s5.clk.held = []
    rw [hclk5, hboot]
    exact hheld
  clear_value s5
  have hawake6 : s6.clk.Awake := State.setRunState_awake hawake5
  have h6 : Keeps (fun s => (s.host.pages, s.stew.hbmSelfRef)) s5 s6 := by
    exact State.setRunState_keeps (show Keeps _ s5 (s5.modClk _) from rfl) ..
  have hserved : s6.each held State.serve = s6 := by rw [hheld5]; rfl
  have hpages6 : s6.host.pages.length = 16 := by
    rw [show s6.host.pages = s5.host.pages from congrArg Prod.fst h6.eq]
    exact hpages5'
  have hself6 : s6.stew.hbmSelfRef = List.replicate 8 false := (congrArg Prod.snd h6.eq).trans hself5'
  clear_value s6
  have h7 : s7 = s6.raise 0 4 := by rw [← hserved]
  have hawake7 : s7.clk.Awake := by rw [h7, State.raise_host]; exact hawake6
  have hself7 : s7.stew.hbmSelfRef = List.replicate 8 false := by rw [h7, State.raise_host]; exact hself6
  have hdone7 : (s7.page 0).irqCause.getLsbD 4 = true := by rw [h7]; exact State.irqCause_raise_set hpages6 0 (by decide)
  clear_value s7
  have h8 : ∀ {α : Type} (π : State → α) (_ : IgnoresHost π) (_ : IgnoresCnt π),
      π (s7.modHost fun h => { h with vec6Due := false }) = π s7 → Keeps π s7 s8 := by
    intro α π hHost hCnt hvec
    simp only [s8]
    split
    · exact State.raise_keeps hvec hHost hCnt 0 6
    · exact .refl s7
  have h9 : ∀ {α : Type} {π : State → α}, Ignores π State.modClk → Keeps π s8 s9 := fun hClk => hClk s8 _
  have hawake9 : s9.clk.Awake := by
    have hclk : s8.clk = s7.clk := (h8 State.clk ⟨fun _ _ => rfl, fun _ _ _ _ _ => rfl⟩ (fun _ _ => rfl) rfl).eq
    show s8.clk.Awake
    rw [hclk]
    exact hawake7
  have hself9 : s9.stew.hbmSelfRef = List.replicate 8 false :=
    ((h8 (fun s => s.stew.hbmSelfRef) ⟨fun _ _ => rfl, fun _ _ _ _ _ => rfl⟩ (fun _ _ => rfl) rfl).eq).trans hself7
  have hdone9 : (s9.page 0).irqCause.getLsbD 4 = true :=
    ((h8 (fun s => (s.page 0).irqCause.getLsbD 4) (ignoresHost_wakeDone 0) (fun _ _ => rfl) rfl).eq).trans hdone7
  clear_value s9
  rw [← ht]
  split
  · have hwarm : Keeps (fun s => ((s.page 0).irqCause.getLsbD 4, s.stew.hbmSelfRef)) s9 (s9.askWarm 3).noteIdle :=
      State.noteIdle_keeps (State.askWarm_keeps (.refl s9) ..) ..
    refine ⟨State.noteIdle_awake (State.askWarm_awake hawake9 3), ?_, ?_⟩
    · exact (congrArg Prod.fst hwarm.eq).trans hdone9
    · exact (congrArg Prod.snd hwarm.eq).trans hself9
  · have hclk : Keeps State.clk s9 s9.tryWake := State.tryWake_keeps (.refl _) ..
    have hself : Keeps (fun s => s.stew.hbmSelfRef) s9 s9.tryWake.noteIdle := State.noteIdle_keeps (State.tryWake_keeps (.refl _) ..) ..
    have hdone : Keeps (fun s => (s.page 0).irqCause.getLsbD 4) s9 s9.tryWake.noteIdle :=
      State.noteIdle_keeps (State.tryWake_keeps (.refl _) (hHost := ignoresHost_wakeDone 0) ..) ..
    exact ⟨State.noteIdle_awake (by rw [hclk.eq]; exact hawake9), hdone.eq.trans hdone9, hself.eq.trans hself9⟩

theorem doP3Entry_begins {s : State} {at_ : Nat} (hmay : (s.advance at_).mayP3 = true) (h : (s.advance at_).clk.p3Entering = false) :
    doP3Entry at_ s = if (s.advance at_).beginP3.p3Ready then (s.advance at_).beginP3.endP3 else (s.advance at_).beginP3 := by
  simp only [doP3Entry, hmay, h, Bool.not_false, Bool.and_self, if_true]

theorem doP3Entry_ends {s : State} {at_ : Nat} (h : (s.advance at_).p3Ready = true) : doP3Entry at_ s = (s.advance at_).endP3 := by
  have hentering : (s.advance at_).clk.p3Entering = true := by
    simp only [State.p3Ready, Bool.and_eq_true] at h
    exact h.1.1.1.1
  simp only [doP3Entry, hentering, Bool.not_true, Bool.false_and, Bool.false_eq_true, if_false, h, if_true]

theorem doP2Entry_of_idle {s : State} {at_ t0 : Nat} (hsince : (s.advance at_).clk.idleSince = some t0) (hrun : (s.advance at_).running = true)
    (hstate : (s.advance at_).clk.pstate = .p0 ∨ (s.advance at_).clk.pstate = .p1) (hidle : (s.advance at_).idle = true)
    (hoff : ∀ y ∈ (s.advance at_).bays, y.ramp = .off)
    (hdwell : t0 + 1000 * (s.advance at_).cfg.policy.idleDwellUs ≤ (s.advance at_).clk.devTime) :
    doP2Entry at_ s = (s.advance at_).modClk fun c =>
      { c with pstate := .p2, p2Since := some c.devTime, tiles := c.tiles.map fun t => { t with gated := true } } := by
  simp only [doP2Entry, hsince]
  refine if_pos ?_
  simp only [Bool.and_eq_true, Bool.or_eq_true, beq_iff_eq, List.all_eq_true, decide_eq_true_eq]
  exact ⟨⟨⟨⟨hrun, hstate⟩, hidle⟩, hoff⟩, hdwell⟩

/-- Settles O34, event by event. -/
theorem powerStates : Obligations.PowerStates := by
  intro s at_ hs s1
  obtain ⟨hhost, hcfg, hboot, hmem, hcount⟩ : s1.host = s.host ∧ s1.cfg = s.cfg ∧ s1.boot = s.boot ∧ s1.mem = s.mem ∧
      s1.clk.p3Count = s.clk.p3Count := by
    obtain ⟨d, f, hadv⟩ := State.advance_eq s at_
    simp [s1, hadv]
  have hdef : s.advance at_ = s1 := rfl
  clear_value s1
  refine ⟨fun t0 hsince hrun hstate hidle hoff hdwell => ⟨_, rfl, ?_⟩, fun hmay hentering => ⟨_, rfl, ?_⟩, fun hready => ⟨_, rfl, ?_⟩,
    fun hp3 => ?_⟩
  · subst hdef
    rw [doP2Entry_of_idle hsince hrun hstate hidle hoff hdwell]
    exact ⟨rfl, rfl, by simp, rfl⟩
  · subst hdef
    rw [doP3Entry_begins hmay hentering]
    obtain ⟨hclk, hlink, hcfg1, hflash, hanchor⟩ := State.beginP3_spec (s.advance at_)
    split
    · obtain ⟨hp3, -, -, -, -, hcause, hlatched, -, hcfg', hboot', hhost', -⟩ := State.endP3_spec (s.advance at_).beginP3
      rw [hcause, hlatched, hhost', hcfg', hboot', hclk, hlink, hcfg1, hflash, hhost, hcfg, hboot]
      exact ⟨.inr hp3, rfl, rfl, rfl, rfl, rfl, hanchor⟩
    · rw [hclk, hlink, hcfg1, hflash, hhost, hcfg, hboot]
      exact ⟨.inl rfl, rfl, rfl, rfl, rfl, rfl, hanchor⟩
  · subst hdef
    rw [doP3Entry_ends hready]
    obtain ⟨hp3, hent, hlock, hrail, hcount', -, -, hself, hcfg', hboot', -, htiles⟩ := State.endP3_spec (s.advance at_)
    rw [hcount', hcfg', hboot', hcount, hcfg, hboot]
    exact ⟨hp3, hent, hlock, hrail, rfl, hself, rfl, rfl, htiles⟩
  · extract_lets wakes
    refine ⟨fun hdue => ⟨_, rfl, ?_⟩, fun hsame hlink => ⟨_, rfl, ?_⟩, fun hsame p hlisten => ⟨_, rfl, ?_⟩,
      fun hsame halive hign hsafe => ⟨_, rfl, ?_⟩, fun hdue => ⟨_, rfl, ?_⟩, fun halive hlatched hrail hlost htrip hheld => ⟨_, rfl, ?_⟩⟩
    · have hwake : doAonTimerExpiry at_ s = (s1.modClk fun c => { c with aonTimerAt := none }).latchWake 3 := by
        simp [doAonTimerExpiry, hdef, hp3, hdue]
      rw [hwake, State.latchWake_of_p3 (by exact hp3)]
      exact ⟨rfl, rfl, rfl, hmem⟩
    · subst hsame
      have hwake : doPcieWake s1 = s1.latchWake 1 := if_pos hlink
      rw [hwake, State.latchWake_of_p3 hp3]
      exact ⟨rfl, rfl, rfl, rfl⟩
    · subst hsame
      have hwake : doTrussListenWake p s1 = (s1.latchWake 2).modClk fun c => { c with wakePorts := c.wakePorts ||| (1#12 <<< p.val) } := by
        simp [doTrussListenWake, hp3, hlisten]
      rw [hwake, State.latchWake_of_p3 hp3]
      exact ⟨rfl, rfl, rfl, rfl⟩
    · subst hsame
      obtain ⟨hpwr, hheld⟩ : s1.clk.pwrOk = true ∧ s1.clk.heldInReset = false := by simpa [State.alive] using halive
      have hwake : doResetBtnPress s1 = (s1.modClk fun c => { c with btnDown := true }).latchWake 4 := by
        simp [doResetBtnPress, hpwr, hheld, hign, State.isSafe, hsafe]
      rw [hwake, State.latchWake_of_p3 (by exact hp3)]
      exact ⟨rfl, rfl, rfl, rfl⟩
    · have hlow : doSwRailMinLowEnd at_ s = { s1 with
          clk := { s1.clk with railLowUntil := none }
          pins := { s1.pins with swRailEn := s1.pins.swRailEn || (s1.clk.wakeLatched && !s1.clk.refLost) } } := by
        cases hlatched : s1.clk.wakeLatched <;> cases hlost : s1.clk.refLost <;>
          simp [doSwRailMinLowEnd, hdef, hdue, hp3, State.modClk, State.modPins, hlatched, hlost]
      rw [hlow]
      exact ⟨rfl, rfl, rfl⟩
    · have hexit : doP3ExitComplete at_ s = s1.leaveP3 := by
        simp [doP3ExitComplete, hdef, hp3, halive, hlatched, hrail, hlost, htrip]
      obtain ⟨⟨hstate, hlock, hwoken⟩, hdone, hself⟩ := State.leaveP3_spec (s := s1) (by rw [hhost]; exact hs.2.2.1) hheld
      rw [hexit]
      exact ⟨hstate, hlock, hwoken, hdone, hself⟩

end Sys2Proof.Machine
end

section
/-! What further operations of the model leave as they were. -/
namespace Sys2Proof.Machine
open Sys2Proof

-- One proof at a time: many short proofs elaborated side by side would cost the check its memory.
set_option Elab.async false


section
variable {α : Type} {π : State → α} {s₀ s : State} (h : Keeps π s₀ s)
  (hClk : IgnoresClk π := by exact fun _ _ => rfl)
  (hClkT : Ignores π State.modClk := by exact fun _ _ => rfl)
  (hPins : Ignores π State.modPins := by exact fun _ _ => rfl)
  (hBoot : IgnoresBoot π := by exact fun _ _ => rfl)
  (hBootT : Ignores π State.modBoot := by exact fun _ _ => rfl)
  (hCfg : IgnoresCfg π := by exact fun _ _ => rfl)
  (hTun : Ignores π State.modTun := by exact fun _ _ => rfl)
  (hStew : IgnoresStew π := by exact fun _ _ => rfl)
  (hStewT : Ignores π State.modStew := by exact fun _ _ => rfl)
  (hReqs : IgnoresReqs π := by exact fun _ _ => rfl)
  (hRun : IgnoresRun π := by exact fun _ _ => rfl)
  (hTable : Ignores π State.modReqs := by exact fun _ _ => rfl)
  (hBayRest : IgnoresBayRest π := by exact fun _ _ _ => rfl)
  (hBayThr : IgnoresBayThr π := by exact fun _ _ _ => rfl)
  (hBays : IgnoresBays π := by exact fun _ _ => rfl)
  (hBaysT : ∀ s l, π { s with bays := l } = π s := by exact fun _ _ => rfl)
  (hBars : Ignores π State.modBars := by exact fun _ _ => rfl)
  (hMem : Ignores π State.modMem := by exact fun _ _ => rfl)
  (hQuota : Ignores π State.modQuota := by exact fun _ _ => rfl)
  (hStr : IgnoresStr π := by exact fun _ _ => rfl)
  (hStrT : Ignores π State.modStr := by exact fun _ _ => rfl)
  (hKv : Ignores π State.modKv := by exact fun _ _ => rfl)
  (hPorts : IgnoresPorts π := by exact fun _ _ => rfl)
  (hNet : IgnoresNet π := by exact fun _ _ => rfl)
  (hNetN : Ignores π State.modNet := by exact fun _ _ => rfl)
  (hHost : IgnoresHost π := by exact ⟨fun _ _ => rfl, fun _ _ _ _ _ => rfl⟩)
  (hHostT : Ignores π State.modHost := by exact fun _ _ => rfl)
  (hAud : Ignores π State.modAud := by exact fun _ _ => rfl)
  (hSent : Ignores π State.modSent := by exact fun _ _ => rfl)
  (hCnt : IgnoresCnt π := by exact fun _ _ => rfl)
  (hCntT : Ignores π State.modCnt := by exact fun _ _ => rfl)
  (hErr : IgnoresErr π := by exact fun _ _ => rfl)
  (hErrT : Ignores π State.modErr := by exact fun _ _ => rfl)
  (hPlumb : Ignores π State.modPlumb := by exact fun _ _ => rfl)
  (hCxl : Ignores π State.modCxl := by exact fun _ _ => rfl)
  (hHub : Ignores π State.modHub := by exact fun _ _ => rfl)
  (hPending : IgnoresPending π := by exact fun _ _ => rfl)
  (hFree : IgnoresFree π := by exact fun _ _ => rfl)

include h hHost hCnt hErr hCxl in
theorem State.trainCxl_keeps (strap : BitVec 2) (p : Nat) (t : Option CxlTrain) : Keeps π s₀ (s.trainCxl strap p t) := by
  unfold State.trainCxl
  grind [State.modCxl_keeps, State.error_keeps]

include h hHost hCnt hErr hCxl in
theorem State.enumerate_keeps (d : CxlFound) : Keeps π s₀ (s.enumerate d) := by
  grind [State.enumerate, State.error_keeps, State.modCxl_keeps, State.countT2_keeps, Option.map_eq_some_iff]

include h hHost hCnt hErr hCxl in
theorem State.cxlBoot_keeps (strap : BitVec 2) (ports : List CxlTrain) (devs : List CxlFound) : Keeps π s₀ (s.cxlBoot strap ports devs) := by
  grind [State.cxlBoot, State.each_keeps, State.trainCxl_keeps, State.enumerate_keeps, State.each_keeps]

include h hPorts hNet hNetN hHost hCnt hErr in
theorem State.leaveCold_keeps : Keeps π s₀ s.leaveCold := by
  grind [State.leaveCold, State.each_keeps, State.silenceNow_keeps, State.each_keeps]

include h hClk hHost hCnt hErr in
theorem State.btnStuck_keeps : Keeps π s₀ s.btnStuck := by
  grind [State.btnStuck, State.error_keeps, State.modClk_keeps]

include h hHost hCnt hErr hFree in
theorem State.causeRecord_keeps : Keeps π s₀ s.causeRecord := by
  grind [State.causeRecord, State.draw_keeps, State.draw_keeps_eq, State.error_keeps]

include h hBaysT hHost hCnt hErr in
theorem State.bistBay_keeps (b : Fin 80) : Keeps π s₀ (s.bistBay b) := by
  grind [State.bistBay, State.error_keeps, State.modBay_keeps, State.modBay_keeps_fence]

include h hPins in
theorem State.releaseCxl_keeps : Keeps π s₀ s.releaseCxl := by
  grind [State.releaseCxl, State.modPins_keeps, Option.map_eq_some_iff]

end
end Sys2Proof.Machine
end

section
/-! The cold power-up, and a boot up to its slot (02, R37, R62, R65; 03, R73, R74, R76; 18, R458). -/
namespace Sys2Proof.Machine
open Sys2Proof

/-! ## Cold starts -/

/-- What every cold reset leaves: memory, bays, requests and configuration as at reset, the flash and the fuses of `s`. -/
def Blanked (s t : State) : Prop :=
  t.mem = Mem.reset ∧ t.bays = State.reset.bays ∧ t.req = Reqs.reset ∧ t.cfg = Cfg.zero ∧ t.boot.locked = false ∧
    t.boot.flash = s.boot.flash ∧ t.boot.fuseFloor = s.boot.fuseFloor ∧ t.clk.pllLocked = false ∧ t.pending = s.pending

/-- The cold power-up before its devices are enumerated. -/
def State.coldStarted (s : State) (straps : Straps) (btnLow : Bool) (cause : Nat) : State :=
  let x := (s.clearCold.keepTrip s).modBoot fun b => { b with phase := if straps.tapEn then .scan else .refWait, keyReady := !straps.tapEn }
  (x.modPins fun p => { p with straps := straps }).modClk fun c =>
    { c with resetCause := cause, btnDown := btnLow, btnIgnored := c.btnIgnored || cause == 2 || cause == 3 }

theorem State.coldStarted_blanked (s : State) (straps : Straps) (btnLow : Bool) (cause : Nat) :
    Blanked s (s.coldStarted straps btnLow cause) := ⟨rfl, rfl, rfl, rfl, rfl, rfl, rfl, rfl, rfl⟩

/-- The parts which neither the enumeration of the far-memory devices nor a record changes. -/
def coldView (s : State) : Mem × List Bay × Reqs × Cfg × Boot × Clk × Pins × List Instr :=
  (s.mem, s.bays, s.req, s.cfg, s.boot, s.clk, s.pins, s.pending)

theorem Blanked.of_view {s t u : State} (h : Blanked s t) (hv : coldView u = coldView t) : Blanked s u := by
  obtain ⟨hmem, hbays, hreq, hcfg, hboot, hclk, -, hpending⟩ : _ ∧ _ ∧ _ ∧ _ ∧ _ ∧ _ ∧ _ ∧ _ := by simpa [coldView] using hv
  unfold Blanked
  rw [hmem, hbays, hreq, hcfg, hboot, hclk, hpending]
  exact h

/-- A stuck button changes of these parts only what the clocks note of it. -/
theorem State.btnStuck_view (s : State) :
    coldView s.btnStuck = coldView (s.modClk fun c => { c with btnStuck := true, btnIgnored := true }) := by
  have h : Keeps coldView s (s.error { cls := 0, source := 0x01, code := 0x0204 }) := State.error_keeps (.refl s) ..
  obtain ⟨hmem, hbays, hreq, hcfg, hboot, hclk, hpins, hpending⟩ : _ ∧ _ ∧ _ ∧ _ ∧ _ ∧ _ ∧ _ ∧ _ := by
    simpa [coldView, Keeps] using h
  simp [State.btnStuck, coldView, hmem, hbays, hreq, hcfg, hboot, hclk, hpins, hpending]

/-- A cold start blanks the device, notes its cause and samples straps and button. -/
theorem State.coldStart_spec (s : State) (straps : Straps) (low : Bool) (ports : List CxlTrain) (devs : List CxlFound) (cause : Nat) :
    let t := s.coldStart straps low ports devs cause
    Blanked s t ∧ t.clk.resetCause = cause ∧ t.clk.pwrOk = true ∧ t.clk.heldInReset = false ∧ t.pins.straps = straps ∧
      t.boot.phase = (if straps.tapEn then .scan else .refWait) ∧
      t.clk.btnIgnored = (s.clk.btnIgnored || cause == 2 || cause == 3 || cause == 0 && low) := by
  intro t
  have ht : s.coldStart straps low ports devs cause = t := rfl
  clear_value t
  unfold State.coldStart at ht
  extract_lets x1 x2 x3 x4 at ht
  obtain ⟨hclk, hboot, hpending⟩ : (if 2 ≤ cause then s.leaveCold else s).clk = s.clk ∧ (if 2 ≤ cause then s.leaveCold else s).boot = s.boot ∧
      (if 2 ≤ cause then s.leaveCold else s).pending = s.pending := by
    split
    · have h : Keeps (fun s => (s.clk, s.boot, s.pending)) s s.leaveCold := State.leaveCold_keeps (.refl s) ..
      simpa [Keeps] using h
    · exact ⟨rfl, rfl, rfl⟩
  have hx3 : Blanked s x3 := by
    have h : Blanked (if 2 ≤ cause then s.leaveCold else s) x3 := State.coldStarted_blanked _ straps low cause
    unfold Blanked at h
    rwa [hboot, hpending] at h
  have hx3ign : x3.clk.btnIgnored = (s.clk.btnIgnored || cause == 2 || cause == 3) := by
    rw [← hclk]
    rfl
  obtain ⟨hcause, hpwr, hheld, hstraps, hphase⟩ : x3.clk.resetCause = cause ∧ x3.clk.pwrOk = true ∧ x3.clk.heldInReset = false ∧
      x3.pins.straps = straps ∧ x3.boot.phase = (if straps.tapEn then .scan else .refWait) := ⟨rfl, rfl, rfl, rfl, rfl⟩
  clear_value x3
  have hx4 : coldView x4 = coldView x3 := by
    simp only [x4]
    split
    · rfl
    · exact (State.cxlBoot_keeps (π := coldView) (.refl x3) ..).eq
  clear_value x4
  have hx4' : Blanked s x4 := hx3.of_view hx4
  obtain ⟨-, -, -, -, hboot4, hclk4, hpins4, -⟩ : _ ∧ _ ∧ _ ∧ _ ∧ _ ∧ _ ∧ _ ∧ _ := by simpa [coldView] using hx4
  rw [← hclk4] at hcause hpwr hheld hx3ign
  rw [← hpins4] at hstraps
  rw [← hboot4] at hphase
  subst ht
  split
  next hstuck =>
    obtain ⟨rfl, hlow⟩ : cause = 0 ∧ low = true := by simpa using hstuck
    have hview := State.btnStuck_view x4
    refine ⟨Blanked.of_view (t := x4.modClk fun c => { c with btnStuck := true, btnIgnored := true }) hx4' hview, ?_⟩
    obtain ⟨-, -, -, -, hboot5, hclk5, hpins5, -⟩ : _ ∧ _ ∧ _ ∧ _ ∧ _ ∧ _ ∧ _ ∧ _ := by simpa [coldView] using hview
    rw [hboot5, hclk5, hpins5]
    exact ⟨hcause, hpwr, hheld, hstraps, hphase, by simp [hlow]⟩
  next hstuck =>
    refine ⟨hx4', hcause, hpwr, hheld, hstraps, hphase, ?_⟩
    have hfalse : (cause == 0 && low) = false := by simpa using hstuck
    rw [hx3ign, hfalse, Bool.or_false]

/-! ## Bays that fail their test, and SAFE mode -/

theorem State.bistBay_fenced {s : State} (hbays : s.bays.length = 80) (b c : Fin 80) :
    ((s.bistBay b).bay c).fenced = (decide (c = b) || (s.bay c).fenced) ∧ (s.bistBay b).bays.length = 80 := by
  unfold State.bistBay State.bayFenced
  split
  next h =>
    refine ⟨?_, hbays⟩
    by_cases hcb : c = b
    · simp [hcb, h]
    · simp [hcb]
  next h =>
    have herr : Keeps State.bays s (s.error { cls := 2, source := 0x20, inst := b.val, code := 0x1218, fence := true }) :=
      State.error_keeps (.refl s) ..
    have hlen : (s.error { cls := 2, source := 0x20, inst := b.val, code := 0x1218, fence := true }).bays.length = 80 := by
      rw [herr.eq]
      exact hbays
    refine ⟨?_, by simpa [State.modBay] using hlen⟩
    by_cases hcb : c = b
    · rw [hcb, State.bay_modBay_same _ _ _ hlen]
      simp
    · rw [State.bay_modBay_other _ _ _ _ (Ne.symm hcb)]
      simp [hcb, State.bay, herr.eq]

theorem State.each_bistBay_fenced (l : List (Fin 80)) {s : State} (hbays : s.bays.length = 80) (c : Fin 80) :
    ((s.each l State.bistBay).bay c).fenced = (decide (c ∈ l) || (s.bay c).fenced) := by
  induction l generalizing s with
  | nil => simp [State.each]
  | cons b l ih =>
    obtain ⟨hfenced, hlen⟩ := State.bistBay_fenced hbays b c
    refine (ih hlen).trans ?_
    rw [hfenced]
    simp only [List.mem_cons, Bool.decide_or]
    cases decide (c = b) <;> simp

theorem State.checkButton_keeps {α : Type} {π : State → α} {s₀ s : State} (h : Keeps π s₀ s) (hClk : IgnoresClk π) (hHost : IgnoresHost π)
    (hCnt : IgnoresCnt π) (hErr : IgnoresErr π) : Keeps π s₀ s.checkButton := by
  unfold State.checkButton
  split
  · exact State.btnStuck_keeps h hClk hHost hCnt hErr
  · exact h

/-- SAFE mode takes the microphones' power; memory, bays, fatal causes and the flash are as they were. -/
theorem State.enterSafe_spec (s : State) :
    s.enterSafe.boot = { s.boot with phase := .safe } ∧ s.enterSafe.pins.fatalN = s.pins.fatalN ∧ s.enterSafe.err.fatal = s.err.fatal ∧
      s.enterSafe.mem = s.mem ∧ s.enterSafe.bays = s.bays := by
  unfold State.enterSafe
  extract_lets s1
  have h : Keeps (fun s => (s.boot, s.pins.fatalN, s.err.fatal, s.mem, s.bays)) s1
      (s1.modHost fun h => { h with pages := h.pages.map fun p => { p with vfEnabled := false } }).checkButton :=
    State.checkButton_keeps (by rfl) (fun _ _ => rfl) ⟨fun _ _ => rfl, fun _ _ _ _ _ => rfl⟩ (fun _ _ => rfl) (fun _ _ => rfl)
  simpa [Keeps, s1] using h

/-- What a change of a bay leaves as it was, it leaves so in every bay. -/
theorem State.bay_modBay_kept {α : Type} (π : Bay → α) {f : Bay → Bay} (hf : ∀ y, π (f y) = π y) (s : State) (b c : Fin 80) :
    π ((s.modBay b f).bay c) = π (s.bay c) := by
  simp only [State.bay, State.modBay, List.getD_eq_getElem?_getD, List.getElem?_modify]
  split
  · cases s.bays[c.val]? with
    | none => rfl
    | some y => exact hf y
  · cases s.bays[c.val]? <;> rfl

theorem State.faultRamp_fenced (s : State) (b c : Fin 80) : ((s.faultRamp b).bay c).fenced = (s.bay c).fenced := by
  have h : Keeps (fun s => (s.bay c).fenced) (s.modBay b Bay.faultRamp) (s.faultRamp b) := by
    unfold State.faultRamp
    dsimp only
    split
    · rfl
    · exact State.countBay_keeps (by rfl) ..
  exact h.eq.trans (State.bay_modBay_kept Bay.fenced (f := Bay.faultRamp) (fun _ => rfl) s b c)

/-- A fatal cause is recorded and held, FATAL_N goes low, the arrays stop and the links go silent. -/
theorem State.fatal_eq (s : State) (code inst : Nat) (fenced : Option Nat) :
    ∃ s1, s1 = s.draw.2.error { cls := 3, source := fatalSource code fenced s.draw.1, inst := inst, code := code } ∧
      s.fatal code inst fenced =
        ((((s1.modErr fun l => { l with fatal := if l.fatal.contains code then l.fatal else l.fatal ++ [code] }).modPins
          fun p => { p with fatalN := false }).each allBays State.faultRamp).silenceActive 1) := ⟨_, rfl, rfl⟩

theorem State.fatal_held (s : State) (code inst : Nat) (fenced : Option Nat) :
    (s.fatal code inst fenced).pins.fatalN = false ∧ code ∈ (s.fatal code inst fenced).err.fatal := by
  obtain ⟨s1, -, heq⟩ := State.fatal_eq s code inst fenced
  rw [heq]
  generalize hs2 : (s1.modErr fun l => _).modPins _ = s2
  have h : Keeps (fun s => (s.pins.fatalN, s.err.fatal)) s2 ((s2.each allBays State.faultRamp).silenceActive 1) :=
    State.silenceActive_keeps (State.each_keeps (.refl s2) (fun s b h => State.faultRamp_keeps h ..) _) ..
  generalize (s2.each allBays State.faultRamp).silenceActive 1 = t at h
  obtain ⟨hpin, hfatal⟩ : t.pins.fatalN = s2.pins.fatalN ∧ t.err.fatal = s2.err.fatal := by simpa [Keeps] using h
  rw [hpin, hfatal, ← hs2]
  refine ⟨rfl, ?_⟩
  show code ∈ if s1.err.fatal.contains code then s1.err.fatal else s1.err.fatal ++ [code]
  split
  · simpa using ‹s1.err.fatal.contains code = true›
  · simp

theorem State.fatal_fenced (s : State) (code inst : Nat) (fenced : Option Nat) (c : Fin 80) :
    ((s.fatal code inst fenced).bay c).fenced = (s.bay c).fenced := by
  obtain ⟨s1, hs1, heq⟩ := State.fatal_eq s code inst fenced
  have h1 : Keeps (fun s => (s.bay c).fenced) s s1 := by
    rw [hs1]
    exact State.error_keeps (State.draw_keeps (.refl s) (fun _ _ => rfl)) ..
  have h2 : Keeps (fun s => (s.bay c).fenced) s1 (s.fatal code inst fenced) := by
    rw [heq]
    refine State.silenceActive_keeps ?_ ..
    exact State.each_keeps (by rfl) (fun s b h => (State.faultRamp_fenced s b c).trans h) _
  exact h2.eq.trans h1.eq

/-! ## Steps of a boot -/

theorem doPowerOnBist_spec {s : State} (hbays : s.bays.length = 80) (failBays : List (Fin 80)) (hubFail rcDead : Bool)
    (hphase : s.boot.phase = .bist) (hlock : s.clk.pllLocked = true) :
    let t := doPowerOnBist failBays hubFail rcDead s
    t.mem = s.mem ∧ (∀ b, (t.bay b).fenced = (decide (b ∈ failBays) || (s.bay b).fenced)) ∧
      (hubFail = true ∨ rcDead = true → t.boot.phase = .safe ∧ t.pins.fatalN = false ∧ 0x1236 ∈ t.err.fatal) ∧
      (hubFail = false → rcDead = false → t.boot.phase = .verify) := by
  intro t
  have ht : doPowerOnBist failBays hubFail rcDead s = t := rfl
  clear_value t
  unfold doPowerOnBist at ht
  rw [if_neg (by simp [hphase, hlock])] at ht
  extract_lets s1 s2 at ht
  have hmem1 : Keeps State.mem s s1 :=
    State.releaseCxl_keeps (State.causeRecord_keeps (State.each_keeps (.refl s) (fun s b h => State.bistBay_keeps h ..) _) ..) ..
  have hfenced1 : ∀ b, (s1.bay b).fenced = (decide (b ∈ failBays) || (s.bay b).fenced) := by
    have h : Keeps State.bays (s.each failBays State.bistBay) s1 :=
      State.releaseCxl_keeps (State.causeRecord_keeps (.refl _) ..) ..
    intro b
    rw [State.bay, h.eq]
    exact State.each_bistBay_fenced failBays hbays b
  have hboot1 : Keeps State.boot s s1 :=
    State.releaseCxl_keeps (State.causeRecord_keeps (State.each_keeps (.refl s) (fun s b h => State.bistBay_keeps h ..) _) ..) ..
  clear_value s1
  by_cases hdead : (hubFail || rcDead) = true
  · rw [if_pos hdead] at ht
    obtain ⟨hboot, hpin, hfatal, hmem, hbays⟩ := State.enterSafe_spec (s1.fatal 0x1236 0xFFFF none)
    obtain ⟨hlow, hheld⟩ := State.fatal_held s1 0x1236 0xFFFF none
    have hmem2 : Keeps State.mem s1 (s1.fatal 0x1236 0xFFFF none) := State.fatal_keeps (.refl _) ..
    rw [← ht]
    refine ⟨by rw [hmem, hmem2.eq, hmem1.eq], fun b => ?_, fun _ => ⟨by rw [hboot], by rw [hpin, hlow], by rw [hfatal]; exact hheld⟩, ?_⟩
    · rw [State.bay, hbays]
      exact (State.fatal_fenced s1 _ _ _ b).trans (hfenced1 b)
    · intro hhub hrc
      simp [hhub, hrc] at hdead
  · rw [if_neg hdead] at ht
    have h2 : s2.mem = s1.mem ∧ ∀ b, (s2.bay b).fenced = (s1.bay b).fenced := by
      simp only [s2]
      split
      · exact ⟨(State.fatal_keeps (π := State.mem) (.refl _) ..).eq, State.fatal_fenced s1 _ _ _⟩
      · exact ⟨rfl, fun _ => rfl⟩
    obtain ⟨hmem2, hfenced2⟩ := h2
    clear_value s2
    rw [← ht]
    refine ⟨hmem2.trans hmem1.eq, fun b => (hfenced2 b).trans (hfenced1 b), fun h => ?_, fun _ _ => rfl⟩
    exact absurd (by simpa using h) hdead

theorem doSlotVerify_spec {s : State} (ta tb : Option Nat) (hphase : s.boot.phase = .verify) (hlock : s.clk.pllLocked = true) :
    let t := doSlotVerify ta tb s
    let r := s.boot.verify ta tb
    t.boot.failA = r.1 ∧ t.boot.failB = r.2.1 ∧ t.boot.flash = s.boot.flash ∧ t.boot.fallback = (r.2.2 != some s.boot.firstSlot) ∧
      (r.2.2 = none → t.boot.phase = .safe) ∧
      ∀ k, r.2.2 = some k → t.boot.phase = .hbm ∧ t.boot.activeSlot = k ∧ t.boot.verified = some (s.boot.slotImage k).cfg := by
  intro t r
  have ht : doSlotVerify ta tb s = t := rfl
  clear_value t
  unfold doSlotVerify at ht
  rw [if_neg (by simp [hphase, hlock])] at ht
  extract_lets second s1 s2 at ht
  have hboot2 : s2.boot = { s.boot with failA := r.1, failB := r.2.1, fallback := r.2.2 != some s.boot.firstSlot } := by
    simp only [s2]
    split
    · exact (State.error_keeps (π := State.boot) (.refl s1) ..).eq
    · rfl
  clear_value s2
  generalize hchosen : r.2.2 = chosen at ht hboot2
  rw [← ht]
  cases chosen with
  | none =>
    dsimp only
    obtain ⟨hboot, -⟩ := State.enterSafe_spec s2
    rw [hboot, hboot2]
    exact ⟨rfl, rfl, rfl, rfl, fun _ => rfl, by simp⟩
  | some k =>
    dsimp only
    rw [State.modBoot_boot, hboot2]
    exact ⟨rfl, rfl, rfl, rfl, by simp, by rintro _ ⟨⟩; exact ⟨rfl, rfl, rfl⟩⟩

/-- Settles O29, event by event. -/
theorem coldBoot : Obligations.ColdBoot := by
  refine ⟨fun s straps low ports devs => ?_, fun s hs => ?_⟩
  · extract_lets blank starts
    have hstarts : ∀ (i : Instr) (cause : Nat), exec i s = .next (s.coldStart straps low ports devs cause) → starts i cause :=
      fun i cause hi => ⟨_, hi, State.coldStart_spec s straps low ports devs cause⟩
    refine ⟨fun hpwr => hstarts _ 0 ?_, fun c hpending hpwr hheld hflash hc => hstarts _ c ?_, fun hpwr hheld => hstarts _ 1 ?_,
      fun hpwr hheld => ⟨_, rfl, ?_⟩, fun hpwr => ⟨_, rfl, ?_⟩⟩
    · exact congrArg Host.Outcome.next (by simp [doPwrOkRise, hpwr])
    · have hdue : s.coldDue = some c := by
        unfold State.coldDue
        rw [hpending]
        refine if_pos ?_
        rcases hflash with h | h
        · simp [hpwr, hheld, h]
        · have hnone : s.boot.flashOps.any FlashOp.isAnchor = false := by simpa using h
          simp [hpwr, hheld, hnone]
      exact congrArg Host.Outcome.next (by simp [doColdResetPerform, hdue])
    · exact congrArg Host.Outcome.next (by simp [doSysRstNRelease, hpwr, hheld])
    · rw [show doSysRstNLow s = s.holdReset from if_pos (by simp [hpwr, hheld])]
      exact ⟨⟨rfl, rfl, rfl, rfl, rfl, rfl, rfl, rfl, rfl⟩, rfl, rfl⟩
    · rw [show doPwrOkFall s = s.powerOff from if_pos hpwr]
      exact ⟨⟨rfl, rfl, rfl, rfl, rfl, rfl, rfl, rfl, rfl⟩, rfl, rfl, rfl, rfl⟩
  · refine ⟨fun at_ halive hlost hphase => ⟨_, rfl, ?_⟩, fun at_ hpwr henabled hlock hlost hloss hphase => ⟨_, rfl, ?_⟩,
      fun failBays hubFail rcDead hphase hlock => ⟨_, rfl, doPowerOnBist_spec hs.1 failBays hubFail rcDead hphase hlock⟩,
      fun ta tb hphase hlock => ⟨_, rfl, doSlotVerify_spec ta tb hphase hlock⟩⟩
    · obtain ⟨hpwr, hheld⟩ : (s.advance at_).clk.pwrOk = true ∧ (s.advance at_).clk.heldInReset = false := by
        simpa [State.alive] using halive
      have hqualified : doRefQualified at_ s = ((s.advance at_).modClk Clk.qualify).modBoot fun b => { b with phase := .pllWait } := by
        simp [doRefQualified, hpwr, hheld, hlost, hphase]
      obtain ⟨d, f, hadv⟩ := State.advance_eq s at_
      rw [hqualified, hadv]
      exact ⟨rfl, rfl, rfl, rfl⟩
    · obtain ⟨d, f, hadv⟩ := State.advance_eq s at_
      have hlocked : doPllLock at_ s = ((s.advance at_).modClk fun c => { c with pllLocked := true, aonOnRc := false }).modBoot
          fun b => { b with phase := .bist } := by
        simp [doPllLock, hadv, hpwr, henabled, hlock, hlost, hloss, hphase]
      rw [hlocked, hadv]
      exact ⟨rfl, rfl, rfl, rfl⟩

end Sys2Proof.Machine
end

section
/-! What further operations of the model leave as they were. -/
namespace Sys2Proof.Machine
open Sys2Proof

-- One proof at a time: many short proofs elaborated side by side would cost the check its memory.
set_option Elab.async false


section
variable {α : Type} {π : State → α} {s₀ s : State} (h : Keeps π s₀ s)
  (hClk : IgnoresClk π := by exact fun _ _ => rfl)
  (hClkT : Ignores π State.modClk := by exact fun _ _ => rfl)
  (hPins : Ignores π State.modPins := by exact fun _ _ => rfl)
  (hBoot : IgnoresBoot π := by exact fun _ _ => rfl)
  (hBootT : Ignores π State.modBoot := by exact fun _ _ => rfl)
  (hCfg : IgnoresCfg π := by exact fun _ _ => rfl)
  (hTun : Ignores π State.modTun := by exact fun _ _ => rfl)
  (hStew : IgnoresStew π := by exact fun _ _ => rfl)
  (hStewT : Ignores π State.modStew := by exact fun _ _ => rfl)
  (hReqs : IgnoresReqs π := by exact fun _ _ => rfl)
  (hRun : IgnoresRun π := by exact fun _ _ => rfl)
  (hTable : Ignores π State.modReqs := by exact fun _ _ => rfl)
  (hBayRest : IgnoresBayRest π := by exact fun _ _ _ => rfl)
  (hBayThr : IgnoresBayThr π := by exact fun _ _ _ => rfl)
  (hBays : IgnoresBays π := by exact fun _ _ => rfl)
  (hBaysT : ∀ s l, π { s with bays := l } = π s := by exact fun _ _ => rfl)
  (hBars : Ignores π State.modBars := by exact fun _ _ => rfl)
  (hMem : Ignores π State.modMem := by exact fun _ _ => rfl)
  (hQuota : Ignores π State.modQuota := by exact fun _ _ => rfl)
  (hStr : IgnoresStr π := by exact fun _ _ => rfl)
  (hStrT : Ignores π State.modStr := by exact fun _ _ => rfl)
  (hKv : Ignores π State.modKv := by exact fun _ _ => rfl)
  (hPorts : IgnoresPorts π := by exact fun _ _ => rfl)
  (hNet : IgnoresNet π := by exact fun _ _ => rfl)
  (hNetN : Ignores π State.modNet := by exact fun _ _ => rfl)
  (hHost : IgnoresHost π := by exact ⟨fun _ _ => rfl, fun _ _ _ _ _ => rfl⟩)
  (hHostT : Ignores π State.modHost := by exact fun _ _ => rfl)
  (hAud : Ignores π State.modAud := by exact fun _ _ => rfl)
  (hSent : Ignores π State.modSent := by exact fun _ _ => rfl)
  (hCnt : IgnoresCnt π := by exact fun _ _ => rfl)
  (hCntT : Ignores π State.modCnt := by exact fun _ _ => rfl)
  (hErr : IgnoresErr π := by exact fun _ _ => rfl)
  (hErrT : Ignores π State.modErr := by exact fun _ _ => rfl)
  (hPlumb : Ignores π State.modPlumb := by exact fun _ _ => rfl)
  (hCxl : Ignores π State.modCxl := by exact fun _ _ => rfl)
  (hHub : Ignores π State.modHub := by exact fun _ _ => rfl)
  (hPending : IgnoresPending π := by exact fun _ _ => rfl)
  (hFree : IgnoresFree π := by exact fun _ _ => rfl)

include h hCnt in
theorem State.countProg_keeps (p e k : Nat) : Keeps π s₀ (s.countProg p e k) := by
  grind [State.countProg, State.count_keeps]

include h hBayRest hKv in
theorem State.freeKv_keeps (home asn : Nat) (stage : Option Nat) : Keeps π s₀ (s.freeKv home asn stage) := by
  unfold State.freeKv
  refine State.modKv_keeps (hKv := hKv) (State.each_keeps h (fun s w h => ?_) _) _
  extract_lets own
  split
  · exact State.modKv_keeps (hKv := hKv) h _
  split
  next f g _ _ =>
    extract_lets extra s1 s2 s3
    have h2 : Keeps π s₀ s2 := State.returnBlocks_keeps (hKv := hKv) (State.modKv_keeps (hKv := hKv) h _) ..
    clear_value s2
    have h3 : Keeps π s₀ s3 := by grind [State.returnBlocks_keeps (hKv := hKv)]
    clear_value s3
    split
    · exact State.each_keeps h3 (fun _ _ h => State.setLanding_keeps (hBayRest := hBayRest) h ..) _
    · exact h3
  · exact h

include h hStew hRun hBayRest hBayThr hBays hBars hMem hQuota hKv hPorts hNet hCnt in
theorem State.abandonWu_keeps (home : Nat) (k : WuKey) : Keeps π s₀ (s.abandonWu home k) := by
  grind [State.abandonWu, State.stopWu_keeps, State.countProg_keeps]

include h hStew hReqs hRun hBayRest hBayThr hBays hBars hMem hQuota hStr hKv hPorts hNet hCnt in
theorem State.dropHome_keeps (home asn : Nat) : Keeps π s₀ (s.dropHome home asn) := by
  unfold State.dropHome
  extract_lets wus s1 gs s2 s3 s4 s5
  have h1 : Keeps π s₀ s1 := State.each_keeps h (fun s w h => by grind [State.abandonWu_keeps]) _
  have h2 : Keeps π s₀ s2 := by grind [State.freeKv_keeps, State.releaseHere_keeps]
  have h3 : Keeps π s₀ s3 := State.each_keeps h2 (fun s g h => by grind [State.remapReleased_keeps]) _
  have h4 : Keeps π s₀ s4 := State.modReqs_keeps h3 hReqs ⟨rfl, rfl⟩
  exact State.modNet_keeps (State.modBars_keeps h4 hBars _) hNet rfl

include h hBoot hPorts hNet in
theorem State.checkWeights_keeps : Keeps π s₀ s.checkWeights := by
  grind [State.checkWeights, State.modBoot_keeps, State.floodCaps_keeps]

include h hBoot in
theorem State.setWeight_keeps (i : Nat) (w : WeightState) : Keeps π s₀ (s.setWeight i w) := by
  grind [State.setWeight, State.modBoot_keeps]

include h hBoot hPorts hNet hHost hCnt hErr in
theorem State.weightFailed_keeps (i : Nat) : Keeps π s₀ (s.weightFailed i) := by
  grind [State.weightFailed, State.setWeight_keeps, State.error_keeps, State.checkWeights_keeps]

include h hBoot hPorts hNet hHost hCnt hErr in
theorem State.peerFailed_keeps (i : Nat) : Keeps π s₀ (s.peerFailed i) := by
  grind [State.peerFailed, State.setWeight_keeps, State.weightFailed_keeps]

include h hBoot hPorts hNet hHost hCnt hErr in
theorem State.askPeer_keeps (i after : Nat) : Keeps π s₀ (s.askPeer i after) := by
  grind [State.askPeer, State.sendMsgTo_keeps, State.peerFailed_keeps]

include h hBoot hPorts hNet hHost hCnt hErr in
theorem State.startWeight_keeps (i : Nat) : Keeps π s₀ (s.startWeight i) := by
  grind [State.startWeight, State.setWeight_keeps, State.weightFailed_keeps, State.askPeer_keeps]

include h hStew hReqs hRun hBayRest hBayThr hBays hBars hMem hQuota hStr hKv hPorts hNet hCnt in
theorem State.dropForeign_keeps : Keeps π s₀ s.dropForeign := by
  grind [State.dropForeign, State.each_keeps, State.dropHome_keeps, State.modQuota_keeps, State.each_keeps]

include h hBayRest hMem hStr hKv hCnt in
theorem State.loseResidents_keeps : Keeps π s₀ s.loseResidents := by
  grind [State.loseResidents, State.each_keeps, State.rollback_keeps, State.dropResidents_keeps, State.modStr_keeps, State.each_keeps]

include h hPorts hNet in
theorem State.leaveWarm_keeps : Keeps π s₀ s.leaveWarm := by
  grind [State.leaveWarm, State.floodLeave_keeps, State.modNet_keeps, State.each_keeps, State.modPort_keeps, State.each_keeps]

include h hBoot hPorts hNet hHost hCnt hErr in
theorem State.retryWeights_keeps : Keeps π s₀ s.retryWeights := by
  grind [State.retryWeights, State.modBoot_keeps, State.each_keeps, State.startWeight_keeps, State.checkWeights_keeps, State.each_keeps]

end
end Sys2Proof.Machine
end

section
/-! A warm reset (01, R34; 02, R51, R53, Table 2.6; 18, R457). -/
namespace Sys2Proof.Machine
open Sys2Proof

/-! ## Sorting by a key -/

theorem insertBy_perm {α : Type} (key : α → Nat) (x : α) (l : List α) : (insertBy key x l).Perm (x :: l) := by
  induction l with
  | nil => exact .refl _
  | cons y l ih =>
    unfold insertBy
    split
    · exact .refl _
    · exact (ih.cons y).trans (.swap x y l)

theorem sortBy_perm {α : Type} (key : α → Nat) (l : List α) : (sortBy key l).Perm l := by
  have h : ∀ acc : List α, (l.foldl (fun acc x => insertBy key x acc) acc).Perm (l ++ acc) := by
    induction l with
    | nil => exact fun acc => .refl _
    | cons x l ih =>
      intro acc
      refine (ih _).trans ?_
      exact ((insertBy_perm key x acc).append_left l).trans List.perm_middle
  simpa [sortBy] using h []

/-! ## Requests that end -/

theorem State.reqOf_of_table {s t : State} (h : t.req.table = s.req.table) (asn : Nat) : t.reqOf asn = s.reqOf asn := by
  rw [State.reqOf, h]
  rfl

theorem State.mem_of_reqOf {s : State} {asn : Nat} {r : Req} (h : s.reqOf asn = some r) : r ∈ s.req.table ∧ r.asn = asn :=
  ⟨List.mem_of_find?_eq_some h, by simpa using List.find?_some h⟩

theorem eq_of_map_eq_of_nodup {α β : Type} {f : α → β} {l : List α} (hn : (l.map f).Nodup) {a b : α} (ha : a ∈ l) (hb : b ∈ l)
    (hab : f a = f b) : a = b := by
  induction l with
  | nil => nomatch ha
  | cons x l ih =>
    obtain ⟨hx, hn'⟩ := List.nodup_cons.mp hn
    rcases List.mem_cons.mp ha with hax | hal <;> rcases List.mem_cons.mp hb with hbx | hbl
    · exact hax.trans hbx.symm
    · exact absurd (hax ▸ hab ▸ List.mem_map_of_mem hbl) hx
    · exact absurd (hbx ▸ hab ▸ List.mem_map_of_mem hal) hx
    · exact ih hn' hal hbl

/-- An ASN names one request, where no two requests bear one. -/
theorem State.reqOf_of_mem {s : State} (hn : (s.req.table.map (·.asn)).Nodup) {r : Req} (hr : r ∈ s.req.table) : s.reqOf r.asn = some r := by
  unfold State.reqOf
  cases h : s.req.table.find? fun x => x.asn == r.asn with
  | none => simpa using List.find?_eq_none.mp h r hr
  | some q =>
    have hq : q.asn = r.asn := by simpa using List.find?_some h
    exact congrArg some (eq_of_map_eq_of_nodup hn (List.mem_of_find?_eq_some h) hr hq)

/-- The request that finishes is complete with its status; no other request changes, and what runs stays. -/
theorem State.finish_spec {s : State} {asn : Nat} {r : Req} (hr : s.reqOf asn = some r) (hp : r.phase ≠ .complete) (st d : Nat) :
    let t := s.finish asn st d
    (∃ q, t.reqOf asn = some q ∧ q.phase = .complete ∧ q.status = st) ∧ (∀ a, a ≠ asn → t.reqOf a = s.reqOf a) ∧
      t.req.running = s.req.running := by
  intro t
  have ht : s.finish asn st d = t := rfl
  clear_value t
  unfold State.finish at ht
  split at ht
  next hnone => simp [hr] at hnone
  next r' hr' =>
  obtain rfl : r = r' := Option.some.inj (hr.symm.trans hr')
  rw [if_neg (by simpa using hp)] at ht
  extract_lets s1 s2 s3 s4 s5 at ht
  have h3 : Keeps (fun s => (s.req.table, s.req.running)) s s3 := by
    have h1 : Keeps (fun s => (s.req.table, s.req.running)) s s1 := by
      simp only [s1]
      split
      · exact State.endLease_keeps (.refl s) ..
      · exact .refl s
    have h2 : Keeps (fun s => (s.req.table, s.req.running)) s s2 := by
      simp only [s2]
      split
      · exact State.clearLost_keeps h1 ..
      · exact h1
    exact State.modStr_keeps h2 (fun _ _ => rfl) rfl
  obtain ⟨htable, hrun⟩ : s3.req.table = s.req.table ∧ s3.req.running = s.req.running := by simpa [Keeps] using h3
  clear_value s3
  rw [← ht]
  refine ⟨?_, fun a ha => ?_, hrun⟩
  · refine ⟨_, (State.reqOf_of_table (s := s4) rfl asn).trans ((State.reqOf_modReq s3 asn (by exact fun _ => rfl)).trans
      (by rw [State.reqOf_of_table htable, hr]; rfl)), rfl, rfl⟩
  · exact (State.reqOf_of_table (s := s4) rfl a).trans ((State.reqOf_modReq_other s3 asn (by exact fun _ => rfl) ha).trans
      (State.reqOf_of_table htable a))

/-- The status with which a request ends at a reset: one that had failed keeps its own (log entry 51). -/
def Req.resetStatus (r : Req) (status : Nat) : Nat := if r.failed then r.status else status

theorem State.failReset_spec {s : State} {r r0 : Req} (hr : s.reqOf r.asn = some r0) (hp : r0.phase ≠ .complete) (status : Nat) :
    let t := s.failReset status r
    (∃ q, t.reqOf r.asn = some q ∧ q.phase = .complete ∧ q.status = r.resetStatus status) ∧
      (∀ a, a ≠ r.asn → t.reqOf a = s.reqOf a) ∧ t.req.running = s.req.running := by
  intro t
  have ht : s.failReset status r = t := rfl
  clear_value t
  unfold State.failReset at ht
  by_cases hf : r.failed = true
  · rw [if_pos hf] at ht
    rw [← ht, Req.resetStatus, if_pos hf]
    exact State.finish_spec hr hp r.status r.detail
  · rw [if_neg hf] at ht
    extract_lets s1 at ht
    have h1 : Keeps State.req s s1 := by
      simp only [s1]
      split
      · exact State.openRecord_keeps (.refl s) ..
      · exact .refl s
    have hreqs : ∀ a, s1.reqOf a = s.reqOf a := fun a => State.reqOf_of_table (congrArg Reqs.table h1.eq) a
    have hspec := State.finish_spec ((hreqs r.asn).trans hr) hp status 0
    rw [ht] at hspec
    rw [Req.resetStatus, if_neg hf]
    exact ⟨hspec.1, fun a ha => (hspec.2.1 a ha).trans (hreqs a), hspec.2.2.trans (congrArg Reqs.running h1.eq)⟩

/-- Every request of the list ends with its status; no other request changes. -/
theorem State.each_failReset (status : Nat) (l : List Req) {s : State} (hn : (l.map (·.asn)).Nodup)
    (hl : ∀ r ∈ l, ∃ r0, s.reqOf r.asn = some r0 ∧ r0.phase ≠ .complete) :
    let t := s.each l fun (s : State) r => s.failReset status r
    (∀ r ∈ l, ∃ q, t.reqOf r.asn = some q ∧ q.phase = .complete ∧ q.status = r.resetStatus status) ∧
      (∀ a, a ∉ l.map (·.asn) → t.reqOf a = s.reqOf a) ∧ t.req.running = s.req.running := by
  induction l generalizing s with
  | nil => exact ⟨by simp, fun _ _ => rfl, rfl⟩
  | cons r l ih =>
    obtain ⟨hr, hn'⟩ := List.nodup_cons.mp hn
    obtain ⟨r0, hr0, hp⟩ := hl r List.mem_cons_self
    obtain ⟨⟨q, hq⟩, hother, hrun⟩ := State.failReset_spec hr0 hp status
    have hl' : ∀ x ∈ l, ∃ x0, (s.failReset status r).reqOf x.asn = some x0 ∧ x0.phase ≠ .complete := by
      intro x hx
      have hne : x.asn ≠ r.asn := fun h => hr (List.mem_map.mpr ⟨x, hx, h⟩)
      rw [hother x.asn hne]
      exact hl x (List.mem_cons_of_mem r hx)
    obtain ⟨hdone, hrest, hrun'⟩ := ih hn' hl'
    refine ⟨fun x hx => ?_, fun a ha => ?_, hrun'.trans hrun⟩
    · obtain rfl | hx := List.mem_cons.mp hx
      · exact ⟨q, (hrest _ hr).trans hq.1, hq.2⟩
      · exact hdone x hx
    · have hne : a ≠ r.asn := fun h => ha (by simp [h])
      exact (hrest a fun h => ha (by simp only [List.map_cons, List.mem_cons]; exact .inr h)).trans (hother a hne)

/-- Every request that is not complete ends with its status; what runs stays. -/
theorem State.failAll_spec {s : State} (hn : (s.req.table.map (·.asn)).Nodup) (status : Nat) :
    (∀ r ∈ s.req.table, r.phase ≠ .complete →
      ∃ q, (s.failAll status).reqOf r.asn = some q ∧ q.phase = .complete ∧ q.status = r.resetStatus status) ∧
      (s.failAll status).req.running = s.req.running := by
  have hperm := sortBy_perm Req.asn (s.req.table.filter fun r => r.phase != .complete)
  obtain ⟨hdone, -, hrun⟩ := State.each_failReset status (sortBy Req.asn (s.req.table.filter fun r => r.phase != .complete)) (s := s)
    ((hperm.map _).nodup_iff.mpr (hn.sublist (List.filter_sublist.map _)))
    (fun r hr => by
      obtain ⟨hmem, hp⟩ := List.mem_filter.mp (hperm.mem_iff.mp hr)
      exact ⟨r, State.reqOf_of_mem hn hmem, by simpa using hp⟩)
  exact ⟨fun r hr hp => hdone r (hperm.mem_iff.mpr (List.mem_filter.mpr ⟨hr, by simpa using hp⟩)), hrun⟩

theorem State.failAll_keeps {α : Type} {π : State → α} {s₀ s : State} (h : Keeps π s₀ s) (status : Nat) (hReqs : IgnoresReqs π)
    (hTable : Ignores π State.modReqs) (hMem : Ignores π State.modMem) (hStr : IgnoresStr π) (hHost : IgnoresHost π)
    (hCnt : IgnoresCnt π) (hErr : IgnoresErr π) (hHub : Ignores π State.modHub) (hFree : IgnoresFree π) : Keeps π s₀ (s.failAll status) := by
  refine State.each_keeps h (fun s r h => ?_) _
  unfold State.failReset
  split
  · grind [State.finish_keeps]
  · split
    · grind [State.finish_keeps, State.openRecord_keeps]
    · grind [State.finish_keeps]

/-! ## Stages of a warm reset -/

/-- Where nothing runs, what this node held for another home's request takes nothing of what runs with it. -/
theorem State.running_dropHome {s : State} (h : s.req.running = []) (home asn : Nat) : (s.dropHome home asn).req.running = [] := by
  unfold State.dropHome
  extract_lets wus s1 gs s2 s3 s4 s5
  have hs1 : s1 = s := by
    simp only [s1, wus, h, List.filter_nil]
    rfl
  have h3 : Keeps (fun s => s.req.running) s1 s3 :=
    State.each_keeps (State.releaseHere_keeps (State.freeKv_keeps (.refl s1) ..) ..) (fun s g h => State.remapReleased_keeps h ..) _
  have hrun : s3.req.running = [] := h3.eq.trans (by rw [hs1]; exact h)
  clear_value s3
  exact hrun

theorem State.running_dropForeign {s : State} (h : s.req.running = []) : s.dropForeign.req.running = [] := by
  have heach : ∀ (l : List (Nat × Nat)) (s : State), s.req.running = [] →
      (s.each l fun (s : State) (x : Nat × Nat) => s.dropHome x.1 x.2).req.running = [] := by
    intro l
    induction l with
    | nil => exact fun s h => h
    | cons x l ih => exact fun s h => ih _ (State.running_dropHome h x.1 x.2)
  exact heach s.foreign s h

/-- What a view of a bay that does not read the plumb test's hold shows, the end of a run leaves. -/
theorem State.bay_abandonRun {α : Type} (π : Bay → α) (hπ : ∀ y, π { y with plumbHeld := false } = π y) (s : State) (c : Fin 80) :
    π (s.abandonRun.bay c) = π (s.bay c) := by
  unfold State.abandonRun
  extract_lets s1
  have h : Keeps (fun s => π (s.bay c)) s s1 := by
    refine State.each_keeps (.refl s) (fun s b h => ?_) _
    exact (State.bay_modBay_kept π (f := fun y => { y with plumbHeld := false }) hπ s b c).trans h
  clear_value s1
  exact h.eq

theorem Memory.byte_of_forall_ne {m : Memory} {a : Nat} (h : ∀ c ∈ m, c.1 ≠ a) (d : Byte) : Memory.byte d m a = d := by
  induction m with
  | nil => rfl
  | cons c m ih =>
    rw [Memory.byte, if_neg (h c List.mem_cons_self)]
    exact ih fun x hx => h x (List.mem_cons_of_mem c hx)

/-- Cleared bay SRAM reads zero. -/
theorem Mem.byte_clearT0 (m : Mem) {a : Nat} (ha : a < t1Base) : m.clearT0.byte a = 0 := by
  unfold Mem.byte
  split
  · rfl
  · refine Memory.byte_of_forall_ne (fun c hc hca => ?_) 0
    obtain ⟨-, hle⟩ := List.mem_filter.mp hc
    have hle' : t1Base ≤ c.1 := by simpa using hle
    omega

/-- The parts that neither the stop of all work nor the end of the requests reads or changes. -/
def warmView (s : State) : Clk × Cfg × Pins × List Host.Cell × Nat × List Nat :=
  (s.clk, s.cfg, s.pins, s.boot.flash, s.boot.fuseFloor, s.err.fatal)

theorem fences_ignored (c : Fin 80) : IgnoresBays fun s => (s.bay c).fenced := by
  intro s f
  simp only [State.bay, List.getD_eq_getElem?_getD, List.getElem?_mapIdx]
  cases s.bays[c.val]? <;> rfl

theorem fences_ignored_thr (c : Fin 80) : IgnoresBayThr fun s => (s.bay c).fenced := fun s b f =>
  State.bay_modBay_kept Bay.fenced (f := fun y => { f y with task := y.task, fenced := y.fenced }) (fun _ => rfl) s b c

theorem fences_ignored_rest (c : Fin 80) : IgnoresBayRest fun s => (s.bay c).fenced := fun s b f =>
  State.bay_modBay_kept Bay.fenced (f := fun y => { f y with task := y.task, threads := y.threads, fenced := y.fenced }) (fun _ => rfl) s b c

/-- All work stops, with what this node held for other homes and the resident streams. -/
theorem State.stopWork_spec (s : State) :
    let t := s.stopAll.dropForeign.loseResidents
    warmView t = warmView s ∧ (∀ c, (t.bay c).fenced = (s.bay c).fenced) ∧ t.req.table = s.req.table ∧ t.req.running = [] ∧
      t.host.pages = s.host.pages := by
  intro t
  have hview : Keeps (fun s => (warmView s, s.req.table, s.host.pages)) s t :=
    State.loseResidents_keeps (State.dropForeign_keeps (State.stopAll_keeps (.refl s) ..) ..) ..
  have hfenced : ∀ c, Keeps (fun s => (s.bay c).fenced) s t := by
    intro c
    have h1 : Keeps (fun s => (s.bay c).fenced) s s.stopAll :=
      State.stopAll_keeps (.refl s) (hBays := fences_ignored c) (hBayThr := fences_ignored_thr c) (hBayRest := fences_ignored_rest c) ..
    have h2 : Keeps (fun s => (s.bay c).fenced) s s.stopAll.dropForeign :=
      State.dropForeign_keeps h1 (hBays := fences_ignored c) (hBayThr := fences_ignored_thr c) (hBayRest := fences_ignored_rest c) ..
    exact State.loseResidents_keeps h2 (hBayRest := fences_ignored_rest c) ..
  have hrun : Keeps (fun s => s.req.running) s.stopAll.dropForeign t := State.loseResidents_keeps (.refl _) ..
  have hrun' : t.req.running = [] := hrun.eq.trans (State.running_dropForeign (State.running_stopAll s))
  clear_value t
  obtain ⟨hw, htable, hpages⟩ : _ ∧ _ ∧ _ := by simpa [Keeps] using hview
  exact ⟨hw, fun c => (hfenced c).eq, htable, hrun', hpages⟩

/-- The rings are cleared. -/
theorem State.clearRings_spec (s : State) :
    let t := s.clearRings
    warmView t = warmView s ∧ t.bays = s.bays ∧ t.req.table = s.req.table.map (fun r => { r with slot := .hold }) ∧
      t.req.running = s.req.running ∧ t.host.pages = s.host.pages.map FnPage.warm := by
  simp [State.clearRings, State.ringSlotsToHold, Boot.dropStaging, warmView]

/-- Every request ends, bays and bay SRAM are cleared, and the plumb run is abandoned. -/
theorem State.endWork_spec (s : State) (status : Nat) :
    let t := (((s.failAll status).clearBays .none).modMem Mem.clearT0).abandonRun
    warmView t = warmView s ∧ (∀ c, (t.bay c).task = none ∧ (t.bay c).ramp = .off ∧ (t.bay c).fenced = (s.bay c).fenced) ∧
      (∀ a < t1Base, t.mem.byte a = 0) ∧ (∀ f, (t.page f).armed = (s.page f).armed ∧ (t.page f).cplTail = (s.page f).cplTail) ∧
      t.req = (s.failAll status).req := by
  intro t
  have ht : (((s.failAll status).clearBays .none).modMem Mem.clearT0).abandonRun = t := rfl
  clear_value t
  have hfail : Keeps (fun s => (warmView s, s.bays)) s (s.failAll status) := State.failAll_keeps (.refl s) status
    (fun _ _ => rfl) (fun _ _ => rfl) (fun _ _ => rfl) (fun _ _ => rfl) ⟨fun _ _ => rfl, fun _ _ _ _ _ => rfl⟩ (fun _ _ => rfl)
    (fun _ _ => rfl) (fun _ _ => rfl) (fun _ _ => rfl)
  have hpage : ∀ f, Keeps (fun s => ((s.page f).armed, (s.page f).cplTail)) s (s.failAll status) := fun f =>
    State.failAll_keeps (.refl s) status (fun _ _ => rfl) (fun _ _ => rfl) (fun _ _ => rfl) (fun _ _ => rfl)
      (ignoresHost_page (fun p => (p.armed, p.cplTail)) (fun _ _ _ _ => rfl) f) (fun _ _ => rfl) (fun _ _ => rfl) (fun _ _ => rfl)
      (fun _ _ => rfl)
  obtain ⟨hw, hbays⟩ : _ ∧ _ := by simpa [Keeps] using hfail
  generalize s.failAll status = u at ht hw hbays hpage ⊢
  have hcleared : ∀ c, ((u.clearBays .none).bay c).task = none ∧ ((u.clearBays .none).bay c).ramp = .off ∧
      ((u.clearBays .none).bay c).fenced = (u.bay c).fenced := by
    intro c
    simp only [State.clearBays, State.bay, State.modStew_bays, List.getD_eq_getElem?_getD, List.getElem?_map]
    cases u.bays[c.val]? <;> exact ⟨rfl, rfl, rfl⟩
  have hrun : Keeps (fun s => (warmView s, s.mem, s.host.pages, s.req)) ((u.clearBays .none).modMem Mem.clearT0) t := by
    rw [← ht]
    exact State.abandonRun_keeps (.refl _) ..
  have hbay := fun c => State.bay_abandonRun (fun y => (y.task, y.ramp, y.fenced)) (fun _ => rfl)
    ((u.clearBays .none).modMem Mem.clearT0) c
  simp only [ht, Prod.mk.injEq] at hbay
  obtain ⟨hw', hmem', hpages', hreq'⟩ : _ ∧ _ ∧ _ ∧ _ := by simpa [Keeps] using hrun
  refine ⟨?_, fun c => ?_, fun a ha => ?_, fun f => ?_, hreq'⟩
  · rw [hw', ← hw]
    rfl
  · obtain ⟨htask, hramp, hfenced⟩ := hbay c
    rw [htask, hramp, hfenced]
    refine ⟨(hcleared c).1, (hcleared c).2.1, ((hcleared c).2.2).trans ?_⟩
    rw [State.bay, hbays]
    rfl
  · rw [hmem']
    exact Mem.byte_clearT0 _ ha
  · have hp : t.page f = u.page f := by
      rw [State.page, hpages']
      rfl
    rw [hp]
    exact ⟨congrArg Prod.fst (hpage f).eq, congrArg Prod.snd (hpage f).eq⟩

/-- The Steward starts again; clocks but the tiles', configuration, bays, memory, pages, requests and the fuses stay. -/
theorem State.resumeWork_spec (s : State) (b : Bool) :
    let t := ((s.modStew Stew.restart).modReqs fun q => { q with wakePending := q.wakePending && b }).bootTiles.retryWeights.causeRecord
    (∃ l, t.clk = { s.clk with tiles := l }) ∧ t.pins = s.pins ∧ t.err.fatal = s.err.fatal ∧ t.cfg = s.cfg ∧ t.boot.flash = s.boot.flash ∧
      t.boot.fuseFloor = s.boot.fuseFloor ∧ t.req.table = s.req.table ∧ t.req.running = s.req.running ∧ t.bays = s.bays ∧ t.mem = s.mem ∧
      ∀ f, (t.page f).armed = (s.page f).armed ∧ (t.page f).cplTail = (s.page f).cplTail := by
  intro t
  have ht : ((s.modStew Stew.restart).modReqs fun q => { q with wakePending := q.wakePending && b }).bootTiles.retryWeights.causeRecord =
      t := rfl
  clear_value t
  generalize hs1 : (s.modStew Stew.restart).modReqs (fun q => { q with wakePending := q.wakePending && b }) = s1 at ht
  have hboot : Retiled s1 s1.bootTiles := State.bootTiles_retiled s1
  generalize s1.bootTiles = s2 at ht hboot
  have h : Keeps (fun s => (warmView s, s.req.table, s.req.running, s.bays, s.mem)) s2 t := by
    rw [← ht]
    exact State.causeRecord_keeps (State.retryWeights_keeps (.refl s2) ..) ..
  have hpage : ∀ f, Keeps (fun s => ((s.page f).armed, (s.page f).cplTail)) s2 t := by
    intro f
    have hHost := ignoresHost_page (fun p => (p.armed, p.cplTail)) (fun _ _ _ _ => rfl) f
    rw [← ht]
    exact State.causeRecord_keeps (State.retryWeights_keeps (.refl s2) (hHost := hHost) ..) (hHost := hHost) ..
  obtain ⟨⟨hclk, hcfg, hpins, hflash, hfuse, hfatal⟩, htable, hrun, hbays, hmem⟩ : (_ ∧ _ ∧ _ ∧ _ ∧ _ ∧ _) ∧ _ ∧ _ ∧ _ ∧ _ := by
    simpa [Keeps, warmView] using h
  have hpage2 : ∀ f, (t.page f).armed = (s2.page f).armed ∧ (t.page f).cplTail = (s2.page f).cplTail := by simpa [Keeps] using hpage
  clear h ht hpage
  unfold Retiled at hboot
  generalize s2.clk.tiles = tiles, s2.cnt = cnt at hboot
  subst hboot hs1
  exact ⟨⟨tiles, hclk⟩, hpins, hfatal, hcfg, hflash, hfuse, htable, hrun, hbays, hmem, hpage2⟩

/-- What a warm reset does (Table 2.6). -/
theorem State.warmReset_spec {s : State} (hn : (s.req.table.map (·.asn)).Nodup) (c : Nat) :
    let t := s.warmReset c
    t.clk.resetCause = c ∧ t.clk.resetWarm = true ∧ t.clk.warmInProgress = true ∧ t.clk.pendingReset = .none ∧ t.pins.fatalN = true ∧
      t.err.fatal = [] ∧ t.req.running = [] ∧
      (∀ b, (t.bay b).task = none ∧ (t.bay b).fenced = (s.bay b).fenced ∧ (t.bay b).ramp = .off) ∧
      (∀ a < t1Base, t.mem.byte a = 0) ∧ t.cfg = s.cfg ∧ t.boot.flash = s.boot.flash ∧ t.boot.fuseFloor = s.boot.fuseFloor ∧
      (∀ f, (t.page f).armed = false ∧ (t.page f).cplTail = 0) ∧
      ∀ r ∈ s.req.table, r.phase ≠ .complete → ∃ q ∈ t.req.table, q.asn = r.asn ∧ q.phase = .complete ∧
        q.status = if r.failed then r.status else if s.clk.clockLoss then 0x33 else 0x34 := by
  intro t
  have ht : s.warmReset c = t := rfl
  clear_value t
  unfold State.warmReset at ht
  extract_lets status s1 s2 s3 s4 s5 s6 at ht
  obtain ⟨hclk2, hcfg2, hflash2, hfuse2, htable2, hbays2⟩ : s2.clk = s1.clk ∧ s2.cfg = s.cfg ∧ s2.boot.flash = s.boot.flash ∧
      s2.boot.fuseFloor = s.boot.fuseFloor ∧ s2.req.table = s.req.table ∧ s2.bays = s.bays := ⟨rfl, rfl, rfl, rfl, rfl, rfl⟩
  have hcleared : s2.pins.fatalN = true ∧ s2.err.fatal = [] := ⟨rfl, rfl⟩
  have hdue : s1.clk.resetCause = c ∧ s1.clk.resetWarm = true ∧ s1.clk.warmInProgress = true ∧ s1.clk.pendingReset = .none :=
    ⟨rfl, rfl, rfl, rfl⟩
  rw [← hclk2] at hdue
  clear_value s2
  obtain ⟨hw3, hfenced3, htable3, hrun3, hpages3⟩ := State.stopWork_spec s2
  have h4 : s3 = s2.stopAll.dropForeign.loseResidents.clearRings.leaveWarm := rfl
  clear_value s3
  generalize s2.stopAll.dropForeign.loseResidents = u at h4 hw3 hfenced3 htable3 hrun3 hpages3
  obtain ⟨hw4, hbays4, htable4, hrun4, hpages4⟩ := State.clearRings_spec u
  have hleave : Keeps (fun s => (warmView s, s.bays, s.req, s.host.pages)) u.clearRings s3 := by
    rw [h4]
    exact State.leaveWarm_keeps (.refl _) ..
  obtain ⟨hw5, hbays5, hreq5, hpages5⟩ : _ ∧ _ ∧ _ ∧ _ := by simpa [Keeps] using hleave
  have htable : s3.req.table = s.req.table.map fun r => { r with slot := .hold } := by rw [hreq5, htable4, htable3, htable2]
  have hasn : s3.req.table.map (·.asn) = s.req.table.map (·.asn) := by
    rw [htable, List.map_map]
    rfl
  have hrun : s3.req.running = [] := by rw [hreq5, hrun4, hrun3]
  have hw : warmView s3 = warmView s2 := hw5.trans (hw4.trans hw3)
  have hfenced : ∀ b, (s3.bay b).fenced = (s.bay b).fenced := by
    intro b
    rw [State.bay, hbays5, hbays4]
    refine (hfenced3 b).trans ?_
    rw [State.bay, hbays2]
    rfl
  have hpage : ∀ f, (s3.page f).armed = false ∧ (s3.page f).cplTail = 0 := by
    intro f
    simp only [State.page, hpages5, hpages4, List.getD_eq_getElem?_getD, List.getElem?_map]
    cases u.host.pages[f.val]? <;> exact ⟨rfl, rfl⟩
  clear hw3 hw4 hw5 hleave h4 hpages5 hpages4 hpages3 hbays5 hbays4 hfenced3
  obtain ⟨hw6, hbay6, hmem6, hpage6, hreq6⟩ := State.endWork_spec s3 status
  obtain ⟨hended, hstay⟩ := State.failAll_spec (s := s3) (by rw [hasn]; exact hn) status
  have hresume := State.resumeWork_spec (((s3.failAll status).clearBays .none).modMem Mem.clearT0).abandonRun s5.sent.windowEnd.isSome
  rw [show _ = t from ht] at hresume
  clear ht s6 s5 s4
  generalize (((s3.failAll status).clearBays .none).modMem Mem.clearT0).abandonRun = v at hw6 hbay6 hmem6 hpage6 hreq6 hresume
  obtain ⟨⟨tiles, hclk7⟩, hpins7, hfatal7, hcfg7, hflash7, hfuse7, htable7, hrun7, hbays7, hmem7, hpage7⟩ := hresume
  obtain ⟨hclk6, hcfg6, hpins6, hflash6, hfuse6, hfatal6⟩ : _ ∧ _ ∧ _ ∧ _ ∧ _ ∧ _ := by simpa [warmView] using hw6.trans hw
  rw [hclk7, hclk6, hpins7, hpins6, hfatal7, hfatal6, hrun7, hreq6, hstay, hcfg7, hcfg6, hflash7, hflash6, hfuse7, hfuse6, hmem7]
  refine ⟨hdue.1, hdue.2.1, hdue.2.2.1, hdue.2.2.2, hcleared.1, hcleared.2, hrun, fun b => ?_, hmem6, hcfg2, hflash2, hfuse2, fun f => ?_,
    fun r hr hp => ?_⟩
  · rw [State.bay, hbays7]
    obtain ⟨htask, hramp, hfence⟩ := hbay6 b
    exact ⟨htask, hfence.trans (hfenced b), hramp⟩
  · exact ⟨(hpage7 f).1.trans ((hpage6 f).1.trans (hpage f).1), (hpage7 f).2.trans ((hpage6 f).2.trans (hpage f).2)⟩
  · obtain ⟨q, hq, hphase, hstatus⟩ := hended { r with slot := .hold } (by rw [htable]; exact List.mem_map_of_mem hr) hp
    obtain ⟨hmem, hqasn⟩ := State.mem_of_reqOf hq
    exact ⟨q, by rw [htable7, hreq6]; exact hmem, hqasn, hphase, hstatus⟩

/-- Settles O32. -/
theorem warmResetAborts : Obligations.WarmResetAborts := by
  intro s c hs hn halive
  refine ⟨fun hpending hlock hlost hp3 htrip => ⟨fun hfatal => ⟨_, rfl, ?_⟩, fun hfatal => ⟨_, rfl, ?_⟩⟩, fun hwarm => ⟨_, rfl, ?_⟩⟩
  · obtain ⟨d, f, hadv⟩ := State.advance_eq s (s.clk.warmAt.getD 0)
    have hperform : doWarmResetPerform s =
        (s.advance (s.clk.warmAt.getD 0)).modClk fun k => { k with pendingReset := .cold 8, warmAt := none } := by
      simp [doWarmResetPerform, hpending, halive, hlock, hlost, hp3, htrip, hadv, hfatal]
    rw [hperform]
    rfl
  · obtain ⟨d, f, hadv⟩ := State.advance_eq s (s.clk.warmAt.getD 0)
    have hperform : doWarmResetPerform s = (s.advance (s.clk.warmAt.getD 0)).warmReset c := by
      simp [doWarmResetPerform, hpending, halive, hlock, hlost, hp3, htrip, hadv, hfatal]
    rw [hperform]
    have hspec := State.warmReset_spec (s := s.advance (s.clk.warmAt.getD 0)) (by rw [hadv]; exact hn) c
    generalize (s.advance (s.clk.warmAt.getD 0)).warmReset c = t at hspec
    obtain ⟨h1, h2, h3, h4, h5, h6, h7, h8, h9, h10⟩ := hspec
    rw [hadv] at h8 h10
    refine ⟨h1, h2, h3, h4, h5, h6, h7, h8, fun a ha => h9 a (Nat.lt_trans ha (by decide)), h10⟩
  · have hcomplete : doWarmResetComplete s =
        ((((s.modClk fun c => { c with warmInProgress := false }).originate.checkMembers.assignId []).tryWake).noteIdle) := by
      simp only [doWarmResetComplete, hwarm, Bool.not_true, Bool.false_eq_true, if_false]
    have hclk : Keeps State.clk (s.modClk fun c => { c with warmInProgress := false })
        (((s.modClk fun c => { c with warmInProgress := false }).originate.checkMembers.assignId []).tryWake) :=
      State.tryWake_keeps (State.assignId_keeps (State.checkMembers_keeps (State.originate_keeps (.refl _) ..) ..) ..) ..
    rw [hcomplete]
    generalize (((s.modClk fun c => { c with warmInProgress := false }).originate.checkMembers.assignId []).tryWake) = t at hclk
    unfold State.noteIdle
    have hdown : t.clk.warmInProgress = false := by rw [hclk.eq]; rfl
    split <;> exact hdown

end Sys2Proof.Machine
end

section
/-! Recalibration, stale telemetry and HBM throttling (04, R102, R116, R122). -/
namespace Sys2Proof.Machine
open Sys2Proof

/-! ## Operations that treat one part after another -/

section
variable {ι β : Type} {v : State → ι → β} {f : State → ι → State} (hother : ∀ s i j, i ≠ j → v (f s i) j = v s j)
include hother

/-- A part that is not on the list stays as it was. -/
theorem State.each_other {j : ι} {l : List ι} (hj : j ∉ l) (s : State) : v (s.each l f) j = v s j := by
  induction l generalizing s with
  | nil => rfl
  | cons i l ih =>
    obtain ⟨hi, hj'⟩ := not_or.mp (mt List.mem_cons.mpr hj)
    exact (ih hj' (f s i)).trans (hother s i j (Ne.symm hi))

/-- A part on the list is treated once, at a state that keeps the invariant. -/
theorem State.each_at {Inv : State → Prop} {R : ι → β → β → Prop} (hinv : ∀ s i, Inv s → Inv (f s i))
    (hown : ∀ s i, Inv s → R i (v s i) (v (f s i) i)) {j : ι} {l : List ι} (hl : l.Nodup) (hj : j ∈ l) {s : State} (hs : Inv s) :
    R j (v s j) (v (s.each l f) j) := by
  induction l generalizing s with
  | nil => exact absurd hj (List.not_mem_nil)
  | cons i l ih =>
    obtain ⟨hi, hl'⟩ := List.nodup_cons.mp hl
    by_cases hij : j = i
    · subst hij
      have h := hown s j hs
      rwa [← State.each_other hother hi (f s j)] at h
    · have h := ih hl' ((List.mem_cons.mp hj).resolve_left hij) (hinv s i hs)
      rwa [hother s i j (Ne.symm hij)] at h
end

theorem State.each_invariant {ι : Type} {Inv : State → Prop} {f : State → ι → State} (hinv : ∀ s i, Inv s → Inv (f s i)) (l : List ι)
    {s : State} (hs : Inv s) : Inv (s.each l f) := by
  induction l generalizing s with
  | nil => exact hs
  | cons i l ih => exact ih (hinv s i hs)

/-! ## HBM throttling -/

theorem hbmLeave_le (c x k : Nat) : hbmLeave c x k ≤ k := by
  induction k with
  | zero => exact Nat.le_refl 0
  | succ k ih =>
    unfold hbmLeave
    split
    · omega
    · exact Nat.le_refl _

theorem hbmLeave_cool {c x : Nat} (h : x + 2 ≤ c) (k : Nat) : hbmLeave c x k = 0 := by
  induction k with
  | zero => rfl
  | succ k ih =>
    unfold hbmLeave
    rw [if_pos (by omega), ih]

/-- What the hysteresis of Table 4.3 makes of a step. -/
theorem hbmStep_bounds (c x old : Nat) :
    let new := max (hbmEntry c x) (hbmLeave c x old)
    (x + 2 ≤ c → new = 0) ∧ (c ≤ x → 1 ≤ new) ∧ (c + 5 ≤ x → 2 ≤ new) ∧ (c + 10 ≤ x → 3 ≤ new) ∧ new ≤ max old 3 ∧ (x < c → new ≤ old) := by
  intro new
  have hleave := hbmLeave_le c x old
  have hcool : x + 2 ≤ c → hbmLeave c x old = 0 := fun h => hbmLeave_cool h old
  simp only [new, hbmEntry]
  refine ⟨?_, ?_, ?_, ?_, ?_, ?_⟩ <;> grind

/-- The throttling step of each stack after a poll. -/
def hbmStepAfter (c : Nat) (temp : Option Nat) (old : Nat) : Nat :=
  match temp with
  | none => old
  | some x => max (hbmEntry c x) (hbmLeave c x old)

theorem State.hbmReading_step (s : State) (k x : Nat) :
    (s.hbmReading k x).stew.hbmStep =
      s.stew.hbmStep.set k (max (hbmEntry s.cfg.policy.hbmC x) (hbmLeave s.cfg.policy.hbmC x (s.stew.hbmStep.getD k 0))) ∧
      (s.hbmReading k x).cfg = s.cfg := by
  unfold State.hbmReading
  dsimp only
  split <;> exact ⟨rfl, rfl⟩

/-- One stack's part of a poll. -/
def State.hbmPolled (temps : List (Option Nat)) (s : State) (k : Nat) : State :=
  match temps.getD k none with
  | none => s
  | some t => s.hbmReading k t

theorem State.hbmPolled_other (temps : List (Option Nat)) (s : State) (k j : Nat) (hj : k ≠ j) :
    (s.hbmPolled temps k).stew.hbmStep.getD j 0 = s.stew.hbmStep.getD j 0 := by
  unfold State.hbmPolled
  cases temps.getD k none with
  | none => rfl
  | some x => simp [State.hbmReading_step s k x, hj]

theorem State.hbmPolled_own (temps : List (Option Nat)) {s : State} (hlen : s.stew.hbmStep.length = 8) (k : Nat) :
    (s.hbmPolled temps k).cfg = s.cfg ∧ (s.hbmPolled temps k).stew.hbmStep.length = 8 ∧
      (k < 8 → (s.hbmPolled temps k).stew.hbmStep.getD k 0 =
        hbmStepAfter s.cfg.policy.hbmC (temps.getD k none) (s.stew.hbmStep.getD k 0)) := by
  unfold State.hbmPolled
  cases temps.getD k none with
  | none => exact ⟨rfl, hlen, fun _ => rfl⟩
  | some x =>
    obtain ⟨hstep, hcfg⟩ := State.hbmReading_step s k x
    exact ⟨hcfg, by simp [hstep, hlen], fun hk => by simp [hstep, hlen, hk, hbmStepAfter]⟩

theorem State.each_hbmPolled (temps : List (Option Nat)) {s : State} (hlen : s.stew.hbmStep.length = 8) {k : Nat} (hk : k < 8) :
    (s.each (List.range 8) (State.hbmPolled temps)).stew.hbmStep.getD k 0 =
      hbmStepAfter s.cfg.policy.hbmC (temps.getD k none) (s.stew.hbmStep.getD k 0) := by
  refine State.each_at (v := fun s k => s.stew.hbmStep.getD k 0) (f := State.hbmPolled temps)
    (Inv := fun t => t.stew.hbmStep.length = 8 ∧ t.cfg = s.cfg)
    (R := fun k old new => k < 8 → new = hbmStepAfter s.cfg.policy.hbmC (temps.getD k none) old)
    (State.hbmPolled_other temps) (fun t i ht => ?_) (fun t i ht hi => ?_) List.nodup_range (List.mem_range.mpr hk) ⟨hlen, rfl⟩ hk
  · obtain ⟨hcfg, hlen', -⟩ := State.hbmPolled_own temps ht.1 i
    exact ⟨hlen', hcfg.trans ht.2⟩
  · rw [← ht.2]
    exact (State.hbmPolled_own temps ht.1 i).2.2 hi

/-! ## Recalibration -/

/-- One rail's part of a recalibration. -/
def State.railRecalibrated (vrm : List (Option Nat)) (est : List Nat) (s : State) (i : Nat) : State :=
  match vrm.getD i none with
  | none => s.error { cls := 0, source := 0x03, inst := i, code := 0x0402 }
  | some e => (s.newGain e (est.getD i 0)).2.modStew fun x => { x with gain := x.gain.set i (s.newGain e (est.getD i 0)).1 }

/-- A rail's gain after a recalibration: kept without telemetry, else VRM over estimator energy within its bounds. -/
def Regained (vrm : List (Option Nat)) (est : List Nat) (i : Nat) (old new : Option Nat) : Prop :=
  (vrm.getD i none = none → new = old) ∧
    ∀ e, vrm.getD i none = some e → est.getD i 0 ≠ 0 → new = some (max 0x0800 (min 0x2000 (4096 * e / est.getD i 0)))

/-- A new gain takes at most a free value. -/
theorem State.newGain_free (s : State) (e n : Nat) : ∃ k, (s.newGain e n).2 = { s with freeCtr := k } := by
  unfold State.newGain
  split
  · exact ⟨_, rfl⟩
  · exact ⟨_, rfl⟩

theorem State.railRecalibrated_keeps {α : Type} {π : State → α} (vrm : List (Option Nat)) (est : List Nat) (i : Nat) {s₀ s : State}
    (h : Keeps π s₀ s) (hgain : ∀ (s : State) l, π { s with stew := { s.stew with gain := l } } = π s) (hHost : IgnoresHost π)
    (hCnt : IgnoresCnt π) (hErr : IgnoresErr π) (hFree : IgnoresFree π) : Keeps π s₀ (s.railRecalibrated vrm est i) := by
  unfold State.railRecalibrated
  split
  · exact State.error_keeps h hHost hCnt hErr _
  next e _ =>
    obtain ⟨k, hk⟩ := State.newGain_free s e (est.getD i 0)
    rw [hk]
    exact (hgain { s with freeCtr := k } _).trans ((hFree s k).trans h)

theorem State.railRecalibrated_gain (vrm : List (Option Nat)) (est : List Nat) (s : State) (i : Nat) :
    (s.railRecalibrated vrm est i).stew.gain.length = s.stew.gain.length ∧
      (∀ j, i ≠ j → (s.railRecalibrated vrm est i).stew.gain[j]? = s.stew.gain[j]?) ∧
      (i < s.stew.gain.length → Regained vrm est i s.stew.gain[i]? (s.railRecalibrated vrm est i).stew.gain[i]?) := by
  unfold State.railRecalibrated Regained
  cases vrm.getD i none with
  | none =>
    have h : Keeps (fun s => s.stew.gain) s (s.error { cls := 0, source := 0x03, inst := i, code := 0x0402 }) :=
      State.error_keeps (.refl s) ..
    simp [h.eq]
  | some e =>
    obtain ⟨k, hk⟩ := State.newGain_free s e (est.getD i 0)
    dsimp only
    rw [hk]
    refine ⟨by simp, fun j hj => by simp [hj], fun hi => ⟨by simp, fun e' he hest => ?_⟩⟩
    obtain rfl := Option.some.inj he
    have hgain : (s.newGain e (est.getD i 0)).1 = max 0x0800 (min 0x2000 (4096 * e / est.getD i 0)) := by
      rw [State.newGain, if_neg hest]
    rw [hgain]
    simp [hi]

theorem State.each_railRecalibrated_gain (vrm : List (Option Nat)) (est : List Nat) {s : State} (hlen : s.stew.gain.length = 13) {i : Nat}
    (hi : i < 13) : Regained vrm est i s.stew.gain[i]? (s.each (List.range 13) (State.railRecalibrated vrm est)).stew.gain[i]? := by
  refine State.each_at (v := fun s i => s.stew.gain[i]?) (f := State.railRecalibrated vrm est)
    (Inv := fun t => t.stew.gain.length = 13) (R := fun i old new => i < 13 → Regained vrm est i old new)
    (fun t i j hij => (State.railRecalibrated_gain vrm est t i).2.1 j hij) (fun t i ht => ?_) (fun t i ht hi => ?_)
    List.nodup_range (List.mem_range.mpr hi) hlen hi
  · exact (State.railRecalibrated_gain vrm est t i).1.trans ht
  · exact (State.railRecalibrated_gain vrm est t i).2.2 (by omega)

/-! ## Readings -/

/-- A bay task's energy takes the bay's reading, by the gain of its tile's rail. -/
def State.bayRead (part : Readings) (s : State) (b : Fin 80) : State :=
  s.modBay b fun y => { y with task := y.task.map fun t => { t with energy := t.energy + s.gained (tileOf b).val (part.bays.getD b.val 0) } }

/-- The window's energy takes the rails' readings, by the gains in force. -/
def State.railsRead (part : Readings) (s : State) : State :=
  s.modStew fun x =>
    { x with winEnergy := x.winEnergy + s.gainedSum part.rails, winBase := x.winBase + s.gainedSum part.base }

theorem State.each_bayRead (part : Readings) {s : State} (hbays : s.bays.length = 80) (b : Fin 80) :
    ((s.each allBays (State.bayRead part)).bay b).task =
      (s.bay b).task.map fun t => { t with energy := t.energy + s.gained (tileOf b).val (part.bays.getD b.val 0) } := by
  refine State.each_at (v := fun s b => (s.bay b).task) (f := State.bayRead part)
    (Inv := fun t => t.bays.length = 80 ∧ t.stew.gain = s.stew.gain)
    (R := fun b old new => new = old.map fun t => { t with energy := t.energy + s.gained (tileOf b).val (part.bays.getD b.val 0) })
    (fun t i j hij => ?_) (fun t i ht => ?_) (fun t i ht => ?_) (List.nodup_finRange 80) (List.mem_finRange b) ⟨hbays, rfl⟩
  · exact congrArg Bay.task (State.bay_modBay_other t i j _ hij)
  · exact ⟨by simpa [State.bayRead, State.modBay] using ht.1, ht.2⟩
  · simp only [State.bayRead, State.bay_modBay_same t i _ ht.1, State.gained, ht.2]

theorem State.each_bayRead_keeps (part : Readings) (s : State) :
    (s.each allBays (State.bayRead part)).clk = s.clk ∧ (s.each allBays (State.bayRead part)).stew = s.stew := by
  generalize allBays = l
  exact State.each_invariant (Inv := fun t => t.clk = s.clk ∧ t.stew = s.stew) (f := State.bayRead part) (fun t b h => h) l ⟨rfl, rfl⟩

/-- What a recalibration does, by its three parts: the readings, the rails, and the date. -/
theorem doEstimatorRecalibration_eq {s : State} {at_ : Nat} (hrun : (s.advance at_).running = true) (vrm : List (Option Nat)) (est : List Nat)
    (part : Readings) :
    ∃ u, u = ((((s.advance at_).railsRead part).each allBays (State.bayRead part)).modStew fun x =>
          { x with moduleW := part.moduleW % 65536 }).each (List.range 13) (State.railRecalibrated vrm est) ∧
      doEstimatorRecalibration at_ vrm est part s =
        if (List.range 13).any fun i => (vrm.getD i none).isSome then
          u.modStew fun x => { x with lastRecal := u.clk.devTime, vrmStale := false }
        else u := by
  refine ⟨_, rfl, ?_⟩
  unfold doEstimatorRecalibration
  rw [if_neg (by simp [hrun])]
  rfl

theorem State.recalibration_spec {s : State} {at_ : Nat} (hs : Safety.shaped s) (hrun : (s.advance at_).running = true)
    (vrm : List (Option Nat)) (est : List Nat) (part : Readings) :
    let t := doEstimatorRecalibration at_ vrm est part s
    t.stew.moduleW = part.moduleW % 65536 ∧ (∀ i < 13, Regained vrm est i s.stew.gain[i]? t.stew.gain[i]?) ∧
      t.stew.winEnergy = s.stew.winEnergy + s.gainedSum part.rails ∧
      (∀ b, (t.bay b).task =
        (s.bay b).task.map fun k => { k with energy := k.energy + s.gained (tileOf b).val (part.bays.getD b.val 0) }) ∧
      ((∃ i < 13, (vrm.getD i none).isSome = true) → t.stew.vrmStale = false ∧ t.stew.lastRecal = (s.advance at_).clk.devTime) := by
  intro t
  obtain ⟨hbays0, -, -, -, -, -, -, -, -, -, hgains0, -⟩ := hs
  obtain ⟨u, hu, ht⟩ := doEstimatorRecalibration_eq hrun vrm est part
  rw [show doEstimatorRecalibration at_ vrm est part s = t from rfl] at ht
  clear_value t
  have hadv : (s.advance at_).stew = s.stew ∧ (s.advance at_).bays = s.bays := by
    obtain ⟨d, f, h⟩ := State.advance_eq s at_
    rw [h]
    exact ⟨rfl, rfl⟩
  generalize s.advance at_ = s1 at hu hadv ⊢
  obtain ⟨hstew, hbays⟩ := hadv
  have hread : (s1.railsRead part).stew = { s.stew with winEnergy := s.stew.winEnergy + s.gainedSum part.rails,
                                                         winBase := s.stew.winBase + s.gainedSum part.base } := by
    simp only [State.railsRead, State.modStew_stew, State.gainedSum, State.gained, hstew]
  have hread' : (s1.railsRead part).clk = s1.clk ∧ (s1.railsRead part).bays = s.bays := by
    simp [State.railsRead, hbays]
  generalize s1.railsRead part = s2 at hu hread hread'
  have htask := State.each_bayRead part (s := s2) (by rw [hread'.2]; exact hbays0)
  have hkept := State.each_bayRead_keeps part s2
  generalize s2.each allBays (State.bayRead part) = s3 at hu htask hkept
  obtain ⟨hclk3, hstew3⟩ := hkept
  have hgain := fun i (hi : i < 13) => State.each_railRecalibrated_gain vrm est
    (s := s3.modStew fun x => { x with moduleW := part.moduleW % 65536 }) (by rw [State.modStew_stew, hstew3, hread]; exact hgains0) hi
  have hrails : Keeps (fun s => (s.clk, s.bays, s.stew.moduleW, s.stew.winEnergy)) (s3.modStew fun x => { x with moduleW := part.moduleW % 65536 })
      u := by
    rw [hu]
    exact State.each_keeps (.refl _) (fun s i h => State.railRecalibrated_keeps vrm est i h (fun _ _ => rfl)
      ⟨fun _ _ => rfl, fun _ _ _ _ _ => rfl⟩ (fun _ _ => rfl) (fun _ _ => rfl) (fun _ _ => rfl)) _
  rw [← hu] at hgain
  obtain ⟨hclk5, hbays5, hmodule5, henergy5⟩ : u.clk = s3.clk ∧ u.bays = s3.bays ∧ u.stew.moduleW = part.moduleW % 65536 ∧
      u.stew.winEnergy = s3.stew.winEnergy := by simpa [Keeps] using hrails
  have hu' : u.stew.moduleW = part.moduleW % 65536 ∧ (∀ i < 13, Regained vrm est i s.stew.gain[i]? u.stew.gain[i]?) ∧
      u.stew.winEnergy = s.stew.winEnergy + s.gainedSum part.rails ∧ u.clk.devTime = s1.clk.devTime ∧
      ∀ b, (u.bay b).task = (s.bay b).task.map fun k => { k with energy := k.energy + s.gained (tileOf b).val (part.bays.getD b.val 0) } := by
    refine ⟨hmodule5, fun i hi => ?_, ?_, ?_, fun b => ?_⟩
    · have h := hgain i hi
      rw [State.modStew_stew, hstew3, hread] at h
      exact h
    · rw [henergy5, hstew3, hread]
    · rw [hclk5, hclk3, hread'.1]
    · rw [State.bay, hbays5]
      refine (htask b).trans ?_
      simp only [State.bay, hread'.2, State.gained, hread]
  obtain ⟨hmodule, hgains, henergy, htime, htasks⟩ := hu'
  rw [ht]
  split
  next => exact ⟨hmodule, hgains, henergy, htasks, fun _ => ⟨rfl, htime⟩⟩
  next hnone =>
    refine ⟨hmodule, hgains, henergy, htasks, fun ⟨i, hi, hsome⟩ => absurd ?_ hnone⟩
    simpa using ⟨i, hi, by simpa using hsome⟩

/-- Settles O37. -/
theorem estimatorsAndHbm : Obligations.EstimatorsAndHbm := by
  intro s at_ s1 hrun hs
  obtain ⟨-, -, -, -, -, -, -, -, -, -, -, hlen⟩ := id hs
  obtain ⟨hstew, hcfg⟩ : s1.stew = s.stew ∧ s1.cfg = s.cfg := by
    obtain ⟨d, f, h⟩ := State.advance_eq s at_
    simp [s1, h]
  refine ⟨fun vrm est part => ⟨_, rfl, ?_⟩, ⟨_, rfl, ?_⟩, fun temps => ⟨_, rfl, fun k hk => ?_⟩, fun k => ⟨_, rfl, ?_⟩⟩
  · intro old
    obtain ⟨hmodule, hgains, henergy, htasks, hdate⟩ := State.recalibration_spec hs hrun vrm est part
    refine ⟨hmodule, fun i hi hnone => (hgains i hi).1 hnone, fun i hi v hv hest => (hgains i hi).2 v hv hest, henergy,
      fun b k hk => ?_, hdate⟩
    rw [htasks b, hk]
    rfl
  · by_cases hstale : s1.stew.lastRecal + 100000000 ≤ s1.clk.devTime
    · have hset : doVrmTelemetryStale at_ s = s1.modStew fun x => { x with vrmStale := true } := if_pos (by simp [s1, hrun, hstale])
      rw [hset]
      exact ⟨rfl, by simp [← hstew, hstale]⟩
    · have hset : doVrmTelemetryStale at_ s = s1 := if_neg (by simp [s1, hrun, hstale])
      rw [hset]
      exact ⟨rfl, by simp [← hstew, hstale]⟩
  · intro c old new
    have hpoll : doHbmTempPoll at_ temps s = s1.each (List.range 8) (State.hbmPolled temps) := if_neg (by simp [s1, hrun])
    have hnew : new = hbmStepAfter c (temps.getD k none) old := by
      simp only [new, hpoll]
      rw [State.each_hbmPolled temps (by rw [hstew]; exact hlen) hk, hstew, hcfg]
    refine ⟨fun hnone => by rw [hnew, hnone]; rfl, fun x hx => ?_⟩
    rw [hnew, hx]
    exact hbmStep_bounds c x old
  · have hheld : doHbmTempTimeout k at_ s = s1.modStew fun x => { x with hbmStep := x.hbmStep.set k.val 3 } := if_pos hrun
    rw [hheld]
    refine ⟨?_, rfl, fun j hj => ?_⟩
    · simp [hstew, hlen, k.isLt]
    · simp [hstew, hj.symm]

end Sys2Proof.Machine
end

section
/-! What further operations of the model leave as they were. -/
namespace Sys2Proof.Machine
open Sys2Proof

-- One proof at a time: many short proofs elaborated side by side would cost the check its memory.
set_option Elab.async false


section
variable {α : Type} {π : State → α} {s₀ s : State} (h : Keeps π s₀ s)
  (hClk : IgnoresClk π := by exact fun _ _ => rfl)
  (hClkT : Ignores π State.modClk := by exact fun _ _ => rfl)
  (hPins : Ignores π State.modPins := by exact fun _ _ => rfl)
  (hBoot : IgnoresBoot π := by exact fun _ _ => rfl)
  (hBootT : Ignores π State.modBoot := by exact fun _ _ => rfl)
  (hCfg : IgnoresCfg π := by exact fun _ _ => rfl)
  (hTun : Ignores π State.modTun := by exact fun _ _ => rfl)
  (hStew : IgnoresStew π := by exact fun _ _ => rfl)
  (hStewT : Ignores π State.modStew := by exact fun _ _ => rfl)
  (hReqs : IgnoresReqs π := by exact fun _ _ => rfl)
  (hRun : IgnoresRun π := by exact fun _ _ => rfl)
  (hTable : Ignores π State.modReqs := by exact fun _ _ => rfl)
  (hBayRest : IgnoresBayRest π := by exact fun _ _ _ => rfl)
  (hBayThr : IgnoresBayThr π := by exact fun _ _ _ => rfl)
  (hBays : IgnoresBays π := by exact fun _ _ => rfl)
  (hBaysT : ∀ s l, π { s with bays := l } = π s := by exact fun _ _ => rfl)
  (hBars : Ignores π State.modBars := by exact fun _ _ => rfl)
  (hMem : Ignores π State.modMem := by exact fun _ _ => rfl)
  (hQuota : Ignores π State.modQuota := by exact fun _ _ => rfl)
  (hStr : IgnoresStr π := by exact fun _ _ => rfl)
  (hStrT : Ignores π State.modStr := by exact fun _ _ => rfl)
  (hKv : Ignores π State.modKv := by exact fun _ _ => rfl)
  (hPorts : IgnoresPorts π := by exact fun _ _ => rfl)
  (hNet : IgnoresNet π := by exact fun _ _ => rfl)
  (hNetN : Ignores π State.modNet := by exact fun _ _ => rfl)
  (hHost : IgnoresHost π := by exact ⟨fun _ _ => rfl, fun _ _ _ _ _ => rfl⟩)
  (hHostT : Ignores π State.modHost := by exact fun _ _ => rfl)
  (hAud : Ignores π State.modAud := by exact fun _ _ => rfl)
  (hSent : Ignores π State.modSent := by exact fun _ _ => rfl)
  (hCnt : IgnoresCnt π := by exact fun _ _ => rfl)
  (hCntT : Ignores π State.modCnt := by exact fun _ _ => rfl)
  (hErr : IgnoresErr π := by exact fun _ _ => rfl)
  (hErrT : Ignores π State.modErr := by exact fun _ _ => rfl)
  (hPlumb : Ignores π State.modPlumb := by exact fun _ _ => rfl)
  (hCxl : Ignores π State.modCxl := by exact fun _ _ => rfl)
  (hHub : Ignores π State.modHub := by exact fun _ _ => rfl)
  (hPending : IgnoresPending π := by exact fun _ _ => rfl)
  (hFree : IgnoresFree π := by exact fun _ _ => rfl)

include h hMem hStr hCnt in
theorem State.idleSweep_keeps : Keeps π s₀ s.idleSweep := by
  grind [State.idleSweep, State.each_keeps, State.swapOut_keeps, State.countDev_keeps, State.each_keeps]

include h hKv in
theorem State.grantBlock_keeps (g : Grant) (bytes : Nat) : Keeps π s₀ (s.grantBlock g bytes).2 := by
  grind [State.grantBlock, State.modKv_keeps]
include h hKv in
theorem State.grantBlock_keeps_eq (g : Grant) (bytes : Nat) {x : Nat} {u : State} (hu : s.grantBlock g bytes = (x, u)) : Keeps π s₀ u := by
  have := State.grantBlock_keeps h (hKv := hKv) g bytes
  rwa [hu] at this

include h hKv in
theorem State.tailBlocks_keeps (gr : Option Grant) (g : StageCfg) : Keeps π s₀ (s.tailBlocks gr g).2 := by
  unfold State.tailBlocks
  split
  · exact h
  next gr =>
    refine List.foldlRecOn (motive := fun acc : List (Nat × Nat) × State => Keeps π s₀ acc.2) _ _ h fun acc hacc _ _ => ?_
    exact State.grantBlock_keeps (State.grantBlock_keeps hacc hKv gr g.pageBytes) hKv gr g.pageBytes
include h hKv in
theorem State.tailBlocks_keeps_eq (gr : Option Grant) (g : StageCfg) {x : List (Nat × Nat)} {u : State} (hu : s.tailBlocks gr g = (x, u)) :
    Keeps π s₀ u := by
  have := State.tailBlocks_keeps h (hKv := hKv) gr g
  rwa [hu] at this

include h hKv in
theorem State.ensureRec_keeps (home asn stage program : Nat) (t : Fin 16) (d : Desc) (g : StageCfg) (fuel : Nat) (key : Option (Nat × Nat)) :
    Keeps π s₀ (State.ensureRec home asn stage program t d g fuel key s) := by
  induction fuel generalizing key s with
  | zero => exact h
  | succ fuel ih =>
    unfold State.ensureRec
    split
    · exact h
    extract_lets s1 par persist start
    have h1 : Keeps π s₀ s1 := by
      simp only [s1]
      split
      · exact h
      · exact ih h _
    have h2 := State.tailBlocks_keeps h1 hKv (s1.kvGrant home asn stage) g
    clear_value s1
    exact State.modKv_keeps h2 hKv _

include h hBayRest hMem hCnt in
theorem State.tenantFill_keeps (b : Fin 80) (t : Fin 16) : Keeps π s₀ (s.tenantFill b t) := by
  grind [State.tenantFill, State.modBay_keeps, State.modMem_keeps, State.countBay_keeps]

include h hBayRest hBays hMem hQuota hCnt hFree in
theorem State.startTask_keeps (c : Cand) (b : Fin 80) (i limit : Nat) : Keeps π s₀ (s.startTask c b i limit) := by
  grind [State.startTask, State.tenantFill_keeps, State.draw_keeps, State.draw_keeps_eq, State.memWrite_keeps, State.modBay_keeps,
    State.modBay_keeps_all, State.modBay_keeps_thr, State.addUsed_keeps]

include h hStew hRun hBayRest hBays hMem hQuota hKv hCnt hFree in
theorem State.startWu_keeps (c : Cand) (charge : Nat) : Keeps π s₀ (s.startWu c charge) := by
  unfold State.startWu
  extract_lets bays
  split
  next tile dv _ =>
  extract_lets cdur w limit s1 s2 s3 s4
  have h1 : Keeps π s₀ s1 := State.each_keeps h (fun s x h => by grind [State.startTask_keeps]) _
  clear_value s1
  have h2 : Keeps π s₀ s2 := by
    simp only [s2]
    split
    · split
      · exact h1
      · exact State.each_keeps h1 (fun s k h => State.ensureRec_keeps h hKv ..) _
    · exact h1
  clear_value s2
  have h3 : Keeps π s₀ s3 := State.modReqs_keeps_run h2 hRun rfl
  have h4 : Keeps π s₀ s4 := State.modStew_keeps h3 hStew rfl
  clear_value s4
  grind [State.countDev_keeps, State.countProg_keeps]

include h hClk in
theorem State.leaveP2_keeps : Keeps π s₀ s.leaveP2 := by
  grind [State.leaveP2, State.modClk_keeps, Option.map_eq_some_iff]

include h hStew in
theorem State.debit_keeps (cls p : Nat) : Keeps π s₀ (s.debit cls p) := by
  grind [State.debit, State.modStew_keeps]

include h hStew hRun hBayRest hBays hMem hQuota hKv hCnt hFree in
theorem State.dispatchOne_keeps {u : State} {r : Bool} (hu : s.dispatchOne = (some u, r)) : Keeps π s₀ u := by
  unfold State.dispatchOne at hu
  extract_lets l at hu
  split at hu
  · cases hu
    grind [State.debit_keeps, State.startWu_keeps]
  split at hu
  next c q p d _ =>
    extract_lets x s1 at hu
    have h1 : Keeps π s₀ s1 := by grind [State.countProg_keeps, State.debit_keeps, State.startWu_keeps]
    cases hu
    split
    · exact h1
    · exact State.modStew_keeps h1 hStew rfl
  · cases hu

include h hStew hCnt in
theorem State.noteRefusal_keeps (r : Bool) : Keeps π s₀ (s.noteRefusal r) := by
  grind [State.noteRefusal, State.modStew_keeps, State.countDev_keeps]

include h hStew hRun hBayRest hBays hMem hQuota hKv hCnt hFree in
theorem State.dispatchLoop_keeps (fuel : Nat) : Keeps π s₀ (State.dispatchLoop fuel s) := by
  induction fuel generalizing s with
  | zero => exact h
  | succ fuel ih =>
    unfold State.dispatchLoop
    split
    next s1 r hs1 => exact ih (by grind [State.noteRefusal_keeps, State.dispatchOne_keeps])
    · grind [State.noteRefusal_keeps]

include h hClk hStew hRun hBayRest hBays hMem hQuota hKv hCnt hFree in
theorem State.dispatch_keeps : Keeps π s₀ s.dispatch := by
  grind [State.dispatch, State.leaveP2_keeps, State.dispatchLoop_keeps, State.noteIdle_keeps]

include h hStew hRun hBayRest hBays hMem hQuota hKv hCnt hFree in
theorem State.dispatchHuge_keeps : Keeps π s₀ s.dispatchHuge := by
  unfold State.dispatchHuge
  dsimp only
  repeat' split
  all_goals grind [State.startWu_keeps, State.debit_keeps, State.modStew_keeps, State.countDev_keeps]

include h hClk hCnt in
theorem State.lowerVoltage_keeps (t : Nat) : Keeps π s₀ (s.lowerVoltage t) := by
  grind [State.lowerVoltage, State.modTile_keeps, State.countTile_keeps]

include h hClk hHost hCnt hErr in
theorem State.enterHold_keeps (t : Nat) (lost : Bool) : Keeps π s₀ (s.enterHold t lost) := by
  grind [State.enterHold, State.dropRise_keeps, State.modTile_keeps, State.countTile_keeps, State.stepTo_keeps, State.lowerVoltage_keeps,
    State.error_keeps]

include h hClk hHost hCnt hErr in
theorem State.leaveHold_keeps (t : Nat) : Keeps π s₀ (s.leaveHold t) := by
  grind [State.leaveHold, State.modTile_keeps, State.error_keeps]

include h hStewT hHost hCnt hErr in
theorem State.readSensors_keeps (sensors : List (Option Int)) : Keeps π s₀ (s.readSensors sensors) := by
  grind [State.readSensors, State.modStew_keeps, State.modStew_keeps_all, State.each_keeps, State.error_keeps, State.count_keeps,
    State.each_keeps, Option.map_eq_some_iff]

include h hClk hHost hCnt hErr in
theorem State.loseSensors_keeps (t : Nat) : Keeps π s₀ (s.loseSensors t) := by
  grind [State.loseSensors, State.modTile_keeps, State.error_keeps]

include h hClk hHost hCnt hErr in
theorem State.holds_keeps : Keeps π s₀ s.holds := by
  grind [State.holds, State.each_keeps, State.enterHold_keeps, State.loseSensors_keeps, State.leaveHold_keeps, State.each_keeps]

include h hStewT in
theorem State.pressureStep_keeps : Keeps π s₀ s.pressureStep := by
  grind [State.pressureStep, State.modStew_keeps, State.modStew_keeps_all, State.foldl_keeps, Option.map_eq_some_iff]

include h hStewT hCnt in
theorem State.closeWindow_keeps (measured : Nat) : Keeps π s₀ (s.closeWindow measured) := by
  grind [State.closeWindow, State.countDev_keeps, State.modStew_keeps, State.modStew_keeps_all]

include h hStewT hCnt in
theorem State.openWindow_keeps (baseline : Nat) : Keeps π s₀ (s.openWindow baseline) := by
  grind [State.openWindow, State.countDev_keeps, State.modStew_keeps, State.modStew_keeps_all, Option.map_eq_some_iff]

include h hHub in
theorem State.kvIdleSweep_keeps : Keeps π s₀ s.kvIdleSweep := by
  grind [State.kvIdleSweep, State.each_keeps, State.askPark_keeps, State.each_keeps]

include h hPins hStew hReqs hTable hBayRest hMem hQuota hStr hKv hPorts hNet hHost hSent hCnt hErr hErrT hPlumb hHub hFree in
theorem State.retryAdmissions_keeps : Keeps π s₀ s.retryAdmissions := by
  grind [State.retryAdmissions, State.each_keeps, State.admitFrom11_keeps, State.failAdmission_keeps, State.each_keeps,
    Option.map_eq_some_iff]

include h hReqs hTable hMem hQuota hStr hKv hPorts hNet hCnt hHub in
theorem State.dropDisabled_keeps : Keeps π s₀ s.dropDisabled := by
  grind [State.dropDisabled, State.each_keeps, State.failAdmission_keeps, State.each_keeps]

end
end Sys2Proof.Machine
end

section
/-! Budget windows and scheduler epochs (03, R88 to R90; 04, R102 to R104, R112, R122). -/
namespace Sys2Proof.Machine
open Sys2Proof

/-! ## The hottest sensor -/

/-- One sensor more: the hotter of the hottest so far and this one. -/
def hotter (best : Option (Int × Nat)) (r : Option Int × Nat) : Option (Int × Nat) :=
  match r.1, best with
  | none, b => b
  | some x, none => some (x, r.2)
  | some x, some b => if b.1 < x then some (x, r.2) else some b

theorem hottest_eq (l : List (Option Int)) : hottest l = l.zipIdx.foldl hotter none := rfl

/-- A reading `v` is no hotter than the hottest, which is known. -/
def NoHotter (v : Int) (best : Option (Int × Nat)) : Prop := ∃ b, best = some b ∧ v ≤ b.1

theorem NoHotter.hotter {v : Int} {best : Option (Int × Nat)} (h : NoHotter v best) (r : Option Int × Nat) : NoHotter v (hotter best r) := by
  obtain ⟨b, rfl, hv⟩ := h
  obtain ⟨x, i⟩ := r
  cases x with
  | none => exact ⟨b, rfl, hv⟩
  | some x =>
    simp only [Machine.hotter]
    split
    · exact ⟨_, rfl, by dsimp only; omega⟩
    · exact ⟨_, rfl, hv⟩

theorem noHotter_hotter (best : Option (Int × Nat)) (x : Int) (i : Nat) : NoHotter x (hotter best (some x, i)) := by
  cases best with
  | none => exact ⟨_, rfl, Int.le_refl x⟩
  | some b =>
    simp only [hotter]
    split
    · exact ⟨_, rfl, Int.le_refl x⟩
    · exact ⟨_, rfl, by omega⟩

theorem noHotter_foldl (l : List (Option Int × Nat)) (best : Option (Int × Nat)) {v : Int}
    (h : NoHotter v best ∨ ∃ i, (some v, i) ∈ l) : NoHotter v (l.foldl hotter best) := by
  induction l generalizing best with
  | nil =>
    obtain h | ⟨i, hi⟩ := h
    · exact h
    · exact absurd hi List.not_mem_nil
  | cons r l ih =>
    refine ih (hotter best r) ?_
    obtain h | ⟨i, hi⟩ := h
    · exact .inl (h.hotter r)
    · obtain rfl | hi := List.mem_cons.mp hi
      · exact .inl (noHotter_hotter best v i)
      · exact .inr ⟨i, hi⟩

theorem noHotter_hottest {l : List (Option Int)} {i : Nat} {v : Int} (h : l[i]? = some (some v)) : NoHotter v (hottest l) := by
  rw [hottest_eq]
  exact noHotter_foldl _ none (.inr ⟨i, List.mem_zipIdx_iff_getElem?.mpr h⟩)

/-! ## The steps of a window -/

/-- The overdraft once a window has closed. -/
def Stew.closed (x : Stew) (measured : Nat) : Nat := x.overdraft + if x.bEff = 0 then 0 else measured - x.bEff

theorem State.closeWindow_stew (s : State) (measured : Nat) :
    (s.closeWindow measured).stew =
      { s.stew with overdraft := s.stew.closed measured, pressCount := (s.closeWindow measured).stew.pressCount,
                    relaxCount := (s.closeWindow measured).stew.relaxCount } := by
  unfold State.closeWindow Stew.closed
  dsimp only
  split
  next => rw [Nat.add_zero]
  next => rfl

/-- The reduction that the sensors ask for. -/
def thermRead (soft : Nat) (new : List (Option Int)) : Nat :=
  if (hottest new).isSome then thermOf soft ((hottest new).getD (0, 0)).1 else 0

theorem State.readSensors_stew (s : State) (sensors : List (Option Int)) :
    (s.readSensors sensors).stew =
      { s.stew with sensors := (List.range 96).map fun i => sensors.getD i none,
                    tmax := ((hottest ((List.range 96).map fun i => sensors.getD i none)).getD (0, 0)).1,
                    tmaxIdx := ((hottest ((List.range 96).map fun i => sensors.getD i none)).getD (0, 0)).2,
                    thermT := thermRead s.cfg.policy.softC ((List.range 96).map fun i => sensors.getD i none) } := by
  unfold State.readSensors
  extract_lets new gone h soft t s1 s2
  have h2 : Keeps State.stew s1 s2 := State.each_keeps (.refl s1) (fun s i h => State.error_keeps h ..) _
  have h3 : Keeps State.stew s1 (s2.each ((List.range 96).filter fun i => (new.getD i none).any fun v => decide (4 * (soft : Int) < v))
      fun s i => s.count (6016 + i) 1) := State.each_keeps h2 (fun s i h => State.count_keeps h ..) _
  exact h3.eq

theorem State.pressureStep_stew (s : State) :
    s.pressureStep.stew =
      { s.stew with pressureDiv := s.pressureStep.stew.pressureDiv, pressCount := s.pressureStep.stew.pressCount,
                    relaxCount := s.pressureStep.stew.relaxCount } := by
  unfold State.pressureStep
  extract_lets p least to_
  split
  · rfl
  · split <;> rfl

/-- The window that starts: sensors read, holds and pressure stepped, the budget opened. -/
def State.windowed (s : State) (measured baseline : Nat) (sensors : List (Option Int)) : State :=
  ((((s.closeWindow measured).readSensors sensors).holds.pressureStep.each (List.range 4) State.pursue).openWindow baseline).setRunState

theorem State.windowed_keeps (s : State) (measured baseline : Nat) (sensors : List (Option Int)) :
    Keeps (fun s => (s.candidates, s.err.fatal)) s (s.windowed measured baseline sensors) := by
  have h1 : Keeps (fun s => (s.candidates, s.err.fatal)) s ((s.closeWindow measured).readSensors sensors) :=
    State.readSensors_keeps (State.closeWindow_keeps (.refl s) ..) ..
  have h2 : Keeps (fun s => (s.candidates, s.err.fatal)) s
      (((s.closeWindow measured).readSensors sensors).holds.pressureStep.each (List.range 4) State.pursue) :=
    State.each_keeps (State.pressureStep_keeps (State.holds_keeps h1 ..) ..) (fun s i h => State.pursue_keeps h ..) _
  exact State.setRunState_keeps (State.openWindow_keeps h2 ..) ..

/-- The Steward's state in a window that starts. -/
theorem State.windowed_stew (s : State) (measured baseline : Nat) (sensors : List (Option Int)) :
    let new := (List.range 96).map fun i => sensors.getD i none
    let therm := thermRead s.cfg.policy.softC new
    let b := if s.stew.vrmStale then s.tun.powerCap * 1000 * (16 - therm) * 7 / 128 else s.tun.powerCap * 1000 * (16 - therm) / 16
    let od := s.stew.closed measured
    let x := (s.windowed measured baseline sensors).stew
    x.windowSeq = s.stew.windowSeq + 1 ∧ x.tmax = ((hottest new).getD (0, 0)).1 ∧ x.thermT = therm ∧ x.bEff = b ∧
      x.remain = (b : Int) - baseline - min od b - ((s.stew.carries.map fun c => min c.owed c.perWindow).sum : Nat) ∧
      x.overdraft = od - min od b := by
  intro new therm b od x
  have hclose := State.closeWindow_stew s measured
  have hcfg : Keeps (fun s => (s.cfg, s.tun)) s (s.closeWindow measured) := State.closeWindow_keeps (.refl s) ..
  obtain ⟨hcfg1, htun1⟩ : (s.closeWindow measured).cfg = s.cfg ∧ (s.closeWindow measured).tun = s.tun := by simpa [Keeps] using hcfg
  have hx : x = ((((s.closeWindow measured).readSensors sensors).holds.pressureStep.each (List.range 4) State.pursue).openWindow
      baseline).setRunState.stew := rfl
  clear_value x
  generalize s.closeWindow measured = s1 at hx hclose hcfg1 htun1
  have hsens := State.readSensors_stew s1 sensors
  have htun2 : Keeps State.tun s1 (s1.readSensors sensors) := State.readSensors_keeps (.refl s1) ..
  generalize s1.readSensors sensors = s2 at hx hsens htun2
  have hholds : Keeps (fun s => (s.stew, s.tun)) s2 s2.holds := State.holds_keeps (.refl s2) ..
  obtain ⟨hstew3, htun3⟩ : s2.holds.stew = s2.stew ∧ s2.holds.tun = s2.tun := by simpa [Keeps] using hholds
  generalize s2.holds = s3 at hx hstew3 htun3
  have hpress := State.pressureStep_stew s3
  have htun4 : Keeps State.tun s3 s3.pressureStep := State.pressureStep_keeps (.refl s3) ..
  generalize s3.pressureStep = s4 at hx hpress htun4
  have hpursue : Keeps (fun s => (s.stew, s.tun)) s4 (s4.each (List.range 4) State.pursue) :=
    State.each_keeps (.refl s4) (fun s i h => State.pursue_keeps h ..) _
  generalize s4.each (List.range 4) State.pursue = s5 at hx hpursue
  obtain ⟨hstew5, htun5⟩ : s5.stew = s4.stew ∧ s5.tun = s4.tun := by simpa [Keeps] using hpursue
  have hrun : Keeps State.stew (s5.openWindow baseline) (s5.openWindow baseline).setRunState := State.setRunState_keeps (.refl _) ..
  rw [hrun.eq] at hx
  have htun : s5.tun = s.tun := by rw [htun5, htun4.eq, htun3, htun2.eq, htun1]
  have hstew : s5.stew.windowSeq = s.stew.windowSeq ∧ s5.stew.tmax = ((hottest new).getD (0, 0)).1 ∧ s5.stew.thermT = therm ∧
      s5.stew.vrmStale = s.stew.vrmStale ∧ s5.stew.overdraft = od ∧ s5.stew.carries = s.stew.carries := by
    rw [hstew5, hpress, hstew3, hsens, hclose, hcfg1]
    exact ⟨rfl, rfl, rfl, rfl, rfl, rfl⟩
  obtain ⟨hseq, htmax, htherm, hstale, hod, hcarries⟩ := hstew
  have hb : s5.effective = b := by
    simp only [State.effective, htun, htherm, hstale]
    rfl
  have hopen : (s5.openWindow baseline).stew =
      { s5.stew with windowSeq := s5.stew.windowSeq + 1, bEff := s5.effective,
                     remain := (s5.effective : Int) - baseline - min s5.stew.overdraft s5.effective -
                       ((s5.stew.carries.map fun c => min c.owed c.perWindow).sum : Nat),
                     overdraft := s5.stew.overdraft - min s5.stew.overdraft s5.effective,
                     carries := (s5.openWindow baseline).stew.carries, used := [0, 0, 0, 0], pressured := decide (0 < s5.stew.thermT),
                     winEnergy := 0, winBase := 0 } := by
    unfold State.openWindow
    rfl
  rw [hx, hopen, hb, hod, hcarries]
  exact ⟨by rw [← hseq], htmax, htherm, rfl, rfl, rfl⟩

/-! ## Dispatch in a window -/

/-- What a dispatch opportunity does at the start of a window. -/
def State.dispatchWindow (s : State) : State :=
  if !s.canDispatch then s else (if s.candidates.isEmpty then s else s.leaveP2).dispatchHuge.dispatch

theorem doBudgetWindowStart_eq {s : State} {at_ : Nat} (hrun : (s.advance at_).running = true) (hwin : at_ % 100000 = 0)
    (hepoch : at_ % 1000000 ≠ 0) (sensors : List (Option Int)) (rails base : List Nat) :
    doBudgetWindowStart at_ sensors rails base s =
      ((s.advance at_).windowed ((s.advance at_).stew.winEnergy + (s.advance at_).gainedSum rails)
        ((s.advance at_).stew.winBase + (s.advance at_).gainedSum base) sensors).dispatchWindow := by
  unfold doBudgetWindowStart
  dsimp only
  rw [if_neg (by simp [hrun, hwin]), if_neg hepoch]
  rfl

theorem State.dispatchWindow_stew (s : State) :
    s.dispatchWindow.stew.windowSeq = s.stew.windowSeq ∧ s.dispatchWindow.stew.tmax = s.stew.tmax ∧
      s.dispatchWindow.stew.bEff = s.stew.bEff ∧ s.dispatchWindow.stew.thermT = s.stew.thermT := by
  have h : Keeps (fun s => (s.stew.windowSeq, s.stew.tmax, s.stew.bEff, s.stew.thermT)) s s.dispatchWindow := by
    unfold State.dispatchWindow
    split
    · exact .refl s
    · refine State.dispatch_keeps (State.dispatchHuge_keeps ?_ ..) ..
      split
      · exact .refl s
      · exact State.leaveP2_keeps (.refl s) ..
  simpa [Keeps] using h

theorem State.noteIdle_stew (s : State) : s.noteIdle.stew = s.stew := by
  unfold State.noteIdle
  split <;> rfl

/-- With no candidate a dispatch opportunity starts nothing. -/
theorem State.dispatch_of_none {s : State} (h : s.candidates = []) : s.dispatch = s ∨ s.dispatch = s.noteIdle := by
  have hready : s.readyList = [] := by
    rw [State.readyList, h]
    rfl
  have hone : s.dispatchOne = (none, false) := by
    unfold State.dispatchOne
    simp only [hready]
    rfl
  unfold State.dispatch
  split
  · exact .inl rfl
  · right
    simp only [h, List.isEmpty_nil, if_true]
    unfold State.dispatchLoop
    rw [hone]
    rfl

theorem State.dispatchWindow_of_none {s : State} (h : s.isFatal = true ∨ s.candidates = []) : s.dispatchWindow.stew = s.stew := by
  unfold State.dispatchWindow
  split
  · rfl
  next hcan =>
    obtain hfatal | hnone := h
    · simp [State.canDispatch, hfatal] at hcan
    · have hhuge : s.dispatchHuge = s := by
        have hready : s.readyList = [] := by
          rw [State.readyList, hnone]
          rfl
        unfold State.dispatchHuge
        rw [hready]
      simp only [hnone, List.isEmpty_nil, if_true, hhuge]
      obtain h | h := State.dispatch_of_none hnone <;> rw [h]
      exact State.noteIdle_stew s

/-! ## A scheduler epoch -/

theorem State.applyTunables_tun (s : State) (boundary : Nat) :
    let due := s.tun.shadow.filter fun v => decide (v.posted < boundary)
    let new := due.foldl Tun.apply s.tun
    (s.applyTunables boundary).tun =
        { new with shadow := s.tun.shadow.filter (fun v => !decide (v.posted < boundary)),
                   gen := if new = s.tun then s.tun.gen else s.tun.gen + 1 } ∧
      (s.applyTunables boundary).str = s.str := by
  intro due new
  unfold State.applyTunables
  extract_lets left changed len s1 s2
  have h : Keeps (fun s => (s.tun, s.str)) s1 (if s2.tun.counterWindow = len then s2 else s2.restartWindows s2.tun.counterWindow boundary 0) := by
    have h2 : Keeps (fun s => (s.tun, s.str)) s1 s2 := by
      simp only [s2]
      split <;> rfl
    split
    · exact h2
    · exact State.restartWindows_keeps h2 ..
  generalize (if s2.tun.counterWindow = len then s2 else s2.restartWindows s2.tun.counterWindow boundary 0) = t at h
  obtain ⟨htun, hstr⟩ : t.tun = s1.tun ∧ t.str = s1.str := by simpa [Keeps] using h
  rw [htun, hstr]
  refine ⟨?_, rfl⟩
  by_cases hnew : new = s.tun
  · simp [s1, changed, hnew, left]
  · simp [s1, changed, hnew, left]

theorem State.epoch_spec {s : State} {at_ : Nat} (hrun : (s.advance at_).running = true) (hepoch : at_ % 1000000 = 0) :
    (doSchedulerEpochBoundary at_ s).tun = ((s.advance at_).applyTunables at_).tun ∧
      (doSchedulerEpochBoundary at_ s).str.epochCount = (((s.advance at_).applyTunables at_).str.epochCount + 1) % 2 ^ 32 := by
  unfold doSchedulerEpochBoundary
  dsimp only
  rw [if_neg (by simp [hrun, hepoch])]
  generalize (s.advance at_).applyTunables at_ = s1
  have h1 : Keeps (fun s => (s.tun, s.str)) s1 s1.flushSuppressed.setRunState := by
    refine State.setRunState_keeps ?_ ..
    unfold State.flushSuppressed
    exact State.modErr_keeps_all (State.each_keeps (.refl s1) (fun s c h => State.modErr_keeps_all h (fun _ _ => rfl) _) _) (fun _ _ => rfl) _
  generalize s1.flushSuppressed.setRunState = s2 at h1
  obtain ⟨htun, hstr⟩ : s2.tun = s1.tun ∧ s2.str = s1.str := by simpa [Keeps] using h1
  generalize hs3 : s2.modStr (fun x => { x with epochCount := (x.epochCount + 1) % two32 }) = s3
  have hepoch3 : s3.tun = s1.tun ∧ s3.str.epochCount = (s1.str.epochCount + 1) % 2 ^ 32 := by
    rw [← hs3, ← htun, ← hstr]
    exact ⟨rfl, rfl⟩
  rw [← hepoch3.1, ← hepoch3.2]
  have h4 : Keeps (fun s => (s.tun, s.str.epochCount)) s3 s3.idleSweep.kvIdleSweep :=
    State.kvIdleSweep_keeps (State.idleSweep_keeps (.refl s3) ..) ..
  generalize s3.idleSweep.kvIdleSweep = s4 at h4
  have h5 : Keeps (fun s => (s.tun, s.str.epochCount)) s3 (if s4.isFatal then s4 else s4.dropDisabled.retryAdmissions.tryWake).dispatch := by
    refine State.dispatch_keeps ?_ ..
    split
    · exact h4
    · exact State.tryWake_keeps (State.retryAdmissions_keeps (State.dropDisabled_keeps h4 ..) ..) ..
  simpa [Keeps] using h5

/-- Settles O36. -/
theorem budgetsAndTunables : Obligations.BudgetsAndTunables := by
  refine ⟨fun s at_ sensors rails base hs => ?_, fun s at_ hrun hepoch => ?_⟩
  · intro s1 sum measured baseline hrun hwin hepoch
    obtain ⟨hstew, htun, hcfg⟩ : s1.stew = s.stew ∧ s1.tun = s.tun ∧ s1.cfg = s.cfg := by
      obtain ⟨d, f, h⟩ := State.advance_eq s at_
      simp [s1, h]
    refine ⟨_, rfl, ?_⟩
    have hsum : ∀ raw, s1.gainedSum raw = sum raw := fun raw => by
      simp only [State.gainedSum, State.gained, hstew]
      rfl
    have heq := doBudgetWindowStart_eq hrun hwin hepoch sensors rails base
    rw [show s.advance at_ = s1 from rfl, hsum, hsum, hstew] at heq
    rw [heq]
    obtain ⟨hseq, htmax, htherm, hbeff, hremain, hover⟩ := State.windowed_stew s1 measured baseline sensors
    have hkept := State.windowed_keeps s1 measured baseline sensors
    generalize s1.windowed measured baseline sensors = u at hseq htmax htherm hbeff hremain hover hkept
    obtain ⟨hcand, hfatal⟩ : u.candidates = s1.candidates ∧ u.err.fatal = s1.err.fatal := by simpa [Keeps] using hkept
    obtain ⟨hseq', htmax', hbeff', htherm'⟩ := State.dispatchWindow_stew u
    have hread : ∀ (i : Nat) (v : Int), i < 96 → sensors.getD i none = some v →
        NoHotter v (hottest ((List.range 96).map fun i => sensors.getD i none)) := fun i v hi hv =>
      noHotter_hottest (i := i) (by simpa [List.getElem?_range hi] using hv)
    refine ⟨by rw [hseq', hseq, hstew], fun i v hi hv => ?_, ?_, fun ⟨i, hi, hsome⟩ => ?_, fun hnone => ?_⟩
    · obtain ⟨b, hb, hle⟩ := hread i v hi hv
      rw [htmax', htmax, hb]
      exact hle
    · rw [hbeff', hbeff, htherm', htherm, hstew, htun]
    · obtain ⟨v, hv⟩ := Option.isSome_iff_exists.mp hsome
      obtain ⟨b, hb, -⟩ := hread i v hi hv
      rw [htherm', htherm, htmax', htmax, thermRead, hb, hcfg]
      rfl
    · intro od
      have hsame : u.dispatchWindow.stew = u.stew := State.dispatchWindow_of_none (by
        rw [hcand, State.isFatal, hfatal]
        exact hnone)
      have hod : s1.stew.closed measured = od := by rw [hstew]; rfl
      rw [hsame, hbeff, hremain, hover, hod, hstew]
      exact ⟨rfl, rfl⟩
  · intro due new
    obtain ⟨htun, hstr⟩ := State.applyTunables_tun (s.advance at_) at_
    obtain ⟨htun', hepoch'⟩ := State.epoch_spec hrun hepoch
    obtain ⟨htun0, hstr0⟩ : (s.advance at_).tun = s.tun ∧ (s.advance at_).str = s.str := by
      obtain ⟨d, f, h⟩ := State.advance_eq s at_
      rw [h]
      exact ⟨rfl, rfl⟩
    refine ⟨_, rfl, ?_, ?_⟩
    · rw [htun', htun, htun0]
    · rw [hepoch', hstr, hstr0]

end Sys2Proof.Machine
end

section
/-! Deliveries and messages to the host (14, R366, R372), and the resets of functions and of the link (02, R49, R52; 14, R361, R371 to R373). -/
namespace Sys2Proof.Machine
open Sys2Proof

/-! ## What a delivery leaves as it was -/

/-- A page without what deliveries and interrupts move. -/
def FnPage.unsent (p : FnPage) : FnPage := { p with audTail := 0, cplTail := 0, irqCause := 0, msixPending := [], quiet := [] }

/-- The state without what deliveries and interrupts move. -/
def State.unsent (s : State) : State :=
  { s with host := { s.host with pages := s.host.pages.map FnPage.unsent, holdQ := [], out := [] },
           aud := { s.aud with deliverNext := 0 }, cnt := { s.cnt with values := [] } }

theorem map_modify_of_forall {α β : Type} {h : α → β} {g : α → α} (hg : ∀ x, h (g x) = h x) (l : List α) (i : Nat) :
    (l.modify i g).map h = l.map h := by
  apply List.ext_getElem?
  intro j
  simp only [List.getElem?_map, List.getElem?_modify]
  split <;> cases l[j]? <;> simp [hg]

/-- A change of a page that only deliveries and interrupts make. -/
theorem State.unsent_modPage (s : State) (f : Fin 16) {g : FnPage → FnPage} (hg : ∀ p, (g p).unsent = p.unsent) :
    (s.modPage f g).unsent = s.unsent := by
  have hpages := map_modify_of_forall hg s.host.pages f.val
  simp only [State.unsent, State.modPage, State.modHost, hpages]

@[simp] theorem State.unsent_emit (s : State) (m : HostMsg) : (s.emit m).unsent = s.unsent := rfl
@[simp] theorem State.unsent_countFn (s : State) (f : Fin 16) (e k : Nat) : (s.countFn f e k).unsent = s.unsent := rfl
@[simp] theorem State.unsent_countDev (s : State) (e k : Nat) : (s.countDev e k).unsent = s.unsent := rfl
@[simp] theorem State.unsent_modHold (s : State) (n : Nat) (g : Hold → Hold) : (s.modHold n g).unsent = s.unsent := rfl

@[simp] theorem State.unsent_sendMsix (s : State) (f : Fin 16) (v : Nat) : (s.sendMsix f v).unsent = s.unsent := by
  unfold State.sendMsix
  split
  · rfl
  split
  · exact State.unsent_modPage s f fun _ => rfl
  · rfl

@[simp] theorem State.unsent_sendQuiet (s : State) (f : Fin 16) (v : Nat) : (s.sendQuiet f v).unsent = s.unsent := by
  unfold State.sendQuiet
  split
  · rfl
  · refine (State.unsent_modPage _ f ?_).trans (State.unsent_sendMsix s f v)
    exact fun _ => rfl

@[simp] theorem State.unsent_raise (s : State) (f : Fin 16) (v : Nat) : (s.raise f v).unsent = s.unsent := by
  have hlatch : (s.modPage f fun p => { p with irqCause := p.irqCause ||| (1#32 <<< v) }).unsent = s.unsent :=
    State.unsent_modPage s f fun _ => rfl
  unfold State.raise
  dsimp only
  split
  · exact hlatch
  split
  · exact (State.unsent_sendQuiet _ f v).trans hlatch
  · exact (State.unsent_sendMsix _ f v).trans hlatch

@[simp] theorem State.unsent_deliverRecord (s : State) : s.deliverRecord.unsent = s.unsent := by
  unfold State.deliverRecord
  split
  · rfl
  · extract_lets p n bytes tail s1 s2 s3
    have h2 : s2.unsent = s.unsent := by
      refine (State.unsent_emit _ _).trans ((State.unsent_modPage s1 0 ?_).trans (State.unsent_emit s _))
      exact fun _ => rfl
    clear_value s2
    have h3 : s3.unsent = s.unsent := h2
    clear_value s3
    rw [State.unsent_raise, State.unsent_countDev, h3]

@[simp] theorem State.unsent_deliverAllRecords (n : Nat) (s : State) : (State.deliverAllRecords n s).unsent = s.unsent := by
  induction n generalizing s with
  | zero => rfl
  | succ n ih =>
    rw [State.deliverAllRecords]
    split
    · rw [ih, State.unsent_deliverRecord]
    · rfl

@[simp] theorem State.unsent_writeCompletion (s : State) (e : Hold) : (s.writeCompletion e).unsent = s.unsent := by
  unfold State.writeCompletion
  extract_lets f p c size phase s1 s2
  have h2 : s2.unsent = s.unsent := by
    refine (State.unsent_modHold _ _ _).trans ((State.unsent_modPage s1 f ?_).trans (State.unsent_emit s _))
    exact fun _ => rfl
  clear_value s2
  rw [State.unsent_sendQuiet, State.unsent_countDev, State.unsent_countFn, h2]

@[simp] theorem State.unsent_drainCompletions (n : Nat) (s : State) : (State.drainCompletions n s).unsent = s.unsent := by
  induction n generalizing s with
  | zero => rfl
  | succ n ih =>
    rw [State.drainCompletions]
    split
    · rfl
    · rw [ih, State.unsent_writeCompletion]

@[simp] theorem State.unsent_drainHold (s : State) : s.drainHold.unsent = s.unsent := by
  rw [State.drainHold, State.unsent_drainCompletions, State.unsent_deliverAllRecords]

@[simp] theorem State.unsent_tryDrain (s : State) : s.tryDrain.unsent = s.unsent := by
  unfold State.tryDrain
  split
  · rfl
  · extract_lets before s1 left
    have h1 : Keeps State.unsent s s1 := State.unsent_drainHold s
    clear_value s1
    exact State.each_keeps h1 (fun s e h => (State.unsent_countFn s _ _ _).trans h) _

@[simp] theorem State.unsent_sendPending (s : State) (f : Fin 16) : (s.sendPending f).unsent = s.unsent := by
  unfold State.sendPending
  extract_lets ready s1
  have h1 : Keeps State.unsent s s1 := State.unsent_modPage s f fun _ => rfl
  clear_value s1
  exact State.each_keeps h1 (fun s v h => (State.unsent_sendMsix s f v).trans h) _

/-- The view reads of the counters' state neither what waits for a pulse nor the values. -/
def IgnoresDue {α : Type} (π : State → α) : Prop :=
  ∀ (s : State) (c : Cnt), π { s with cnt := { s.cnt with due := c.due, mbxDue := c.mbxDue } } = π s

theorem keeps_ite {α : Type} {π : State → α} {s₀ a b : State} {p : Prop} [Decidable p] :
    Keeps π s₀ (if p then a else b) ↔ (p → Keeps π s₀ a) ∧ (¬ p → Keeps π s₀ b) := by
  by_cases h : p <;> simp [h]

/-! ### What two states that differ in deliveries alone share -/

theorem State.mem_of_unsent {s t : State} (h : t.unsent = s.unsent) : t.mem = s.mem := congrArg (fun u => u.mem) h
theorem State.clk_of_unsent {s t : State} (h : t.unsent = s.unsent) : t.clk = s.clk := congrArg (fun u => u.clk) h
theorem State.linkUp_of_unsent {s t : State} (h : t.unsent = s.unsent) : t.host.linkUp = s.host.linkUp :=
  congrArg (fun u => u.host.linkUp) h
theorem State.link_of_unsent {s t : State} (h : t.unsent = s.unsent) :
    t.host.linkL1 = s.host.linkL1 ∧ t.host.linkRate = s.host.linkRate ∧ t.host.linkWidth = s.host.linkWidth :=
  ⟨congrArg (fun u => u.host.linkL1) h, congrArg (fun u => u.host.linkRate) h, congrArg (fun u => u.host.linkWidth) h⟩

theorem State.page_of_unsent {s t : State} (h : t.unsent = s.unsent) (f : Fin 16) : (t.page f).unsent = (s.page f).unsent := by
  have hpages : t.host.pages.map FnPage.unsent = s.host.pages.map FnPage.unsent := congrArg (fun u => u.host.pages) h
  have hget := congrArg (fun l => l[f.val]?) hpages
  simp only [List.getElem?_map] at hget
  unfold State.page
  rw [List.getD_eq_getElem?_getD, List.getD_eq_getElem?_getD]
  cases ht : t.host.pages[f.val]? <;> cases hs : s.host.pages[f.val]? <;> simp_all

theorem State.busMaster_of_unsent {s t : State} (h : t.unsent = s.unsent) (f : Fin 16) : (t.page f).busMaster = (s.page f).busMaster := by
  have hpage := State.page_of_unsent h f
  exact congrArg (fun p => p.busMaster) hpage

/-! ## The page of a function that is reset -/

/-- What a reset of a function leaves of its page (R371 to R373). -/
def FnPage.cleared (p : FnPage) (keepVf runs : Bool) : FnPage := { FnPage.reset with vfEnabled := keepVf && p.vfEnabled, mbxDrop := runs }

theorem State.clearPage_view (s : State) (f : Fin 16) (keepVf : Bool) :
    (s.clearPage f keepVf).host.pages = s.host.pages.modify f.val (fun p => p.cleared keepVf ((s.host.mbxRunning.map (·.f)) == some f)) ∧
      (s.clearPage f keepVf).mem = s.mem ∧ (s.clearPage f keepVf).host.linkUp = s.host.linkUp ∧
      (s.clearPage f keepVf).pins = s.pins := by
  unfold State.clearPage
  dsimp only
  split <;> exact ⟨rfl, rfl, rfl, rfl⟩

theorem State.page_clearPage_other {s : State} {f g : Fin 16} (h : g ≠ f) (keepVf : Bool) : (s.clearPage f keepVf).page g = s.page g := by
  obtain ⟨hpages, -⟩ := s.clearPage_view f keepVf
  unfold State.page
  rw [hpages, getD_modify_other]
  exact fun he => h (Fin.ext he.symm)

theorem State.page_clearPage_same {s : State} (h : s.host.pages.length = 16) (f : Fin 16) (keepVf : Bool) :
    (s.clearPage f keepVf).page f = (s.page f).cleared keepVf ((s.host.mbxRunning.map (·.f)) == some f) := by
  obtain ⟨hpages, -⟩ := s.clearPage_view f keepVf
  unfold State.page
  rw [hpages, getD_modify_same (h := by rw [h]; exact f.isLt)]

theorem State.pages_clearPage {s : State} (f : Fin 16) (keepVf : Bool) : (s.clearPage f keepVf).host.pages.length = s.host.pages.length := by
  obtain ⟨hpages, -⟩ := s.clearPage_view f keepVf
  rw [hpages, List.length_modify]

/-- A reset of functions keeps the memory, the link, the pins and the number of pages, and resets each page that it names. -/
theorem State.each_clearPage {s : State} (h : s.host.pages.length = 16) (l : List (Fin 16)) (hl : l.Nodup) :
    let t := s.each l fun s f => s.clearPage f false
    t.mem = s.mem ∧ t.pins = s.pins ∧ ∀ f ∈ l, ∃ runs, t.page f = (s.page f).cleared false runs := by
  refine ⟨?_, ?_, fun f hf => ?_⟩
  · exact State.each_keeps (π := State.mem) rfl (fun s f h => (s.clearPage_view f false).2.1.trans h) l
  · exact State.each_keeps (π := State.pins) rfl (fun s f h => (s.clearPage_view f false).2.2.2.trans h) l
  · exact State.each_at (v := fun s f => s.page f) (Inv := fun s => s.host.pages.length = 16)
      (R := fun _ p q => ∃ runs, q = p.cleared false runs)
      (fun s i j hij => State.page_clearPage_other (Ne.symm hij) false) (fun s f hs => (State.pages_clearPage f false).trans hs)
      (fun s f hs => ⟨_, State.page_clearPage_same hs f false⟩) hl hf h

/-! ## Configuration writes (R361) -/

theorem mem_insertNat_self (l : List Nat) (k : Nat) : k ∈ insertNat l k := by
  induction l with
  | nil => simp [insertNat]
  | cons i l ih =>
    rw [insertNat]
    split
    · exact List.mem_cons_of_mem _ ih
    split
    next _ he => simp [he]
    · simp

/-- The step of a NumVFs write for one function. -/
def State.setVf (n : Fin 16) (s : State) (f : Fin 16) : State :=
  if f ≤ n then s.modPage f fun p => { p with vfEnabled := true }
  else if (s.page f).vfEnabled then s.clearPage f false else s

theorem State.setVf_view (n : Fin 16) (s : State) (f : Fin 16) (h : s.host.pages.length = 16) :
    (s.setVf n f).host.pages.length = 16 ∧ (s.setVf n f).mem = s.mem ∧ ((s.setVf n f).page f).vfEnabled = decide (f ≤ n) := by
  unfold State.setVf
  split
  next hle =>
    refine ⟨?_, rfl, ?_⟩
    · simpa [State.modPage, State.modHost] using h
    · rw [State.page_modPage_same _ _ _ h]
      simpa using hle
  next hle =>
    split
    · refine ⟨(State.pages_clearPage f false).trans h, (s.clearPage_view f false).2.1, ?_⟩
      rw [State.page_clearPage_same h]
      simpa [FnPage.cleared] using hle
    next hvf => exact ⟨h, rfl, by simpa [hle] using hvf⟩

theorem State.page_setVf_other {n : Fin 16} {s : State} {f g : Fin 16} (h : g ≠ f) : (s.setVf n f).page g = s.page g := by
  unfold State.setVf
  split
  · exact State.page_modPage_other _ _ _ _ (Ne.symm h)
  split
  · exact State.page_clearPage_other h false
  · rfl

theorem State.configure_numVfs {s : State} (h : s.host.pages.length = 16) (hsafe : s.isSafe = false) (n : Fin 16) :
    (s.configure (.numVfs n)).mem = s.mem ∧ ∀ f, f ≠ 0 → ((s.configure (.numVfs n)).page f).vfEnabled = decide (f ≤ n) := by
  have heq : s.configure (.numVfs n) = s.each (allFns.filter fun f => f != 0) (State.setVf n) := by
    simp only [State.configure, hsafe, Bool.false_eq_true, if_false]
    rfl
  rw [heq]
  refine ⟨?_, fun f hf => ?_⟩
  · exact (State.each_invariant (Inv := fun t => t.host.pages.length = 16 ∧ t.mem = s.mem)
      (fun t f ht => ⟨(t.setVf_view n f ht.1).1, (t.setVf_view n f ht.1).2.1.trans ht.2⟩) _ ⟨h, rfl⟩).2
  · have hmem : f ∈ allFns.filter fun f => f != 0 := by simp [allFns, hf]
    exact State.each_at (v := fun s f => s.page f) (Inv := fun s => s.host.pages.length = 16)
      (R := fun f _ q => q.vfEnabled = decide (f ≤ n)) (fun s i j hij => State.page_setVf_other (Ne.symm hij))
      (fun s f hs => (s.setVf_view n f hs).1) (fun s f hs => (s.setVf_view n f hs).2.2) ((List.nodup_finRange 16).sublist List.filter_sublist)
      hmem h

theorem State.configure_busMaster {s : State} (h : s.host.pages.length = 16) (f : Fin 16) (on : Bool) :
    ((s.configure (.busMaster f on)).page f).busMaster = on ∧ (s.configure (.busMaster f on)).mem = s.mem := by
  have hset : ((s.modPage f fun p => { p with busMaster := on }).page f).busMaster = on := by rw [State.page_modPage_same _ _ _ h]
  have hmem : (s.modPage f fun p => { p with busMaster := on }).mem = s.mem := rfl
  simp only [State.configure]
  generalize (s.modPage f fun p => { p with busMaster := on }) = s1 at hset hmem ⊢
  split
  · have hun : (s1.sendPending f).tryDrain.unsent = s1.unsent := by rw [State.unsent_tryDrain, State.unsent_sendPending]
    exact ⟨(State.busMaster_of_unsent hun f).trans hset, (State.mem_of_unsent hun).trans hmem⟩
  · exact ⟨hset, hmem⟩

/-! ## The writes that wait for the exit of P3 (R60) -/

theorem State.holdTlp_spec {s : State} (h : s.asleep = true) (x : Held) :
    (s.holdTlp x).clk.wakeLatched = true ∧ (s.holdTlp x).clk.wakeCause = s.clk.wakeCause ||| (1#5 <<< 1) ∧
      (s.holdTlp x).clk.held = s.clk.held ++ [x] ∧ (s.holdTlp x).host = s.host := by
  simp only [State.holdTlp, State.latchWake, h, if_true]
  split <;> exact ⟨rfl, rfl, rfl, rfl⟩

/-! ## PERST_N and the link (R49, R371, R373) -/

theorem doPerstNAssert_absorbed {s : State} (hp : s.clk.pwrOk = true) (hb : s.broaderReset = true) :
    doPerstNAssert s = { s with pins := { s.pins with perstN := false } } := by
  simp [doPerstNAssert, hp, hb, State.modPins]

theorem State.hostLinkReset_spec {s : State} (h : s.host.pages.length = 16) :
    s.hostLinkReset.host.linkUp = false ∧ s.hostLinkReset.mem = s.mem ∧ s.hostLinkReset.pins = s.pins ∧
      ∀ f, ∃ runs, s.hostLinkReset.page f = (s.page f).cleared false runs := by
  obtain ⟨hmem, hpins, hpages⟩ := State.each_clearPage h allFns (List.nodup_finRange 16)
  unfold State.hostLinkReset
  generalize (s.each allFns fun s f => s.clearPage f false) = s1 at hmem hpins hpages ⊢
  exact ⟨rfl, hmem, hpins, fun f => hpages f (List.mem_finRange f)⟩

theorem doPerstNAssert_resets {s : State} (h : s.host.pages.length = 16) (hp : s.clk.pwrOk = true) (hb : s.broaderReset = false) :
    let t := doPerstNAssert s
    t.pins.perstN = false ∧ t.host.linkUp = false ∧ t.mem = s.mem ∧ ∀ f, ∃ runs, t.page f = (s.page f).cleared false runs := by
  have heq : doPerstNAssert s = (s.modPins fun p => { p with perstN := false }).hostLinkReset := by simp [doPerstNAssert, hp, hb]
  obtain ⟨hup, hmem, hpins, hpages⟩ := State.hostLinkReset_spec (s := s.modPins fun p => { p with perstN := false }) h
  simp only [heq]
  exact ⟨by rw [hpins]; rfl, hup, hmem, hpages⟩

/-- The link trained, in L1 where it is P3, at a rate and a width. -/
def State.linkTrained (s : State) (rate width : Nat) : State :=
  { s with freeCtr := s.freeCtr + 1 + 1,
           host := { s.host with linkUp := true, linkL1 := s.clk.pstate == .p3, linkRate := rate % 6, linkWidth := 2 ^ (width % 5) } }

theorem State.unsent_vec6 (s : State) (c : Bool) :
    ∃ d, (if c then (s.modHost fun h => { h with vec6Due := false }).raise 0 6 else s).unsent =
      (s.modHost fun h => { h with vec6Due := d }).unsent := by
  cases c with
  | false => exact ⟨s.host.vec6Due, rfl⟩
  | true => exact ⟨false, State.unsent_raise _ 0 6⟩

theorem doPcieLinkUp_spec {s : State} (hp : s.clk.pwrOk = true) (hperst : s.pins.perstN = true)
    (hclk : s.clk.pllLocked = true ∨ s.clk.pstate = .p3) (htrip : s.clk.thermtrip = false) (hdown : s.host.linkUp = false) :
    ∃ rate width d, (doPcieLinkUp s).unsent = ((s.linkTrained rate width).modHost fun h => { h with vec6Due := d }).unsent := by
  have hclocked : (s.clk.pllLocked || s.clk.pstate == .p3) = true := by simpa using hclk
  let s1 := s.linkTrained s.draw.1.toNat s.draw.2.draw.1.toNat
  have heq : doPcieLinkUp s =
      (if s1.host.vec6Due && !s1.asleep then (s1.modHost fun h => { h with vec6Due := false }).raise 0 6 else s1).tryDrain := by
    rw [doPcieLinkUp, if_neg (by simp [hp, hperst, hclocked, htrip, hdown])]
    rfl
  obtain ⟨d, hd⟩ := State.unsent_vec6 s1 (s1.host.vec6Due && !s1.asleep)
  exact ⟨_, _, d, by rw [heq, State.unsent_tryDrain]; exact hd⟩

/-- Settles O42: an FLR and PERST_N clear pages alone, and what the link-up and a configuration write do beyond their own field only
delivers what was held. -/
theorem functionAndLinkResets : Obligations.FunctionAndLinkResets := by
  unfold Obligations.FunctionAndLinkResets
  intro s hs
  obtain ⟨-, -, hpages, -⟩ := hs
  refine ⟨fun f hr ha => ⟨_, rfl, ?_⟩, fun f hr ha => ⟨_, rfl, ?_⟩, fun hp hb => ?_, fun hp hb => ⟨_, rfl, ?_⟩, fun hp => ?_,
    fun hp hperst hclk htrip hdown => ⟨_, rfl, ?_⟩, fun hup hp ha => ?_⟩
  · have heq : doFlr f s = s.clearPage f true := by simp [doFlr, hr, ha]
    obtain ⟨-, hmem, hup, -⟩ := s.clearPage_view f true
    rw [heq]
    exact ⟨State.page_clearPage_same hpages f true, fun g hg => State.page_clearPage_other hg true, hmem, hup⟩
  · have heq : doFlr f s = s.holdTlp (.flr f) := by simp [doFlr, hr, ha]
    obtain ⟨hwake, -, hheld, hhost⟩ := State.holdTlp_spec ha (.flr f)
    rw [heq]
    exact ⟨hwake, hhost, hheld⟩
  · exact congrArg Host.Outcome.next (doPerstNAssert_absorbed hp hb)
  · obtain ⟨hperst, hup, hmem, hcleared⟩ := doPerstNAssert_resets hpages hp hb
    refine ⟨hperst, hup, hmem, fun f => ?_⟩
    obtain ⟨runs, hf⟩ := hcleared f
    rw [hf]
    exact ⟨rfl, rfl, rfl, rfl⟩
  · show Host.Outcome.next (doPerstNDeassert s) = _
    rw [doPerstNDeassert, if_pos hp]
    rfl
  · obtain ⟨rate, width, d, heq⟩ := doPcieLinkUp_spec hp hperst hclk htrip hdown
    obtain ⟨hl1, hrate, hwidth⟩ := State.link_of_unsent heq
    refine ⟨State.linkUp_of_unsent heq, (State.mem_of_unsent heq).trans rfl, hl1, ?_, width % 5, by omega, hwidth⟩
    rw [hrate]
    exact Nat.mod_lt _ (by omega)
  · have heq : ∀ w, doConfigSpaceWrite w s = s.configure w := fun w => by simp [doConfigSpaceWrite, hup, hp, ha]
    refine ⟨fun f on => ⟨_, rfl, ?_⟩, fun n hsafe => ⟨_, rfl, ?_⟩, fun f v => ⟨_, rfl, ?_⟩⟩
    · rw [heq]
      exact State.configure_busMaster hpages f on
    · rw [heq]
      exact State.configure_numVfs hpages hsafe n
    · rw [heq]
      refine ⟨?_, rfl⟩
      simp only [State.configure, if_true]
      rw [State.page_modPage_same _ _ _ hpages]
      exact mem_insertNat_self _ v
end Sys2Proof.Machine
end

section
/-! What further operations of the model leave as they were. -/
namespace Sys2Proof.Machine
open Sys2Proof

-- One proof at a time: many short proofs elaborated side by side would cost the check its memory.
set_option Elab.async false


section
variable {α : Type} {π : State → α} {s₀ s : State} (h : Keeps π s₀ s)
  (hClk : IgnoresClk π := by exact fun _ _ => rfl)
  (hClkT : Ignores π State.modClk := by exact fun _ _ => rfl)
  (hPins : Ignores π State.modPins := by exact fun _ _ => rfl)
  (hBoot : IgnoresBoot π := by exact fun _ _ => rfl)
  (hBootT : Ignores π State.modBoot := by exact fun _ _ => rfl)
  (hCfg : IgnoresCfg π := by exact fun _ _ => rfl)
  (hTun : Ignores π State.modTun := by exact fun _ _ => rfl)
  (hStew : IgnoresStew π := by exact fun _ _ => rfl)
  (hStewT : Ignores π State.modStew := by exact fun _ _ => rfl)
  (hReqs : IgnoresReqs π := by exact fun _ _ => rfl)
  (hRun : IgnoresRun π := by exact fun _ _ => rfl)
  (hTable : Ignores π State.modReqs := by exact fun _ _ => rfl)
  (hBayRest : IgnoresBayRest π := by exact fun _ _ _ => rfl)
  (hBayThr : IgnoresBayThr π := by exact fun _ _ _ => rfl)
  (hBays : IgnoresBays π := by exact fun _ _ => rfl)
  (hBaysT : ∀ s l, π { s with bays := l } = π s := by exact fun _ _ => rfl)
  (hBars : Ignores π State.modBars := by exact fun _ _ => rfl)
  (hMem : Ignores π State.modMem := by exact fun _ _ => rfl)
  (hQuota : Ignores π State.modQuota := by exact fun _ _ => rfl)
  (hStr : IgnoresStr π := by exact fun _ _ => rfl)
  (hStrT : Ignores π State.modStr := by exact fun _ _ => rfl)
  (hKv : Ignores π State.modKv := by exact fun _ _ => rfl)
  (hPorts : IgnoresPorts π := by exact fun _ _ => rfl)
  (hNet : IgnoresNet π := by exact fun _ _ => rfl)
  (hNetN : Ignores π State.modNet := by exact fun _ _ => rfl)
  (hHost : IgnoresHost π := by exact ⟨fun _ _ => rfl, fun _ _ _ _ _ => rfl⟩)
  (hHostT : Ignores π State.modHost := by exact fun _ _ => rfl)
  (hAud : Ignores π State.modAud := by exact fun _ _ => rfl)
  (hSent : Ignores π State.modSent := by exact fun _ _ => rfl)
  (hCnt : IgnoresCnt π := by exact fun _ _ => rfl)
  (hCntT : Ignores π State.modCnt := by exact fun _ _ => rfl)
  (hErr : IgnoresErr π := by exact fun _ _ => rfl)
  (hErrT : Ignores π State.modErr := by exact fun _ _ => rfl)
  (hPlumb : Ignores π State.modPlumb := by exact fun _ _ => rfl)
  (hCxl : Ignores π State.modCxl := by exact fun _ _ => rfl)
  (hHub : Ignores π State.modHub := by exact fun _ _ => rfl)
  (hPending : IgnoresPending π := by exact fun _ _ => rfl)
  (hFree : IgnoresFree π := by exact fun _ _ => rfl)
  (hDue : IgnoresDue π := by exact fun _ _ => rfl)

include h hPlumb in
theorem State.modPlumbTile_keeps (t : Fin 4) (f : PlumbTile → PlumbTile) : Keeps π s₀ (s.modPlumbTile t f) := by
  grind [State.modPlumbTile, State.modPlumb_keeps]

include h hBayRest hPlumb in
theorem State.holdRound_keeps (t : Fin 4) (r : Nat) : Keeps π s₀ (s.holdRound t r) := by
  grind [State.holdRound, State.modBay_keeps, State.modPlumbTile_keeps]

include h hBayRest hCnt hPlumb in
theorem State.startRun_keeps : Keeps π s₀ s.startRun := by
  grind [State.startRun, State.modPlumb_keeps, State.each_keeps, State.holdRound_keeps, State.countDev_keeps, State.each_keeps]

include h hBayRest hCnt hPlumb in
theorem State.triggerRun_keeps : Keeps π s₀ s.triggerRun := by
  grind [State.triggerRun, State.modPlumb_keeps, State.startRun_keeps]

include h hHost hHostT hCnt in
theorem State.mbxPost_keeps (j : MbxJob) (code : Nat) (res : List Byte) : Keeps π s₀ (s.mbxPost j code res) := by
  grind [State.mbxPost, State.modHost_keeps, State.modHost_keeps_all, State.modPage_keeps, State.modPage_keeps_all, State.raise_keeps]

include h hTun hHost hHostT hCnt in
theorem State.mbxSetTunable_keeps (j : MbxJob) : Keeps π s₀ (s.mbxSetTunable j) := by
  grind [State.mbxSetTunable, State.mbxPost_keeps, State.modTun_keeps]

include h hBoot hHost hHostT hCnt in
theorem State.quiescePost_keeps (j : MbxJob) (admitted : Nat) : Keeps π s₀ (s.quiescePost j admitted) := by
  grind [State.quiescePost, State.writeAnchor_keeps, State.mbxPost_keeps]

include h hBoot hReqs hHost hHostT hCnt in
theorem State.mbxQuiesce_keeps (j : MbxJob) : Keeps π s₀ (s.mbxQuiesce j) := by
  grind [State.mbxQuiesce, State.mbxPost_keeps, State.modReqs_keeps, State.quiescePost_keeps]

include h hPins hStew hReqs hTable hBayRest hMem hQuota hStr hKv hPorts hNet hHost hHostT hSent hCnt hErr hErrT hPlumb hHub hFree in
theorem State.mbxResume_keeps (j : MbxJob) : Keeps π s₀ (s.mbxResume j) := by
  grind [State.mbxResume, State.modReqs_keeps, State.modReqs_keeps_all, State.tryWake_keeps, State.mbxPost_keeps]

include h hBootT hHost hHostT hCnt in
theorem State.mbxStage_keeps (j : MbxJob) : Keeps π s₀ (s.mbxStage j) := by
  grind [State.mbxStage, State.mbxPost_keeps, State.modBoot_keeps, State.modBoot_keeps_all, State.countDev_keeps]

include h hBootT hHost hHostT hCnt in
theorem State.mbxCommit_keeps (j : MbxJob) : Keeps π s₀ (s.mbxCommit j) := by
  grind [State.mbxCommit, State.mbxPost_keeps, State.modBoot_keeps, State.modBoot_keeps_all]

include h hClk hHost hHostT hCnt in
theorem State.mbxWarmReset_keeps (j : MbxJob) : Keeps π s₀ (s.mbxWarmReset j) := by
  grind [State.mbxWarmReset, State.mbxPost_keeps, State.askWarm_keeps, State.modClk_keeps]

include h hDue in
theorem State.mbxSnapshot_keeps (j : MbxJob) : Keeps π s₀ (s.mbxSnapshot j) :=
  (hDue s { s.cnt with due := s.cnt.due ++ [1], mbxDue := s.cnt.mbxDue ++ [(j.f, j.seq)] }).trans h

include h hBayRest hHost hHostT hCnt hPlumb in
theorem State.mbxPlumbNow_keeps (j : MbxJob) : Keeps π s₀ (s.mbxPlumbNow j) := by
  grind [State.mbxPlumbNow, State.mbxPost_keeps, State.triggerRun_keeps]

include h hHost hHostT hSent hCnt in
theorem State.mbxSentinelRead_keeps (j : MbxJob) : Keeps π s₀ (s.mbxSentinelRead j) := by
  grind [State.mbxSentinelRead, State.mbxPost_keeps, State.emit_keeps, State.countDev_keeps, State.modSent_keeps]

include h hHost hHostT hCnt in
theorem State.mbxExport_keeps (j : MbxJob) : Keeps π s₀ (s.mbxExport j) := by
  grind [State.mbxExport, State.mbxPost_keeps, State.emit_keeps, State.countDev_keeps]

include h hClkT hHost hHostT hCnt in
theorem State.mbxSetTimeOffset_keeps (j : MbxJob) : Keeps π s₀ (s.mbxSetTimeOffset j) := by
  grind [State.mbxSetTimeOffset, State.mbxPost_keeps, State.modHost_keeps, State.modHost_keeps_all, State.modClk_keeps,
    State.modClk_keeps_all]

include h hReqs hTable hMem hStr hPorts hNet hHost hHostT hCnt hErr hHub hFree in
theorem State.mbxLeave_keeps (j : MbxJob) : Keeps π s₀ (s.mbxLeave j) := by
  unfold State.mbxLeave
  extract_lets hit s1 s2 s3 s4
  have h2 : Keeps π s₀ s2 := by grind [State.checkMembers_keeps, State.modNet_keeps, State.floodLeave_keeps]
  clear_value s2
  have h3 : Keeps π s₀ s3 := by grind [State.each_keeps, State.modPort_keeps]
  clear_value s3
  grind [State.mbxPost_keeps, State.each_keeps, State.failReq_keeps]

include h hClk hClkT hPins hBoot hBootT hTun hStew hReqs hTable hBayRest hMem hQuota hStr hKv hPorts hNet hHost hHostT hSent hCnt
    hErr hErrT hPlumb hHub hFree hDue in
theorem State.mbxRun_keeps (j : MbxJob) : Keeps π s₀ (s.mbxRun j) := by
  unfold State.mbxRun
  extract_lets s1
  have h1 : Keeps π s₀ s1 := by grind [State.countFn_keeps]
  clear_value s1
  split
  · grind [State.mbxPost_keeps]
  simp only [keeps_ite]
  exact ⟨fun _ => by grind [State.mbxPost_keeps], fun _ => ⟨
    fun _ => by grind [State.mbxSetTunable_keeps], fun _ => ⟨
    fun _ => by grind [State.mbxQuiesce_keeps], fun _ => ⟨
    fun _ => by grind [State.mbxResume_keeps], fun _ => ⟨
    fun _ => by grind [State.mbxStage_keeps], fun _ => ⟨
    fun _ => by grind [State.mbxCommit_keeps], fun _ => ⟨
    fun _ => by grind [State.mbxWarmReset_keeps], fun _ => ⟨
    fun _ => by grind [State.mbxSnapshot_keeps], fun _ => ⟨
    fun _ => by grind [State.mbxPlumbNow_keeps], fun _ => ⟨
    fun _ => by grind [State.mbxSentinelRead_keeps], fun _ => ⟨
    fun _ => by grind [State.mbxExport_keeps], fun _ => ⟨
    fun _ => by grind [State.mbxSetTimeOffset_keeps], fun _ => by grind [State.mbxLeave_keeps]⟩⟩⟩⟩⟩⟩⟩⟩⟩⟩⟩⟩

include h hClk hClkT hPins hBoot hBootT hTun hStew hReqs hTable hBayRest hMem hQuota hStr hKv hPorts hNet hHost hHostT hSent hCnt
    hErr hErrT hPlumb hHub hFree hDue in
theorem State.mbxNext_keeps (fuel : Nat) : Keeps π s₀ (State.mbxNext fuel s) := by
  induction fuel generalizing s with
  | zero => exact h
  | succ fuel ih =>
    unfold State.mbxNext
    grind [State.mbxRun_keeps, State.modHost_keeps_all]

include h hClk hClkT hPins hBoot hBootT hTun hStew hReqs hTable hBayRest hMem hQuota hStr hKv hPorts hNet hHost hHostT hSent hCnt
    hErr hErrT hPlumb hHub hFree hDue in
theorem State.mbxGo_keeps : Keeps π s₀ s.mbxGo := by
  grind [State.mbxGo, State.mbxNext_keeps]

include h hClk hClkT hPins hBoot hBootT hTun hStew hReqs hTable hBayRest hMem hQuota hStr hKv hPorts hNet hHost hHostT hSent hCnt
    hErr hErrT hPlumb hHub hFree hDue in
theorem State.mbxFinish_keeps (j : MbxJob) (code : Nat) (res : List Byte) : Keeps π s₀ (s.mbxFinish j code res) := by
  grind [State.mbxFinish, State.mbxPost_keeps, State.mbxGo_keeps]

include h hClk hClkT hPins hBoot hBootT hTun hStew hReqs hTable hBayRest hMem hQuota hStr hKv hPorts hNet hHost hHostT hSent hCnt
    hErr hErrT hPlumb hHub hFree hDue in
theorem State.writeMbxCmd_keeps (f : Fin 16) (v : Nat) (dma : Option (List Byte)) : Keeps π s₀ (s.writeMbxCmd f v dma) := by
  grind [State.writeMbxCmd, State.modPage_keeps, State.modPage_keeps_all, State.modHost_keeps, State.modHost_keeps_all, State.mbxGo_keeps]

end
end Sys2Proof.Machine
end

section
/-! Snapshot pulses and bandwidth windows (17, R435 to R439). -/
namespace Sys2Proof.Machine
open Sys2Proof

/-! ## A result in the mailbox (14, R375) -/

theorem State.mbxPost_cnt (s : State) (j : MbxJob) (code : Nat) (res : List Byte) :
    ((s.mbxPost j code res).cnt.due, (s.mbxPost j code res).cnt.mbxDue) = (s.cnt.due, s.cnt.mbxDue) :=
  State.mbxPost_keeps (π := fun s => (s.cnt.due, s.cnt.mbxDue)) (.refl s) ..

theorem State.running_raise (s : State) (f : Fin 16) (v : Nat) : (s.raise f v).host.mbxRunning = s.host.mbxRunning :=
  congrArg (fun t => t.host.mbxRunning) (State.unsent_raise s f v)

/-- What a command that has not been dropped leaves in its page. -/
theorem State.mbxPost_posted {s : State} (h : s.host.pages.length = 16) {j : MbxJob} (hdrop : (s.page j.f).mbxDrop = false) (code : Nat)
    (res : List Byte) : Safety.posted (s.mbxPost j code res) j.f j.seq code res := by
  unfold State.mbxPost
  extract_lets s1
  have hs1 : s1.page j.f = s.page j.f := rfl
  have hl1 : s1.host.pages.length = 16 := h
  have hr1 : s1.host.mbxRunning = none := rfl
  clear_value s1
  rw [if_neg (by simp [hs1, hdrop])]
  generalize h2 : (s1.modPage j.f fun p =>
    { p with mbxResult := fit 64 res, mbxCode := BitVec.ofNat 8 code, mbxSeq := j.seq, mbxBusy := false }) = s2
  have hl2 : s2.host.pages.length = 16 := by
    rw [← h2]
    simpa [State.modPage, State.modHost] using hl1
  have hp2 : s2.page j.f =
      { s1.page j.f with mbxResult := fit 64 res, mbxCode := BitVec.ofNat 8 code, mbxSeq := j.seq, mbxBusy := false } := by
    rw [← h2, State.page_modPage_same _ _ _ hl1]
  have hr2 : s2.host.mbxRunning = none := by
    rw [← h2]
    exact hr1
  have hpage : ((s2.raise j.f 0).page j.f).unsent = (s2.page j.f).unsent := State.page_of_unsent (State.unsent_raise s2 j.f 0) j.f
  have hbusy := congrArg (fun p => p.mbxBusy) hpage
  have hcode := congrArg (fun p => p.mbxCode) hpage
  have hseq := congrArg (fun p => p.mbxSeq) hpage
  have hres := congrArg (fun p => p.mbxResult) hpage
  simp only [FnPage.unsent, hp2] at hbusy hcode hseq hres
  exact ⟨hbusy, hcode, hseq, hres, State.irqCause_raise_set hl2 j.f (by decide), (State.running_raise s2 j.f 0).trans hr2⟩

theorem State.mbxGo_of_none {s : State} (h : s.host.mbxWaiting = []) : s.mbxGo = s := by
  unfold State.mbxGo
  rw [h]
  rfl

theorem State.mbxWaiting_mbxPost (s : State) (j : MbxJob) (code : Nat) (res : List Byte) :
    (s.mbxPost j code res).host.mbxWaiting = s.host.mbxWaiting := by
  unfold State.mbxPost
  dsimp only
  split
  · rfl
  · exact congrArg (fun t => t.host.mbxWaiting) (State.unsent_raise _ j.f 0)

/-- With no other command waiting, a command that ends only posts its result. -/
theorem State.mbxFinish_eq {s : State} (h : s.host.mbxWaiting = []) (j : MbxJob) (code : Nat) (res : List Byte) :
    s.mbxFinish j code res = s.mbxPost j code res := by
  rw [State.mbxFinish]
  exact State.mbxGo_of_none ((State.mbxWaiting_mbxPost s j code res).trans h)

/-! ## Pulses (R435 to R437) -/

/-- The counters after a pulse: every counter in the shadow bank and in a ring record, and nothing waits. -/
def State.pulsed (s : State) (trigger : Nat) : State :=
  let r := s.snapRecord (s.cnt.snapLast + 1) trigger
  s.modCnt fun c =>
    { c with shadow := c.values, snapSeq := s.cnt.snapLast + 1, snapTime := s.clk.devTime, snapLast := s.cnt.snapLast + 1, due := [],
             mbxDue := [], ring := (c.ring.filter fun x => x.index != r.index) ++ [r] }

/-- What a pulse took of the counters. -/
def State.pulseView (s : State) : List (Nat × Nat) × Nat × Nat × Nat × List SnapRec :=
  (s.cnt.shadow, s.cnt.snapSeq, s.cnt.snapTime, s.cnt.snapLast, s.cnt.ring)

theorem State.pulse_eq {s : State} {trigger : Nat} {rest : List Nat} (h : s.cnt.due = trigger :: rest) :
    s.pulse = match s.host.mbxRunning with
      | some j => if j.id = idSnapshot then (s.pulsed trigger).mbxFinish j 0 (bytesLE 8 (s.cnt.snapLast + 1)) else s.pulsed trigger
      | none => s.pulsed trigger := by
  unfold State.pulse
  rw [h]
  rfl

theorem State.pulseView_pulse {s : State} {trigger : Nat} {rest : List Nat} (h : s.cnt.due = trigger :: rest) :
    s.pulse.pulseView = (s.pulsed trigger).pulseView := by
  rw [State.pulse_eq h]
  generalize s.pulsed trigger = s1
  split
  · split
    · exact State.mbxFinish_keeps (π := State.pulseView) (.refl s1) ..
    · rfl
  · rfl

theorem State.due_pulse {s : State} {trigger : Nat} {rest : List Nat} (h : s.cnt.due = trigger :: rest) (hw : s.host.mbxWaiting = []) :
    s.pulse.cnt.due = [] := by
  have hdue : (s.pulsed trigger).cnt.due = [] := rfl
  have hwait : (s.pulsed trigger).host.mbxWaiting = [] := hw
  rw [State.pulse_eq h]
  generalize s.pulsed trigger = s1 at hdue hwait ⊢
  split
  · split
    · rw [State.mbxFinish_eq hwait]
      exact (congrArg Prod.fst (State.mbxPost_cnt s1 _ _ _)).trans hdue
    · exact hdue
  · exact hdue

theorem State.pulse_posted {s : State} (hp : s.host.pages.length = 16) {trigger : Nat} {rest : List Nat} (h : s.cnt.due = trigger :: rest)
    {j : MbxJob} (hj : s.host.mbxRunning = some j) (hid : j.id = 0x30) (hw : s.host.mbxWaiting = []) (hdrop : (s.page j.f).mbxDrop = false) :
    Safety.posted s.pulse j.f j.seq 0 (bytesLE 8 (s.cnt.snapLast + 1)) := by
  have hwait : (s.pulsed trigger).host.mbxWaiting = [] := hw
  have heq : s.pulse = (s.pulsed trigger).mbxPost j 0 (bytesLE 8 (s.cnt.snapLast + 1)) := by
    rw [State.pulse_eq h, hj, ← State.mbxFinish_eq hwait]
    dsimp only
    rw [if_pos (show j.id = idSnapshot from hid)]
  have hp1 : (s.pulsed trigger).host.pages.length = 16 := hp
  have hdrop1 : ((s.pulsed trigger).page j.f).mbxDrop = false := hdrop
  rw [heq]
  generalize s.pulsed trigger = s1 at hp1 hdrop1 ⊢
  exact State.mbxPost_posted hp1 hdrop1 _ _

/-! ## Bandwidth windows (R439) -/

theorem State.endWindow_window {s : State} {i : Nat} {w : BwWindow} (h : s.cnt.windows[i]? = some w) :
    s.endWindow.cnt.windows[i]? = some (w.store s.cnt.winSeq
      (((s.bwSource i + 2 ^ 48 - w.base % 2 ^ 48) % 2 ^ 48) / max 1 s.cnt.winLen) (s.bwSource i)) := by
  simp [State.endWindow, State.modCnt, List.getElem?_zipIdx, h]

/-- The difference of two 48-bit counts that has not wrapped. -/
theorem wrapped_difference {a b : Nat} (hle : b ≤ a) (hlt : a < 2 ^ 48) : (a + 2 ^ 48 - b % 2 ^ 48) % 2 ^ 48 = a - b := by
  rw [Nat.mod_eq_of_lt (by omega : b < 2 ^ 48)]
  omega

theorem State.countersRun_of_advance (s : State) (t : Nat) : (s.advance t).cnt = s.cnt ∧ (s.advance t).tun = s.tun ∧
    (s.advance t).bwSource = s.bwSource := by
  unfold State.advance
  split <;> exact ⟨rfl, rfl, rfl⟩

/-- Settles O44: a pulse takes the counters once, and what the mailbox does after it leaves what it took. -/
theorem counterEvents : Obligations.CounterEvents := by
  unfold Obligations.CounterEvents
  intro s hs
  obtain ⟨-, -, hpages, -⟩ := hs
  refine ⟨fun hrun hdue => ?_, fun hrun hdue => ⟨_, rfl, ?_⟩, fun at_ hrun hint hat => ⟨_, rfl, ?_⟩, fun at_ hrun hlen hat => ⟨_, rfl, ?_⟩⟩
  · refine congrArg Host.Outcome.next ?_
    rw [doSnapshotPulse, if_pos hrun, State.pulse, hdue]
  · obtain ⟨trigger, rest, htrig⟩ := List.exists_cons_of_ne_nil hdue
    have heq : doSnapshotPulse s = s.pulse := by rw [doSnapshotPulse, if_pos hrun]
    rw [heq]
    have hview := State.pulseView_pulse htrig
    simp only [State.pulseView, Prod.mk.injEq] at hview
    obtain ⟨hshadow, hseq, htime, hlast, hring⟩ := hview
    refine ⟨State.due_pulse htrig, hseq, hlast, htime, hshadow, ⟨s.snapRecord (s.cnt.snapLast + 1) trigger, ?_, rfl, rfl, ?_⟩,
      fun j hj hid hw hdrop => State.pulse_posted hpages htrig hj hid hw hdrop⟩
    · rw [hring]
      exact List.mem_append_right _ (List.mem_singleton_self _)
    · rw [htrig]
      rfl
  · obtain ⟨hcnt, htun, -⟩ := s.countersRun_of_advance at_
    have heq : doPeriodicSnapshot at_ s = (s.advance at_).modCnt fun c => { c with due := c.due ++ [2] } := by
      rw [doPeriodicSnapshot, if_pos (by simp [hrun, htun, hint, hat])]
    obtain ⟨d, f, hadv⟩ := State.advance_eq s at_
    rw [heq, hadv]
    exact ⟨rfl, rfl⟩
  · obtain ⟨hcnt, -, hsource⟩ := s.countersRun_of_advance at_
    have heq : doBandwidthWindowEnd at_ s = (s.advance at_).endWindow := by
      rw [doBandwidthWindowEnd, if_pos]
      simp only [hcnt, Bool.and_eq_true, bne_iff_ne, decide_eq_true_eq]
      exact ⟨⟨hrun, hlen⟩, hat⟩
    rw [heq, ← hsource, ← hcnt]
    rw [← hcnt] at hlen
    generalize s.advance at_ = s1 at *
    refine ⟨rfl, rfl, by simp [State.endWindow, State.modCnt], fun i w hw hle hlt => ⟨_, State.endWindow_window hw, ?_, ?_⟩⟩
    · dsimp only [BwWindow.store]
      rw [wrapped_difference hle hlt, Nat.max_eq_right (by omega)]
    · exact List.mem_cons_self
end Sys2Proof.Machine
end

section
/-! Writes of the host's registers, and those that wait for the exit of P3 (02, R59, R60; 14, R361 to R365, R371; 17, R435, R438). -/
namespace Sys2Proof.Machine
open Sys2Proof

/-! ## Changes of one page -/

theorem State.modPage_modPage (s : State) (f : Fin 16) (g h : FnPage → FnPage) : (s.modPage f g).modPage f h = s.modPage f fun p => h (g p) := by
  simp only [State.modPage, State.modHost, List.modify_modify_eq]
  rfl

/-- Two changes that agree on the page are one. -/
theorem State.modPage_congr (s : State) (f : Fin 16) {g h : FnPage → FnPage} (hgh : g (s.page f) = h (s.page f)) :
    s.modPage f g = s.modPage f h := by
  have hlist : s.host.pages.modify f.val g = s.host.pages.modify f.val h := by
    apply List.ext_getElem?
    intro j
    simp only [List.getElem?_modify]
    by_cases hj : f.val = j
    · subst hj
      simp only [if_true]
      cases hp : s.host.pages[f.val]? with
      | none => rfl
      | some p =>
        have hpage : s.page f = p := by simp [State.page, List.getD_eq_getElem?_getD, hp]
        rw [hpage] at hgh
        exact congrArg some hgh
    · simp [hj]
  simp only [State.modPage, State.modHost, hlist]

theorem State.modPage_id (s : State) (f : Fin 16) {g : FnPage → FnPage} (hg : g (s.page f) = s.page f) : s.modPage f g = s := by
  rw [State.modPage_congr s f (h := id) hg]
  simp [State.modPage, State.modHost]

/-! ## How a write arrives -/

theorem State.hostReg_awake {s : State} {h : HeldTlp} (hr : s.reachable h.f = true) (ha : s.asleep = false) : s.hostReg h = s.writeReg h := by
  simp [State.hostReg, State.hostWrite, hr, ha]

theorem State.hostWrite_asleep {s : State} {h : HeldTlp} (hr : s.reachable h.f = true) (ha : s.asleep = true) (go : State → State) :
    s.hostWrite h go = s.holdTlp (.tlp h) := by
  simp [State.hostWrite, hr, ha]

/-- A 32-bit write of a function's page is done at its offset. -/
theorem State.writeReg_page (s : State) (f : Fin 16) {o : Nat} (ho : o < 0x200) (h4 : o % 4 = 0) {v : Nat} (hv : v < 2 ^ 32) :
    s.writeReg (pageWrite f o v) = s.writePage f o v none := by
  have hval : v % 18446744073709551616 % two32 = v := by
    unfold two32
    omega
  simp [State.writeReg, State.writeWord, pageWrite, h4, ho, hval]

theorem doPage_awake {s : State} {f : Fin 16} (hr : s.reachable f = true) (ha : s.asleep = false) {o : Nat} (ho : o < 0x200) (h4 : o % 4 = 0)
    {v : Nat} (hv : v < 2 ^ 32) : s.hostReg (pageWrite f o v) = s.writePage f o v none :=
  (State.hostReg_awake hr ha).trans (State.writeReg_page s f ho h4 hv)

/-! ## RING_CTRL (R363) -/

/-- The flags and the sizes that a write of RING_CTRL sets before ARM. -/
def FnPage.withCtrl (p : FnPage) (pf : Bool) (v : Nat) : FnPage :=
  let p := if bitOf v 3 then { p with tailErr := false } else p
  if p.armed then p else
    { p with reqLog2 := BitVec.ofNat 5 (bits v 4 5), cplLog2 := BitVec.ofNat 5 (bits v 9 5),
             audLog2 := if pf then BitVec.ofNat 5 (bits v 14 5) else p.audLog2 }

theorem State.writeRingCtrl_eq {s : State} (h : s.host.pages.length = 16) (f : Fin 16) (v : Nat) :
    s.writeRingCtrl f v =
      (let s1 := s.modPage f fun p => p.withCtrl (f.val == 0) v
       if !(bitOf v 0) then s1.disarm f else if (s.page f).armBit then s1 else (s1.modPage f fun p => p.arm (f.val == 0)).tryDrain) := by
  have hset : (if bitOf v 3 then s.modPage f fun p => { p with tailErr := false } else s).modPage f (fun p =>
      if p.armed then p else
        { p with reqLog2 := BitVec.ofNat 5 (bits v 4 5), cplLog2 := BitVec.ofNat 5 (bits v 9 5),
                 audLog2 := if f.val == 0 then BitVec.ofNat 5 (bits v 14 5) else p.audLog2 }) =
      s.modPage f fun p => p.withCtrl (f.val == 0) v := by
    by_cases hb : bitOf v 3 = true
    · simp only [FnPage.withCtrl, hb, if_true]
      rw [State.modPage_modPage]
    · simp only [FnPage.withCtrl, hb]
      rfl
  have harm : ((s.modPage f fun p => p.withCtrl (f.val == 0) v).page f).armBit = (s.page f).armBit := by
    rw [State.page_modPage_same _ _ _ h]
    simp only [FnPage.withCtrl]
    split <;> split <;> rfl
  unfold State.writeRingCtrl
  dsimp only
  rw [hset, harm]

theorem FnPage.ringCtrl_sizes (p : FnPage) :
    p.ringCtrl / 16 * 16 = 16 * p.reqLog2.toNat + 512 * p.cplLog2.toNat + 16384 * p.audLog2.toNat := by
  have hflags : flagsNat [p.armBit, p.armed, p.armErr, p.tailErr] < 16 := by
    cases p.armBit <;> cases p.armed <;> cases p.armErr <;> cases p.tailErr <;> decide
  rw [FnPage.ringCtrl]
  omega

theorem ofNat_bits_eq {n : Nat} {x : BitVec 5} {lo : Nat} (h : n / 2 ^ lo % 32 = x.toNat) : BitVec.ofNat 5 (bits n lo 5) = x := by
  rw [bits, show (2 : Nat) ^ 5 = 32 from rfl, h, BitVec.ofNat_toNat, BitVec.setWidth_eq]

/-- A write of the sizes as they stand changes TAIL_ERR alone. -/
theorem FnPage.withCtrl_sizes (p : FnPage) (pf : Bool) {k : Nat} (hk : k < 16) :
    p.withCtrl pf (p.ringCtrl / 16 * 16 + k) = { p with tailErr := p.tailErr && !(bitOf k 3) } := by
  have hreq : BitVec.ofNat 5 (bits (p.ringCtrl / 16 * 16 + k) 4 5) = p.reqLog2 := ofNat_bits_eq (by rw [p.ringCtrl_sizes]; omega)
  have hcpl : BitVec.ofNat 5 (bits (p.ringCtrl / 16 * 16 + k) 9 5) = p.cplLog2 := ofNat_bits_eq (by rw [p.ringCtrl_sizes]; omega)
  have haud : BitVec.ofNat 5 (bits (p.ringCtrl / 16 * 16 + k) 14 5) = p.audLog2 := ofNat_bits_eq (by rw [p.ringCtrl_sizes]; omega)
  have hbit : bitOf (p.ringCtrl / 16 * 16 + k) 3 = bitOf k 3 := by
    unfold bitOf
    congr 1
    omega
  unfold FnPage.withCtrl
  rw [hreq, hcpl, haud, hbit]
  cases bitOf k 3 <;> cases pf <;> simp

theorem FnPage.sizes_lt (p : FnPage) {k : Nat} (hk : k < 16) : p.ringCtrl / 16 * 16 + k < 2 ^ 32 := by
  rw [p.ringCtrl_sizes]
  omega

theorem State.page_disarm {s : State} (h : s.host.pages.length = 16) (f : Fin 16) :
    (s.disarm f).page f = { s.page f with armBit := false, armed := false } ∧ (s.disarm f).mem = s.mem := by
  have hpage := State.page_modPage_same s f (fun p => { p with armBit := false, armed := false }) h
  unfold State.disarm
  dsimp only
  split <;> exact ⟨hpage, rfl⟩

theorem doDisarm_spec {s : State} {f : Fin 16} (h : s.host.pages.length = 16) (hr : s.reachable f = true) (ha : s.asleep = false) :
    (doDisarm f s).page f = { s.page f with armBit := false, armed := false } ∧ (doDisarm f s).mem = s.mem := by
  have hset : (s.modPage f fun p => p.withCtrl (f.val == 0) (s.ringSizes f)) = s :=
    State.modPage_id s f (((s.page f).withCtrl_sizes (f.val == 0) (k := 0) (by omega)).trans (by simp [bitOf]))
  have hbit : bitOf (s.ringSizes f) 0 = false := by
    simp only [bitOf, State.ringSizes, beq_eq_false_iff_ne]
    omega
  have heq : doDisarm f s = s.disarm f := by
    rw [doDisarm, doPage_awake hr ha (by decide) (by decide) (show s.ringSizes f < 2 ^ 32 from (s.page f).sizes_lt (k := 0) (by omega))]
    show s.writeRingCtrl f (s.ringSizes f) = _
    rw [State.writeRingCtrl_eq h]
    dsimp only
    rw [hset, hbit]
    rfl
  rw [heq]
  exact State.page_disarm h f

theorem doTailErrClear_spec {s : State} {f : Fin 16} (h : s.host.pages.length = 16) (hr : s.reachable f = true) (ha : s.asleep = false)
    (harm : (s.page f).armBit = true) : doTailErrClear f s = s.modPage f fun p => { p with tailErr := false } := by
  have hval : s.ringSizes f + 8 + b2n (s.page f).armBit = (s.page f).ringCtrl / 16 * 16 + 9 := by rw [harm]; rfl
  have hset : (s.modPage f fun p => p.withCtrl (f.val == 0) ((s.page f).ringCtrl / 16 * 16 + 9)) =
      s.modPage f fun p => { p with tailErr := false } :=
    State.modPage_congr s f (((s.page f).withCtrl_sizes (f.val == 0) (k := 9) (by omega)).trans (by simp [bitOf]))
  have hbit : bitOf ((s.page f).ringCtrl / 16 * 16 + 9) 0 = true := by
    simp only [bitOf, beq_iff_eq]
    omega
  rw [doTailErrClear, hval, doPage_awake hr ha (by decide) (by decide) ((s.page f).sizes_lt (k := 9) (by omega))]
  show s.writeRingCtrl f _ = _
  rw [State.writeRingCtrl_eq h]
  dsimp only
  rw [hset, hbit, harm]
  rfl

/-- The sizes that an ARM with `value` sets. -/
def FnPage.sized (p : FnPage) (pf : Bool) (value : BitVec 32) : FnPage :=
  { p with reqLog2 := value.extractLsb' 4 5, cplLog2 := value.extractLsb' 9 5, audLog2 := if pf then value.extractLsb' 14 5 else p.audLog2 }

theorem ofNat_bits_or_one (value : BitVec 32) {lo : Nat} (hlo : 0 < lo) :
    BitVec.ofNat 5 (bits (value ||| 1).toNat lo 5) = value.extractLsb' lo 5 := by
  apply BitVec.eq_of_getLsbD_eq
  intro i hi
  simp only [BitVec.getLsbD_ofNat, hi, decide_true, Bool.true_and, bits, Nat.testBit_mod_two_pow, Nat.testBit_div_two_pow,
    BitVec.testBit_toNat, BitVec.getLsbD_or, BitVec.getLsbD_extractLsb']
  have hone : (1 : BitVec 32).getLsbD (lo + i) = false := by
    have hbit : Nat.testBit 1 (lo + i) = false :=
      Bool.eq_false_iff.mpr fun h => by have := Nat.testBit_one_eq_true_iff_self_eq_zero.mp h; omega
    rw [show (1 : BitVec 32) = BitVec.ofNat 32 1 from rfl, BitVec.getLsbD_ofNat, hbit, Bool.and_false]
  rw [Nat.add_comm i lo, hone, Bool.or_false]

theorem beq_zero_eq_val (f : Fin 16) : (f == 0) = (f.val == 0) := by
  rw [Bool.eq_iff_iff, beq_iff_eq, beq_iff_eq, Fin.ext_iff]
  rfl

/-- An ARM of a page that is not armed: its sizes, then ARMED with the counts at 0, or ARM_ERR. -/
theorem doArm_spec {s : State} {f : Fin 16} (h : s.host.pages.length = 16) (hr : s.reachable f = true) (ha : s.asleep = false)
    (harmed : (s.page f).armed = false) (hbit : (s.page f).armBit = false) (value : BitVec 32) :
    ∃ err, ((doArm f value s).page f).unsent =
      (({ s.page f with tailErr := err }.sized (f == 0) value).arm (f.val == 0)).unsent := by
  have hone : bitOf (value ||| 1).toNat 0 = true := by
    have hbit0 : (value ||| 1).getLsbD 0 = true := by simp
    rw [bitOf, Nat.pow_zero, Nat.div_one, beq_iff_eq]
    rw [← BitVec.testBit_toNat, Nat.testBit_zero] at hbit0
    simpa only [decide_eq_true_eq] using hbit0
  have hsizes : ∃ err, (s.page f).withCtrl (f.val == 0) (value ||| 1).toNat = { s.page f with tailErr := err }.sized (f == 0) value := by
    have hpf := beq_zero_eq_val f
    unfold FnPage.withCtrl FnPage.sized
    rw [ofNat_bits_or_one value (by omega), ofNat_bits_or_one value (by omega), ofNat_bits_or_one value (by omega), hpf]
    generalize bitOf (value ||| 1).toNat 3 = b
    generalize s.page f = p at harmed ⊢
    cases b with
    | false => exact ⟨p.tailErr, by simp [harmed]⟩
    | true => exact ⟨false, by simp [harmed]⟩
  obtain ⟨err, herr⟩ := hsizes
  refine ⟨err, ?_⟩
  rw [doArm, doPage_awake hr ha (by decide) (by decide) (value ||| 1).isLt, ← herr]
  show ((s.writeRingCtrl f (value ||| 1).toNat).page f).unsent = _
  rw [State.writeRingCtrl_eq h]
  dsimp only
  rw [hone, hbit]
  simp only [Bool.not_true, Bool.false_eq_true, if_false, State.modPage_modPage]
  rw [State.page_of_unsent (State.unsent_tryDrain _) f, State.page_modPage_same _ _ _ h]

/-! ## The heads, the tail and the causes (R361 to R365, R371) -/

theorem doReqTail_spec {s : State} {f : Fin 16} (h : s.host.pages.length = 16) (hr : s.reachable f = true) (ha : s.asleep = false)
    (value : BitVec 32) :
    ((s.page f).armed = true → (value - (s.page f).reqHead).toNat ≤ 2 ^ (s.page f).reqLog2.toNat →
      doReqTail f value s = s.modPage f fun p => { p with reqTail := value }) ∧
    ((s.page f).armed = false ∨ 2 ^ (s.page f).reqLog2.toNat < (value - (s.page f).reqHead).toNat →
      ((doReqTail f value s).page f).tailErr = true ∧ ((doReqTail f value s).page f).reqTail = (s.page f).reqTail) := by
  have heq : doReqTail f value s = s.writeTail f value := by simp [doReqTail, State.hostWrite, pageWrite, hr, ha]
  rw [heq, State.writeTail]
  refine ⟨fun harmed hle => ?_, fun hbad => ?_⟩
  · refine if_neg ?_
    simp only [harmed, Bool.not_true, Bool.false_or, decide_eq_true_eq, Nat.not_lt]
    exact hle
  · rw [if_pos (by simpa using hbad)]
    have hset : ((s.modPage f fun p => { p with tailErr := true }).countFn f 9 1).page f = { s.page f with tailErr := true } :=
      State.page_modPage_same s f _ h
    unfold State.refuseTail
    dsimp only
    generalize (s.modPage f fun p => { p with tailErr := true }).countFn f 9 1 = s1 at hset
    split
    · rw [hset]
      exact ⟨rfl, rfl⟩
    · have hpage := State.page_of_unsent (State.unsent_raise s1 f 0) f
      rw [hset] at hpage
      exact ⟨congrArg (fun p => p.tailErr) hpage, congrArg (fun p => p.reqTail) hpage⟩

theorem State.writeCplHead_spec {s : State} (h : s.host.pages.length = 16) (f : Fin 16) (value : BitVec 32) :
    ((s.writeCplHead f value).page f).cplHead =
      (if headOk (s.page f).cplHead (s.page f).cplTail value then value else (s.page f).cplHead) ∧ (s.writeCplHead f value).mem = s.mem := by
  unfold State.writeCplHead
  dsimp only
  by_cases hok : headOk (s.page f).cplHead (s.page f).cplTail value = true
  · rw [if_neg (by simp [hok]), if_pos hok]
    generalize hs1 : (s.modPage f fun p => { p with cplHead := value, quiet := p.quiet.filter fun v => f.val == 0 && v == 1 }) = s1
    have hhead : (s1.page f).cplHead = value := by rw [← hs1, State.page_modPage_same _ _ _ h]
    have hmem : s1.mem = s.mem := by rw [← hs1]; rfl
    generalize s1.lastTags f _ = tags
    have hun : (s1.each tags fun s tag => s.sendQuiet f (tagVector f tag)).tryDrain.unsent = s1.unsent :=
      (State.unsent_tryDrain _).trans
        (State.each_keeps (π := State.unsent) (.refl s1) (fun s _ h => (State.unsent_sendQuiet s f _).trans h) tags)
    exact ⟨(congrArg (fun p => p.cplHead) (State.page_of_unsent hun f)).trans hhead, (State.mem_of_unsent hun).trans hmem⟩
  · rw [if_pos (by simp [hok]), if_neg hok]
    exact ⟨rfl, rfl⟩

theorem State.writeAudHead_spec {s : State} (h : s.host.pages.length = 16) (value : BitVec 32) :
    ((s.writeAudHead value).page 0).audHead =
      (if headOk (s.page 0).audHead (s.page 0).audTail value then value else (s.page 0).audHead) ∧ (s.writeAudHead value).mem = s.mem := by
  unfold State.writeAudHead
  dsimp only
  by_cases hok : headOk (s.page 0).audHead (s.page 0).audTail value = true
  · rw [if_neg (by simp [hok]), if_pos hok]
    generalize hs1 : (s.modPage 0 fun p => { p with audHead := value, quiet := p.quiet.filter (· != 1) }) = s1
    have hhead : (s1.page 0).audHead = value := by rw [← hs1, State.page_modPage_same _ _ _ h]
    have hmem : s1.mem = s.mem := by rw [← hs1]; rfl
    have hun : (if value = (s.page 0).audTail then s1 else s1.sendQuiet 0 1).tryDrain.unsent = s1.unsent := by
      rw [State.unsent_tryDrain]
      split
      · rfl
      · exact State.unsent_sendQuiet s1 0 1
    exact ⟨(congrArg (fun p => p.audHead) (State.page_of_unsent hun 0)).trans hhead, (State.mem_of_unsent hun).trans hmem⟩
  · rw [if_pos (by simp [hok]), if_neg hok]
    exact ⟨rfl, rfl⟩

/-! ## CNT_SNAP_CTRL (R435, R438) -/

theorem State.writeReg_csr (s : State) {o : Nat} (h4 : o % 4 = 0) (v : Nat) :
    s.writeReg (csrWrite o v) = s.writeCsr o ((BitVec.ofNat 64 v).toNat % two32) none := by
  simp [State.writeReg, State.writeWord, csrWrite, h4]

theorem State.writeReg_snapCtrl (s : State) {v : Nat} (hv : v < 2 ^ 32) : s.writeReg (csrWrite 0x61C000 v) = s.writeSnapCtrl v := by
  have hval : (BitVec.ofNat 64 v).toNat % two32 = v := by
    rw [BitVec.toNat_ofNat, two32]
    omega
  rw [State.writeReg_csr s rfl, hval, State.writeCsr, if_neg (by decide), if_pos rfl]

/-- A write of CNT_SNAP_CTRL with an index and the bits below 16. -/
theorem doSnapCtrl_awake {s : State} (hr : s.reachable 0 = true) (ha : s.asleep = false) {k : Nat} (hk : k < 4) (index : BitVec 10) :
    s.hostReg (csrWrite 0x61C000 (k + 65536 * index.toNat)) =
      (let s1 := s.modCnt fun c => { c with loadIndex := index }
       if bitOf k 0 then s1.modCnt fun c => { c with due := c.due ++ [0] }
       else if bitOf k 1 then s1.loadRecord index.toNat else s1) := by
  have hindex : bits (k + 65536 * index.toNat) 16 10 = index.toNat := by
    unfold bits
    omega
  have hbit0 : bitOf (k + 65536 * index.toNat) 0 = bitOf k 0 := by unfold bitOf; congr 1; omega
  have hbit1 : bitOf (k + 65536 * index.toNat) 1 = bitOf k 1 := by unfold bitOf; congr 1; omega
  rw [State.hostReg_awake (by exact hr) ha, State.writeReg_snapCtrl s (by omega), State.writeSnapCtrl, hindex, hbit0, hbit1,
    BitVec.ofNat_toNat, BitVec.setWidth_eq]

/-! ## 64-bit writes (Table 14.1) -/

theorem setHalf_setHalf (w v : Word) : setHalf (setHalf w false (v.toNat % two32)) true (v.toNat / two32) = v := by
  apply BitVec.eq_of_toNat_eq
  simp only [setHalf, two32, Bool.false_eq_true, if_false, if_true, BitVec.toNat_ofNat]
  omega

theorem doRegisterWrite_cplBase {s : State} {f : Fin 16} (hr : s.reachable f = true) (ha : s.asleep = false)
    (harmed : (s.page f).armed = false) (v : BitVec 64) :
    doRegisterWrite f .doorbell 0x08 8 v none s = s.modPage f fun p => { p with cplBase := v } := by
  have hwrite : doRegisterWrite f .doorbell 0x08 8 v none s = (s.writeBase f 8 (v.toNat % two32)).writeBase f 12 (v.toNat / two32) := by
    rw [doRegisterWrite, State.hostReg_awake hr ha]
    simp [State.writeReg, State.writeWord, State.writePage]
  have hlow : s.writeBase f 8 (v.toNat % two32) = s.modPage f fun p => { p with cplBase := setHalf p.cplBase false (v.toNat % two32) } :=
    State.modPage_congr s f (by simp [harmed])
  rw [hwrite, hlow, State.writeBase, State.modPage_modPage]
  refine State.modPage_congr s f ?_
  simp [harmed, setHalf_setHalf]

/-- Settles O41: a write is done at its offset, and in P3 it is held. -/
theorem hostRegisterWrites : Obligations.HostRegisterWrites := by
  unfold Obligations.HostRegisterWrites
  intro s f value hs hr p
  have hpages : s.host.pages.length = 16 := by
    obtain ⟨-, -, hpages, -⟩ := hs
    exact hpages
  refine ⟨fun ha => ?_, fun ha => ⟨⟨_, rfl, doReqTail_spec hpages hr ha value⟩, fun harmed hbit => ?_, ⟨_, rfl, doDisarm_spec hpages hr ha⟩,
    fun hbit => ⟨_, rfl, ?_⟩, ⟨_, rfl, ?_⟩, fun hf => ⟨_, rfl, ?_⟩, ?_, fun hf => ⟨⟨_, rfl, ?_⟩, fun index => ⟨_, rfl, ?_⟩⟩, fun v => ?_,
    fun v harmed => ?_, fun v win off width hbad => ?_⟩⟩
  · have hheld : ∀ (i : Instr) (x : Held), exec i s = .next (s.holdTlp x) → ∃ t, exec i s = .next t ∧ t.clk.wakeLatched = true ∧
        t.clk.wakeCause.getLsbD 1 = true ∧ t.clk.held.length = s.clk.held.length + 1 ∧ t.host = s.host := by
      intro i x hi
      obtain ⟨hwake, hcause, hheld, hhost⟩ := State.holdTlp_spec ha x
      exact ⟨_, hi, hwake, by rw [hcause]; simp, by rw [hheld]; simp, hhost⟩
    simp only [List.forall_mem_cons]
    have hold : ∀ (x : HeldTlp) (go : State → State), x.f = f → s.hostWrite x go = s.holdTlp (.tlp x) :=
      fun x go hx => State.hostWrite_asleep (by rw [hx]; exact hr) ha go
    have holdReg : ∀ o v, s.hostReg (pageWrite f o v) = s.holdTlp (.tlp (pageWrite f o v)) := fun o v => hold _ _ rfl
    exact ⟨hheld _ _ (congrArg Host.Outcome.next (hold (pageWrite f 0x40 value.toNat) _ rfl)),
      hheld _ _ (congrArg Host.Outcome.next (holdReg 0x20 _)), hheld _ _ (congrArg Host.Outcome.next (holdReg 0x20 _)),
      hheld _ _ (congrArg Host.Outcome.next (holdReg 0x20 _)), hheld _ _ (congrArg Host.Outcome.next (holdReg 0x48 _)),
      hheld _ _ (congrArg Host.Outcome.next (holdReg 0x60 _)), by simp⟩
  · obtain ⟨err, hpage⟩ := doArm_spec hpages hr ha harmed hbit value
    have hif : (if f = 0 then value.extractLsb' 14 5 else p.audLog2) = if f == 0 then value.extractLsb' 14 5 else p.audLog2 := by simp
    intro q
    have hok : ({ p with tailErr := err }.sized (f == 0) value).armOk (f.val == 0) = q.armOk (f == 0) := by
      simp only [q, FnPage.armOk, FnPage.sized, hif, beq_zero_eq_val]
    refine ⟨_, rfl, ?_⟩
    by_cases hq : q.armOk (f == 0) = true
    · rw [FnPage.arm, if_pos (hok.trans hq)] at hpage
      exact ⟨congrArg (fun p => p.armBit) hpage, (congrArg (fun p => p.armed) hpage).trans hq.symm,
        (congrArg (fun p => p.armErr) hpage).trans (by rw [hq]; rfl), congrArg (fun p => p.reqLog2) hpage, congrArg (fun p => p.cplLog2) hpage,
        fun _ => ⟨congrArg (fun p => p.reqTail) hpage, congrArg (fun p => p.reqHead) hpage⟩⟩
    · have hq' : q.armOk (f == 0) = false := by simpa using hq
      rw [FnPage.arm, if_neg (by rw [hok]; exact hq)] at hpage
      exact ⟨congrArg (fun p => p.armBit) hpage, ((congrArg (fun p => p.armed) hpage).trans harmed).trans hq'.symm,
        (congrArg (fun p => p.armErr) hpage).trans (by rw [hq']; rfl), congrArg (fun p => p.reqLog2) hpage,
        congrArg (fun p => p.cplLog2) hpage, fun h => absurd h hq⟩
  · rw [doTailErrClear_spec hpages hr ha hbit]
    exact ⟨State.page_modPage_same s f _ hpages, rfl⟩
  · have heq : doCplHead f value s = s.writeCplHead f value := by
      rw [doCplHead, doPage_awake hr ha (by decide) (by decide) value.isLt]
      show s.writeCplHead f (BitVec.ofNat 32 value.toNat) = _
      rw [BitVec.ofNat_toNat, BitVec.setWidth_eq]
    rw [heq]
    exact State.writeCplHead_spec hpages f value
  · subst hf
    have heq : doAudHead value s = s.writeAudHead value := by
      rw [doAudHead, doPage_awake hr ha (by decide) (by decide) value.isLt]
      show s.writeAudHead (BitVec.ofNat 32 value.toNat) = _
      rw [BitVec.ofNat_toNat, BitVec.setWidth_eq]
    rw [heq]
    exact State.writeAudHead_spec hpages value
  · show Host.Outcome.next (doIrqCauseClear f value s) = _
    rw [doIrqCauseClear, doPage_awake hr ha (by decide) (by decide) value.isLt]
    show Host.Outcome.next (s.modPage f fun p => { p with irqCause := p.irqCause &&& ~~~ (BitVec.ofNat 32 value.toNat) }) = _
    rw [BitVec.ofNat_toNat, BitVec.setWidth_eq]
  · subst hf
    rw [doTake, doSnapCtrl_awake hr ha (by omega)]
    rfl
  · subst hf
    rw [doLoad, doSnapCtrl_awake hr ha (by omega)]
    refine ⟨rfl, rfl, rfl, fun r hpoison hfind => ?_⟩
    simp [bitOf, State.loadRecord, State.modCnt, hpoison, hfind]
  · show Host.Outcome.next (doRegisterWrite f .doorbell 0x64 4 v none s) = _
    have hwrite : s.writeReg { f := f, win := .doorbell, offset := 0x64, width := 4, value := v, dma := none } =
        s.modPage f fun p => { p with irqMask := BitVec.ofNat 32 (v.toNat % two32) } := by
      simp [State.writeReg, State.writeWord, State.writePage]
    have hval : BitVec.ofNat 32 (v.toNat % two32) = v.setWidth 32 := by
      apply BitVec.eq_of_toNat_eq
      simp [two32]
    rw [doRegisterWrite, State.hostReg_awake hr ha, hwrite, hval]
  · exact congrArg Host.Outcome.next (doRegisterWrite_cplBase hr ha harmed v)
  · obtain ⟨h4, h8⟩ := not_or.mp hbad
    show Host.Outcome.next (doRegisterWrite f win off width v none s) = _
    rw [doRegisterWrite, State.hostReg_awake hr ha]
    simp [State.writeReg, h4, h8]
end Sys2Proof.Machine
end

section
/-! Answers of the DOE responder, the SMBus target and the TAP (14, R382, R383; 17, R434; 19, R470, R482). -/
namespace Sys2Proof.Machine
open Sys2Proof

/-! ## One message of the DOE responder -/

/-- `t` is `s` after one message of the responder; only the host's state and the free values have changed. -/
def Answered (s t : State) (bytes : List Byte) : Prop :=
  t.host.out = s.host.out ++ [.doe bytes] ∧ t = { s with host := t.host, freeCtr := t.freeCtr }

theorem State.sendDoe_answered {s s1 : State} (h : s1 = { s with host := s1.host, freeCtr := s1.freeCtr }) (hout : s1.host.out = s.host.out)
    (bytes : List Byte) : Answered s (s1.sendDoe bytes) bytes := by
  refine ⟨?_, ?_⟩
  · show s1.host.out ++ [.doe bytes] = _
    rw [hout]
  · conv => lhs; rw [h]
    rfl

theorem State.sendDoe_same (s : State) (bytes : List Byte) : Answered s (s.sendDoe bytes) bytes := State.sendDoe_answered rfl rfl bytes

theorem spdmError_eq (code : Nat) (data : Nat) : spdmError code data = [0x13, 0x7F, BitVec.ofNat 8 code, BitVec.ofNat 8 data] := rfl

theorem spdmMsg_take (code p1 p2 : Nat) (body : List Byte) : (spdmMsg code p1 p2 body).take 2 = [0x13, BitVec.ofNat 8 code] := rfl

theorem State.doe_awake {s : State} (hup : s.host.linkUp = true) (hpwr : s.clk.pwrOk = true) (ha : s.asleep = false) (r : DoeReq) :
    s.doe r = s.doeAnswer r := by
  simp [State.doe, hup, hpwr, ha]

/-- The responder's answer, where it depends on the place in the exchange. -/
theorem Answered.ite {s a b : State} {p : Prop} [Decidable p] {good bad : List Byte → Prop}
    (ha : p → ∃ bytes, Answered s a bytes ∧ good bytes) (hb : ¬ p → ∃ bytes, Answered s b bytes ∧ bad bytes) :
    ∃ bytes, Answered s (if p then a else b) bytes ∧ (if p then good else bad) bytes := by
  by_cases h : p
  · simpa [h] using ha h
  · simpa [h] using hb h

theorem State.doeAnswer_discovery (s : State) (i : BitVec 8) : ∃ bytes, Answered s (s.doeAnswer (.discovery i)) bytes ∧
    bytes = if i = 0 then [1, 0, 0, 1] else if i = 1 then [1, 0, 1, 0] else [0xFF, 0xFF, 0, 0] := by
  refine ⟨_, State.sendDoe_same s _, ?_⟩
  have h0 : i.toNat = 0 ↔ i = 0 := by rw [BitVec.toNat_eq]; rfl
  have h1 : i.toNat = 1 ↔ i = 1 := by rw [BitVec.toNat_eq]; rfl
  simp only [discoveryBytes, h0, h1]

/-- A message after values that the part draws. -/
theorem Answered.exists_sendDoe {s s1 : State} (h : s1 = { s with host := s1.host, freeCtr := s1.freeCtr }) (hout : s1.host.out = s.host.out)
    {bytes : List Byte} {good : List Byte → Prop} (hgood : good bytes) : ∃ b, Answered s (s1.sendDoe bytes) b ∧ good b :=
  ⟨bytes, State.sendDoe_answered h hout bytes, hgood⟩

theorem State.doeCertificate_answers (s : State) (slot : BitVec 8) (o n : BitVec 16) :
    ∃ bytes, Answered s (s.doeCertificate slot.toNat o.toNat n.toNat) bytes ∧
      (if slot ≠ 0 ∨ spdmChain.length ≤ o.toNat then fun b => b = [0x13, 0x7F, BitVec.ofNat 8 0x01, BitVec.ofNat 8 0]
        else fun b => b.take 4 = [0x13, 0x02, 0, 0] ∧ b.drop 8 = slice spdmChain o.toNat n.toNat) bytes := by
  have hslot : (slot.toNat ≠ 0 || decide (spdmChain.length ≤ o.toNat)) = true ↔ slot ≠ 0 ∨ spdmChain.length ≤ o.toNat := by
    have h0 : slot.toNat = 0 ↔ slot = 0 := by rw [BitVec.toNat_eq]; rfl
    simp only [Bool.or_eq_true, decide_eq_true_eq, ne_eq, h0]
  unfold State.doeCertificate
  simp only [← hslot]
  refine Answered.ite (fun _ => ⟨_, State.sendDoe_same s _, rfl⟩) (fun _ => ⟨_, State.sendDoe_same s _, rfl, ?_⟩)
  generalize slice spdmChain o.toNat n.toNat = part
  simp [spdmMsg, bytesLE]

theorem State.doeChallenge_answers (s : State) (slot : BitVec 8) :
    ∃ bytes, Answered s (s.doeChallenge slot.toNat) bytes ∧
      (if slot ≠ 0 then fun b => b = [0x13, 0x7F, BitVec.ofNat 8 0x01, BitVec.ofNat 8 0] else fun b => b.take 2 = [0x13, BitVec.ofNat 8 0x03])
        bytes := by
  have hslot : slot.toNat ≠ 0 ↔ slot ≠ 0 := by rw [ne_eq, ne_eq, BitVec.toNat_eq]; rfl
  unfold State.doeChallenge
  simp only [← hslot]
  exact Answered.ite (fun _ => ⟨_, State.sendDoe_same s _, rfl⟩) (fun _ => Answered.exists_sendDoe rfl rfl (spdmMsg_take _ _ _ _))

theorem measIndices_isEmpty (i : BitVec 8) : (i.toNat ≠ 0 && (measIndices i.toNat).isEmpty) = true ↔ 6 < i.toNat ∧ i ≠ 0xFF := by
  have h255 : i = 0xFF ↔ i.toNat = 255 := by rw [BitVec.toNat_eq]; rfl
  rw [ne_eq (a := i), h255]
  unfold measIndices within
  split
  next h => simp [h]
  next h =>
    split
    next hw =>
      simp only [Bool.and_eq_true, decide_eq_true_eq] at hw
      simp only [List.isEmpty_cons, Bool.and_false, Bool.false_eq_true, false_iff]
      omega
    next hw =>
      simp only [Bool.and_eq_true, decide_eq_true_eq] at hw
      simp only [List.isEmpty_nil, Bool.and_true, decide_eq_true_eq]
      omega

theorem State.doeMeasurements_answers (s : State) (i : BitVec 8) (sign : Bool) :
    ∃ bytes, Answered s (s.doeMeasurements i.toNat sign) bytes ∧
      (if 6 < i.toNat ∧ i ≠ 0xFF then fun b => b = [0x13, 0x7F, BitVec.ofNat 8 0x01, BitVec.ofNat 8 0]
        else fun b => b.take 2 = [0x13, BitVec.ofNat 8 0x60]) bytes := by
  unfold State.doeMeasurements
  simp only [← measIndices_isEmpty]
  refine Answered.ite (fun _ => ⟨_, State.sendDoe_same s _, rfl⟩) (fun _ => ?_)
  cases sign with
  | false => exact Answered.exists_sendDoe rfl rfl (spdmMsg_take _ _ _ _)
  | true => exact Answered.exists_sendDoe rfl rfl (spdmMsg_take _ _ _ _)

/-! ## The SMBus target (R383, R482) -/

theorem State.smbAnswer_powered {s : State} (h : s.clk.pwrOk = true) (bytes : List Byte) :
    s.smbAnswer bytes = { s with pins := { s.pins with smbOut := bytes, smbSdaHeld := true } } := by
  simp [State.smbAnswer, h, State.modPins]

theorem block_eq (bs : List Byte) {n : Nat} (h : bs.length = n) : block bs = BitVec.ofNat 8 n :: bs := by
  rw [block, h]
  rfl

theorem foldl_max_spec (l : List Nat) (a : Nat) : a ≤ l.foldl max a ∧ (∀ x ∈ l, x ≤ l.foldl max a) ∧ (l.foldl max a = a ∨ l.foldl max a ∈ l) := by
  induction l generalizing a with
  | nil => exact ⟨Nat.le_refl a, by simp, .inl rfl⟩
  | cons x l ih =>
    obtain ⟨hle, hall, hmem⟩ := ih (max a x)
    rw [List.foldl_cons]
    refine ⟨by omega, fun y hy => ?_, ?_⟩
    · rcases List.mem_cons.mp hy with rfl | hy
      · omega
      · exact hall y hy
    · rcases hmem with h | h
      · rw [h]
        rcases Nat.le_total a x with hax | hax
        · exact .inr (by simp [Nat.max_eq_right hax])
        · exact .inl (Nat.max_eq_left hax)
      · exact .inr (List.mem_cons_of_mem x h)

theorem foldl_max_mem {l : List Nat} (h : l ≠ []) : l.foldl max 0 ∈ l := by
  obtain ⟨-, hall, hmem⟩ := foldl_max_spec l 0
  rcases hmem with h0 | hmem
  · obtain ⟨x, l', rfl⟩ := List.exists_cons_of_ne_nil h
    have hx := hall x List.mem_cons_self
    rw [h0] at hx ⊢
    rw [Nat.le_zero.mp hx]
    exact List.mem_cons_self
  · exact hmem

/-! ## The TAP (R470) -/

theorem doTapInstruction_eq {s : State} (hp : s.clk.pwrOk = true) (hp3 : s.clk.pstate ≠ .p3) (i : TapInstr) :
    doTapInstruction i s = match (if tapOffers s.pins.straps.tapEn i then i else TapInstr.bypass) with
      | .idcode => s.modPins fun p => { p with tapIr := .idcode, tapOut := 0x1410056F }
      | .bypass => s.modPins fun p => { p with tapIr := .bypass, tapOut := 0 }
      | i => { s with freeCtr := s.freeCtr + 1 }.modPins fun p => { p with tapIr := i, tapOut := Config.tapStatus s.freeCtr } := by
  have hgo : (!s.clk.pwrOk || s.clk.pstate == .p3) = false := by simp [hp, hp3]
  unfold doTapInstruction
  rw [hgo]
  rfl

/-- Settles O43: each request has its one answer, and each read and each instruction its own values. -/
theorem spdmSmbusAndTap : Obligations.SpdmSmbusAndTap := by
  unfold Obligations.SpdmSmbusAndTap
  refine ⟨fun s hup hpwr ha => ?_, fun s hpwr => ?_⟩
  · intro answers err starts d
    have hdoe : ∀ {i : Instr} {r : DoeReq} {good : List Byte → Prop}, exec i s = .next (s.doe r) →
        (∃ bytes, Answered s (s.doeAnswer r) bytes ∧ good bytes) → answers i good := by
      rintro i r good hi ⟨bytes, ⟨hout, hrest⟩, hgood⟩
      exact ⟨_, bytes, hi.trans (congrArg Host.Outcome.next (State.doe_awake hup hpwr ha r)), hout, hgood, hrest⟩
    have hsafe : ∀ {a b : State} {code data : Nat} {good : List Byte → Prop}, a = s.sendDoe (spdmError code data) →
        (∃ bytes, Answered s b bytes ∧ good bytes) →
        ∃ bytes, Answered s (if s.isSafe then a else b) bytes ∧ (if s.isSafe then err code data else good) bytes := by
      rintro a b code data good rfl hb
      exact Answered.ite (fun _ => ⟨_, State.sendDoe_same s _, spdmError_eq code data⟩) (fun _ => hb)
    have hplace : ∀ {c : Bool} {a : State} {good : List Byte → Prop}, (∃ bytes, Answered s a bytes ∧ good bytes) →
        ∃ bytes, Answered s (if c then a else s.sendDoe (spdmError errUnexpected 0)) bytes ∧ (if c then good else err 0x04 0) bytes :=
      fun h => Answered.ite (fun _ => h) (fun _ => ⟨_, State.sendDoe_same s _, spdmError_eq errUnexpected 0⟩)
    refine ⟨fun i => hdoe rfl (State.doeAnswer_discovery s i), ⟨_, rfl, ?_⟩, hdoe rfl (hplace ?_), fun p h => hdoe rfl (hplace ?_),
      hdoe rfl (hsafe rfl (hplace ?_)), fun slot o n => hdoe rfl (hsafe rfl (hplace (State.doeCertificate_answers s slot o n))),
      fun slot nonce => hdoe rfl (hsafe rfl (hplace (State.doeChallenge_answers s slot))),
      fun i sign nonce => hdoe rfl (hsafe rfl (hplace (State.doeMeasurements_answers s i sign))),
      fun c => hdoe rfl ⟨_, State.sendDoe_same s _, spdmError_eq _ _⟩, fun f hf => ?_, fun p x hx htrained => ?_⟩
    · rw [show doGetVersion s = s.doeVersion from State.doe_awake hup hpwr ha .version]
      exact ⟨rfl, _, rfl, rfl⟩
    · exact Answered.exists_sendDoe rfl rfl (spdmMsg_take _ _ _ _)
    · exact Answered.exists_sendDoe rfl rfl (spdmMsg_take _ _ _ _)
    · exact ⟨_, State.sendDoe_same s _, rfl⟩
    · exact congrArg Host.Outcome.next (by simp [doUnsupportedRequest, hf, ha, State.emit, State.modHost])
    · exact congrArg Host.Outcome.next (by
        simp [doUnsupportedRequest, hpwr, List.getD_eq_getElem?_getD, hx, htrained, State.emit, State.modHost])
  · have hans : ∀ {i : Instr} {a b : List Byte}, exec i s = .next (s.smbAnswer a) → a = b →
        exec i s = .next { s with pins := { s.pins with smbOut := b, smbSdaHeld := true } } := by
      rintro i a b hi rfl
      rw [hi, State.smbAnswer_powered hpwr]
    refine ⟨?_, ⟨_, hans rfl rfl, (foldl_max_spec _ 0).2.1, foldl_max_mem⟩, rfl, fun hp3 i => ?_, fun hp3 => ?_, fun hp3 => ?_,
      fun i hi hp3 => ⟨fun hoffer => ?_, fun hoffer => ?_⟩⟩
    · have hflags : flagsNat [s.isReady, s.isSafe, s.isFatal] = b2n s.isReady + 2 * b2n s.isSafe + 4 * b2n s.isFatal := by
        simp only [flagsNat, List.foldr]
        omega
      simp only [List.forall_mem_cons]
      exact ⟨hans rfl (by rw [hflags]; rfl), hans rfl rfl, hans rfl rfl, hans rfl (block_eq _ (by simp)), hans rfl (block_eq _ (by simp)),
        hans rfl rfl, by simp⟩
    · exact congrArg Host.Outcome.next (by simp [doTapInstruction, hp3])
    · exact congrArg Host.Outcome.next (by rw [doTapInstruction_eq hpwr hp3]; rfl)
    · exact congrArg Host.Outcome.next (by rw [doTapInstruction_eq hpwr hp3]; rfl)
    · refine ⟨Config.tapStatus s.freeCtr, congrArg Host.Outcome.next ?_⟩
      rw [doTapInstruction_eq hpwr hp3, if_pos hoffer]
      simp only [List.mem_cons, List.not_mem_nil, or_false] at hi
      rcases hi with rfl | rfl | rfl <;> rfl
    · refine congrArg Host.Outcome.next ?_
      rw [doTapInstruction_eq hpwr hp3, doTapInstruction_eq hpwr hp3, if_neg (by simp [hoffer])]
      rfl
end Sys2Proof.Machine
end

section
/-! Events of the far memory, and patrol scrub (10, R261, R265; 14, R386; 18, R446, R465). -/
namespace Sys2Proof.Machine
open Sys2Proof

/-! ## Retirement keeps the contents (R262, R453) -/

/-- The contents of the memory and the corrected errors of the stacks. -/
def State.heldView (s : State) : List (Nat × Byte) × List Nat := (s.mem.cells, s.mem.stackCe)

theorem State.heldView_remapGranule (s : State) (g : Nat) : (s.remapGranule g).heldView = s.heldView := by
  unfold State.remapGranule
  split <;> rfl

theorem State.heldView_fencePc (s : State) (g : Nat) : (s.fencePc g).heldView = s.heldView := by
  unfold State.fencePc
  extract_lets pc s1 s2 mine blocks s3 s4
  split
  · rfl
  have h3 : Keeps State.heldView s s3 := State.error_keeps (π := State.heldView) (s₀ := s) (s := s1) rfl ..
  clear_value s3
  have h4 : Keeps State.heldView s s4 := State.each_keeps h3 (fun s g h => (State.heldView_remapGranule s g).trans h) _
  clear_value s4
  split
  · exact State.fatal_keeps h4 ..
  · exact h4

theorem State.heldView_retireGranule (s : State) (g : Nat) : (s.retireGranule g).heldView = s.heldView := by
  unfold State.retireGranule
  extract_lets p k s1 s2 spare s3
  split
  · rfl
  split
  · exact State.heldView_fencePc s p
  have h2 : Keeps State.heldView s s2 := State.countHbm_keeps (State.error_keeps (π := State.heldView) (s₀ := s) (s := s1) rfl ..) ..
  clear_value s2
  have h3 : Keeps State.heldView s s3 := by
    simp only [s3]
    split
    · exact h2
    · exact (State.heldView_remapGranule s2 g).trans h2
  clear_value s3
  split
  · exact (State.heldView_fencePc s3 p).trans h3
  · exact h3

/-! ## A line of T1 with an error (R261, R446) -/

theorem State.hbmCorrected_spec (s : State) (line : Nat) :
    (s.hbmCorrected line).mem.cells = s.mem.cells ∧ (s.hbmCorrected line).mem.stackCe = s.mem.stackCe.modify (stackOf line) satInc ∧
      (s.hbmCorrected line).plumb = s.plumb := by
  unfold State.hbmCorrected
  extract_lets k g s1 s2
  have h2 : Keeps State.heldView s1 s2 := State.countHbm_keeps (State.error_keeps (.refl s1) ..) ..
  have hp2 : Keeps State.plumb s1 s2 := State.countHbm_keeps (State.error_keeps (.refl s1) ..) ..
  clear_value s2
  have hall : Keeps State.heldView s1 (if keyGet s2.mem.granCe g = 16 then s2.retireGranule g else s2) := by
    split
    · exact (State.heldView_retireGranule s2 g).trans h2
    · exact h2
  have hplumb : Keeps State.plumb s1 (if keyGet s2.mem.granCe g = 16 then s2.retireGranule g else s2) := by
    split
    · exact State.retireGranule_keeps hp2 ..
    · exact hp2
  obtain ⟨hcells, hce⟩ := Prod.mk.inj hall.eq
  exact ⟨hcells, hce, hplumb⟩

theorem State.hbmPoison_spec (s : State) (line : Nat) :
    (s.hbmPoison line).mem.cells = s.mem.cells ∧ (s.hbmPoison line).plumb = s.plumb ∧
      (s.inLocked line = true → line ∈ (s.hbmPoison line).mem.poison ∧
        ∀ i, s.objectAt line = some i → i < s.boot.weights.length → (s.hbmPoison line).boot.weights[i]? = some .failed) := by
  unfold State.hbmPoison
  extract_lets k s1 s2
  have hview : Keeps (fun t => (t.mem, t.plumb, t.cfg, t.boot)) s1 s2 := State.countHbm_keeps (State.error_keeps (.refl s1) ..) ..
  clear_value s2
  obtain ⟨hmem, hplumb, hcfg, hboot⟩ : s2.mem = s1.mem ∧ s2.plumb = s1.plumb ∧ s2.cfg = s1.cfg ∧ s2.boot = s1.boot := by
    simpa [Keeps] using hview
  have hcfg : s2.cfg = s.cfg := hcfg
  have hlocked : s2.inLocked line = s.inLocked line := by rw [State.inLocked, State.tenantBase, hcfg]; rfl
  have hobject : s2.objectAt line = s.objectAt line := by simp only [State.objectAt, hcfg]
  rw [hlocked, hobject]
  split
  next hl =>
    have hpoison : line ∈ s2.mem.poison := by
      rw [hmem]
      exact mem_insertNat_self _ line
    split
    next i hi =>
      refine ⟨congrArg (fun m => m.cells) hmem, hplumb, fun _ => ⟨hpoison, fun j hj hlen => ?_⟩⟩
      obtain rfl : i = j := Option.some.inj (hi.symm.trans hj)
      show (s2.boot.weights.set i .failed)[i]? = _
      rw [hboot]
      exact List.getElem?_set_self hlen
    next hi =>
      exact ⟨congrArg (fun m => m.cells) hmem, hplumb, fun _ => ⟨hpoison, fun j hj => by rw [hi] at hj; cases hj⟩⟩
  next hl =>
    refine ⟨?_, ?_, fun h => absurd h hl⟩
    · exact (congrArg Prod.fst (State.heldView_retireGranule s2 _)).trans (congrArg (fun m => m.cells) hmem)
    · exact (State.retireGranule_keeps (π := State.plumb) (.refl s2) ..).trans hplumb

/-! ## Events of the far memory's devices (R265, R386) -/

theorem State.error_corrected_recorded {s : State} {e : ErrSpec} (hc : e.cls = 0) (hlim : (s.err.triple e).written < 16) :
    ∃ r ∈ (s.error e).err.ring, r.cls = e.cls ∧ r.source = e.source ∧ r.inst = e.inst ∧ r.code = e.code := by
  have herr : (s.error e).err =
      (s.err.setTriple { s.err.triple e with written := (s.err.triple e).written + 1 }).push ((s.countDev 10 1).errRecord e false) := by
    unfold State.error
    extract_lets s1 x
    rw [if_pos hc, if_neg (by show ¬ 16 ≤ (s.err.triple e).written; omega)]
    rfl
  rw [herr]
  exact ⟨_, ErrLog.mem_ring_push _ _, rfl, rfl, rfl, rfl⟩

/-- The devices that are present and not lost. -/
def State.liveDevs (s : State) : List Nat := (List.range 4).filter fun d => ((s.cxl.devs[d]?).map fun x => !x.lost).getD false

/-- The record of a General Media event. -/
def State.mediaEvent (s : State) (e : CxlEvent) : State :=
  (s.countT2 e.dev.val 7 1).error { cls := 0, source := 0x0C, inst := e.dev.val, code := 0x0E22 }

theorem doCxlEventPoll_live {s : State} {at_ : Nat} (hrun : (s.advance at_).running = true) (events : List CxlEvent) :
    ∃ u : State, Keeps (fun t => (t.cxl, t.mem, t.err)) s u ∧ doCxlEventPoll at_ events s =
      u.each (events.filter fun e => e.generalMedia && s.liveDevs.contains e.dev.val) State.mediaEvent := by
  obtain ⟨d, f, hadv⟩ := State.advance_eq s at_
  have hcxl : (s.advance at_).cxl = s.cxl := by rw [hadv]
  have hkept : Keeps (fun t => (t.cxl, t.mem, t.err)) s (s.advance at_) := by rw [hadv]; rfl
  refine ⟨(s.advance at_).each s.liveDevs fun s d => s.countT2 d 14 1, State.each_keeps hkept (fun s d h => State.countT2_keeps h ..) _, ?_⟩
  unfold doCxlEventPoll
  dsimp only
  rw [if_neg (by simp [hrun]), hcxl]
  rfl

/-! ## Patrol scrub (R465) -/

/-- The scrub has moved on past a line. -/
def State.scrubbed (s : State) (line : Nat) : State :=
  let u := s.countHbm (stackOf line) 12 1
  (if line + 64 = t1Top then u.modPlumb fun p => { p with scrubPasses := p.scrubPasses + 1 } else u).modPlumb
    fun p => { p with scrubNext := line + 64 }

theorem State.scrubbed_keeps (s : State) (line : Nat) : Keeps (fun t => (t.mem, t.err, t.cfg, t.boot)) s (s.scrubbed line) := by
  unfold State.scrubbed
  dsimp only
  split <;> rfl

theorem State.scrubbed_plumb (s : State) (line : Nat) : (s.scrubbed line).plumb =
    { s.plumb with scrubNext := line + 64, scrubPasses := s.plumb.scrubPasses + (if line + 64 = t1Top then 1 else 0) } := by
  unfold State.scrubbed
  dsimp only
  split <;> rfl

theorem doPatrolScrub_line {s : State} {addr : Nat} (hrun : s.running = true) (hlow : t1Base ≤ addr / 64 * 64) (hhigh : addr / 64 * 64 < t1Top)
    (hpoison : addr / 64 * 64 ∉ s.mem.poison) (result : ScrubResult) :
    doPatrolScrub addr result s = match result with
      | .clean => s.scrubbed (addr / 64 * 64)
      | .corrected => (s.scrubbed (addr / 64 * 64)).hbmCorrected (addr / 64 * 64)
      | .uncorrectable => (s.scrubbed (addr / 64 * 64)).hbmPoison (addr / 64 * 64) := by
  have hmem : (s.scrubbed (addr / 64 * 64)).mem = s.mem := congrArg Prod.fst (s.scrubbed_keeps (addr / 64 * 64)).eq
  have hgo : (!s.running || addr / 64 * 64 < t1Base || t1Top ≤ addr / 64 * 64) = false := by
    simp only [hrun, Bool.not_true, Bool.false_or, Bool.or_eq_false_iff, decide_eq_false_iff_not]
    omega
  have heq : doPatrolScrub addr result s =
      if (s.scrubbed (addr / 64 * 64)).mem.poison.contains (addr / 64 * 64) then s.scrubbed (addr / 64 * 64) else
      match result with
      | .clean => s.scrubbed (addr / 64 * 64)
      | .corrected => (s.scrubbed (addr / 64 * 64)).hbmCorrected (addr / 64 * 64)
      | .uncorrectable => (s.scrubbed (addr / 64 * 64)).hbmPoison (addr / 64 * 64) := by
    unfold doPatrolScrub
    dsimp only
    rw [hgo]
    cases result <;> rfl
  rw [heq, hmem, if_neg (by simpa using hpoison)]

/-- Settles O45. -/
theorem farMemoryAndScrub : Obligations.FarMemoryAndScrub := by
  unfold Obligations.FarMemoryAndScrub
  intro s
  refine ⟨fun at_ events hrun => ⟨_, rfl, ?_⟩, fun d x hpwr hx hlost => ⟨_, rfl, ?_⟩, fun addr result => ?_⟩
  · obtain ⟨u, hu, heq⟩ := doCxlEventPoll_live hrun events
    obtain ⟨hcxl, hmem, herr⟩ : u.cxl = s.cxl ∧ u.mem = s.mem ∧ u.err = s.err := by simpa [Keeps] using hu
    have hkept : ∀ l : List CxlEvent, Keeps (fun t => (t.cxl, t.mem)) u (u.each l State.mediaEvent) :=
      State.each_keeps (.refl u) (fun s e h => State.error_keeps (State.countT2_keeps h ..) ..)
    rw [heq]
    obtain ⟨hcxl', hmem'⟩ := Prod.mk.inj (hkept _).eq
    refine ⟨hcxl'.trans hcxl, hmem'.trans hmem, fun hnone => ?_, fun e x hevents hgm hx hlost hlim => ?_⟩
    · rw [List.filter_eq_nil_iff.mpr fun e he => by simp [hnone e he]]
      exact herr
    · have hlive : (e.generalMedia && s.liveDevs.contains e.dev.val) = true := by simp [State.liveDevs, hgm, hx, hlost]
      rw [hevents, List.filter_cons_of_pos (p := fun e : CxlEvent => e.generalMedia && s.liveDevs.contains e.dev.val) hlive, List.filter_nil]
      refine State.error_corrected_recorded (s := u.countT2 e.dev.val 7 1)
        (e := { cls := 0, source := 0x0C, inst := e.dev.val, code := 0x0E22 }) rfl ?_
      show (u.err.triple _).written < 16
      rw [herr]
      exact hlim
  · have heq : doCxlDeviceLost d s = (s.modCxl fun c => { c with devs := c.devs.modify d.val fun (d : CxlDev) => { d with lost := true } }).error
        { cls := 2, source := 0x0C, inst := d.val, code := 0x0A24 } := by
      rw [doCxlDeviceLost, if_neg (by simp [hpwr, State.devLost, hx, hlost])]
    rw [heq]
    generalize hs1 : (s.modCxl fun c => { c with devs := c.devs.modify d.val fun (d : CxlDev) => { d with lost := true } }) = s1
    have hkept := State.error_keeps (π := fun t => (t.cxl, t.mem)) (.refl s1) (e := { cls := 2, source := 0x0C, inst := d.val, code := 0x0A24 }) ..
    obtain ⟨hcxl, hmem⟩ := Prod.mk.inj hkept.eq
    have hdevs : (s1.error { cls := 2, source := 0x0C, inst := d.val, code := 0x0A24 }).cxl.devs =
        s.cxl.devs.modify d.val fun (d : CxlDev) => { d with lost := true } := by
      rw [hcxl, ← hs1]
      rfl
    refine ⟨?_, fun j hj => ?_, State.error_recorded (by simp), by rw [hmem, ← hs1]; rfl⟩
    · rw [hdevs, List.getElem?_modify_eq, hx]
      rfl
    · rw [hdevs, List.getElem?_modify_ne _ _ (Ne.symm hj)]
  · intro line hrun hlow hhigh hpoison
    refine ⟨_, rfl, ?_⟩
    have heq := doPatrolScrub_line hrun hlow hhigh hpoison result
    have hkept := s.scrubbed_keeps line
    have hplumb := s.scrubbed_plumb line
    generalize s.scrubbed line = u at heq hkept hplumb
    obtain ⟨hmem, herr, hcfg, hboot⟩ : u.mem = s.mem ∧ u.err = s.err ∧ u.cfg = s.cfg ∧ u.boot = s.boot := by simpa [Keeps] using hkept
    rw [heq]
    cases result with
    | clean =>
      refine ⟨by rw [hplumb], by rw [hplumb], by rw [hmem], fun _ => ⟨hmem, herr⟩, ?_, ?_⟩ <;> rintro ⟨⟩
    | corrected =>
      obtain ⟨hcells, hce, hp⟩ := u.hbmCorrected_spec line
      refine ⟨by rw [hp, hplumb], by rw [hp, hplumb], by rw [hcells, hmem], ?_, fun _ => by rw [hce, hmem], ?_⟩ <;> rintro ⟨⟩
    | uncorrectable =>
      obtain ⟨hcells, hp, hlocked⟩ := u.hbmPoison_spec line
      have hin : u.inLocked line = s.inLocked line := by
        rw [State.inLocked, State.tenantBase, hcfg]
        rfl
      have hobject : u.objectAt line = s.objectAt line := by simp only [State.objectAt, hcfg]
      rw [hin, hobject, hboot] at hlocked
      refine ⟨by rw [hp, hplumb], by rw [hp, hplumb], by rw [hcells, hmem], ?_, ?_, fun _ => hlocked⟩ <;> rintro ⟨⟩
end Sys2Proof.Machine
end

section
/-! What further operations of the model leave as they were. -/
namespace Sys2Proof.Machine
open Sys2Proof

-- One proof at a time: many short proofs elaborated side by side would cost the check its memory.
set_option Elab.async false


section
variable {α : Type} {π : State → α} {s₀ s : State} (h : Keeps π s₀ s)
  (hClk : IgnoresClk π := by exact fun _ _ => rfl)
  (hClkT : Ignores π State.modClk := by exact fun _ _ => rfl)
  (hPins : Ignores π State.modPins := by exact fun _ _ => rfl)
  (hBoot : IgnoresBoot π := by exact fun _ _ => rfl)
  (hBootT : Ignores π State.modBoot := by exact fun _ _ => rfl)
  (hCfg : IgnoresCfg π := by exact fun _ _ => rfl)
  (hTun : Ignores π State.modTun := by exact fun _ _ => rfl)
  (hStew : IgnoresStew π := by exact fun _ _ => rfl)
  (hStewT : Ignores π State.modStew := by exact fun _ _ => rfl)
  (hReqs : IgnoresReqs π := by exact fun _ _ => rfl)
  (hRun : IgnoresRun π := by exact fun _ _ => rfl)
  (hTable : Ignores π State.modReqs := by exact fun _ _ => rfl)
  (hBayRest : IgnoresBayRest π := by exact fun _ _ _ => rfl)
  (hBayThr : IgnoresBayThr π := by exact fun _ _ _ => rfl)
  (hBays : IgnoresBays π := by exact fun _ _ => rfl)
  (hBaysT : ∀ s l, π { s with bays := l } = π s := by exact fun _ _ => rfl)
  (hBars : Ignores π State.modBars := by exact fun _ _ => rfl)
  (hMem : Ignores π State.modMem := by exact fun _ _ => rfl)
  (hQuota : Ignores π State.modQuota := by exact fun _ _ => rfl)
  (hStr : IgnoresStr π := by exact fun _ _ => rfl)
  (hStrT : Ignores π State.modStr := by exact fun _ _ => rfl)
  (hKv : Ignores π State.modKv := by exact fun _ _ => rfl)
  (hPorts : IgnoresPorts π := by exact fun _ _ => rfl)
  (hNet : IgnoresNet π := by exact fun _ _ => rfl)
  (hNetN : Ignores π State.modNet := by exact fun _ _ => rfl)
  (hHost : IgnoresHost π := by exact ⟨fun _ _ => rfl, fun _ _ _ _ _ => rfl⟩)
  (hHostT : Ignores π State.modHost := by exact fun _ _ => rfl)
  (hAud : Ignores π State.modAud := by exact fun _ _ => rfl)
  (hSent : Ignores π State.modSent := by exact fun _ _ => rfl)
  (hCnt : IgnoresCnt π := by exact fun _ _ => rfl)
  (hCntT : Ignores π State.modCnt := by exact fun _ _ => rfl)
  (hErr : IgnoresErr π := by exact fun _ _ => rfl)
  (hErrT : Ignores π State.modErr := by exact fun _ _ => rfl)
  (hPlumb : Ignores π State.modPlumb := by exact fun _ _ => rfl)
  (hCxl : Ignores π State.modCxl := by exact fun _ _ => rfl)
  (hHub : Ignores π State.modHub := by exact fun _ _ => rfl)
  (hPending : IgnoresPending π := by exact fun _ _ => rfl)
  (hFree : IgnoresFree π := by exact fun _ _ => rfl)
  (hDue : IgnoresDue π := by exact fun _ _ => rfl)

include h hHub in
theorem State.makeRoom_keeps (b : Fin 80) {u : State} (hu : s.makeRoom b = some u) : Keeps π s₀ u := by
  grind [State.makeRoom, State.askPark_keeps, Option.map_eq_some_iff]

include h hBayRest hMem hKv hCnt in
theorem State.bindAt_keeps (b : Fin 80) (task : Task) (r : KvRec) (row layer j : Nat) (named : Bool) (g : StageCfg) :
    Keeps π s₀ (s.bindAt b task r row layer j named g) := by
  grind [State.bindAt, State.memWrite_keeps, State.setLanding_keeps, State.modKvRec_keeps, State.modKv_keeps, Option.map_eq_some_iff]

include h hBayRest hMem hKv hCnt in
theorem State.bindRun_keeps (b : Fin 80) (task : Task) (r : KvRec) (layer first : Nat) (g : StageCfg) :
    Keeps π s₀ (s.bindRun b task r layer first g) := by
  grind [State.bindRun, State.each_keeps, State.bindAt_keeps, State.modKvRec_keeps, State.each_keeps]

include h hBayRest hKv in
theorem State.breakRun_keeps (w : KvWork) : Keeps π s₀ (s.breakRun w) := by
  grind [State.breakRun, State.setLanding_keeps, State.modKvRec_keeps, State.modKv_keeps, Option.map_eq_some_iff]

include h hTable hStr hHub in
theorem State.queueSwap_keeps (r : Req) (cls : Nat) (b : Fin 80) (slot node : Nat) : Keeps π s₀ (s.queueSwap r cls b slot node) := by
  grind [State.queueSwap, State.modStr_keeps, State.modReq_keeps, State.addJob_keeps]

include h hTable hStr hHub in
theorem State.startSwapThere_keeps (r : Req) (node : Nat) : Keeps π s₀ (s.startSwapThere r node) := by
  grind [State.startSwapThere, State.queueSwap_keeps]

include h hTable hMem hStr hCnt hHub in
theorem State.startSwap_keeps (r : Req) : Keeps π s₀ (s.startSwap r) := by
  grind [State.startSwap, State.swapOut_keeps, State.queueSwap_keeps]

include h hMem hCnt in
theorem State.writeLease_keeps (r : Req) : Keeps π s₀ (s.writeLease r) := by
  grind [State.writeLease, State.setEntry_keeps]

include h hPins hStew hReqs hTable hBayRest hMem hStr hPorts hNet hHost hCnt hErr hErrT hPlumb hHub hFree in
theorem State.fetchState_keeps (r : Req) : Keeps π s₀ (s.fetchState r) := by
  grind [State.fetchState, State.modReq_keeps, State.tryContext_keeps, State.startSwap_keeps, State.swapOut_keeps,
    State.startSwapThere_keeps]

include h hPins hStew hReqs hTable hBayRest hMem hStr hPorts hNet hHost hSent hCnt hErr hErrT hPlumb hHub hFree in
theorem State.fetchInput_keeps (r : Req) (p : Program) : Keeps π s₀ (s.fetchInput r p) := by
  grind [State.fetchInput, State.modReq_keeps, State.modNet_keeps, State.copyRing_keeps, State.addJob_keeps, State.tryContext_keeps]

include h hPins hStew hReqs hTable hBayRest hMem hStr hPorts hNet hHost hSent hCnt hErr hErrT hPlumb hHub hFree in
theorem State.replayStage_keeps (asn k : Nat) (deep : Bool) : Keeps π s₀ (s.replayStage asn k deep) := by
  unfold State.replayStage
  grind [State.each_keeps, State.modNet_keeps, State.deliverPush_keeps, State.sendPush_keeps, State.fetchInput_keeps, State.each_keeps]

include h hTable hMem hStr hCnt in
theorem State.voidLease_keeps (r : Req) : Keeps π s₀ (s.voidLease r) := by
  grind [State.voidLease, State.clearRes_keeps, State.freeLease_keeps, State.modReq_keeps]

include h hPins hStew hReqs hTable hBayRest hMem hStr hPorts hNet hHost hCnt hErr hErrT hPlumb hHub hFree in
theorem State.leaseAgain_keeps (r : Req) : Keeps π s₀ (s.leaseAgain r) := by
  grind [State.leaseAgain, State.writeLease_keeps, State.fetchState_keeps]

include h hPorts hNet in
theorem State.tellFormation_keeps (asn node : Nat) : Keeps π s₀ (s.tellFormation asn node) := by
  grind [State.tellFormation, State.each_keeps, State.sendMsgTo_keeps, State.each_keeps]

include h hPins hStew hReqs hTable hBayRest hMem hStr hPorts hNet hHost hSent hCnt hErr hErrT hPlumb hHub hFree in
theorem State.replayGranted_keeps (asn node : Nat) : Keeps π s₀ (s.replayGranted asn node) := by
  unfold State.replayGranted
  split
  · exact h
  split
  · exact h
  extract_lets cell mine s1 waits ks deep s2
  have h1 : Keeps π s₀ s1 := by grind [State.leaseAgain_keeps]
  have h2 : Keeps π s₀ s2 := by grind [State.tellFormation_keeps, State.modReq_keeps]
  clear_value s2
  grind [State.each_keeps, State.replayStage_keeps]

include h hPins hStew hReqs hTable hBayRest hMem hQuota hStr hPorts hNet hHost hSent hCnt hErr hErrT hPlumb hHub hFree in
theorem State.askReplay_keeps (asn node : Nat) : Keeps π s₀ (s.askReplay asn node) := by
  unfold State.askReplay
  dsimp only
  repeat' split
  all_goals grind [State.grantToken_keeps, State.failReq_keeps, State.modReq_keeps, State.replayGranted_keeps, State.sendMsgTo_keeps,
    Option.map_eq_some_iff]

include h hPins hStew hReqs hTable hBayRest hMem hQuota hStr hPorts hNet hHost hSent hCnt hErr hErrT hPlumb hHub hFree in
theorem State.rePlace_keeps (asn : Nat) (good : Nat → Bool) : Keeps π s₀ (s.rePlace asn good) := by
  unfold State.rePlace
  split
  · exact h
  split
  · extract_lets old ks
    split
    · exact h
    split
    · grind [State.failReqAt_keeps]
    split
    · grind [State.failReq_keeps]
    extract_lets gone s1 s2 s3 s4 s5 asks
    have h1 : Keeps π s₀ s1 := by grind [State.each_keeps, State.sendMsgTo_keeps]
    have h2 : Keeps π s₀ s2 := by grind [State.voidLease_keeps]
    have h4 : Keeps π s₀ s4 := by grind [State.modReq_keeps, State.modHub_keeps]
    have h5 : Keeps π s₀ s5 := by grind [State.modReqs_keeps]
    clear_value s5
    grind [State.each_keeps, State.askReplay_keeps]
  · exact h

include h hStew hReqs hRun hBayRest hBayThr hBays hBars hMem hQuota hKv hPorts hNet hCnt in
theorem State.replayLocal_keeps (home asn k : Nat) : Keeps π s₀ (s.replayLocal home asn k) := by
  grind [State.replayLocal, State.each_keeps, State.abandonWu_keeps, State.freeKv_keeps, State.modReqs_keeps, State.modReqs_keeps_run,
    State.each_keeps]

include h hStew hReqs hRun hTable hBayRest hBayThr hBays hBars hMem hQuota hStr hKv hPorts hNet hHost hCnt hErr hHub hFree in
theorem State.endNoSlots_keeps (b : Fin 80) (home asn : Nat) : Keeps π s₀ (s.endNoSlots b home asn) := by
  grind [State.endNoSlots, State.failReqAt_keeps, State.error_keeps, State.dropHome_keeps, State.sendMsgTo_keeps]

include h hStew hReqs hRun hTable hBayRest hBayThr hBays hBars hMem hQuota hStr hKv hPorts hNet hHost hCnt hErr hHub hFree in
theorem State.moveSlots_keeps (b : Fin 80) (x : Nat × Nat × Nat × Nat) : Keeps π s₀ (s.moveSlots b x) := by
  unfold State.moveSlots
  split
  next home asn cls n =>
  split
  · grind [State.endNoSlots_keeps]
  next u hu =>
    have hslots : Keeps π s₀ u := by grind [State.reserveSlots_keeps]
    extract_lets s1 swap s2
    have h1 : Keeps π s₀ s1 := by grind [State.modReq_keeps]
    have h2 : Keeps π s₀ s2 := by
      simp only [s2]
      split
      · grind [State.startSwap_keeps, State.modHub_keeps, State.modStr_keeps]
      · exact h1
    clear_value s2
    grind [State.replayLocal_keeps]

include h hStew hReqs hRun hTable hBayRest hBayThr hBays hBars hMem hQuota hStr hKv hPorts hNet hCnt hHub in
theorem State.rereadStream_keeps (b : Fin 80) (r : Req) : Keeps π s₀ (s.rereadStream b r) := by
  unfold State.rereadStream
  split
  · extract_lets s1
    have h1 : Keeps π s₀ s1 := by grind [State.startSwap_keeps, State.modReq_keeps]
    clear_value s1
    grind [State.replayLocal_keeps]
  · exact h

include h hPins hStew hReqs hTable hBayRest hMem hQuota hStr hPorts hNet hHost hSent hCnt hErr hErrT hPlumb hHub hFree in
theorem State.capsAfterFence_keeps (before : List Nat) : Keeps π s₀ (s.capsAfterFence before) := by
  unfold State.capsAfterFence
  grind [State.floodCaps_keeps, State.each_keeps, State.rePlace_keeps, State.each_keeps]

include h hStew hRun hBayRest hBayThr hBays hBars hMem hQuota hKv hPorts hNet hCnt in
theorem State.abandonHit_keeps (b : Fin 80) : Keeps π s₀ (s.abandonHit b) := by
  grind [State.abandonHit, State.abandonWu_keeps, State.countProg_keeps]

include h hBayRest hMem hStr hKv hCnt in
theorem State.dropBay_keeps (b : Fin 80) : Keeps π s₀ (s.dropBay b) := by
  grind [State.dropBay, State.each_keeps, State.rollback_keeps, State.clearRes_keeps, State.modStr_keeps, State.each_keeps]

include h hStew hReqs hRun hTable hBayRest hBayThr hBays hBars hMem hQuota hStr hKv hPorts hNet hHost hCnt hErr hHub hFree in
theorem State.moveAll_keeps (b : Fin 80) (lost : List (Nat × Nat × Nat × Nat)) (readers : List Req) (held : List KvRec) :
    Keeps π s₀ (s.moveAll b lost readers held) := by
  grind [State.moveAll, State.each_keeps, State.moveSlots_keeps, State.rereadStream_keeps, State.replayLocal_keeps, State.each_keeps]

include h hPorts hHost hCnt hErr in
theorem State.scanSpares_keeps : Keeps π s₀ s.scanSpares := by
  grind [State.scanSpares, State.each_keeps, State.error_keeps, State.modPort_keeps, State.each_keeps]

include h hBayRest hPorts hHost hCnt hErr hPlumb in
theorem State.endRun_keeps : Keeps π s₀ s.endRun := by
  grind [State.endRun, State.scanSpares_keeps, State.modPlumb_keeps, State.startRun_keeps]

include h hPins hStew hBayRest hMem hPorts hHost hCnt hErr hErrT hFree in
theorem State.fenceEngine_keeps (e : Nat) : Keeps π s₀ (s.fenceEngine e) := by
  grind [State.fenceEngine, State.error_keeps, State.modMem_keeps, State.fatal_keeps]

include h hPins hStew hBayRest hMem hPorts hHost hCnt hErr hErrT hFree in
theorem State.checkEngines_keeps (r : Nat) (fails : BitVec 32) : Keeps π s₀ (s.checkEngines r fails) := by
  grind [State.checkEngines, State.each_keeps, State.fenceEngine_keeps, State.each_keeps]

end
end Sys2Proof.Machine
end

section
/-! The plumb test: runs, rounds, segments and steps (18, R459 to R463). -/
namespace Sys2Proof.Machine
open Sys2Proof

/-! ## A tile's record -/

theorem State.plumbTile_modPlumbTile {s : State} (h : s.plumb.tiles.length = 4) (k : Fin 4) (f : PlumbTile → PlumbTile) :
    (s.modPlumbTile k f).plumbTile k = f (s.plumbTile k) := by
  unfold State.plumbTile
  exact getD_modify_same _ _ _ _ (by show k.val < s.plumb.tiles.length; omega)

/-- A bay and a tile's record changed together. -/
theorem State.plumbTile_modBay {s : State} (h : s.plumb.tiles.length = 4) (b : Fin 80) (g : Bay → Bay) (k : Fin 4) (f : PlumbTile → PlumbTile) :
    ((s.modBay b g).modPlumbTile k f).plumbTile k = f (s.plumbTile k) := State.plumbTile_modPlumbTile (s := s.modBay b g) h k f

theorem State.bay_modPlumbTile (s : State) (k : Fin 4) (f : PlumbTile → PlumbTile) (b : Fin 80) : (s.modPlumbTile k f).bay b = s.bay b := rfl

/-! ## A run starts (R460) -/

theorem State.holdRound_run (s : State) (t : Fin 4) (r : Nat) :
    ((s.holdRound t r).plumb.running, (s.holdRound t r).plumb.run, (s.holdRound t r).plumb.lastStart) =
      (s.plumb.running, s.plumb.run, s.plumb.lastStart) := by
  unfold State.holdRound
  split <;> rfl

theorem State.startRun_spec (s : State) :
    s.startRun.plumb.running = true ∧ s.startRun.plumb.run = s.plumb.run + 1 ∧ s.startRun.plumb.lastStart = s.clk.devTime := by
  unfold State.startRun
  extract_lets s1
  have h : Keeps (fun s => (s.plumb.running, s.plumb.run, s.plumb.lastStart)) s1 (s1.each allTiles fun s t => s.holdRound t 0) :=
    State.each_keeps (.refl s1) (fun s t h => (State.holdRound_run s t 0).trans h) _
  generalize (s1.each allTiles fun s t => s.holdRound t 0) = s2 at h
  obtain ⟨hrunning, hrest⟩ := Prod.mk.inj h.eq
  obtain ⟨hrun, hlast⟩ := Prod.mk.inj hrest
  exact ⟨hrunning, hrun, hlast⟩

theorem doPlumbRunStart_ready {s : State} {at_ : Nat} (hrun : (s.advance at_).running = true) (hfatal : s.isFatal = false) :
    doPlumbRunStart .ready at_ s = (s.advance at_).triggerRun ∧ (s.advance at_).plumb = s.plumb := by
  obtain ⟨d, f, hadv⟩ := State.advance_eq s at_
  have hf : (s.advance at_).isFatal = false := by rw [hadv]; exact hfatal
  refine ⟨?_, by rw [hadv]⟩
  unfold doPlumbRunStart
  dsimp only
  rw [hrun, hf]
  rfl

/-! ## A step ends (R463) -/

theorem State.stepEnd_passed {s : State} (h : s.plumb.tiles.length = 4) {k : Fin 4} (hstep : (s.plumbTile k).step < 4) (b : Fin 80) (g : Nat) :
    (s.stepEnd k b true g).plumbTile k = { s.plumbTile k with step := (s.plumbTile k).step + 1, segment := 0, retry := false } := by
  have hplumb : (if (s.plumbTile k).retry then s.error { cls := 0, source := 0x20, inst := b.val, code := 0x1215 } else s).plumb = s.plumb := by
    split
    · exact State.error_keeps (π := State.plumb) (.refl s) ..
    · rfl
  unfold State.stepEnd
  dsimp only
  rw [if_pos rfl, if_neg (by omega)]
  generalize (if (s.plumbTile k).retry then s.error { cls := 0, source := 0x20, inst := b.val, code := 0x1215 } else s) = s1 at hplumb
  have htile : s1.plumbTile k = s.plumbTile k := by rw [State.plumbTile, hplumb]; rfl
  rw [State.plumbTile_modPlumbTile (by rw [hplumb]; exact h), htile]

theorem State.stepEnd_failed_once {s : State} {k : Fin 4} (hretry : (s.plumbTile k).retry = false) (b : Fin 80) (g : Nat) :
    s.stepEnd k b false g = s.modPlumbTile k fun x => { x with retry := true, segment := 0 } := by
  unfold State.stepEnd
  dsimp only
  rw [if_neg (by decide), if_pos (by simp [hretry])]

/-! ## A fence (R448) -/

theorem State.fenced_modBay (s : State) (b c : Fin 80) {f : Bay → Bay} (hf : ∀ y, (f y).fenced = y.fenced) :
    ((s.modBay b f).bay c).fenced = (s.bay c).fenced := State.bay_modBay_kept (fun y => y.fenced) hf s b c

theorem State.fenceEffects_fenced {s : State} (h : Safety.shaped s) (b : Fin 80) : ((s.fenceEffects b).bay b).fenced = true := by
  unfold State.fenceEffects
  extract_lets before s1 held readers lost s2 s3
  have hlen : ((s.abandonHit b).faultRamp b).bays.length = 80 :=
    ((State.faultRamp_sound (State.abandonHit_sound (Ctx.sound_ofState s) b) b).shaped h).1
  have h1 : (s1.bay b).fenced = true := by
    simp only [s1]
    rw [State.bay_modBay_same _ _ _ hlen]
  clear_value s1
  have hfence := fences_ignored b
  have hthr := fences_ignored_thr b
  have hrest := fences_ignored_rest b
  have h2 : Keeps (fun s => (s.bay b).fenced) s1 s2 := by
    refine (State.fenced_modBay _ b b ?_).trans (State.moveAll_keeps (State.dropBay_keeps (.refl s1) (hBayRest := hrest) ..)
      (hBays := hfence) (hBayThr := hthr) (hBayRest := hrest) ..)
    exact fun _ => rfl
  clear_value s2
  have h3 : Keeps (fun s => (s.bay b).fenced) s1 s3 := State.capsAfterFence_keeps h2 (hBayRest := hrest) ..
  clear_value s3
  split
  · exact (State.fatal_keeps h3 (hBayRest := hrest) ..).eq.trans h1
  · exact h3.eq.trans h1

theorem State.fenceBay_fenced {s : State} (h : Safety.shaped s) {b : Fin 80} (hb : (s.bay b).fenced = false) (code : Nat) (info : List Byte) :
    ((s.fenceBay b code info).bay b).fenced = true := by
  have hnot : s.bayFenced b = false := hb
  have heq : s.fenceBay b code info =
      (s.error { cls := 2, source := 0x20, inst := b.val, code := code, fence := true, info := info }).fenceEffects b := by
    exact if_neg (by rw [hnot]; decide)
  have hshape := (State.error_sound (Ctx.sound_ofState s)
    { cls := 2, source := 0x20, inst := b.val, code := code, fence := true, info := info }).shaped h
  rw [heq]
  generalize s.error _ = s1 at hshape
  exact State.fenceEffects_fenced hshape b

theorem State.fenced_endRound (s : State) (t : Fin 4) (c : Fin 80) : ((s.endRound t).bay c).fenced = (s.bay c).fenced := by
  have hrest := fences_ignored_rest c
  unfold State.endRound
  extract_lets x s1
  have h1 : Keeps (fun s => (s.bay c).fenced) s s1 := by
    simp only [s1]
    split
    · refine State.fenced_modBay s _ c ?_
      exact fun _ => rfl
    · rfl
  clear_value s1
  exact State.endRun_keeps (State.holdRound_keeps h1 (hBayRest := hrest) ..) (hBayRest := hrest) ..

theorem State.stepEnd_fences {s : State} (h : Safety.shaped s) {k : Fin 4} (hretry : (s.plumbTile k).retry = true) {b : Fin 80}
    (hb : (s.bay b).fenced = false) (g : Nat) : ((s.stepEnd k b false g).bay b).fenced = true := by
  unfold State.stepEnd
  dsimp only
  rw [if_neg (by decide), if_neg (by simp [hretry]), State.fenced_endRound]
  exact State.fenceBay_fenced h hb _ _

/-- A step that ends in a tile other than TILE[0], whose rounds check no hub engine. -/
theorem doPlumbStepDone_eq {s : State} {k : Fin 4} (hrun : s.running = true) (hplumb : s.plumb.running = true) {b : Fin 80}
    (hb : (s.plumbTile k).bay = some b) (hwait : (s.plumbTile k).waitingBay = false) (hstep : (s.plumbTile k).step ≠ 0) (hk : k ≠ 0)
    (passed : Bool) (g : BitVec 16) (fails : BitVec 32) : doPlumbStepDone k passed g fails s = s.stepEnd k b passed g.toNat := by
  unfold doPlumbStepDone
  dsimp only
  rw [hb]
  dsimp only
  rw [if_neg (by simp [hrun, hplumb, hwait, hstep]), if_neg (by simp [hk])]

/-- Settles O46, command by command. -/
theorem plumbSteps : Obligations.PlumbSteps := by
  unfold Obligations.PlumbSteps
  intro s k hs x
  obtain ⟨hbays, -, -, -, -, -, htiles, -⟩ := id hs
  refine ⟨fun at_ hrun hfatal => ⟨_, rfl, ?_⟩, fun hrun hplumb b hb => ⟨fun hwait htask => ⟨_, rfl, ?_⟩, fun hwait hstep => ?_⟩⟩
  · obtain ⟨heq, hplumb⟩ := doPlumbRunStart_ready hrun hfatal
    rw [heq, State.triggerRun, hplumb]
    refine ⟨fun hidle => ?_, fun hbusy => ?_⟩
    · rw [if_neg (by simp [hidle])]
      obtain ⟨hrunning, hnext, hlast⟩ := State.startRun_spec (s.advance at_)
      exact ⟨hrunning, by rw [hnext, hplumb], hlast⟩
    · rw [if_pos hbusy]
      show { (s.advance at_).plumb with queued := true } = _
      rw [hplumb]
  · have heq : doPlumbRoundStart k s = (s.modBay b fun y => { y with plumbHeld := true }).modPlumbTile k fun x =>
        { x with step := max 1 x.step, segment := 0, waitingBay := false } := by
      unfold doPlumbRoundStart
      dsimp only
      rw [show (s.plumbTile k).bay = some b from hb]
      dsimp only
      rw [if_pos]
      simp only [hrun, hplumb, htask, Bool.and_eq_true]
      exact ⟨⟨⟨trivial, trivial⟩, hwait⟩, rfl⟩
    have hheld : ((s.modBay b fun y => { y with plumbHeld := true }).bay b).plumbHeld = true := by rw [State.bay_modBay_same _ _ _ hbays]
    have htile := State.plumbTile_modBay htiles b (fun y => { y with plumbHeld := true }) k fun x =>
      { x with step := max 1 x.step, segment := 0, waitingBay := false }
    rw [heq]
    refine ⟨hheld, by rw [htile], by rw [htile], ?_⟩
    simp only [State.bayFree, State.bay_modPlumbTile, hheld, Bool.not_true, Bool.and_false, Bool.false_and]
  · have hgo : (!(s.running && s.plumb.running) || (s.plumbTile k).waitingBay || (s.plumbTile k).step = 0) = false := by
      simp only [hrun, hplumb, Bool.and_self, Bool.not_true, Bool.false_or, Bool.or_eq_false_iff, decide_eq_false_iff_not]
      exact ⟨hwait, hstep⟩
    have hsegment : ∀ starved, doPlumbSegmentEnd k starved s = if starved && !(s.plumbTile k).yielded then
        (s.modBay b fun y => { y with plumbHeld := false }).modPlumbTile k fun x => { x with waitingBay := true, yielded := true, segment := 0 }
        else s.modPlumbTile k fun x => { x with segment := x.segment + 1 } := by
      intro starved
      unfold doPlumbSegmentEnd
      dsimp only
      rw [show (s.plumbTile k).bay = some b from hb]
      dsimp only
      rw [hgo]
      rfl
    refine ⟨fun hyield => ⟨_, rfl, ?_⟩, ⟨_, rfl, ?_⟩, fun g hlt hk => ⟨_, rfl, ?_⟩, fun g hretry hk => ⟨_, rfl, ?_⟩,
      fun g hretry hk hfence => ⟨_, rfl, ?_⟩⟩
    · have hheld : ((s.modBay b fun y => { y with plumbHeld := false }).bay b).plumbHeld = false := by rw [State.bay_modBay_same _ _ _ hbays]
      rw [hsegment, if_pos (by simp only [Bool.true_and, Bool.not_eq_true']; exact hyield)]
      have htile := State.plumbTile_modBay htiles b (fun y => { y with plumbHeld := false }) k fun x =>
        { x with waitingBay := true, yielded := true, segment := 0 }
      exact ⟨hheld, by rw [htile], by rw [htile], by rw [htile]⟩
    · rw [hsegment, if_neg (by simp)]
      exact ⟨rfl, State.plumbTile_modPlumbTile htiles k _⟩
    · rw [doPlumbStepDone_eq hrun hplumb hb hwait hstep hk]
      exact State.stepEnd_passed htiles hlt b _
    · rw [doPlumbStepDone_eq hrun hplumb hb hwait hstep hk, State.stepEnd_failed_once hretry]
      exact ⟨State.plumbTile_modPlumbTile htiles k _, rfl⟩
    · rw [doPlumbStepDone_eq hrun hplumb hb hwait hstep hk]
      exact State.stepEnd_fences hs hretry hfence _
end Sys2Proof.Machine
end

section
/-! The acoustic sentinel: frames, wake, freeze, window, mute and self-check (16, R408, R415, R421, R422, R427 to R429). -/
namespace Sys2Proof.Machine
open Sys2Proof

/-! ## Event records (R420) -/

theorem getLast?_keepLast_concat {α : Type} {n : Nat} (hn : 0 < n) (l : List α) (x : α) : (keepLast n (l ++ [x])).getLast? = some x := by
  rw [keepLast, List.drop_append_of_le_length (by simp; omega), List.getLast?_concat]

/-- The state without its event records, their count, and the counters' values. -/
def State.unrecorded (s : State) : State :=
  { s with sent := { s.sent with eventSeq := 0, events := [] }, cnt := { s.cnt with values := [] } }

theorem State.eq_of_unrecorded {s t : State} (h : t.unrecorded = s.unrecorded) :
    t = { s with sent := { s.sent with eventSeq := t.sent.eventSeq, events := t.sent.events },
                 cnt := { s.cnt with values := t.cnt.values } } :=
  congrArg (fun u : State => { u with sent := { u.sent with eventSeq := t.sent.eventSeq, events := t.sent.events },
                                      cnt := { u.cnt with values := t.cnt.values } }) h

theorem State.unrecorded_foldl (s : State) (ds : List Detection) (shut : Bool) :
    (ds.foldl (fun s (e : Detection) => s.sentRecord e.kind e.tone e.beams false shut e.margin) s).unrecorded = s.unrecorded := by
  induction ds generalizing s with
  | nil => rfl
  | cons d ds ih => exact ih _

/-! ## A wake (R421) -/

theorem State.pulseWake_eq (s : State) (cfg : SentCfg) : s.pulseWake cfg =
    { s with pins := { s.pins with wakeOutN := false },
             sent := { s.sent with wakePulseUntil := some (s.clk.devTime + 1000000 * cfg.wakePulseMs) } } := rfl

/-- A wake from the sentinel changes the clocks' wake causes, a supply pin, the freeze to come and what the host is told. -/
theorem State.latchWake_pins (s : State) (bit : Nat) :
    ∃ c e, s.latchWake bit = { s with clk := { s.clk with wakeCause := c, wakeLatched := (s.latchWake bit).clk.wakeLatched },
                                      pins := { s.pins with swRailEn := e } } := by
  unfold State.latchWake
  dsimp only
  split
  · split
    · exact ⟨_, _, rfl⟩
    · exact ⟨_, s.pins.swRailEn, rfl⟩
  · exact ⟨s.clk.wakeCause, s.pins.swRailEn, rfl⟩

theorem State.wakeVector_eq (s : State) : s.wakeVector = { s with host := s.wakeVector.host, cnt := s.wakeVector.cnt } := by
  unfold State.wakeVector
  split
  · exact State.raise_host s 0 6
  · rfl

/-- What a wake does: the pulse, the wake source, and the freeze to come. -/
theorem State.sentWake_spec (s : State) (cfg : SentCfg) :
    (s.sentWake cfg).pins.wakeOutN = false ∧
      (s.sentWake cfg).sent = { s.sent with wakePulseUntil := some (s.clk.devTime + 1000000 * cfg.wakePulseMs),
                                            wakeTime := if s.sent.freezeAtFrame.isSome then s.sent.wakeTime else s.clk.devTime,
                                            freezeAtFrame := s.sent.freezeAtFrame.or (some (s.sent.frameNo + framesOf cfg.postMs)) } ∧
      (s.sentWake cfg).clk.wakeCause.getLsbD 0 = true ∧
      ((s.sentWake cfg).mem, (s.sentWake cfg).req, (s.sentWake cfg).err) = (s.mem, s.req, s.err) := by
  obtain ⟨c, e, hlatch⟩ := (s.pulseWake cfg).latchWake_pins 0
  unfold State.sentWake
  extract_lets s1 s2 s3
  have h1 : s1 = _ := hlatch
  clear_value s1
  rw [State.wakeVector_eq s3]
  subst h1
  refine ⟨rfl, rfl, ?_, rfl⟩
  show (c ||| 1#5).getLsbD 0 = true
  simp

/-! ## The report of a frame (R419, R421) -/

/-- What the report of a frame's detections leaves as it was, and what it does where it reports any. -/
structure Reported (s t : State) (cfg : SentCfg) : Prop where
  frame : t.sent.frameNo = s.sent.frameNo ∧ t.sent.warmupLeft = s.sent.warmupLeft ∧ t.sent.ring = s.sent.ring
  rest : (t.mem, t.req, t.err) = (s.mem, s.req, s.err)
  wake : s.sent.eventSeq < t.sent.eventSeq → t.pins.wakeOutN = false ∧
    t.sent.wakePulseUntil = some (s.clk.devTime + 1000000 * cfg.wakePulseMs) ∧
    (s.sent.frozen = false → s.sent.windowEnd = none → t.sent.freezeAtFrame.isSome = true ∧ t.clk.wakeCause.getLsbD 0 = true)

theorem State.report_spec (s : State) (cfg : SentCfg) (ds : List Detection) : Reported s (s.report cfg ds) cfg := by
  unfold State.report
  split
  · exact ⟨⟨rfl, rfl, rfl⟩, rfl, fun h => absurd h (Nat.lt_irrefl _)⟩
  next d rest =>
    extract_lets shut s1 s2 s3
    have h3 : s3 = _ := State.eq_of_unrecorded (s := s) (State.unrecorded_foldl s1 rest shut)
    clear_value s3
    split
    next hshut =>
      rw [State.pulseWake_eq, h3]
      refine ⟨⟨rfl, rfl, rfl⟩, rfl, fun _ => ⟨rfl, rfl, fun hf hw => ?_⟩⟩
      simp [shut, hf, hw] at hshut
    next hshut =>
      obtain ⟨hpin, hsent, hcause, hrest⟩ := s3.sentWake_spec cfg
      generalize s3.sentWake cfg = t at hpin hsent hcause hrest
      rw [h3] at hsent hrest
      refine ⟨⟨by rw [hsent], by rw [hsent], by rw [hsent]⟩, hrest, fun _ => ⟨hpin, by rw [hsent], fun _ _ => ⟨?_, hcause⟩⟩⟩
      rw [hsent]
      cases s.sent.freezeAtFrame <;> rfl

/-! ## The end of a frame (R415, R422) -/

/-- What the sample chain and the detectors leave as it was. -/
def Sent.kept (x : Sent) : (Nat × Nat × List (List Int)) × (Nat × List SentEvent) × Bool × Option Nat × Option Nat :=
  ((x.frameNo, x.warmupLeft, x.ring), (x.eventSeq, x.events), x.frozen, x.windowEnd, x.freezeAtFrame)

theorem State.chain_eq (s : State) (cfg : SentCfg) (pdm : List Byte) :
    ∃ y wide det, y.kept = s.sent.kept ∧ s.chain cfg pdm = ({ s with sent := y }, wide, det) :=
  ⟨(s.chain cfg pdm).1.sent, (s.chain cfg pdm).2.1, (s.chain cfg pdm).2.2, rfl, rfl⟩

theorem State.glassFrame_eq (s : State) (cfg : SentCfg) (n : Nat) (flex shatter : List Int) :
    ∃ y d, y.kept = s.sent.kept ∧ s.glassFrame cfg n flex shatter = ({ s with sent := y }, d) :=
  ⟨(s.glassFrame cfg n flex shatter).1.sent, (s.glassFrame cfg n flex shatter).2, rfl, rfl⟩

theorem State.toneFrame_eq (s : State) (cfg : SentCfg) (energy : List (List Int)) :
    ∃ y ds, y.kept = s.sent.kept ∧ s.toneFrame cfg energy = ({ s with sent := y }, ds) :=
  ⟨(s.toneFrame cfg energy).1.sent, (s.toneFrame cfg energy).2, rfl, rfl⟩

/-- A frame is counted and recorded, and what it detects is reported after the warm-up. -/
theorem State.frameEnd_eq (s : State) (cfg : SentCfg) (pdm : List Byte) :
    ∃ (y : Sent) (sets : List (List Int)) (ds : List Detection), sets.length = 128 ∧ (∀ l ∈ sets, l.length = 4) ∧
      y.frameNo = s.sent.frameNo + 1 ∧ y.warmupLeft = s.sent.warmupLeft - 1 ∧
      y.ring = (if s.sent.records then keepLast 62500 (s.sent.ring ++ sets) else s.sent.ring) ∧
      (y.eventSeq, y.events, y.frozen, y.windowEnd) = (s.sent.eventSeq, s.sent.events, s.sent.frozen, s.sent.windowEnd) ∧
      s.frameEnd cfg pdm = if 0 < s.sent.warmupLeft then { s with sent := y } else ({ s with sent := y } : State).report cfg ds := by
  obtain ⟨y1, wide, det, hy1, hchain⟩ := s.chain_eq cfg pdm
  unfold State.frameEnd
  rw [hchain]
  dsimp -zeta only
  extract_lets n sets s2 flex shatter tone quiet s5
  have hsets : sets.length = 128 ∧ ∀ l ∈ sets, l.length = 4 := by
    refine ⟨(List.length_map ..).trans List.length_range, fun l hl => ?_⟩
    obtain ⟨i, -, rfl⟩ := List.mem_map.mp hl
    exact (List.length_map ..).trans List.length_range
  clear_value sets
  have hs2 : ∃ y2 : Sent, s2 = { s with sent := y2 } ∧
      y2.kept = { y1 with ring := if y1.records then keepLast 62500 (y1.ring ++ sets) else y1.ring }.kept := ⟨_, rfl, rfl⟩
  clear_value s2 flex shatter tone
  obtain ⟨y2, rfl, hy2⟩ := hs2
  obtain ⟨y3, glass, hy3, hglass⟩ := State.glassFrame_eq { s with sent := y2 } cfg n flex shatter
  obtain ⟨y4, tones, hy4, htone⟩ := State.toneFrame_eq { s with sent := y3 } cfg tone
  have hkept : y4.kept = { s.sent with ring := if s.sent.records then keepLast 62500 (s.sent.ring ++ sets) else s.sent.ring }.kept := by
    rw [hy4, hy3, hy2]
    simp only [Sent.kept, Prod.mk.injEq] at hy1
    obtain ⟨⟨h1, h2, h3⟩, ⟨h4, h5⟩, h6, h7, h8⟩ := hy1
    have hrec : y1.records = s.sent.records := by
      unfold Sent.records
      rw [h1, h6, h8]
    simp only [Sent.kept, hrec, h1, h2, h3, h4, h5, h6, h7, h8]
  simp only [Sent.kept, Prod.mk.injEq] at hkept
  obtain ⟨⟨h1, h2, h3⟩, ⟨h4, h5⟩, h6, h7, -⟩ := hkept
  have hs5 : ∃ floors, s5 = { s with sent := { y4 with frameNo := n + 1, warmupLeft := y4.warmupLeft - 1, floors := floors } } := by
    simp only [s5, hglass, htone]
    exact ⟨_, rfl⟩
  have hquiet : quiet = decide (0 < s.sent.warmupLeft) := by simp only [quiet, hglass, htone, h2]
  clear_value s5 quiet
  obtain ⟨floors, rfl⟩ := hs5
  refine ⟨{ y4 with frameNo := n + 1, warmupLeft := y4.warmupLeft - 1, floors := floors }, sets, glass.toList ++ tones, hsets.1, hsets.2, rfl,
    by rw [h2], h3, by rw [h4, h5, h6, h7], ?_⟩
  rw [hquiet, hglass, htone]
  by_cases h : 0 < s.sent.warmupLeft
  · rw [if_pos h, if_pos (decide_eq_true h)]
  · rw [if_neg h, if_neg (by simpa using h)]

theorem Sent.records_iff (x : Sent) : x.records = true ↔ x.frozen = false ∧ ∀ n, x.freezeAtFrame = some n → x.frameNo < n := by
  unfold Sent.records
  cases x.freezeAtFrame <;> simp

/-- The end of a frame of a sentinel that runs. -/
theorem State.frameEnd_spec {s : State} (cfg : SentCfg) (pdm : List Byte) :
    let t := s.frameEnd cfg pdm
    t.sent.frameNo = s.sent.frameNo + 1 ∧ t.sent.warmupLeft = s.sent.warmupLeft - 1 ∧
      (∃ sets : List (List Int), sets.length = 128 ∧ (∀ l ∈ sets, l.length = 4) ∧
        t.sent.ring = if s.sent.frozen = false ∧ (∀ n, s.sent.freezeAtFrame = some n → s.sent.frameNo < n)
          then keepLast 62500 (s.sent.ring ++ sets) else s.sent.ring) ∧
      (0 < s.sent.warmupLeft → t = { s with sent := t.sent } ∧ t.sent.events = s.sent.events ∧ t.sent.eventSeq = s.sent.eventSeq) ∧
      (s.sent.eventSeq < t.sent.eventSeq → t.pins.wakeOutN = false ∧
        t.sent.wakePulseUntil = some (s.clk.devTime + 1000000 * cfg.wakePulseMs) ∧
        (s.sent.frozen = false → s.sent.windowEnd = none → t.sent.freezeAtFrame.isSome = true ∧ t.clk.wakeCause.getLsbD 0 = true)) ∧
      (t.mem, t.req, t.err) = (s.mem, s.req, s.err) := by
  obtain ⟨y, sets, ds, hlen, hall, hno, hleft, hring, hsame, heq⟩ := s.frameEnd_eq cfg pdm
  simp only [Prod.mk.injEq] at hsame
  obtain ⟨hseq, hevents, hfrozen, hwindow⟩ := hsame
  have hring' : y.ring = if s.sent.frozen = false ∧ (∀ n, s.sent.freezeAtFrame = some n → s.sent.frameNo < n)
      then keepLast 62500 (s.sent.ring ++ sets) else s.sent.ring := by simp only [hring, Sent.records_iff]
  intro t
  have ht : t = _ := heq
  clear_value t
  by_cases hwarm : 0 < s.sent.warmupLeft
  · rw [if_pos hwarm] at ht
    subst ht
    exact ⟨hno, hleft, ⟨sets, hlen, hall, hring'⟩, fun _ => ⟨rfl, hevents, hseq⟩,
      fun h => absurd (Nat.lt_of_lt_of_eq h hseq) (Nat.lt_irrefl _), rfl⟩
  · rw [if_neg hwarm] at ht
    obtain ⟨⟨hno', hleft', hring''⟩, hrest, hwake⟩ := State.report_spec { s with sent := y } cfg ds
    rw [← ht] at hno' hleft' hring'' hrest hwake
    refine ⟨hno'.trans hno, hleft'.trans hleft, ⟨sets, hlen, hall, hring''.trans hring'⟩, fun h => absurd h hwarm, fun h => ?_, hrest⟩
    obtain ⟨hpin, hpulse, hfreeze⟩ := hwake (Nat.lt_of_le_of_lt (Nat.le_of_eq hseq) h)
    exact ⟨hpin, hpulse, fun hf hw => hfreeze (hfrozen.trans hf) (hwindow.trans hw)⟩

/-! ## Timers: the wake pulse, the freeze, the window (R421, R422) -/

theorem State.due_some {s : State} {t : Option Nat} {w : Nat} (h : t = some w) : s.due t = decide (w ≤ s.clk.devTime) := by
  rw [h]
  rfl

theorem doWakePulseEnd_eq {s : State} {w : Nat} (h : s.sent.wakePulseUntil = some w) (at_ : Nat) :
    let u := s.advance at_
    doWakePulseEnd at_ s = if w ≤ u.clk.devTime then
      { u with pins := { s.pins with wakeOutN := true }, sent := { s.sent with wakePulseUntil := none } } else u := by
  obtain ⟨d, f, hadv⟩ := State.advance_eq s at_
  unfold doWakePulseEnd
  rw [hadv]
  dsimp only
  rw [State.due_some h]
  simp only [decide_eq_true_eq]
  rfl

theorem doWakeWindowClose_eq {s : State} {w : Nat} (h : s.sent.windowEnd = some w) (at_ : Nat) :
    let u := s.advance at_
    doWakeWindowClose at_ s = if w ≤ u.clk.devTime then
      { u with sent := { s.sent with ring := [], frozen := false, windowEnd := none } } else u := by
  obtain ⟨d, f, hadv⟩ := State.advance_eq s at_
  unfold doWakeWindowClose
  rw [hadv]
  dsimp only
  rw [State.due_some h]
  simp only [decide_eq_true_eq]
  rfl

theorem State.tryWake_idle {s : State} (h : s.canFetch = false) : s.tryWake = s := by
  unfold State.tryWake
  rw [if_neg (by simp [h])]

/-- The freeze falls due: the ring is locked and the window opens. -/
theorem doPrerollFreeze_eq {s : State} {cfg : SentCfg} {n : Nat} (hcfg : s.sentCfg = some cfg) (hn : s.sent.freezeAtFrame = some n)
    (hle : n ≤ s.sent.frameNo) (hclk : s.pins.pdmClk = true) (at_ : Nat) :
    doPrerollFreeze at_ s = (s.advance at_).freeze cfg := by
  obtain ⟨d, f, hadv⟩ := State.advance_eq s at_
  have hcfg' : (s.advance at_).sentCfg = some cfg := by rw [hadv]; exact hcfg
  have hn' : (s.advance at_).sent.freezeAtFrame = some n := by rw [hadv]; exact hn
  unfold doPrerollFreeze
  dsimp only
  rw [hcfg', hn']
  dsimp only
  rw [if_pos]
  rw [hadv]
  simp only [hclk, Bool.and_true]
  exact decide_eq_true hle

/-- The sentinel at the freeze: locked, with the end of its window. -/
def State.opened (s : State) (cfg : SentCfg) : Sent :=
  { s.sent with frozen := true, freezeAtFrame := none, windowEnd := some (s.clk.devTime + 1000000000 * cfg.unlockS) }

theorem State.freeze_silent (s : State) {cfg : SentCfg} (h : cfg.wakeReq = false) : s.freeze cfg = { s with sent := s.opened cfg } := by
  unfold State.freeze
  rw [if_neg (by simp [h])]
  rfl

theorem State.freeze_wake {s : State} {cfg : SentCfg} (h : cfg.wakeReq = true) (hf : s.canFetch = false) :
    s.freeze cfg = { s with sent := s.opened cfg, req := { s.req with wakePending := true } } := by
  unfold State.freeze
  exact (if_pos h).trans (State.tryWake_idle hf)

theorem State.canFetch_advance (s : State) (at_ : Nat) : (s.advance at_).canFetch = s.canFetch := by
  obtain ⟨d, f, hadv⟩ := State.advance_eq s at_
  rw [hadv]
  rfl

/-! ## Mute and unmute (R427, R428) -/

/-- Mute with no request admitted: the clock stops, the ring is emptied, and the wake that was under way finds nothing to fetch. -/
theorem State.each_muteReq_idle {l : List Req} (h : ∀ r ∈ l, r.admitted = false) (s : State) : s.each l State.muteReq = s := by
  induction l with
  | nil => rfl
  | cons r l ih =>
    have hr : s.muteReq r = s := by
      unfold State.muteReq
      rw [if_neg (by simp [h r (.head _)])]
    show (s.muteReq r).each l State.muteReq = s
    rw [hr]
    exact ih fun q hq => h q (.tail _ hq)

theorem doMute_held {s : State} (hpwr : s.clk.pwrOk = true) (hheld : s.clk.heldInReset = true) (hsw : s.pins.muteSwN = true) :
    doMute s = { s with pins := { s.pins with muteSwN := false, pdmClk := false, micPwrEn := false, muteLed := true } } := by
  unfold doMute
  rw [if_neg (by simp [hpwr, hsw])]
  exact if_pos hheld

theorem doMute_running {s : State} (hpwr : s.clk.pwrOk = true) (hheld : s.clk.heldInReset = false) (hsw : s.pins.muteSwN = true)
    (hfreeze : s.sent.freezeAtFrame = none) (hidle : ∀ r ∈ s.req.table, r.admitted = false) :
    doMute s = { s with pins := { s.pins with muteSwN := false, pdmClk := false, micPwrEn := false, muteLed := true },
                        sent := { s.sent.close.stopClock with muted := true, erasing := true } } := by
  unfold doMute
  rw [if_neg (by simp [hpwr, hsw])]
  extract_lets underWay s1 s2 s3
  have hunder : underWay = false := by simp only [underWay, hfreeze, Option.isSome_none, Bool.false_and]
  rw [if_neg (by simpa [s1, State.modPins] using hheld), if_neg (by simp [hunder])]
  exact State.each_muteReq_idle hidle s2

/-- The record of a mute event is the last of the event list, with the next number. -/
theorem State.sentRecord_spec (s : State) (kind : Nat) :
    let t := s.sentRecord kind 0 0 false false 0
    t.sent.eventSeq = s.sent.eventSeq + 1 ∧
      ∃ e, t.sent.events.getLast? = some e ∧ e.kind = kind ∧ e.seq = s.sent.eventSeq + 1 ∧ e.time = s.clk.devTime :=
  ⟨rfl, _, getLast?_keepLast_concat (by decide) _ _, rfl, rfl, rfl⟩

theorem doUnmute_eq {s : State} (hpwr : s.clk.pwrOk = true)
    (hsw : s.pins.muteSwN = false ∨ s.sent.muted = true ∧ s.sent.unmuteAt = none) (at_ : Nat) :
    let u := s.advance at_
    doUnmute at_ s = if s.clk.heldInReset then { u with pins := { s.pins with muteSwN := true, muteLed := false } }
      else { u with pins := { s.pins with muteSwN := true, micPwrEn := s.sentCfg.isSome },
                    sent := { s.sent with unmuteAt := some (u.clk.devTime + 50000000) } } := by
  obtain ⟨d, f, hadv⟩ := State.advance_eq s at_
  unfold doUnmute
  rw [hadv]
  dsimp only
  rw [if_neg]
  · rfl
  · rcases hsw with hsw | ⟨hmuted, hat⟩
    · simp [hpwr, hsw]
    · simp [hpwr, hmuted, hat]

theorem doPdmClkStart_early {s : State} {w at_ : Nat} (hat : s.sent.unmuteAt = some w) (h : (s.advance at_).clk.devTime < w) :
    doPdmClkStart at_ s = s.advance at_ := by
  obtain ⟨d, f, hadv⟩ := State.advance_eq s at_
  unfold doPdmClkStart
  dsimp only
  rw [State.due_some (show (s.advance at_).sent.unmuteAt = some w by rw [hadv]; exact hat), decide_eq_false (by omega), if_pos]
  simp

/-- PDM_CLK starts: the sentinel as the start of its clock leaves it, no longer muted. -/
def Sent.started (x : Sent) (cfg : Option SentCfg) : Sent := { ((cfg.elim x x.startClock) : Sent) with muted := false, unmuteAt := none }

theorem Sent.started_spec (x : Sent) (cfg : Option SentCfg) :
    (x.started cfg).events = x.events ∧ (x.started cfg).eventSeq = x.eventSeq ∧
      (cfg.isSome = true → (x.started cfg).warmupLeft = 128 ∧ (x.started cfg).frameNo = 0) := by
  cases cfg with
  | none => exact ⟨rfl, rfl, fun h => nomatch h⟩
  | some cfg => exact ⟨rfl, rfl, fun _ => ⟨rfl, rfl⟩⟩

theorem doPdmClkStart_due {s : State} {w at_ : Nat} (hsw : s.pins.muteSwN = true) (hat : s.sent.unmuteAt = some w)
    (h : w ≤ (s.advance at_).clk.devTime) :
    ∃ v : State, v = { s.advance at_ with pins := { s.pins with muteLed := false, pdmClk := s.sentCfg.isSome },
                                          sent := s.sent.started s.sentCfg } ∧
      doPdmClkStart at_ s = if s.sent.muted then v.sentRecord 4 0 0 false false 0 else v := by
  obtain ⟨d, f, hadv⟩ := State.advance_eq s at_
  refine ⟨_, rfl, ?_⟩
  unfold doPdmClkStart
  rw [hadv] at h ⊢
  dsimp only
  rw [State.due_some hat, decide_eq_true h, if_neg (by simp [hsw])]
  rfl

/-! ## The self-check (R429) -/

/-- Bit `c` of a mask of the channels, put to `on`. -/
theorem getLsbD_putBit (v : BitVec 8) (on : Bool) (i : Nat) :
    (if on then v ||| (1#8 <<< 0) else v &&& ~~~ (1#8 <<< 0)).getLsbD i = if i = 0 then on else v.getLsbD i := by
  have hbit : (1#8 <<< 0).getLsbD i = decide (i = 0) := by
    simp
  cases on with
  | true =>
    rw [if_pos rfl, BitVec.getLsbD_or, hbit]
    by_cases hi : i = 0
    · simp [hi]
    · simp [hi]
  | false =>
    rw [if_neg Bool.false_ne_true, BitVec.getLsbD_and, BitVec.getLsbD_not, hbit]
    by_cases hi : i = 0
    · simp [hi]
    · by_cases h8 : i < 8
      · simp [hi, h8]
      · simp [hi, BitVec.getLsbD_of_ge v i (by omega)]

/-- The self-check of channel 0. -/
theorem State.checkChan_spec (s : State) (cfg : SentCfg) (m : ChanMeasure) :
    let t := s.checkChan cfg 0 m
    t.sent.chanStuck.getLsbD 0 = decide (-100 < m.meanCdb) ∧
      t.sent.chanDead.getLsbD 0 = (decide (m.meanCdb ≤ -100) && decide (m.powerCdb < cfg.deadCdb)) ∧
      (∀ c, 0 < c → t.sent.chanStuck.getLsbD c = s.sent.chanStuck.getLsbD c ∧ t.sent.chanDead.getLsbD c = s.sent.chanDead.getLsbD c) ∧
      (s.sent.chanDead.getLsbD 0 = false → s.sent.chanStuck.getLsbD 0 = false → -100 < m.meanCdb →
        ∃ e ∈ t.err.ring, e.cls = 2 ∧ e.source = 0x58 ∧ e.inst = 0 ∧ e.code = 0x1010) ∧ t.mem = s.mem := by
  intro t
  have ht : s.checkChan cfg 0 m = t := rfl
  clear_value t
  unfold State.checkChan at ht
  extract_lets stuck dead was put s1 at ht
  have hkept : t.sent = s1.sent ∧ t.mem = s1.mem := by
    rw [← ht]
    split
    · exact ⟨(State.error_keeps (.refl s1) ..).eq, (State.error_keeps (.refl s1) ..).eq⟩
    split
    · exact ⟨(State.error_keeps (.refl s1) ..).eq, (State.error_keeps (.refl s1) ..).eq⟩
    · exact ⟨rfl, rfl⟩
  obtain ⟨hsent, hmem⟩ := hkept
  have hstuck (i : Nat) : t.sent.chanStuck.getLsbD i = if i = 0 then stuck else s.sent.chanStuck.getLsbD i := by
    rw [hsent]
    exact getLsbD_putBit ..
  have hdead (i : Nat) : t.sent.chanDead.getLsbD i = if i = 0 then dead else s.sent.chanDead.getLsbD i := by
    rw [hsent]
    exact getLsbD_putBit ..
  refine ⟨(hstuck 0).trans (if_pos rfl), (hdead 0).trans ((if_pos rfl).trans ?_), fun c hc => ⟨?_, ?_⟩, fun hd hs hm => ?_, hmem⟩
  · show (!decide (-100 < m.meanCdb) && decide (m.powerCdb < cfg.deadCdb)) = _
    rw [← decide_not, decide_eq_decide.mpr Int.not_lt]
  · rw [hstuck, if_neg (by omega)]
  · rw [hdead, if_neg (by omega)]
  · rw [← ht, if_pos]
    · exact State.error_recorded (e := { cls := 2, source := 0x58, inst := 0, code := 0x1010 }) (by decide)
    · have hon : stuck = true := decide_eq_true hm
      simp only [was, hon, hd, hs, Bool.true_or, Bool.or_self, Bool.not_false, Bool.and_self]

/-! ## The statement -/

/-- Settles O57, event by event. -/
theorem sentinelEvents : Obligations.SentinelEvents := by
  unfold Obligations.SentinelEvents
  intro s at_
  obtain ⟨d, f, hadv⟩ := State.advance_eq s at_
  intro u now x
  have hcfgs : (s.advance at_).sentCfg = s.sentCfg := by rw [hadv]; rfl
  have hpins : (s.advance at_).pins = s.pins := by rw [hadv]
  have hsents : (s.advance at_).sent = s.sent := by rw [hadv]
  refine ⟨fun pdm hoff => congrArg Host.Outcome.next ?_, fun cfg pdm hcfg hclk => ⟨_, rfl, ?_⟩, fun w hw => congrArg Host.Outcome.next (doWakePulseEnd_eq hw at_),
    fun cfg n hcfg hn hle hclk => ⟨fun hreq => ?_, fun hreq hfetch => ?_⟩,
    fun w hw => congrArg Host.Outcome.next (doWakeWindowClose_eq hw at_), fun hpwr hheld hsw hfreeze hidle => ⟨_, rfl, ?_⟩,
    fun hpwr hheld hsw => congrArg Host.Outcome.next (doMute_held hpwr hheld hsw), fun herase => ⟨_, rfl, ?_⟩,
    fun hpwr hsw => congrArg Host.Outcome.next (doUnmute_eq hpwr hsw at_), fun w hat hlt => congrArg Host.Outcome.next (doPdmClkStart_early hat hlt),
    fun w hsw hat hle => ?_, fun cfg m hcfg hclk hfit => ⟨_, rfl, ?_⟩⟩
  · unfold doSentinelFrameEnd
    dsimp only
    rw [hcfgs, hpins]
    cases hcfg : s.sentCfg with
    | none => rfl
    | some cfg => exact if_neg (by simpa [hcfg] using hoff)
  · have heq : doSentinelFrameEnd at_ pdm s = (s.advance at_).frameEnd cfg pdm := by
      unfold doSentinelFrameEnd
      dsimp only
      rw [hcfgs, hcfg, hpins]
      exact if_pos hclk
    obtain ⟨hno, hleft, hring, hwarm, hwake, hrest⟩ := State.frameEnd_spec (s := s.advance at_) cfg pdm
    rw [← heq] at hno hleft hring hwarm hwake hrest
    rw [hsents] at hno hleft hring hwarm hwake
    simp only [Prod.mk.injEq] at hrest
    obtain ⟨hmem, hreq, herr⟩ := hrest
    exact ⟨hno, hleft, hring, hwarm, hwake, hmem.trans (by rw [hadv]), hreq.trans (by rw [hadv]), herr.trans (by rw [hadv])⟩
  · refine congrArg Host.Outcome.next ((doPrerollFreeze_eq hcfg hn hle hclk at_).trans ?_)
    rw [State.freeze_silent _ hreq, State.opened, hsents]
  · refine congrArg Host.Outcome.next ((doPrerollFreeze_eq hcfg hn hle hclk at_).trans ?_)
    rw [State.freeze_wake hreq ((State.canFetch_advance s at_).trans hfetch), State.opened, hsents,
      show (s.advance at_).req = s.req by rw [hadv]]
  · have heq := doMute_running hpwr hheld hsw hfreeze hidle
    rw [heq]
    exact ⟨rfl, rfl, rfl, rfl, rfl, rfl, rfl⟩
  · have heq : doMuteEraseDone s = (s.modSent fun x => { x with erasing := false }).sentRecord 3 0 0 false false 0 := if_pos herase
    rw [heq]
    exact ⟨rfl, rfl, State.sentRecord_spec (s.modSent fun x => { x with erasing := false }) 3⟩
  · obtain ⟨v, hv, heq⟩ := doPdmClkStart_due hsw hat hle
    obtain ⟨hevents, hseq, hstart⟩ := s.sent.started_spec s.sentCfg
    refine ⟨_, congrArg Host.Outcome.next heq, ?_⟩
    by_cases hm : s.sent.muted = true
    · obtain ⟨hnext, e, hlast, hkind, -⟩ := v.sentRecord_spec 4
      rw [if_pos hm]
      subst hv
      exact ⟨rfl, rfl, rfl, hstart, fun _ => ⟨hnext.trans (by rw [hseq]), e, hlast, hkind⟩, fun h => absurd (hm.symm.trans h) (by decide)⟩
    · rw [if_neg hm]
      subst hv
      exact ⟨rfl, rfl, rfl, hstart, fun h => absurd h hm, fun _ => hevents⟩
  · have heq : doMicSelfCheck at_ [m] s = (s.advance at_).checkChan cfg 0 m := by
      unfold doMicSelfCheck
      dsimp only
      rw [hcfgs, hcfg, hpins]
      dsimp only
      rw [if_neg (by simp [hclk])]
      exact if_pos hfit
    obtain ⟨hstuck, hdead, hother, herr, hmem⟩ := (s.advance at_).checkChan_spec cfg m
    rw [hsents] at hother herr
    rw [heq]
    exact ⟨hstuck, hdead, hother, herr, hmem.trans (by rw [hadv])⟩
end Sys2Proof.Machine
end

section
/-! Ports of the fabric: what a change of one port does, and what the network layer may change of a port (its queues of messages). -/
namespace Sys2Proof.Machine
open Sys2Proof

/-! ## One port -/

theorem State.port_modPort_kept {α : Type} (π : Port → α) {f : Port → Port} (hf : ∀ p, π (f p) = π p) (s : State) (n q : Fin 12) :
    π ((s.modPort n f).port q) = π (s.port q) := by
  simp only [State.port, State.modPort, List.getD_eq_getElem?_getD, List.getElem?_modify]
  split
  · cases s.truss[q.val]? with
    | none => rfl
    | some p => exact hf p
  · cases s.truss[q.val]? <;> rfl

theorem State.truss_modPort_length (s : State) (n : Fin 12) (f : Port → Port) : (s.modPort n f).truss.length = s.truss.length :=
  List.length_modify ..

theorem Frame.port_refl (s : State) (n : Fin 12) : Frame.port s s n := ⟨rfl, fun _ _ => rfl⟩

theorem Frame.port_modPort {s t : State} {n : Fin 12} (h : Frame.port s t n) (f : Port → Port) : Frame.port s (t.modPort n f) n := by
  obtain ⟨heq, hother⟩ := h
  refine ⟨?_, fun q hq => (State.port_modPort_other t n q f (Ne.symm hq)).trans (hother q hq)⟩
  conv => lhs; rw [heq]
  rfl

theorem State.port_countPort (s : State) (n : Fin 12) (e k : Nat) (q : Fin 12) : (s.countPort n e k).port q = s.port q := rfl

theorem Frame.port_countPort {s t : State} {n : Fin 12} (h : Frame.port s t n) (m : Fin 12) (e k : Nat) :
    Frame.port s (t.countPort m e k) n := by
  obtain ⟨heq, hother⟩ := h
  refine ⟨?_, hother⟩
  conv => lhs; rw [heq]
  rfl

/-! ## The network layer changes a port's queues alone -/

/-- A port without its queues of messages. -/
def Port.unqueued (p : Port) : Port := { p with vcq := [], inFlight := [] }

/-- The number of ports, and a port without its queues of messages. -/
def State.unqueued (n : Fin 12) (s : State) : Nat × Port := (s.truss.length, (s.port n).unqueued)

theorem Port.of_unqueued {p q : Port} (h : p.unqueued = q.unqueued) : p.out = q.out ∧ p.state = q.state := by
  have hout := congrArg Port.out h
  have hstate := congrArg Port.state h
  exact ⟨hout, hstate⟩

theorem State.port_of_unqueued {n : Fin 12} {s₀ s : State} (h : Keeps (State.unqueued n) s₀ s) :
    (s.port n).unqueued = (s₀.port n).unqueued := congrArg Prod.snd h

section
variable {n : Fin 12} {s₀ s : State} (h : Keeps (State.unqueued n) s₀ s)
include h

theorem State.modPort_unqueued (m : Fin 12) {f : Port → Port} (hf : ∀ p, (f p).unqueued = p.unqueued) :
    Keeps (State.unqueued n) s₀ (s.modPort m f) :=
 by
  have hlen := State.truss_modPort_length s m f
  have hport := State.port_modPort_kept Port.unqueued hf s m n
  exact Eq.trans (show (_, _) = (_, _) by rw [hlen, hport]) h

theorem State.modNet_unqueued (f : Net → Net) : Keeps (State.unqueued n) s₀ (s.modNet f) := h

theorem State.putMsg_unqueued (port : Fin 12) (vc : Nat) (bytes : List Byte) : Keeps (State.unqueued n) s₀ (s.putMsg port vc bytes) := by
  unfold State.putMsg
  dsimp only
  split
  · exact State.modPort_unqueued h port fun _ => rfl
  · exact h

theorem State.flood_unqueued (skip : Option Nat) (bytes : List Byte) : Keeps (State.unqueued n) s₀ (s.flood skip bytes) := by
  grind [State.flood, State.putMsg_unqueued, State.foldl_keeps]

theorem State.originate_unqueued : Keeps (State.unqueued n) s₀ s.originate := by
  unfold State.originate
  split
  · exact h
  · exact State.flood_unqueued (State.modNet_unqueued h _) ..

theorem State.raiseEpoch_unqueued : Keeps (State.unqueued n) s₀ s.raiseEpoch := by
  unfold State.raiseEpoch
  exact State.flood_unqueued (State.modNet_unqueued h _) ..

theorem State.checkMembers_unqueued : Keeps (State.unqueued n) s₀ s.checkMembers := by
  grind [State.checkMembers, State.raiseEpoch_unqueued]

theorem State.floodCaps_unqueued : Keeps (State.unqueued n) s₀ s.floodCaps := by
  unfold State.floodCaps
  split
  · exact h
  · exact State.flood_unqueued (State.modNet_unqueued h _) ..

theorem State.isolate_unqueued : Keeps (State.unqueued n) s₀ s.isolate := by
  unfold State.isolate
  exact State.checkMembers_unqueued (State.modNet_unqueued (State.error_keeps h ..) _)

theorem State.takeId_unqueued (id : Nat) : Keeps (State.unqueued n) s₀ (s.takeId id) := by
  unfold State.takeId
  exact State.checkMembers_unqueued (State.floodCaps_unqueued (State.originate_unqueued (State.modNet_unqueued h _)))

theorem State.assignId_unqueued (excluded : List Nat) : Keeps (State.unqueued n) s₀ (s.assignId excluded) := by
  grind [State.assignId, State.noteAwaited, State.modNet_unqueued, State.takeId_unqueued, State.isolate_unqueued]

theorem State.adjDown_unqueued (port : Fin 12) : Keeps (State.unqueued n) s₀ (s.adjDown port) := by
  unfold State.adjDown
  split
  · exact h
  · exact State.checkMembers_unqueued (State.assignId_unqueued (State.originate_unqueued (State.modNet_unqueued h _)) [])

theorem State.reroute_unqueued (skip : Fin 12) (vc : Nat) (bytes : List Byte) : Keeps (State.unqueued n) s₀ (s.reroute skip vc bytes) := by
  grind [State.reroute, State.putMsg_unqueued]

theorem State.returnMsgs_unqueued (port : Fin 12) : Keeps (State.unqueued n) s₀ (s.returnMsgs port) := by
  unfold State.returnMsgs
  refine State.each_keeps (State.modPort_unqueued h port ?_) (fun s x h => State.reroute_unqueued h ..) _
  exact fun _ => rfl

theorem State.linkDown_unqueued (port : Fin 12) : Keeps (State.unqueued n) s₀ (s.linkDown port) :=
  State.returnMsgs_unqueued (State.adjDown_unqueued h port) port
end
end Sys2Proof.Machine
end

section
/-! A port's sender: flit slots, NAK repeats, replays, resets and drains (12, R296 to R300, R314 to R317). -/
namespace Sys2Proof.Machine
open Sys2Proof

/-! ## One flit goes out -/

/-- The header of a flit that is sent: the header fields, cut to their widths. -/
def FlitHead.cut (h : FlitHead) : FlitHead :=
  { seq := h.seq % 4096, ack := h.ack % 4096, type := h.type, vc := h.vc % 4, crVc := h.crVc % 4, crCum := h.crCum % 4096,
    valid16 := h.valid16 % 16, eom := h.eom }

theorem flitBytes_cut (h : FlitHead) (payload : List Byte) : flitBytes h.cut payload = flitBytes h payload := by
  have hword : h.cut.word = h.word := by simp only [FlitHead.word, FlitHead.cut, Nat.mod_mod]
  rw [flitBytes, hword, flitBytes]

theorem flitBytes_sent {h : FlitHead} (htype : h.type ≤ 4) (payload : List Byte) :
    Flit.head (flitBytes h payload) = h.cut ∧ Flit.good (flitBytes h payload) = true := by
  have hhead : Flit.head (flitBytes h.cut payload) = h.cut :=
    flitBytes_head payload (Nat.mod_lt _ (by decide)) (Nat.mod_lt _ (by decide)) htype (Nat.mod_lt _ (by decide))
      (Nat.mod_lt _ (by decide)) (Nat.mod_lt _ (by decide)) (Nat.le_of_lt_succ (Nat.mod_lt _ (by decide)))
  rw [← flitBytes_cut]
  exact ⟨hhead, flitBytes_good _ hhead htype⟩

/-- The line coder changes what is on the wire, and its own state. -/
theorem Port.feed_eq (p : Port) (f : Flit) :
    ∃ bits words prbs wire, p.feed f = { p with txBits := bits, txWords := words, txPrbs := prbs, wire := wire } := by
  unfold Port.feed
  dsimp only
  split
  · exact ⟨_, p.txWords, p.txPrbs, p.wire, rfl⟩
  · exact ⟨_, _, _, _, rfl⟩

/-- What a port has sent: its flits, the next SEQ and the replay buffer. -/
def Port.sent (p : Port) : List Flit × Nat × List SentFlit := (p.out, p.txSeq, p.replayBuf)

theorem Port.emit_eq (p : Port) (type seq vc valid16 : Nat) (eom : Bool) (payload : List Byte) :
    ∃ b : Flit, b = flitBytes { seq := seq, ack := (p.rxSeq + 4095) % 4096, type := type, vc := vc, crVc := p.crVc,
                                crCum := p.vcFreed.getD p.crVc 0 % 4096, valid16 := valid16, eom := eom } payload ∧
      p.emit type seq vc valid16 eom payload = (Port.feed { p with out := p.out ++ [b], crVc := (p.crVc + 1) % 4 } b, b) :=
  ⟨_, rfl, rfl⟩

/-- What goes out is a good flit with the header fields that were asked for. -/
theorem Port.emit_spec (p : Port) {type : Nat} (htype : type ≤ 4) (seq vc valid16 : Nat) (eom : Bool) (payload : List Byte) :
    ∃ q b, p.emit type seq vc valid16 eom payload = (q, b) ∧ q.sent = (p.out ++ [b], p.txSeq, p.replayBuf) ∧
      Flit.good b = true ∧ b.head.type = type ∧ b.head.seq = seq % 4096 ∧ b.head.vc = vc % 4 := by
  obtain ⟨b, hb, hemit⟩ := p.emit_eq type seq vc valid16 eom payload
  obtain ⟨hhead, hgood⟩ := flitBytes_sent
    (h := { seq := seq, ack := (p.rxSeq + 4095) % 4096, type := type, vc := vc, crVc := p.crVc,
            crCum := p.vcFreed.getD p.crVc 0 % 4096, valid16 := valid16, eom := eom }) htype payload
  rw [← hb] at hhead hgood
  obtain ⟨bits, words, prbs, wire, hfeed⟩ := Port.feed_eq { p with out := p.out ++ [b], crVc := (p.crVc + 1) % 4 } b
  refine ⟨_, b, hemit, ?_, hgood, congrArg FlitHead.type hhead, congrArg FlitHead.seq hhead, congrArg FlitHead.vc hhead⟩
  rw [hfeed]
  rfl

/-- One flit more is in `out`. -/
def Port.OneMore (p q : Port) : Prop := ∃ b, q.out = p.out ++ [b]

theorem Port.OneMore.length {p q : Port} (h : p.OneMore q) : q.out.length = p.out.length + 1 := by
  obtain ⟨b, hb⟩ := h
  rw [hb, List.length_append, List.length_singleton]

theorem Port.emit_out (p : Port) (type seq vc valid16 : Nat) (eom : Bool) (payload : List Byte) :
    ∃ q b, p.emit type seq vc valid16 eom payload = (q, b) ∧ q.out = p.out ++ [b] := by
  obtain ⟨b, -, hemit⟩ := p.emit_eq type seq vc valid16 eom payload
  obtain ⟨bits, words, prbs, wire, hfeed⟩ := Port.feed_eq { p with out := p.out ++ [b], crVc := (p.crVc + 1) % 4 } b
  exact ⟨_, b, hemit, by rw [hfeed]⟩

theorem Port.resendOne_oneMore {p : Port} (h : p.resend ≠ []) : p.OneMore p.resendOne := by
  unfold Port.resendOne
  split
  · next hnil => exact absurd hnil h
  · next f rest _ =>
    obtain ⟨q, b, hemit, hout⟩ := p.emit_out (Flit.head f.bytes).type f.seq (Flit.head f.bytes).vc (Flit.head f.bytes).valid16
      (Flit.head f.bytes).eom (slice f.bytes 8 240)
    simp only [hemit]
    exact ⟨b, hout⟩

theorem Port.emitSeq_eq {p q : Port} {type vc valid16 : Nat} {eom : Bool} {payload : List Byte} {b : Flit}
    (h : p.emit type p.txSeq vc valid16 eom payload = (q, b)) (now : Nat) :
    p.emitSeq now type vc valid16 eom payload =
      { q with replayBuf := q.replayBuf ++ [{ seq := p.txSeq, bytes := b }], txSeq := (p.txSeq + 1) % 4096,
               lastProgress := if p.replayBuf.isEmpty then now else p.lastProgress } := by
  unfold Port.emitSeq
  rw [h]

/-- A DATA flit of a VC that has a message to send. -/
theorem Port.sendData_spec {p : Port} {v : Nat} {m : VcMsg} (now : Nat) (hm : (p.vcq.getD v []).head? = some m) :
    ∃ b, (p.sendData now v).1.sent = (p.out ++ [b], (p.txSeq + 1) % 4096, p.replayBuf ++ [{ seq := p.txSeq, bytes := b }]) ∧
      Flit.good b = true ∧ Flit.head b = { Flit.head b with type := flitData, vc := v % 4 } := by
  obtain ⟨rest, hrest⟩ := List.head?_eq_some_iff.mp hm
  unfold Port.sendData
  rw [hrest]
  dsimp -zeta only
  extract_lets part valid last q q2
  obtain ⟨r, b, hemit, hsent, hgood, htype, -, hvc⟩ := p.emit_spec (type := flitData) (by decide) p.txSeq v valid last part
  simp only [Port.sent, Prod.mk.injEq] at hsent
  obtain ⟨hout, -, hbuf⟩ := hsent
  have hq : q = _ := Port.emitSeq_eq hemit now
  clear_value q
  have hkept : q2.sent = q.sent := rfl
  have hq2 : q2.sent = (p.out ++ [b], (p.txSeq + 1) % 4096, p.replayBuf ++ [{ seq := p.txSeq, bytes := b }]) := by
    rw [hkept, hq, ← hout, ← hbuf]
    rfl
  clear_value q2
  refine ⟨b, ?_, hgood, by rw [← htype, ← hvc]⟩
  rw [← hq2]
  split <;> rfl

/-! ## A flit slot (R296) -/

theorem Port.waited_kept (p : Port) (ready : List Bool) (v : Option Nat) : (p.waited ready v).sent = p.sent := rfl

/-- The view of a port's flits does not change where only other parts of the port do. -/
theorem State.keeps_modPort {α : Type} {π : Port → α} {n : Fin 12} {s₀ s : State} (h : Keeps (fun s => π (s.port n)) s₀ s) (m : Fin 12)
    {f : Port → Port} (hf : ∀ p, π (f p) = π p) : Keeps (fun s => π (s.port n)) s₀ (s.modPort m f) :=
  (State.port_modPort_kept π hf s m n).trans h

theorem State.linkDown_out {n : Fin 12} {s₀ s : State} (h : Keeps (fun s => (s.port n).out) s₀ s) (m : Fin 12) :
    Keeps (fun s => (s.port n).out) s₀ (s.linkDown m) :=
  (Port.of_unqueued (State.port_of_unqueued (State.linkDown_unqueued (.refl s) m))).1.trans h

theorem State.originate_out {n : Fin 12} {s₀ s : State} (h : Keeps (fun s => (s.port n).out) s₀ s) :
    Keeps (fun s => (s.port n).out) s₀ s.originate :=
  (Port.of_unqueued (State.port_of_unqueued (State.originate_unqueued (.refl s)))).1.trans h

theorem Port.afterSilent_out (p : Port) (c : PortCfg) : (p.afterSilent c).out = p.out := by
  unfold Port.afterSilent
  dsimp only
  split
  · rfl
  · split <;> rfl

theorem State.enterRecovery_out {n : Fin 12} {s₀ s : State} (h : Keeps (fun s => (s.port n).out) s₀ s) (m : Fin 12) (k : RecoveryKind) :
    Keeps (fun s => (s.port n).out) s₀ (s.enterRecovery m k) := by
  refine State.keeps_modPort h m fun p => ?_
  dsimp only
  split <;> rfl

theorem State.reconfigure_out {n : Fin 12} {s₀ s : State} (h : Keeps (fun s => (s.port n).out) s₀ s) (m : Fin 12) (r w g : Nat) :
    Keeps (fun s => (s.port n).out) s₀ (s.reconfigure m r w g) := by
  refine State.enterRecovery_out ?_ m _
  unfold State.costChanged
  split
  · exact State.keeps_modPort h m fun _ => rfl
  · exact State.originate_out (State.keeps_modPort h m fun _ => rfl)

theorem Port.ready_of_pickVc {p : Port} {v : Nat} (h : p.pickVc = some v) : ∃ m, (p.vcq.getD v []).head? = some m := by
  have hready : p.vcReady v = true := by
    unfold Port.pickVc at h
    split at h
    · next hfind =>
      obtain rfl := Option.some.inj h
      have := List.find?_some hfind
      exact (Bool.and_eq_true_iff.mp this).1
    · exact List.find?_some h
  unfold Port.vcReady at hready
  cases hq : p.vcq.getD v [] with
  | nil =>
    rw [hq] at hready
    exact absurd hready (by simp)
  | cons m rest => exact ⟨m, rfl⟩

section
variable {s : State} {n : Fin 12} (hlen : s.truss.length = 12)
include hlen

theorem State.sendSilent_out : (s.port n).OneMore ((s.sendSilent n).port n) := by
  unfold State.sendSilent
  extract_lets s1 c
  obtain ⟨q, b, hemit, hout⟩ := (s.port n).emit_out flitSilent 0 0 1 false (bytesLE 16 (s.port n).silentReason)
  have h1 : (s.port n).OneMore (s1.port n) := by
    refine ⟨b, (congrArg Port.out (State.port_modPort_same s n _ hlen)).trans ?_⟩
    simp only [hemit]
    exact hout
  clear_value s1
  obtain ⟨b, hb⟩ := h1
  split
  · refine ⟨b, Eq.trans ?_ hb⟩
    exact (State.keeps_modPort (State.linkDown_out (.refl s1) n) n fun p => p.afterSilent_out c).eq
  · exact ⟨b, hb⟩

theorem State.sendLctl_out (h : (s.port n).lctl ≠ []) : (s.port n).OneMore ((s.sendLctl n).port n) := by
  unfold State.sendLctl
  split
  · next hnil => exact absurd hnil h
  · next m rest _ =>
    extract_lets s1
    obtain ⟨q, b, hemit, hout⟩ := (s.port n).emit_out flitLctl (s.port n).txSeq 0 1 false m
    have h1 : (s.port n).OneMore (s1.port n) := by
      refine ⟨b, (congrArg Port.out (State.port_modPort_same s n _ hlen)).trans ?_⟩
      simp only [Port.emitSeq_eq hemit]
      exact hout
    clear_value s1
    obtain ⟨b, hb⟩ := h1
    refine ⟨b, Eq.trans ?_ hb⟩
    split
    · exact (State.reconfigure_out (.refl s1) n _ _ _).eq
    split
    · refine (State.keeps_modPort (π := Port.out) (.refl s1) n fun p => ?_).eq
      split <;> rfl
    · rfl

/-- The waiting times and the counts of a slot that sent what `f` makes of the port. -/
theorem State.slot_sent (f : Port → Port) (e k : Nat) (ready : List Bool) (v : Option Nat) :
    (((s.modPort n f).countPort n e k).modPort n fun p => p.waited ready v).port n = (f (s.port n)).waited ready v := by
  rw [State.port_modPort_same ((s.modPort n f).countPort n e k) n _ ((State.truss_modPort_length s n f).trans hlen)]
  exact congrArg (Port.waited · ready v) (State.port_modPort_same s n f hlen)

/-- A slot with a DATA flit to send. -/
theorem State.flitSlot_data {v : Nat} (ue : Bool) (hr : (s.port n).resend = []) (hsil : (s.port n).silentLeft = 0)
    (hnak : (s.port n).nakDue = false) (hl : (s.port n).lctl = []) (hroom : (s.port n).replayBuf.length < 512)
    (hv : (s.port n).pickVc = some v) :
    ((s.flitSlot n ue).port n).sent = ((s.port n).sendData s.clk.devTime v).1.sent := by
  unfold State.flitSlot
  extract_lets p ready room wait
  rw [if_neg (by simp [p, hr]), if_neg (by simp [p, hsil]), if_neg (by simp [p, hnak]), if_neg (by simp [p, hl]),
    if_pos (show room = true from decide_eq_true hroom), show p.pickVc = some v from hv]
  dsimp -zeta only
  extract_lets s1 coded s2
  refine (State.port_modPort_kept Port.sent (fun q => q.waited_kept ready (some v)) _ n n).trans ?_
  exact congrArg Port.sent (State.port_modPort_same s n _ hlen)

/-- A slot with nothing to send sends IDLE. -/
theorem State.flitSlot_idle (ue : Bool) (hr : (s.port n).resend = []) (hsil : (s.port n).silentLeft = 0)
    (hnak : (s.port n).nakDue = false) (hl : (s.port n).lctl = []) (hv : (s.port n).pickVc = none) :
    ((s.flitSlot n ue).port n).sent = ((s.port n).emit flitIdle (s.port n).txSeq 0 0 false []).1.sent := by
  unfold State.flitSlot
  extract_lets p ready room wait
  have hpick : (if room = true then p.pickVc else none) = none := by
    rw [show p.pickVc = none from hv, ite_self]
  rw [if_neg (by simp [p, hr]), if_neg (by simp [p, hsil]), if_neg (by simp [p, hnak]), if_neg (by simp [p, hl]), hpick]
  exact (congrArg Port.sent (State.slot_sent hlen _ 26 1 ready none)).trans (Port.waited_kept _ ready none)

/-- Every flit slot that meets no uncorrectable error in its replay buffer sends one flit. -/
theorem State.flitSlot_oneMore {ue : Bool} (hue : ue = false ∨ (s.port n).resend = []) :
    (s.port n).OneMore ((s.flitSlot n ue).port n) := by
  have hsent {f : Port → Port} (hf : (s.port n).OneMore (f (s.port n))) (e k : Nat) (ready : List Bool) (v : Option Nat) :
      (s.port n).OneMore ((((s.modPort n f).countPort n e k).modPort n fun p => p.waited ready v).port n) := by
    rw [State.slot_sent hlen]
    exact hf
  unfold State.flitSlot
  extract_lets p ready room wait
  have hwait (t : State) (v : Option Nat) : ((wait t v).port n).out = (t.port n).out :=
    State.port_modPort_kept Port.out (f := fun q => q.waited ready v) (fun _ => rfl) t n n
  split
  · next hresend =>
    have hne : (s.port n).resend ≠ [] := by simpa [p] using hresend
    rw [if_neg (by simpa [hne] using hue)]
    exact hsent (Port.resendOne_oneMore hne) ..
  split
  · exact State.sendSilent_out hlen
  split
  · refine hsent ?_ ..
    obtain ⟨q, b, hemit, hout⟩ := (s.port n).emit_out flitNak 0 0 0 false []
    simp only [hemit]
    exact ⟨b, hout⟩
  split
  · next hlctl =>
    obtain ⟨b, hb⟩ := State.sendLctl_out (n := n) hlen (by intro h; simp [p, h] at hlctl)
    exact ⟨b, (hwait _ none).trans hb⟩
  split
  · next v hv =>
    obtain ⟨m, hm⟩ := Port.ready_of_pickVc (p := p) (by split at hv; exact hv; nomatch hv)
    obtain ⟨b, hb, -⟩ := Port.sendData_spec s.clk.devTime hm
    refine ⟨b, ?_⟩
    dsimp -zeta only
    extract_lets s1 coded s2
    refine (hwait _ (some v)).trans ?_
    exact (congrArg Port.out (State.port_modPort_same s n _ hlen)).trans (congrArg Prod.fst hb)
  · refine hsent ?_ ..
    obtain ⟨q, b, hemit, hout⟩ := (s.port n).emit_out flitIdle (s.port n).txSeq 0 0 false []
    rw [hemit]
    exact ⟨b, hout⟩
end

/-! ## Training frames on some lanes (R301) -/

/-- Training frames change what a port has sent of frames, and its scramblers. -/
theorem State.sendFrames_kept {α : Type} (π : Port → α) (hπ : ∀ p fs x, π { p with frames := fs, txPrbs := x } = π p) (n q : Fin 12)
    (lanes : List Nat) (s : State) : π ((s.sendFrames n lanes).port q) = π (s.port q) := by
  induction lanes generalizing s with
  | nil => rfl
  | cons l lanes ih => exact (ih (s.sendFrame n l)).trans (State.port_modPort_kept π (fun p => hπ p _ _) _ n q)

theorem State.sendFrames_rest (n : Fin 12) (lanes : List Nat) (s : State) :
    ((s.sendFrames n lanes).mem, (s.sendFrames n lanes).err) = (s.mem, s.err) := by
  induction lanes generalizing s with
  | nil => rfl
  | cons l lanes ih => exact ih (s.sendFrame n l)

/-! ## A reset of the port (R317) -/

/-- Port `n` has been reset: it sends SILENT with reason 4 four times, and the record tells of it. -/
def PortReset (s : State) (n : Fin 12) (t : State) : Prop :=
  ((t.port n).state = .drain ∧ (t.port n).silentReason = 4 ∧ (t.port n).silentLeft = 4) ∧ t.mem = s.mem ∧
    ∃ e ∈ t.err.ring, e.cls = 2 ∧ e.source = 0x10 ∧ e.inst = n.val ∧ e.code = 0x0C04

theorem State.portReset_spec {s : State} (hlen : s.truss.length = 12) (n : Fin 12) : PortReset s n (s.portReset n true) := by
  unfold State.portReset
  extract_lets s1 s2 s3
  have hlen1 : s1.truss.length = 12 := (State.truss_modPort_length ..).trans hlen
  have hmem1 : s1.mem = s.mem := rfl
  clear_value s1
  have h2 : Keeps (State.unqueued n) s1 s2 := State.linkDown_unqueued (.refl s1) n
  have hmem2 : s2.mem = s1.mem := (State.linkDown_keeps (π := fun s => s.mem) (.refl s1) ..).eq
  clear_value s2
  have h3 : Keeps (State.unqueued n) s1 s3 := State.error_keeps h2 ..
  have hmem3 : s3.mem = s2.mem := (State.error_keeps (π := fun s => s.mem) (.refl s2) ..).eq
  have hrec : ∃ e ∈ s3.err.ring, e.cls = 2 ∧ e.source = 0x10 ∧ e.inst = n.val ∧ e.code = 0x0C04 :=
    State.error_recorded (s := s2) (e := { cls := 2, source := 0x10, inst := n.val, code := 0x0C04 }) (show 2 ≠ 0 by decide)
  clear_value s3
  have hlen3 : s3.truss.length = 12 := (congrArg Prod.fst h3.eq).trans hlen1
  refine ⟨?_, hmem3.trans (hmem2.trans hmem1), hrec⟩
  rw [State.port_modPort_same s3 n _ hlen3]
  exact ⟨rfl, rfl, rfl⟩

theorem PortReset.sendFrames {s t : State} {n : Fin 12} (h : PortReset s n t) (lanes : List Nat) : PortReset s n (t.sendFrames n lanes) := by
  obtain ⟨hport, hmem, hrec⟩ := h
  have hkept := State.sendFrames_kept (fun p => (p.state, p.silentReason, p.silentLeft)) (fun _ _ _ => rfl) n n lanes t
  have hrest := t.sendFrames_rest n lanes
  simp only [Prod.mk.injEq] at hkept hrest
  obtain ⟨hst, hreason, hleft⟩ := hkept
  rw [PortReset, hst, hreason, hleft, hrest.1, hrest.2]
  exact ⟨hport, hmem, hrec⟩

/-- A flit slot of an ACTIVE port: the flit slot, and frames on the lanes that carry no flit. -/
theorem doFlitSlot_active {s : State} {n : Fin 12} (hrun : s.linkRuns = true) (hact : (s.port n).state = .active) (ue : Bool) :
    ∃ lanes, doFlitSlot { port := n, replayUe := ue } s = (s.flitSlot n ue).sendFrames n lanes := by
  unfold doFlitSlot
  dsimp only
  rw [if_neg (by simp [hrun]), if_pos (by simp [hact])]
  split
  · exact ⟨_, rfl⟩
  · exact ⟨[], rfl⟩

/-- A replay that is not the eighth without an acknowledgement. -/
theorem State.replay_spec {s : State} {n : Fin 12} (hlen : s.truss.length = 12) (hfew : (s.port n).replaysNoAck < 7) :
    ((s.replay n).port n).resend = (s.port n).replayBuf ∧ ((s.replay n).port n).replays = sat64 ((s.port n).replays + 1) ∧
      ∀ q, q ≠ n → (s.replay n).port q = s.port q := by
  have hport (q : Fin 12) : ((s.modPort n fun p =>
      { p with resend := p.replayBuf, replays := sat64 (p.replays + 1), replaysNoAck := p.replaysNoAck + 1 }).countPort n 12 1).port q =
      (s.modPort n fun p => { p with resend := p.replayBuf, replays := sat64 (p.replays + 1), replaysNoAck := p.replaysNoAck + 1 }).port q := rfl
  unfold State.replay
  dsimp only
  rw [if_neg]
  · refine ⟨?_, ?_, fun q hq => (hport q).trans (State.port_modPort_other s n q _ (Ne.symm hq))⟩
    · rw [hport, State.port_modPort_same s n _ hlen]
    · rw [hport, State.port_modPort_same s n _ hlen]
  · rw [hport, State.port_modPort_same s n _ hlen, decide_eq_false (show ¬ 8 ≤ (s.port n).replaysNoAck + 1 by omega), Bool.false_and]
    exact Bool.false_ne_true

theorem State.linkRuns_advance (s : State) (at_ : Nat) : (s.advance at_).linkRuns = s.linkRuns := by
  obtain ⟨d, f, hadv⟩ := State.advance_eq s at_
  rw [hadv]
  rfl

/-! ## The statement -/

/-- Settles O51, event by event. -/
theorem portSends : Obligations.PortSends := by
  unfold Obligations.PortSends
  intro s n hs hrun p resets
  have hlen : s.truss.length = 12 := hs.2.1
  have hreset {t : State} (h : PortReset s n t) : resets t := by
    obtain ⟨⟨hst, hreason, hleft⟩, hmem, hrec⟩ := h
    exact ⟨hst, hreason, hleft, hmem, hrec⟩
  refine ⟨fun hact ue => ⟨fun hue => ?_, fun hue hne => ?_⟩, fun hdis => ?_, fun at_ hact hbuf hdue hfew => ?_, fun hrec => ?_, fun hact => ?_,
    fun hdrain hleft => ?_⟩
  · obtain ⟨lanes, heq⟩ := doFlitSlot_active hrun hact ue
    have hkept : ((doFlitSlot { port := n, replayUe := ue } s).port n).sent = ((s.flitSlot n ue).port n).sent := by
      rw [heq]
      exact State.sendFrames_kept Port.sent (fun _ _ _ => rfl) n n lanes _
    refine ⟨_, rfl, ?_, fun hr hsil hnak hl hv => ?_, fun v m hr hsil hnak hl hroom hv hm hv4 => ?_⟩
    · rw [show ((doFlitSlot { port := n, replayUe := ue } s).port n).out = _ from congrArg Prod.fst hkept]
      exact (State.flitSlot_oneMore hlen hue).length
    · obtain ⟨q, b, hemit, hsent, hgood, htype, hseq, -⟩ := p.emit_spec (type := flitIdle) (by decide) p.txSeq 0 0 false []
      have hport := hkept.trans (State.flitSlot_idle hlen ue hr hsil hnak hl hv)
      rw [hemit, hsent] at hport
      simp only [Port.sent, Prod.mk.injEq] at hport
      obtain ⟨hout, hnext, -⟩ := hport
      exact ⟨b, hout, hgood, htype, hseq, hnext⟩
    · obtain ⟨b, hsent, hgood, hhead⟩ := Port.sendData_spec s.clk.devTime hm
      have hport := (hkept.trans (State.flitSlot_data hlen ue hr hsil hnak hl hroom hv)).trans hsent
      simp only [Port.sent, Prod.mk.injEq] at hport
      obtain ⟨hout, hnext, hbuf⟩ := hport
      exact ⟨b, hout, hgood, congrArg FlitHead.type hhead, (congrArg FlitHead.vc hhead).trans (Nat.mod_eq_of_lt hv4), hnext, hbuf⟩
  · obtain ⟨lanes, heq⟩ := doFlitSlot_active hrun hact ue
    refine ⟨_, congrArg Host.Outcome.next heq, hreset (PortReset.sendFrames ?_ lanes)⟩
    have hslot : s.flitSlot n ue = s.portReset n true := by
      unfold State.flitSlot
      dsimp only
      rw [if_pos (by simpa [List.isEmpty_iff] using hne), if_pos hue]
    rw [hslot]
    exact State.portReset_spec hlen n
  · have heq : doNakRepeat n s = s.modPort n fun p => { p with nakDue := true } := if_pos (by rw [hrun, hdis]; rfl)
    exact ⟨_, congrArg Host.Outcome.next heq, Frame.port_modPort (Frame.port_refl s n) _, State.port_modPort_same s n _ hlen⟩
  · have hports (q : Fin 12) : (s.advance at_).port q = s.port q := by
      obtain ⟨d, f, hadv⟩ := State.advance_eq s at_
      rw [hadv]
      rfl
    have hlen' : (s.advance at_).truss.length = 12 := by
      obtain ⟨d, f, hadv⟩ := State.advance_eq s at_
      rw [hadv]
      exact hlen
    have heq : doReplayTimeout n at_ s =
        ((s.advance at_).modPort n fun p => { p with lastProgress := (s.advance at_).clk.devTime }).replay n := by
      unfold doReplayTimeout
      dsimp only
      rw [hports n, State.linkRuns_advance, hrun, show (s.port n).state = _ from hact]
      refine if_pos ?_
      rw [List.isEmpty_eq_false_iff.mpr hbuf, decide_eq_true (show (s.port n).lastProgress + 1000 ≤ _ from hdue)]
      rfl
    generalize s.advance at_ = u at heq hports hlen' hdue
    obtain ⟨hresend, hreplays, hother⟩ := State.replay_spec (s := u.modPort n fun p => { p with lastProgress := u.clk.devTime }) (n := n)
      ((State.truss_modPort_length ..).trans hlen') (by rw [State.port_modPort_same u n _ hlen', hports n]; exact hfew)
    rw [State.port_modPort_same u n _ hlen'] at hresend hreplays
    refine ⟨_, congrArg Host.Outcome.next heq, hresend.trans (by rw [hports n]), hreplays.trans (by rw [hports n]), fun q hq => ?_⟩
    rw [hother q hq, State.port_modPort_other u n q _ (Ne.symm hq), hports q]
  · have heq : doRecoveryTimeout n s = s.portReset n true := if_pos (by rw [hrun, hrec]; rfl)
    exact ⟨_, congrArg Host.Outcome.next heq, hreset (State.portReset_spec hlen n)⟩
  · have heq : doCodewordLockLoss n s = s.portReset n true := if_pos (by rw [hrun, Port.up, hact]; rfl)
    exact ⟨_, congrArg Host.Outcome.next heq, hreset (State.portReset_spec hlen n)⟩
  · have heq : doDrainEnd n s = (s.linkDown n).modPort n fun p => { p with replayBuf := [], resend := [], silentLeft := 4 } := by
      unfold doDrainEnd
      dsimp only
      rw [if_neg (by simp [hrun]), if_pos]
      rw [show (s.port n).state = .drain from hdrain, show (s.port n).silentLeft = 0 from hleft]
      rfl
    have hdown := State.linkDown_unqueued (n := n) (.refl s) n
    have hmem : (s.linkDown n).mem = s.mem := (State.linkDown_keeps (π := fun s => s.mem) (.refl s) ..).eq
    refine ⟨_, congrArg Host.Outcome.next heq, ?_⟩
    rw [State.port_modPort_same _ n _ ((congrArg Prod.fst hdown.eq).trans hlen)]
    exact ⟨(Port.of_unqueued (State.port_of_unqueued hdown)).2.trans hdrain, rfl, rfl, hmem⟩
end Sys2Proof.Machine
end
